-- ==== Sys2Proof/Word.lean ====
section
/-!
DEFINITION. Word.lean: the words of the machine and the sorted maps that its tables are kept in.
A word is 32 bits and a byte 8 (Table 0.4). A table of like things that a number indexes (leas, clusters, ports,
queues, ops, sectors) is a list of (index, entry) pairs in rising order of index.
-/

namespace Sys2Proof

/-- A word (Table 0.4: 32 bits). -/
abbrev Word := BitVec 32

/-- A byte (Table 0.4: 8 bits). -/
abbrev Byte := BitVec 8

/-- A table indexed by numbers, in rising order of index. -/
abbrev Map (α : Type) := List (Nat × α)

namespace Map

/-- The entry at index `k`, if the table holds one. -/
def find {α : Type} : Map α → Nat → Option α
  | [], _ => none
  | (j, v) :: rest, k => if j = k then some v else find rest k

/-- The entry at index `k`, or the given default. -/
def getD {α : Type} (m : Map α) (k : Nat) (d : α) : α := (m.find k).getD d

/-- The table with the entry `v` at index `k`. -/
def insert {α : Type} : Map α → Nat → α → Map α
  | [], k, v => [(k, v)]
  | (j, w) :: rest, k, v =>
    if k < j then (k, v) :: (j, w) :: rest
    else if k = j then (k, v) :: rest
    else (j, w) :: insert rest k v

/-- The table without the entry at index `k`. -/
def erase {α : Type} : Map α → Nat → Map α
  | [], _ => []
  | (j, w) :: rest, k => if j = k then rest else (j, w) :: erase rest k

/-- The table with `f` applied to the entry at index `k`, which stands at `d` where the table holds none. -/
def modify {α : Type} (m : Map α) (k : Nat) (d : α) (f : α → α) : Map α := m.insert k (f (m.getD k d))

/-- The table with `f` applied to every entry it holds. -/
def mapVals {α : Type} (m : Map α) (f : Nat → α → α) : Map α := m.map fun e => (e.1, f e.1 e.2)

/-- Whether the table holds an entry at index `k`. -/
def has {α : Type} (m : Map α) (k : Nat) : Bool := (m.find k).isSome

/-- The entries of the table for which `p` holds. -/
def sel {α : Type} (m : Map α) (p : Nat → α → Bool) : Map α := m.filter fun e => p e.1 e.2

/-- The least index from `i` on, among `n`, at which the table holds no entry. -/
def freeFrom {α : Type} (m : Map α) (i : Nat) : Nat → Option Nat
  | 0 => none
  | n + 1 => if m.has i then freeFrom m (i + 1) n else some i

end Map

end Sys2Proof
end

