-- ==== Sys2Proof/Frames.lean ====
section
/-!
DEFINITION. Frames.lean: what reaches the part from outside with a command: the fields of a cluster instruction word,
a received fabric frame, a received Hedgerow frame, and what a cold start and a die's self-test find.
-/

namespace Sys2Proof

/-- The operand fields of a cluster instruction word (05: [23:19] destination, [18:14], [13:9] and [8:4] sources,
[3:2] predicate; a second word is the immediate). -/
structure IFields where
  dst : BitVec 5
  s1 : BitVec 5
  s2 : BitVec 5
  s3 : BitVec 5
  pred : BitVec 2
  imm : Option Word
  deriving DecidableEq, Repr

/-- An IPv4 or IPv6 address, in transmission order (R493). -/
inductive IpAddr
  | v4 (bytes : List Byte)
  | v6 (bytes : List Byte)
  deriving DecidableEq, Repr

/-- A frame received on a fabric port: what the checks of Table 10.7 look at, and the UDP payload. -/
structure RxFrame where
  port : Nat
  fcsOk : Bool
  dstMac : List Byte
  vlan : Option Nat
  macsecOk : Bool -- it passed MACsec validation (R265)
  udp : Bool -- it carries a UDP packet; a frame of any other kind that R259 does not name, if false
  ipPlain : Bool -- no fragment, no IPv4 options, no IPv6 extension header (R260)
  src : IpAddr
  dst : IpAddr
  ce : Bool -- the ECN field is CE
  udpSumOk : Bool -- the UDP checksum follows R260
  udpPort : Nat -- the destination port
  payload : List Byte -- Hykan header, encrypted content and tag (10)
  deriving DecidableEq, Repr

/-- A frame received on the Hedgerow segment: destination address through FCS (15). -/
structure HdrRx where
  bytes : List Byte
  symbolErr : Bool
  odd : Bool
  deriving DecidableEq, Repr

/-- What a die's census and self-test find (R235, R246). -/
structure Census where
  failed : List (Nat × Nat) -- failed lanes: (2 × bundle + direction, 34 × group + lane)
  selfTest : Bool -- the self-test passes
  rate : BitVec 16 -- the event rate it measures (WX_EVENT_RATE)
  deriving DecidableEq, Repr

/-- Which write of the store a power loss or an assertion of SYS_RESET_N cuts short (Table 16.10, R480). -/
inductive StoreCut
  | nothing
  | bank              -- FW_WRITE, staging or FW_VERIFY
  | record            -- a record write
  | header            -- the header rewrite of FW_COMMIT or FW_COMMIT_COLD
  deriving DecidableEq, Repr

/-- What a cold start meets (Table 16.2, Table 16.3). -/
structure ColdStart where
  cut : StoreCut -- the store write that the assertion of SYS_RESET_N cut short
  refclk : Bool -- the reference clock qualifies at step 2
  entropy : Bool -- the entropy health tests pass
  seed : BitVec 64 -- what the entropy source gives the Hedgerow back-off generator (R415)
  xspi : Bool -- the xSPI domain comes up
  alive : Bool -- the image started at step 6 reports alive
  dies : List Census -- the census and self-test of dies 0 to 3
  stacksOk : BitVec 8 -- the stacks that pass training (step 10)
  tj : Int -- the first thermal sample, in 1/16 °C
  deriving DecidableEq, Repr

end Sys2Proof
end

