-- ==== Sys2Proof/Syntax.lean ====
section
/-!
DEFINITION. Syntax.lean: the commands of the block, one constructor for each row of the table of operations and events.
A mailbox-command row is the host issuing that command in the mailbox of lea `lea` with the tag and the argument
words given (R37, R493). A row of a cluster instruction acts on cluster `cl`; a row of an op acts on the op whose
admission number is `n`. An event row carries what reaches the part from outside with the event.
-/

namespace Sys2Proof

/-- The commands (spec/opcode_table.json). -/
inductive Instr
  /-- COLD_START (R439). -/
  | coldStart (c : ColdStart)
  /-- PERST (R437): PERST# resets only the PCIe endpoint domains; jobs keep running. -/
  | perst
  /-- PCIE_LINK_DOWN (R32). -/
  | pcieLinkDown
  /-- PCIE_LINK_UP (R48). -/
  | pcieLinkUp (width gen : Nat)
  /-- MISALIGNED_REG_ACCESS (R6). -/
  | misalignedRegAccess (lea offset : Nat) (write : Bool)
  /-- REGISTER_WRITE (R9). -/
  | registerWrite (lea offset : Nat) (value : Word)
  /-- RC_READ (R9): A read of an RC field returns its value and clears it, with a coinciding hardware set winning. -/
  | rcRead (lea offset : Nat)
  /-- LOW_WORD_READ (R7). -/
  | lowWordRead (lea offset : Nat)
  /-- MBX_DOORBELL (R37): A write of 1 to CIH_MBX_DOORBELL.RING latches the request, sets BUSY and clears DONE. -/
  | mbxDoorbell (lea : Nat)
  /-- MAILBOX_SERVE (R36). -/
  | mailboxServe
  /-- QUEUE_DOORBELL (R44): A write to LEA_QDB sets the queue tail or is ignored and counted as a bad doorbell. -/
  | queueDoorbell (lea q : Nat) (tail : Word)
  /-- CRING_HEAD_DOORBELL (R496). -/
  | cringHeadDoorbell (lea r : Nat) (head : Word)
  /-- CLUSTER_PRIV_WRITE (R140): A write to WX_CLUSTER_PRIV changes which clusters are privileged from their next row boundary. -/
  | clusterPrivWrite (die : Nat) (high : Bool) (value : Word)
  /-- MGT_RING_WRITE (R428). -/
  | mgtRingWrite (value : Word)
  /-- NUMVFS_WRITE (R389): A write that changes NumVFs while VF Enable is set is ignored. -/
  | numvfsWrite (n : Nat)
  /-- ABSENT_VF_ACCESS (R389). -/
  | absentVfAccess (lea offset : Nat) (write : Bool)
  /-- VF_ENABLE_SET (R389): Setting VF Enable brings leas 1 to NumVFs from ABSENT to DISABLED. -/
  | vfEnableSet
  /-- VF_ENABLE_CLEAR (R389). -/
  | vfEnableClear
  /-- FLR_LEA (R407). -/
  | flrLea (lea : Nat)
  /-- FLR_PF (R38): A Function Level Reset of the physical function resets lea 0 and clears VF Enable. -/
  | flrPf
  /-- LEA_RESET_OPS_STOPPED (R407). -/
  | leaResetOpsStopped (lea : Nat)
  /-- PING (R40): Returns the firmware version and the Cihal domain counter. -/
  | ping (lea : Nat) (tag : Word) (args : List Word)
  /-- GET_INFO (R40): Returns ordering revision, lea number and queue and counter quotas. -/
  | getInfo (lea : Nat) (tag : Word) (args : List Word)
  /-- GET_STATUS (R406): Returns device and lea state and removes up to seven oldest fault-event records. -/
  | getStatus (lea : Nat) (tag : Word) (args : List Word)
  /-- LEA_ENABLE (R40): Takes a DISABLED lea to ENABLED. -/
  | leaEnable (lea : Nat) (tag : Word) (args : List Word)
  /-- LEA_DISABLE (R40): Resets a lea and takes it to DISABLED. -/
  | leaDisable (lea : Nat) (tag : Word) (args : List Word)
  /-- LEA_RESET (R407): Runs the lea reset sequence and returns the lea to ENABLED. -/
  | leaReset (lea : Nat) (tag : Word) (args : List Word)
  /-- CRING_CREATE (R40): Opens a completion ring with its indices at zero. -/
  | cringCreate (lea : Nat) (tag : Word) (args : List Word)
  /-- CRING_DESTROY (R40): Closes a completion ring that no queue names. -/
  | cringDestroy (lea : Nat) (tag : Word) (args : List Word)
  /-- QUEUE_CREATE (R40). -/
  | queueCreate (lea : Nat) (tag : Word) (args : List Word)
  /-- QUEUE_STOP (R40): Stops fetching from a queue, discarding a slot whose fetch has begun but which is not admitted. -/
  | queueStop (lea : Nat) (tag : Word) (args : List Word)
  /-- QUEUE_START (R40): Resumes fetching from a stopped queue at its head. -/
  | queueStart (lea : Nat) (tag : Word) (args : List Word)
  /-- QUEUE_DESTROY (R40): Closes a stopped queue with no op in flight. -/
  | queueDestroy (lea : Nat) (tag : Word) (args : List Word)
  /-- COUNTER_SET (R40): Writes an event counter value and clears its FAILED bit. -/
  | counterSet (lea : Nat) (tag : Word) (args : List Word)
  /-- EDGE_RETRY (R490). -/
  | edgeRetry (lea : Nat) (tag : Word) (args : List Word)
  /-- DEVICE_HALT (R40): Cancels all ops and puts the device in HALTED. -/
  | deviceHalt (lea : Nat) (tag : Word) (args : List Word)
  /-- SLOT_FETCH (R53). -/
  | slotFetch (lea q : Nat) (slot : List Byte)
  /-- OP_START (R50). -/
  | opStart (n : Nat)
  /-- OP_COMPLETION (R49). -/
  | opCompletion (n : Nat)
  /-- COMPLETION_RING_ROOM (R47): A held completion entry is written once its completion ring is no longer full. -/
  | completionRingRoom (n : Nat)
  /-- SCALE_FOLD (R148). -/
  | scaleFold (job inst : Nat)
  /-- NEXT_MATRIX_OP_PICK (R343): At each op boundary the hub picks the next matrix op by tier, shares and fallow limit. -/
  | nextMatrixOpPick
  /-- MATRIX_OP (R86): A matrix op runs its tile walk on the logical array and writes its encoded output. -/
  | matrixOp
  /-- ARRAY_PASS_START (R92): The hub starts the next pass of the tile walk, a recompute pass or a deferred-tile pass. -/
  | arrayPassStart
  /-- ARRAY_PASS_END (R102): At the drain of a pass the output stage checks each tile for overflow and writes final tiles. -/
  | arrayPassEnd
  /-- ELEMENTWISE_OP (R119): An element-wise op with a user program runs its rows on vector clusters. -/
  | elementwiseOp (cl : Nat)
  /-- ROW_DISPATCH (R115): A free cluster takes a row of a ready element-wise op under privilege and shares. -/
  | rowDispatch (cl : Nat)
  /-- ROW_END (R190): A row ends and adds its norm contributions and block-underflow counts. -/
  | rowEnd (cl : Nat)
  /-- SOFTMAX_FWD (R131): Library softmax forward computes each row with edge rules, row state and optional stash. -/
  | softmaxFwd (cl : Nat)
  /-- SOFTMAX_BWD (R133): Library softmax backward reads y from its stash and writes dx. -/
  | softmaxBwd (cl : Nat)
  /-- ACT_FWD (R134): Library activation forward computes an activation and optionally stashes. -/
  | actFwd (cl : Nat)
  /-- ACT_BWD (R134): Library activation backward computes dx from dy and the stashed value. -/
  | actBwd (cl : Nat)
  /-- STASH_WRITE (R135): Library function copies an input into a stash record of the given KIND. -/
  | stashWrite (cl : Nat)
  /-- CONVERT (R72): Library function converts IN into OUT under the encoding rules. -/
  | convert (cl : Nat)
  /-- NOP (R114): Instruction that does nothing. -/
  | nop (cl : Nat) (f : IFields)
  /-- HALT (R114): Instruction that ends the row. -/
  | halt (cl : Nat) (f : IFields)
  /-- SETVL (R128): Instruction that sets LEN to the minimum of a uniform and 64. -/
  | setvl (cl : Nat) (f : IFields)
  /-- SETVL_P (R128): Instruction that sets LEN for paired BF16 elements. -/
  | setvlP (cl : Nat) (f : IFields)
  /-- BNZ (R114): Instruction that branches when a uniform is non-zero. -/
  | bnz (cl : Nat) (f : IFields)
  /-- JMP (R114): Instruction that branches unconditionally. -/
  | jmp (cl : Nat) (f : IFields)
  /-- SUBLEN (R114): Instruction that subtracts LEN from a uniform. -/
  | sublen (cl : Nat) (f : IFields)
  /-- ADDLEN (R114): Instruction that advances an address by LEN times bytes per lane. -/
  | addlen (cl : Nat) (f : IFields)
  /-- MOV (R114): Instruction that moves a uniform value. -/
  | mov (cl : Nat) (f : IFields)
  /-- MOVI (R114): Instruction that moves an immediate into a uniform. -/
  | movi (cl : Nat) (f : IFields)
  /-- UADD (R114): Instruction that adds uniforms. -/
  | uadd (cl : Nat) (f : IFields)
  /-- USUB (R114): Instruction that subtracts uniforms. -/
  | usub (cl : Nat) (f : IFields)
  /-- ADDMX (R130): Instruction that advances an MX address pair past the blocks of the strip. -/
  | addmx (cl : Nat) (f : IFields)
  /-- FADD (R124): FP32 add per lane, rounded once. -/
  | fadd (cl : Nat) (f : IFields)
  /-- FSUB (R124): FP32 subtract per lane, rounded once. -/
  | fsub (cl : Nat) (f : IFields)
  /-- FMUL (R124): FP32 multiply per lane, rounded once. -/
  | fmul (cl : Nat) (f : IFields)
  /-- FMA (R124): FP32 fused multiply-add per lane, rounded once. -/
  | fma (cl : Nat) (f : IFields)
  /-- FMIN (R124): FP32 minimum with NaN and signed-zero rules. -/
  | fmin (cl : Nat) (f : IFields)
  /-- FMAX (R124): FP32 maximum with NaN and signed-zero rules. -/
  | fmax (cl : Nat) (f : IFields)
  /-- FABS (R124): Absolute value per lane. -/
  | fabs (cl : Nat) (f : IFields)
  /-- FNEG (R124): Negation per lane. -/
  | fneg (cl : Nat) (f : IFields)
  /-- FCMP (R124): FP32 compare into predicates. -/
  | fcmp (cl : Nat) (f : IFields)
  /-- FSEL (R124): Selects per lane by predicate. -/
  | fsel (cl : Nat) (f : IFields)
  /-- PADD (R126): Paired BF16 add. -/
  | padd (cl : Nat) (f : IFields)
  /-- PMUL (R126): Paired BF16 multiply. -/
  | pmul (cl : Nat) (f : IFields)
  /-- PFMA (R126): Paired BF16 fused multiply-add. -/
  | pfma (cl : Nat) (f : IFields)
  /-- EXP2 (R125): Correctly rounded base-2 exponential. -/
  | exp2 (cl : Nat) (f : IFields)
  /-- LOG2 (R125): Correctly rounded base-2 logarithm. -/
  | log2 (cl : Nat) (f : IFields)
  /-- RCP (R125): Correctly rounded reciprocal. -/
  | rcp (cl : Nat) (f : IFields)
  /-- RSQRT (R125): Correctly rounded reciprocal square root. -/
  | rsqrt (cl : Nat) (f : IFields)
  /-- TANH (R125): Correctly rounded hyperbolic tangent. -/
  | tanh (cl : Nat) (f : IFields)
  /-- ERF (R125): Correctly rounded error function. -/
  | erf (cl : Nat) (f : IFields)
  /-- SIGM (R125): Correctly rounded logistic function. -/
  | sigm (cl : Nat) (f : IFields)
  /-- FDIV (R125): FP32 division following IEEE 754. -/
  | fdiv (cl : Nat) (f : IFields)
  /-- IADD (R123): 32-bit integer add per lane. -/
  | iadd (cl : Nat) (f : IFields)
  /-- ISUB (R123): 32-bit integer subtract per lane. -/
  | isub (cl : Nat) (f : IFields)
  /-- IMUL (R123): 32-bit integer multiply per lane. -/
  | imul (cl : Nat) (f : IFields)
  /-- AND (R123): Bitwise AND per lane. -/
  | and (cl : Nat) (f : IFields)
  /-- OR (R123): Bitwise OR per lane. -/
  | or (cl : Nat) (f : IFields)
  /-- XOR (R123): Bitwise XOR per lane. -/
  | xor (cl : Nat) (f : IFields)
  /-- SHL (R123): Shift left per lane. -/
  | shl (cl : Nat) (f : IFields)
  /-- SHR (R123): Shift right per lane. -/
  | shr (cl : Nat) (f : IFields)
  /-- ICMP (R123): Integer compare per lane. -/
  | icmp (cl : Nat) (f : IFields)
  /-- REDSUM (R127): Sums active lanes in a fixed tree. -/
  | redsum (cl : Nat) (f : IFields)
  /-- REDMAX (R127): Exact maximum across active lanes. -/
  | redmax (cl : Nat) (f : IFields)
  /-- REDMIN (R127): Exact minimum across active lanes. -/
  | redmin (cl : Nat) (f : IFields)
  /-- BCAST (R114): Broadcasts one lane's value to every lane. -/
  | bcast (cl : Nat) (f : IFields)
  /-- PERM (R114): Permutes lanes by an index register. -/
  | perm (cl : Nat) (f : IFields)
  /-- LD_F (R66): Loads a non-block element per lane and widens it to FP32. -/
  | ldF (cl : Nat) (f : IFields)
  /-- ST_F (R67): Encodes FP32 into a non-block format and stores it. -/
  | stF (cl : Nat) (f : IFields)
  /-- LDMX (R65): Loads MX blocks and decodes them to FP32. -/
  | ldmx (cl : Nat) (f : IFields)
  /-- STMX (R72): Encodes 64 lanes into two MX blocks, choosing each scale. -/
  | stmx (cl : Nat) (f : IFields)
  /-- STMX_S (R77): Encodes 64 lanes into MX blocks under a supplied scale. -/
  | stmxS (cl : Nat) (f : IFields)
  /-- LDM (R123): Loads mask bits into a predicate. -/
  | ldm (cl : Nat) (f : IFields)
  /-- LDS (R118): Loads from the cluster store. -/
  | lds (cl : Nat) (f : IFields)
  /-- STS (R118): Stores to the cluster store. -/
  | sts (cl : Nat) (f : IFields)
  /-- AMO (R221): Performs an atomic operation on a shared-cache sector. -/
  | amo (cl : Nat) (f : IFields)
  /-- CVT (R79): Converts between FP32, BF16, FP16 and paired BF16 in registers. -/
  | cvt (cl : Nat) (f : IFields)
  /-- SGD (R170): Weight update in SGD mode with stochastic BF16 writes. -/
  | sgd (n : Nat)
  /-- ADAMW (R170): Weight update in ADAMW mode with stochastic BF16 writes. -/
  | adamw (n : Nat)
  /-- LION (R170): Weight update in LION mode with stochastic BF16 writes. -/
  | lion (n : Nat)
  /-- ACCUMULATE (R165): Adds a gradient into a compensated pair tensor. -/
  | accumulate (n : Nat)
  /-- PHASE (R175): Sync op that waits for the job's in-flight ops and then sets the job's phase. -/
  | phase (n : Nat)
  /-- PHASE_COMPLETE (R175). -/
  | phaseComplete (n : Nat)
  /-- MARK (R181): Sync op that writes a stash directory entry. -/
  | mark (n : Nat)
  /-- NORM_READ (R193): Sync op that writes norm records and optionally clears entries atomically. -/
  | normRead (n : Nat)
  /-- CLIP (R194): Sync op that computes GSCALE from norms, writes it into update slots and moves a queue tail. -/
  | clip (n : Nat)
  /-- SHARD_STAMP (R329): Sync op that stamps gather directory entries with shard STEP and VERSION. -/
  | shardStamp (n : Nat)
  /-- SHARD_CHECK (R330): Sync op that compares stamped entries with current shard headers and flags a replay on change. -/
  | shardCheck (n : Nat)
  /-- PREFETCH (R333): Sync op that reads a region into the shared cache when channels are idle. -/
  | prefetch (n : Nat)
  /-- COPY_LOCAL (R282): Copy op that moves bytes within the device. -/
  | copyLocal (n : Nat)
  /-- COPY_PEER (R282): Copy op that sends bytes to a peer window as a DATA message. -/
  | copyPeer (n : Nat)
  /-- COPY_POST (R282): Copy op that posts an op slot into a peer queue. -/
  | copyPost (n : Nat)
  /-- WINDROW_OP (R289): A Windrow op contributes one bucket on one member, or accumulates locally on non-reducing steps. -/
  | windrowOp (n : Nat)
  /-- WINDROW_SEND (R297): A held reducing op is sent once its bucket order and slot-set conditions hold. -/
  | windrowSend (n : Nat)
  /-- CONTRIB (R298): A delivered CONTRIB message is checked for sequence and added to its chunk at the owner. -/
  | contrib
  /-- RESULT (R307): A delivered RESULT message is written into the member's result tensor with norm capture. -/
  | result
  /-- ESCALATE_REQ (R312): A delivered escalate request makes the contributor resend its chunk in FP32. -/
  | escalateReq
  /-- CHUNK_DEADLINE (R304): A chunk's deadline expires and it closes at quorum or goes SHORT. -/
  | chunkDeadline (group key : Nat)
  /-- RESULT_LIMIT_EXPIRY (R309): A member waiting RESULT_LIMIT counts for a RESULT resends its CONTRIB. -/
  | resultLimitExpiry (n : Nat)
  /-- DISPATCH (R337): Tedder op that encodes routed token rows and sends a TOKENS message to each expert home. -/
  | dispatch (n : Nat)
  /-- RETURN (R339): Tedder op that sends expert outputs back to each source. -/
  | returnRows (n : Nat)
  /-- COMBINE (R340): Tedder op that forms the gate-weighted sum of returned rows once all returns arrived. -/
  | combine (n : Nat)
  /-- TOKENS (R338). -/
  | tokens
  /-- RETURN_RECORDS (R339): A delivered return message adds to the source Tedder's return count of the bank. -/
  | returnRecords
  /-- SNAPSHOT (R365): Baler op that holds the job to capture a checkpoint. -/
  | snapshot (n : Nat)
  /-- SNAPSHOT_CAPTURE (R365). -/
  | snapshotCapture (n : Nat)
  /-- WEIGHTS_SWEEP (R370): Baler reads and sends uncaptured WEIGHTS units needed by an update op or a LOSS_RECORD. -/
  | weightsSweep (job : Nat)
  /-- LOSS_RECORD (R371): Baler op that records the loss, sweeps the remaining weights and seals the image. -/
  | lossRecord (n : Nat)
  /-- SEAL (R371): When every section is acknowledged, Baler sends the manifest with SEAL. -/
  | sealImage (job : Nat)
  /-- RESTORE (R374): Baler op that reads and verifies an image into a set and resets job state. -/
  | restore (n : Nat)
  /-- LOSS_CHECK (R375): Baler op that compares the replayed loss record with the image's. -/
  | lossCheck (n : Nat)
  /-- HISTORY_SYNC (R378): Baler op that sends the scale history region to the partner. -/
  | historySync (n : Nat)
  /-- DIGEST (R380): Baler op that hashes a region range and compares it with the peer's digest. -/
  | digest (n : Nat)
  /-- FILL (R382): Baler op that copies a set from the role holder into a local set. -/
  | fill (n : Nat)
  /-- DIGEST_LIMIT_EXPIRY (R380): A DIGEST op gets no peer digest within DIGEST_LIMIT counts and completes with ST_PEER_LOST. -/
  | digestLimitExpiry (n : Nat)
  /-- GET_DATA (R360): A store GET_DATA message is checked against leaves and written to its destination. -/
  | getData
  /-- SEALED (R371): A SEALED message completes LOSS_RECORD and returns the job to IDLE. -/
  | sealed
  /-- REFUSED (R372): A REFUSED store message abandons the open image or fails the GET. -/
  | refused
  /-- DIGEST_MSG (R380): A peer DIGEST message is matched against a running DIGEST op or kept early. -/
  | digestMsg
  /-- HISTORY (R378): A HISTORY message is written into the SCALE_COPY of the mirror set. -/
  | history
  /-- FILL_REQ (R383): A FILL_REQ message starts a serve that sends the set, or is answered with FILL_ABORT. -/
  | fillReq
  /-- FILL_DATA (R383): A FILL_DATA message writes units into the destination set. -/
  | fillData
  /-- FILL_DONE (R384): A FILL_DONE message applies Windrow state and completes FILL with ST_OK. -/
  | fillDone
  /-- FILL_ABORT (R382): A FILL_ABORT message completes FILL with its status. -/
  | fillAbort
  /-- MEM_UNIT_CONFIG (R199): Changes the ECC class and parity of a run of class units and zero-fills them. -/
  | memUnitConfig (lea : Nat) (tag : Word) (args : List Word)
  /-- MEM_REFILL_SET (R209): Creates a refill descriptor in CLEAN state. -/
  | memRefillSet (lea : Nat) (tag : Word) (args : List Word)
  /-- MEM_REFILL_CLEAR (R226): Removes a refill descriptor. -/
  | memRefillClear (lea : Nat) (tag : Word) (args : List Word)
  /-- MEM_PIN (R219): Pins an HBM range in the shared cache. -/
  | memPin (lea : Nat) (tag : Word) (args : List Word)
  /-- MEM_UNPIN (R219): Unpins a range, writing dirty sectors back. -/
  | memUnpin (lea : Nat) (tag : Word) (args : List Word)
  /-- MEM_SCRUB_SET (R205): Sets the patrol scrub rate. -/
  | memScrubSet (lea : Nat) (tag : Word) (args : List Word)
  /-- MEM_POISON_LIST (R226): Returns up to 30 poisoned sectors within the lea's grant. -/
  | memPoisonList (lea : Nat) (tag : Word) (args : List Word)
  /-- MEM_TG_START (R224): Starts a channel's traffic generator in LIVE or OFFLINE mode. -/
  | memTgStart (lea : Nat) (tag : Word) (args : List Word)
  /-- MEM_TG_STOP (R225): Ends a traffic generator run. -/
  | memTgStop (lea : Nat) (tag : Word) (args : List Word)
  /-- TG_RUN_END (R225): A generator run finishes its sectors and sets DONE and FAIL. -/
  | tgRunEnd (ch mismatches : Nat) (pins : BitVec 64)
  /-- HBM_UNCORRECTABLE_READ (R208): An uncorrectable corrected-class read poisons the sector and starts a refill. -/
  | hbmUncorrectableRead (sector : Nat)
  /-- REFILL_TABLE_FREE (R212): A reader waiting for a free refill table entry proceeds when one frees. -/
  | refillTableFree
  /-- REFILL_REQ_RESEND (R279): The hub resends an unanswered REFILL_REQ every RTO_COUNTS. -/
  | refillReqResend (sector : Nat)
  /-- REFILL_DEADLINE (R210): The partner reply deadline expires and the next refill source is tried or the refill fails. -/
  | refillDeadline (sector : Nat)
  /-- DETECTED_READ_ERROR (R207): A detection-only read finds an error and goes to stash recompute or fails the op. -/
  | detectedReadError (n sector : Nat)
  /-- RECOMPUTE_FINISH (R186): The resumed op completes and the recompute is counted and reported. -/
  | recomputeFinish (job : Nat)
  /-- CORRECTED_READ_ERROR (R203): A corrected-class read error is corrected and counted. -/
  | correctedReadError (sector : Nat)
  /-- CHANNEL_REPAIR (R206): An Edpin channel replaces a failing pin or row with a spare, holding that channel's accesses. -/
  | channelRepair (ch : Nat) (pin : Bool)
  /-- PATROL_SCRUB (R205). -/
  | patrolScrub (corrected uncorrectable : List Nat)
  /-- CACHE_ERROR (R217): An uncorrectable cache error is repaired from HBM or handled as an HBM error. -/
  | cacheError (sector : Nat) (correctable : Bool)
  /-- EDPIN_FAULT (R213): An unrepairable Edpin fault makes Cihal retire the stack as lost. -/
  | edpinFault (stack : Nat)
  /-- EDGE_CLOCK_LOSS (R19): A monitored edge domain loses its clock and its recovery sequence begins. -/
  | edgeClockLoss (dom : Nat)
  /-- EDGE_PLL_RELOCK (R19): The domain's PLL relocks; its configuration is restored and held requests delivered. -/
  | edgePllRelock (dom : Nat)
  /-- EDGE_RELOCK_TIMEOUT (R19): A relock attempt fails at its count limit; after three failures the domain is fenced. -/
  | edgeRelockTimeout (dom : Nat)
  /-- QUEUED_EDGE_RECOVERY (R21): A queued clock loss of another domain starts its recovery when the running window closes. -/
  | queuedEdgeRecovery
  /-- REFCLK_LOSS (R24). -/
  | refclkLoss
  /-- REFCLK_RETURN (R26): The reference clock returns and offline domains recover one at a time. -/
  | refclkReturn
  /-- REFCLK_ABSENT_TIMEOUT (R26): After 10,000,000 counts without the reference clock Cihal reports a device fault. -/
  | refclkAbsentTimeout
  /-- OSCILLATOR_FAILURE (R491). -/
  | oscillatorFailure (dom : Nat) (recovered : Bool)
  /-- STILE_INVALID_CODE (R232): A transfer with an invalid dual-rail code is refused and resent and counted against its lane. -/
  | stileInvalidCode (die dir lane : Nat)
  /-- STILE_CRC_MISMATCH (R232): A group's CRC-32 mismatches and the hub resets the Welxis. -/
  | stileCrcMismatch (die : Nat)
  /-- LANE_ERROR_INTERVAL (R238): At each 2^20-count interval lanes over ERR_LIMIT invalid codes become failing and repair starts. -/
  | laneErrorInterval
  /-- GROUP_STALL_TIMEOUT (R238): A group transfer outstanding for STALL_COUNTS makes its unsettled lanes failing. -/
  | groupStallTimeout (die dir : Nat) (lanes : List Nat)
  /-- BUNDLE_REPAIR_DONE (R239): A drained bundle is remapped, verified and reopened, possibly narrower or with its die fenced. -/
  | bundleRepairDone (die bundle : Nat) (verified : Bool)
  /-- WELXIS_INTERNAL_FAULT (R243): A die reports an internal fault and the hub resets it. -/
  | welxisInternalFault (die : Nat)
  /-- WELXIS_SELF_TEST_END (R246): Census and self-test finish; the die goes to REJOINING or is fenced. -/
  | welxisSelfTestEnd (die : Nat) (census : Census)
  /-- QUEUED_WELXIS_RESET (R247): A queued die's reset steps begin when the running window closes. -/
  | queuedWelxisReset
  /-- DIE_REJOIN (R245): A rejoining die returns to service at the next op boundary. -/
  | dieRejoin (die : Nat)
  /-- WX_RESET (R253): Starts the reset of a die. -/
  | wxReset (lea : Nat) (tag : Word) (args : List Word)
  /-- WX_FENCE (R250): Fences a die, rerunning its tiles and rows. -/
  | wxFence (lea : Nat) (tag : Word) (args : List Word)
  /-- WX_UNFENCE (R253): Restores a fenced die's supply and runs its reset and rejoin. -/
  | wxUnfence (lea : Nat) (tag : Word) (args : List Word)
  /-- STILE_CENSUS_READ (R253): Returns lane states and invalid-code counts for one bundle direction. -/
  | stileCensusRead (lea : Nat) (tag : Word) (args : List Word)
  /-- STILE_WIDTH_SET (R240): Narrows a bundle or restores its census width. -/
  | stileWidthSet (lea : Nat) (tag : Word) (args : List Word)
  /-- STILE_RETIRE_CLEAR (R236): Empties the retired-lane list for the next census. -/
  | stileRetireClear (lea : Nat) (tag : Word) (args : List Word)
  /-- FAB_PORT_CONFIG (R255): Configures a port's lanes, rate, frame size, VLAN, DSCP and MACsec. -/
  | fabPortConfig (lea : Nat) (tag : Word) (args : List Word)
  /-- FAB_PORT_ENABLE (R257): Takes a port to TRAINING. -/
  | fabPortEnable (lea : Nat) (tag : Word) (args : List Word)
  /-- FAB_PORT_DISABLE (R257): Turns a port's lasers off, disables it and moves its channels. -/
  | fabPortDisable (lea : Nat) (tag : Word) (args : List Word)
  /-- FAB_ADDR_SET (R259): Sets a port's MAC, IP addresses and UDP port. -/
  | fabAddrSet (lea : Nat) (tag : Word) (args : List Word)
  /-- FAB_MACSEC_KEY (R264): Installs a MACsec secure association key. -/
  | fabMacsecKey (lea : Nat) (tag : Word) (args : List Word)
  /-- HYK_KEY_LOAD (R267): Loads a job key and SENDER_ID into a slot and zeroes its TX_SEQ. -/
  | hykKeyLoad (lea : Nat) (tag : Word) (args : List Word)
  /-- HYK_KEY_SWITCH (R269): Chooses the sending key slot, releasing held sends. -/
  | hykKeySwitch (lea : Nat) (tag : Word) (args : List Word)
  /-- HYK_PEER_SET (R270): Writes a peer table entry as ACTIVE. -/
  | hykPeerSet (lea : Nat) (tag : Word) (args : List Word)
  /-- HYK_PEER_RESET (R270): Returns a peer entry to ACTIVE and restarts its channels. -/
  | hykPeerReset (lea : Nat) (tag : Word) (args : List Word)
  /-- HYK_WINDOW_SET (R271): Sets a receive window. -/
  | hykWindowSet (lea : Nat) (tag : Word) (args : List Word)
  /-- HYK_WINDOW_CLEAR (R285): Removes a receive window. -/
  | hykWindowClear (lea : Nat) (tag : Word) (args : List Word)
  /-- HYK_CFG (R285): Sets transport parameters, checking frame size against every port. -/
  | hykCfg (lea : Nat) (tag : Word) (args : List Word)
  /-- PORT_LINK_FAULT (R258): A link fault takes the port to TRAINING, or to FAULTED after eight faults. -/
  | portLinkFault (port uncorrected corrected : Nat) (other : Bool)
  /-- PORT_BRINGUP_DONE (R257): Bring-up completes and the port enters HOLD. -/
  | portBringupDone (port : Nat)
  /-- PORT_HOLD_EXPIRY (R257): A port clean for HOLD_COUNTS goes UP. -/
  | portHoldExpiry (port : Nat)
  /-- CONNECTOR_DETACH (R485): A detached fibre connector turns its engine's lasers off and its ports lose signal. -/
  | connectorDetach (engine : Nat)
  /-- CONNECTOR_LATCH (R485): A latched connector restarts bring-up of its engine's ports. -/
  | connectorLatch (engine : Nat)
  /-- ARP_REQUEST (R259): An ARP request for the port's IPv4 address is answered within the rate limit. -/
  | arpRequest (port : Nat) (srcMac srcIp target : List Byte)
  /-- NEIGHBOR_SOLICITATION (R259): A Neighbor Solicitation for the port's IPv6 address is answered within the rate limit. -/
  | neighborSolicitation (port : Nat) (srcMac srcIp target : List Byte)
  /-- PAUSE_FRAME (R261): A received PAUSE or PFC frame is counted and ignored. -/
  | pauseFrame (port : Nat)
  /-- DATA (R272). -/
  | data (f : RxFrame)
  /-- POST (R45): A received POST packet places an op slot into a fabric-post queue. -/
  | post (f : RxFrame)
  /-- ACK (R278). -/
  | ack (f : RxFrame)
  /-- NAK (R282): A received NAK ends or retries the sending op according to its reason. -/
  | nak (f : RxFrame)
  /-- HEARTBEAT (R424): A received fabric HEARTBEAT packet is authenticated and accepted for its heartbeat entry. -/
  | heartbeat (f : RxFrame)
  /-- REFILL_REQ (R210): A received refill request is answered with the sector, VERSION_AHEAD or NOT_HELD, or held. -/
  | refillReq (f : RxFrame)
  /-- REFILL_REQ_SERVE (R210): A held refill request is answered once the local last-write step reaches the requested one. -/
  | refillReqServe
  /-- REFILL_REPLY (R210): A valid refill reply writes the sector and releases its readers. -/
  | refillReply (f : RxFrame)
  /-- ACK_DELAY_EXPIRY (R277): An ACK is sent 2,000 counts after the oldest unacknowledged arrival. -/
  | ackDelayExpiry (job chan : Nat)
  /-- RETX_TIMEOUT (R278): A channel's timeout expires and every unacknowledged packet is retransmitted with back-off. -/
  | retxTimeout (job chan : Nat)
  /-- RATE_WINDOW_END (R283): At the end of a rate window without CE the rate rises and alpha decays. -/
  | rateWindowEnd (job rank : Nat)
  /-- ROLE_RESEND_TIMER (R324): After RTO_COUNTS a message NAKed by a lagging receiver is resent at the same epoch. -/
  | roleResendTimer (job index : Nat)
  /-- ROLE_RESOLVE_TIMEOUT (R324): RESOLVE_COUNTS pass without acceptance and the unit gives up. -/
  | roleResolveTimeout (job index : Nat)
  /-- WDR_GROUP_SET (R286): Sets a reduction group. -/
  | wdrGroupSet (lea : Nat) (tag : Word) (args : List Word)
  /-- WDR_GROUP_CLEAR (R315): Removes a reduction group. -/
  | wdrGroupClear (lea : Nat) (tag : Word) (args : List Word)
  /-- WDR_MODE_SET (R300): Sets a group's MODE and RANK_UNTIL_STEP. -/
  | wdrModeSet (lea : Nat) (tag : Word) (args : List Word)
  /-- WDR_SEQ_RESET (R315): Sets GSEQ and clears send position and owner expectations. -/
  | wdrSeqReset (lea : Nat) (tag : Word) (args : List Word)
  /-- WDR_GROUP_READ (R315): Returns a group's parameters and sequence state. -/
  | wdrGroupRead (lea : Nat) (tag : Word) (args : List Word)
  /-- JOB_BIND (R317): Binds a job, reading its region headers, and returns a handle. -/
  | jobBind (lea : Nat) (tag : Word) (args : List Word)
  /-- JOB_UNBIND (R319): Unbinds a job and erases its keys, contexts and units' configuration. -/
  | jobUnbind (lea : Nat) (tag : Word) (args : List Word)
  /-- JOB_READ (R352): Returns a job's binding values, REPLAY_PENDING and latest update step. -/
  | jobRead (lea : Nat) (tag : Word) (args : List Word)
  /-- ROLE_WRITE (R323): Writes up to 30 role table entries as one change at later epochs. -/
  | roleWrite (lea : Nat) (tag : Word) (args : List Word)
  /-- ROLE_READ (R352): Returns up to 30 role table entries. -/
  | roleRead (lea : Nat) (tag : Word) (args : List Word)
  /-- STEP_REPLAY (R332): Rewinds a job's groups, phase and directories to replay a step in rank order. -/
  | stepReplay (lea : Nat) (tag : Word) (args : List Word)
  /-- SHARD_SET (R326): Registers a shard and writes its header. -/
  | shardSet (lea : Nat) (tag : Word) (args : List Word)
  /-- SHARD_CLEAR (R352): Removes a shard registration. -/
  | shardClear (lea : Nat) (tag : Word) (args : List Word)
  /-- TED_SET (R334): Configures Tedder for a job. -/
  | tedSet (lea : Nat) (tag : Word) (args : List Word)
  /-- TED_CLEAR (R352): Removes the Tedder configuration. -/
  | tedClear (lea : Nat) (tag : Word) (args : List Word)
  /-- TED_HOME_SET (R334): Configures one expert home slot. -/
  | tedHomeSet (lea : Nat) (tag : Word) (args : List Word)
  /-- CREDIT_LINK_SET (R346): Sets a credit link between pipeline stages. -/
  | creditLinkSet (lea : Nat) (tag : Word) (args : List Word)
  /-- CREDIT_LINK_CLEAR (R352): Removes a credit link. -/
  | creditLinkClear (lea : Nat) (tag : Word) (args : List Word)
  /-- BAL_SET (R353): Configures Baler for a job. -/
  | balSet (lea : Nat) (tag : Word) (args : List Word)
  /-- BAL_TARGET_SET (R358): Sets a NEAR or FAR store target as ACTIVE. -/
  | balTargetSet (lea : Nat) (tag : Word) (args : List Word)
  /-- BAL_REGION_SET (R354): Registers a region of a Baler set. -/
  | balRegionSet (lea : Nat) (tag : Word) (args : List Word)
  /-- BAL_REGION_CLEAR (R388): Removes a region of a Baler set. -/
  | balRegionClear (lea : Nat) (tag : Word) (args : List Word)
  /-- BAL_KEY_TAG (R388): Records a KEY_TAG for a key slot. -/
  | balKeyTag (lea : Nat) (tag : Word) (args : List Word)
  /-- BAL_OBJECT_SET (R388): Maps a store object to a sealed image section for refill. -/
  | balObjectSet (lea : Nat) (tag : Word) (args : List Word)
  /-- BAL_ABANDON (R372): Abandons the open image. -/
  | balAbandon (lea : Nat) (tag : Word) (args : List Word)
  /-- BAL_STATE_READ (R388): Returns a job's Baler state and sequence values. -/
  | balStateRead (lea : Nat) (tag : Word) (args : List Word)
  /-- LEA_QUOTA_SET (R392): Sets quotas of a lea. -/
  | leaQuotaSet (lea : Nat) (tag : Word) (args : List Word)
  /-- LEA_QUOTA_READ (R412): Returns a lea's quotas and their use. -/
  | leaQuotaRead (lea : Nat) (tag : Word) (args : List Word)
  /-- LEA_SHARE_SET (R403): Changes a lea's engine weights. -/
  | leaShareSet (lea : Nat) (tag : Word) (args : List Word)
  /-- LEA_GRANT_SET (R394): Adds a memory grant, optionally zero-filled. -/
  | leaGrantSet (lea : Nat) (tag : Word) (args : List Word)
  /-- LEA_GRANT_CLEAR (R394): Removes a memory grant. -/
  | leaGrantClear (lea : Nat) (tag : Word) (args : List Word)
  /-- LEA_GRANT_READ (R412): Returns every grant of a lea. -/
  | leaGrantRead (lea : Nat) (tag : Word) (args : List Word)
  /-- MGT_ADDR_SET (R435): Sets the Hedgerow MAC and multicast addresses. -/
  | mgtAddrSet (lea : Nat) (tag : Word) (args : List Word)
  /-- MGT_SRC_SET (R420): Sets or clears a source table entry. -/
  | mgtSrcSet (lea : Nat) (tag : Word) (args : List Word)
  /-- MGT_SRC_READ (R435): Returns every source table entry with its drop count. -/
  | mgtSrcRead (lea : Nat) (tag : Word) (args : List Word)
  /-- MGT_RING_SET (R428): Opens the Hedgerow receive or transmit ring. -/
  | mgtRingSet (lea : Nat) (tag : Word) (args : List Word)
  /-- MGT_RING_CLEAR (R435): Closes a Hedgerow ring. -/
  | mgtRingClear (lea : Nat) (tag : Word) (args : List Word)
  /-- MGT_HB_SET (R424): Configures a heartbeat entry. -/
  | mgtHbSet (lea : Nat) (tag : Word) (args : List Word)
  /-- MGT_HB_CLEAR (R435): Removes a heartbeat entry. -/
  | mgtHbClear (lea : Nat) (tag : Word) (args : List Word)
  /-- MGT_STAGE_ARM (R431): Arms firmware staging over Hedgerow. -/
  | mgtStageArm (lea : Nat) (tag : Word) (args : List Word)
  /-- MGT_STAGE_DISARM (R435): Disarms firmware staging. -/
  | mgtStageDisarm (lea : Nat) (tag : Word) (args : List Word)
  /-- HOST_FRAME (R419). -/
  | hostFrame (f : HdrRx)
  /-- HDR_HEARTBEAT (R425): A received Hedgerow HEARTBEAT frame is authenticated and accepted. -/
  | hdrHeartbeat (f : HdrRx)
  /-- HEALTH_REQ (R430): A HEALTH_REQ frame is answered with HEALTH_RESP within the rate limit. -/
  | healthReq (f : HdrRx)
  /-- STAGE (R432): A STAGE frame writes an in-order block to the staging area and is answered with STAGE_ACK. -/
  | stage (f : HdrRx)
  /-- HB_INTERVAL (R427): At each INTERVAL a heartbeat is sent on each path and a miss counted if none was accepted. -/
  | hbInterval (h : Nat)
  /-- HDR_TRANSMIT (R417): The MAC sends the next queued frame by priority tier. -/
  | hdrTransmit
  /-- HDR_COLLISION (R415): A collision jams and schedules back-off or discards the frame after 16 attempts. -/
  | hdrCollision
  /-- HDR_BACKOFF_EXPIRY (R415): The back-off delay ends and the frame is attempted again. -/
  | hdrBackoffExpiry
  /-- MEDIUM_STUCK (R418): Carrier sensed beyond COUNTS marks the medium stuck and diverts heartbeats. -/
  | mediumStuck
  /-- MEDIUM_IDLE (R418): One slot time of idle medium clears MEDIUM_STUCK. -/
  | mediumIdle
  /-- TOKEN_BUCKET_REFILL (R421): Each 2^20-count interval adds RATE tokens to each source bucket. -/
  | tokenBucketRefill
  /-- FW_WRITE (R455): Writes image data into the writable bank. -/
  | fwWrite (lea : Nat) (tag : Word) (args : List Word)
  /-- FW_VERIFY (R456): Checks the writable bank and marks it VERIFIED. -/
  | fwVerify (lea : Nat) (tag : Word) (args : List Word)
  /-- FW_ACTIVATE (R457): Runs the live handover to the verified image. -/
  | fwActivate (lea : Nat) (tag : Word) (args : List Word)
  /-- HANDOVER_ALIVE (R457): The new image reports alive and FW_ACTIVATE completes with TRIAL set. -/
  | handoverAlive
  /-- FW_ALIVE_TIMEOUT (R459): A new image not alive within FW_ALIVE counts is reverted to the winner. -/
  | fwAliveTimeout
  /-- COLD_TRIAL_ALIVE_TIMEOUT (R462): A cold-trial image not alive in time is replaced by the other valid bank. -/
  | coldTrialAliveTimeout
  /-- FW_COMMIT (R460): Commits the trial image and clears TRIAL. -/
  | fwCommit (lea : Nat) (tag : Word) (args : List Word)
  /-- FW_SVN_COMMIT (R463): Burns the minimum SVN up to the running image's. -/
  | fwSvnCommit (lea : Nat) (tag : Word) (args : List Word)
  /-- FW_INFO (R473): Returns bank validity, versions and the fused minimum SVN. -/
  | fwInfo (lea : Nat) (tag : Word) (args : List Word)
  /-- FW_COMMIT_COLD (R461): Makes a verified bank with another RUNSTATE the winner for a cold trial. -/
  | fwCommitCold (lea : Nat) (tag : Word) (args : List Word)
  /-- ATTEST (R454): Writes and signs an attestation report with the next leaf. -/
  | attest (lea : Nat) (tag : Word) (args : List Word)
  /-- ATTEST_DEFERRED_SIGN (R452): A deferred ATTEST signs once its rate interval has passed. -/
  | attestDeferredSign
  /-- STORE_READ (R473): Copies the winning device record to HBM. -/
  | storeRead (lea : Nat) (tag : Word) (args : List Word)
  /-- PWR_SET (R465): Sets TARGET, CAP, GAIN and HYST. -/
  | pwrSet (lea : Nat) (tag : Word) (args : List Word)
  /-- PWR_THERMAL_SET (R468): Sets the THROTTLE temperature. -/
  | pwrThermalSet (lea : Nat) (tag : Word) (args : List Word)
  /-- POWER_WINDOW_END (R466): At each power window the cap rule adjusts the core voltage and issue limit. -/
  | powerWindowEnd (watts : Nat) (badRails : List Nat)
  /-- THERMAL_SAMPLE (R468): Each sensor sample applies the thermal limits to Tj. -/
  | thermalSample (sensor : Nat) (tj : Int)
  /-- OVER_CURRENT_WARNING (R467): A regulator over-current warning limits array issue to half rate at once. -/
  | overCurrentWarning
  /-- I3C_PRIVATE_READ (R472): A BMC private read returns 64 bytes of health data. -/
  | i3cPrivateRead
  /-- JTAG_BYPASS (R482): Boundary-scan BYPASS instruction. -/
  | jtagBypass
  /-- JTAG_IDCODE (R482): Boundary-scan IDCODE instruction. -/
  | jtagIdcode
  /-- JTAG_SAMPLE_PRELOAD (R482): Boundary-scan SAMPLE/PRELOAD instruction. -/
  | jtagSamplePreload
  /-- JTAG_EXTEST (R482): Boundary-scan EXTEST, effective only in BOOT or HALTED. -/
  | jtagExtest
  /-- JTAG_CLAMP (R482): Boundary-scan CLAMP, effective only in BOOT or HALTED. -/
  | jtagClamp
  /-- POWER_LOSS (R436). -/
  | powerLoss (cut : StoreCut)
  /-- RECEIVED_FRAME (R260). -/
  | receivedFrame (f : RxFrame)
  /-- I3C_DYNAMIC_ADDRESS (R472). -/
  | i3cDynamicAddress (a : BitVec 7)
  deriving DecidableEq, Repr

end Sys2Proof
end

