-- ==== Sys2Proof/Decode.lean ====
section
/-!
DEFINITION. Decode.lean: the command that a word spells by the bits of the table of operations and events.
The part takes commands from outside and has no instruction words of its own that carry one: no row of the table gives
bits (opcode_table.json), so no word spells a command.
-/

namespace Sys2Proof

/-- The command that an instruction of `nbits` bits with value `w` spells; the table gives no row any bits. -/
def decodeTableWord (_nbits _w : Nat) : Option Instr := none

end Sys2Proof
end

