-- ==== Sys2Proof/Config.lean ====
section
/-!
DEFINITION. Config.lean: what an implementation fixes and the manual does not, and the free values.
None of these has a body that Lean can see: a statement that holds, holds whatever they are.
-/

namespace Sys2Proof.Config

/-- The answer of native function `name` at an input where no precision tried decides the rounding (R125 fixes it;
no such input is known). -/
opaque nativeUndecided (name : Nat) (x : Word) : Word

/-- The hash by which a channel of a job takes one of the UP ports of the peer's mask (R274 names no function): channel
context, repath count and the number of ports to choose from. -/
opaque portHash (chan repath ports : Nat) : Nat

/-- The 14-bit hash of a channel and its repath count in the UDP source port (R266 names no function). -/
opaque sourcePortHash (chan repath : Nat) : BitVec 14

/-- Byte `i` of the 32-byte body of a credit message (R346 states none). -/
opaque creditByte (i : Nat) : Byte

/-- Byte `i` of the signature that leaf `q` of key generation `gen` makes over a message: the manual names the scheme
(Table 16.7) and not how the key is derived from its seed (R449). -/
opaque attestByte (gen q : Nat) (msg : List Byte) (i : Nat) : Byte

/-- The `n`-th draw of the Hedgerow back-off generator seeded with `seed` (R415 names no generator). -/
opaque backoffDraw (seed n : Nat) : Nat

/-- Word `i` of the record that the fatal fault `kind` writes to the fault log (R443 and R470 state no contents): 0 a
thermal trip, 1 the fencing of every die. -/
opaque fatalWord (kind i : Nat) : Word

/-- The byte that host memory holds at an address at the `n`-th read of it: the host's memory is no part of the machine. -/
opaque hostByte (n addr : Nat) : Byte

/-- Sectors that a traffic generator's run had found mismatched when a command stops it, at the `n`-th such stop: what a
channel's pins do is no part of the machine (R225). -/
opaque tgMismatches (n : Nat) : Nat

/-- The pins that had mismatched at that stop (EDP_TG_PINS). -/
opaque tgPins (n : Nat) : BitVec 64

/-- Spare pins and spare rows that start-up training leaves a memory channel (R206: the manual gives no number of spare
rows, and training may already have used some of either). -/
opaque trainedSpares (ch : Nat) : Nat × Nat

/-- The RWND that the `n`-th ACK advertises, at most 1,024: R276 and R277 do not state what a receiver grants. -/
opaque advertisedWindow (n : Nat) : BitVec 11

/-- The cluster events that a row is charged with when it starts, by ENTRY and ROW_LEN (R399 does not state how the hub
knows a row's events before it runs). -/
opaque rowCharge (entry rowLen : Nat) : Nat

/-- The cluster events of a library row, by ENTRY, FUNC and ROW_LEN (Table 5.12 gives typical figures of some only). -/
opaque libraryEvents (entry func rowLen : Nat) : Nat

/-- The byte that the outputs of an op hold at an address when it ends with a status of class 0x02, at the `n`-th such end
(R54 calls them undefined). -/
opaque outputByte (n addr : Nat) : Byte

/-- What a row starts with in lane register `r` of lane `l`, in predicate `r` of lane `l`, in address register `r` and in
LEN (R118 and Table 5.1 state the cluster store and u0 to u15 only). -/
opaque rowLane (r l : Nat) : Word
@[inherit_doc rowLane] opaque rowPred (r l : Nat) : Bool
@[inherit_doc rowLane] opaque rowAddr (r : Nat) : BitVec 48
@[inherit_doc rowLane] opaque rowLength : Nat

/-- What an index that names no uniform register, or LANE in a uniform field, reads as (Table 5.3). -/
opaque noUniform (i : Nat) : BitVec 48

/-- LEN after a uniform instruction writes a value above 64 to it (Table 5.3). -/
opaque overLength (v : Nat) : Nat

/-- Whether a branch's word offset counts from the next instruction, or else from the branch (Table 5.4). -/
opaque branchFromNext : Bool

/-- The comparison that the third source field of fcmp names: whether it holds where s1 is less than, equal to or greater
than s2; none of them, where either is a NaN (Table 5.4 names no code). -/
opaque fcmpHolds (code : BitVec 5) (lt eq gt : Bool) : Bool

/-- The comparison that the third source field of icmp names: whether it holds where s1 is less than s2 as signed, less
as unsigned, or equal (Table 5.4 names no code). -/
opaque icmpHolds (code : BitVec 5) (slt ult eq : Bool) : Bool

/-- shl and shr by 32 or more (Table 5.4 states no result). -/
opaque shiftOver (left : Bool) (a n : Word) : Word

/-- Whether shr copies the sign (Table 5.4 does not say). -/
opaque shrSigned : Bool

/-- What bcast and perm give where the lane index is 64 or more (Table 5.4). -/
opaque noLane (i : Nat) : Word

/-- What lds reads where its four bytes are not all in the cluster store (R118 states its size only). -/
opaque outsideStore (offset : Nat) : Word

/-- What cvt converts between under its format code: source and result, 0 FP32, 1 BF16, 2 FP16, 3 a pair of BF16
(Table 5.4 gives one code and names no direction). -/
opaque cvtFrom (code : BitVec 4) : BitVec 2
@[inherit_doc cvtFrom] opaque cvtTo (code : BitVec 4) : BitVec 2

/-- The upper half of a register to which cvt writes one 16-bit value. -/
opaque cvtUpper (w : Word) : BitVec 16

/-- The element codes of a block that stmx.s encodes under the scale code 0xFF (R77 does not exclude it). -/
opaque nanScaleCode (fmt : Nat) (w : Word) : Nat

end Sys2Proof.Config
end

