-- ==== Sys2Proof/Machine/Bits.lean ====
section
/-!
DEFINITION. Machine/Bits.lean: fields of words, byte order, and sign extension.
Registers and in-memory structures are little-endian; the Ethernet, IP and Hykan headers are big-endian (R5).
-/

namespace Sys2Proof.Machine

/-- Bits [hi:lo] of a number, as the manual writes a bit range (Table 0.4). -/
def natField (n hi lo : Nat) : Nat := (n >>> lo) % 2 ^ (hi - lo + 1)

/-- Bits [hi:lo] of a word. -/
def fld (w : Word) (hi lo : Nat) : Nat := natField w.toNat hi lo

/-- Bit `i` of a word. -/
def bit (w : Word) (i : Nat) : Bool := w.getLsbD i

/-- A Bool as a number. -/
def b2n (b : Bool) : Nat := if b then 1 else 0

/-- A number below 2^width read as two's complement. -/
def toSigned (width n : Nat) : Int := if n < 2 ^ (width - 1) then (n : Int) else (n : Int) - (2 ^ width : Nat)

/-- An integer as a number below 2^width, in two's complement. -/
def ofSigned (width : Nat) (z : Int) : Nat := (z % (2 ^ width : Nat)).toNat

/-- The word at position `i` of a list of words; words past the end read as zero (R119, Table 2.3). -/
def wordAt (l : List Word) (i : Nat) : Word := l.getD i 0

/-- The bytes of a number, least significant first (R5). -/
def natToLE : Nat → Nat → List Byte
  | 0, _ => []
  | n + 1, v => BitVec.ofNat 8 v :: natToLE n (v / 256)

/-- The number that a list of bytes holds, least significant first (R5). -/
def leToNat : List Byte → Nat
  | [] => 0
  | b :: rest => b.toNat + 256 * leToNat rest

/-- The bytes of a number, most significant first (R5, wire formats). -/
def natToBE (n v : Nat) : List Byte := (natToLE n v).reverse

/-- The number that a list of bytes holds, most significant first. -/
def beToNat (l : List Byte) : Nat := leToNat l.reverse

/-- The bytes of a list of words, each word little-endian (R5). -/
def wordsToBytes : List Word → List Byte
  | [] => []
  | w :: rest => natToLE 4 w.toNat ++ wordsToBytes rest

/-- `n` words read from a list of bytes, each little-endian (R5). -/
def bytesToWords : Nat → List Byte → List Word
  | 0, _ => []
  | n + 1, l => BitVec.ofNat 32 (leToNat (l.take 4)) :: bytesToWords n (l.drop 4)

/-- The two words of a 64-bit value, low word first (R493). -/
def words64 (n : Nat) : List Word := [BitVec.ofNat 32 n, BitVec.ofNat 32 (n >>> 32)]

/-- The two words of a 48-bit address, bits [31:0] first (R493). -/
def words48 (n : Nat) : List Word := [BitVec.ofNat 32 n, BitVec.ofNat 32 (natField n 47 32)]

/-- The 48-bit address in two words, bits [31:0] first (R493). -/
def addr48 (lo hi : Word) : Nat := lo.toNat + 2 ^ 32 * fld hi 15 0

/-- The 64-bit value in two words, the low word first (R493). -/
def val64 (lo hi : Word) : Nat := lo.toNat + 2 ^ 32 * hi.toNat

/-- The difference of two words read as a signed 32-bit number is zero or positive (R50). -/
def reached (value target : Word) : Bool := !(value - target).msb

/-- The difference of two words read as a signed 32-bit number is negative (R148, R153). -/
def signedLess (a b : Word) : Bool := (a - b).msb

/-- The quotient rounded up. -/
def ceilDiv (a b : Nat) : Nat := (a + b - 1) / b

/-- The least multiple of `m` that is not below `n`. -/
def roundUp (n m : Nat) : Nat := ceilDiv n m * m

/-- A number held in `bits` bits that saturates at its largest value. -/
def satNat (bits n : Nat) : Nat := min n (2 ^ bits - 1)

/-- The exponent of the largest power of two not above `n` (0 for 0). -/
def log2Floor (n : Nat) : Nat := n.log2

/-- The least exponent e with n ≤ 2^e. -/
def log2Ceil (n : Nat) : Nat := if n ≤ 1 then 0 else (n - 1).log2 + 1

/-- The numbers `a`, `a + 1`, … of which there are `n`. -/
def range' (a : Nat) : Nat → List Nat
  | 0 => []
  | n + 1 => a :: range' (a + 1) n

/-- A number put in its place in a rising list. -/
def insertNat (n : Nat) : List Nat → List Nat
  | [] => [n]
  | k :: rest => if n ≤ k then n :: k :: rest else k :: insertNat n rest

/-- A list of numbers in rising order. -/
def sortNat (l : List Nat) : List Nat := l.foldr insertNat []

/-- The positions of the one bits of `n` below `width`, in rising order. -/
def onesBelow (n width : Nat) : List Nat := (List.range width).filter fun i => n.testBit i

/-- The word with bits [hi:lo] made of fields, each given as (value, low bit); the fields must not overlap. -/
def packFields (l : List (Nat × Nat)) : Word := BitVec.ofNat 32 (l.foldl (fun a f => a + f.1 <<< f.2) 0)

/-- The bytewise exclusive or of two lists of bytes. -/
def xorBytes (a b : List Byte) : List Byte := List.zipWith (· ^^^ ·) a b

end Sys2Proof.Machine
end

