-- ==== Sys2Proof/Machine/State.lean ====
section
/-!
DEFINITION. Machine/State.lean: every piece of state that the manual gives the part, and the state after reset.
Each field names the register, table or state of the manual that it holds; the manual's computed fields (a BUSY bit that
mirrors a table, a count of entries present) are computed where a register is read. Times are values of the Cihal domain
counter (R27).
-/

namespace Sys2Proof.Machine

/-- Why the machine stops with a fault. -/
inductive Fault
  /-- Raised by OSCILLATOR_FAILURE when the internal oscillator fails while both the Cihal and the power manager domain
  run on it: the device's behaviour is undefined until the next cold start (R491). Safe: the model stops. -/
  | oscillatorFailed
  deriving DecidableEq, Repr

/-- Why a command has no meaning. -/
inductive Refusal
  /-- Raised by an arm of `exec` whose command has not been given its meaning. Safe: the model stops. -/
  | notModelled (mnemonic : String)
  deriving DecidableEq, Repr

/-- The status codes of Table 2.10. -/
inductive Status
  | ok | partialDone | escalated | recomputed
  | badVersion | badMessage | unknownCommand | badOpclass | badArgument | badHandle | denied | stateMismatch | noResource
  | roleMoved | shardChanged | cancelled | depFailed
  | poison | edgeOffline | seqMismatch | unitFault
  | peerLost | authFail | peerRefused
  | digestMismatch | replayMismatch | signature | storeFault | leafExhausted
  deriving DecidableEq, Repr

/-- The device states of Table 2.5. -/
inductive DevState
  | boot | ready | run | halted
  deriving DecidableEq, Repr

/-- The lea states (LEA_STATE.STATE). -/
inductive LeaSt
  | absent | disabled | enabled | resetting | faulted
  deriving DecidableEq, Repr

/-- What starts a lea reset (LEA_RESET_STATUS.CAUSE). -/
inductive ResetCause
  | leaReset | flr | leaDisable | vfClear
  deriving DecidableEq, Repr

/-- A fault-event record (Table 14.4). -/
structure FaultEvent where
  status : Status
  unit : Nat
  cause : Nat
  job : Nat
  step : Word
  index : Nat
  addr : Nat
  seq : Nat
  deriving DecidableEq, Repr

/-- Why the command a mailbox holds is not answered yet, although Cihal has started it. -/
inductive Deferral
  | edgeRetry (dom : Nat)        -- EDGE_RETRY until its recovery ends (R490)
  | selfReset                    -- LEA_RESET of the issuer, answered at step 8 (R39)
  | leaReset (target : Nat)      -- LEA_RESET or LEA_DISABLE of another lea, answered at its step 8
  | domain (dom : Nat)           -- held while edge domain `dom` is offline (R15)
  | memory                       -- held while a sector that it reads waits for a refill or an offline HBM PHY (R497)
  | fwActivate                   -- FW_ACTIVATE until the new image is alive or reverted (R457, R459)
  | attest                       -- ATTEST until its deferred sign (R452)
  | wxUnfence (die : Nat)        -- WX_UNFENCE until the die rejoins or is fenced (R253)
  deriving DecidableEq, Repr

/-- One lea's mailbox (02, R34 to R37). -/
structure Mailbox where
  request : Map Word := [] -- CIH_MBX_REQUEST, words not written read 0 (Table 2.2)
  response : Map Word := [] -- CIH_MBX_RESPONSE (Table 2.4)
  latched : List Word := [] -- the request as latched at the doorbell (R35)
  ring : Bool := false -- CIH_MBX_DOORBELL.RING (R37)
  busy : Bool := false -- CIH_MBX_STATUS.BUSY
  done : Bool := false -- CIH_MBX_STATUS.DONE
  overrun : Bool := false -- CIH_MBX_STATUS.OVERRUN (R34)
  intrEnable : Bool := false -- CIH_MBX_STATUS.INTR_ENABLE
  doneCount : BitVec 16 := 0 -- CIH_MBX_EVENT_COUNT.DONE_COUNT
  overrunCount : BitVec 16 := 0 -- CIH_MBX_EVENT_COUNT.OVERRUN_COUNT
  deferral : Option Deferral := none -- the command in service waits for this (R39, R490)
  deriving DecidableEq, Repr

/-- A hardware queue (02, R43, R44, R498). -/
structure Queue where
  hbm : Bool -- location HBM, else HOST
  base : Nat
  log2 : Nat
  cring : Nat
  prio : Nat
  fabPost : Bool
  job : Nat
  stopped : Bool := false
  head : Nat := 0
  deriving DecidableEq, Repr

/-- A completion ring (R496). -/
structure CRing where
  hbm : Bool
  base : Nat
  log2 : Nat
  write : Nat := 0 -- the write index (R496)
  phase : Bool := true -- PHASE of the present pass (R49)
  deriving DecidableEq, Repr

/-- An event counter (R50, R51). -/
structure Counter where
  value : Word := 0
  failed : Bool := false
  deriving DecidableEq, Repr

/-- A norm table entry (R191). -/
structure Norm where
  sum : Nat := 0 -- in units of 2^−149, 320 bits wide
  count : Nat := 0 -- saturating at 2^32 − 1
  nan : Bool := false
  inf : Bool := false
  deriving DecidableEq, Repr

/-- The quotas of a lea (Table 14.1). -/
structure Quotas where
  queues : Nat := 0
  rings : Nat := 0
  counters : Nat := 0
  norm : Nat := 0
  inflight : Nat := 0
  jobs : Nat := 0
  contexts : Nat := 0
  pinMib : Nat := 0
  grants : Nat := 0
  deriving DecidableEq, Repr

/-- A memory grant (R393). -/
structure Grant where
  base : Nat
  len : Nat
  rw : Bool
  deriving DecidableEq, Repr

/-- A pin of an HBM range (R219). -/
structure Pin where
  base : Nat
  len : Nat
  deriving DecidableEq, Repr

/-- A running lea reset, past step 2 of Table 14.5. -/
structure LeaReset where
  cause : ResetCause
  entries : Bool -- step 5 writes completion entries (R408)
  returned : Bool := false -- steps 3 to 7 are done; step 8 is to come (R410)
  deriving DecidableEq, Repr

/-- One lea (02, 14). -/
structure Lea where
  st : LeaSt := .absent -- LEA_STATE.STATE (R502: DISABLED in lea 0)
  changeCount : BitVec 16 := 0 -- LEA_STATE.CHANGE_COUNT
  mbx : Mailbox := {} -- the mailbox (R34 to R37)
  badDoorbell : BitVec 16 := 0 -- LEA_QUEUE_EVENT_COUNT.BAD_DOORBELL (R44, R496)
  rejectCount : BitVec 16 := 0 -- LEA_QUEUE_EVENT_COUNT.REJECT_COUNT
  queues : Map Queue := [] -- the open and stopped queues (R43)
  qdb : Map Nat := [] -- LEA_QDB[q].TAIL, the last tail accepted (R44)
  rings : Map CRing := [] -- the open completion rings (R496)
  cdb : Map Nat := [] -- LEA_CDB[r].HEAD, the last head accepted (R496)
  counters : Map Counter := [] -- the event counters (R50)
  norms : Map Norm := [] -- the norm entries (R191)
  quotas : Quotas := {} -- Table 14.1
  wArray : Nat := 16 -- LEA_SHARE.ARRAY (Table 14.2)
  wCluster : Nat := 16 -- LEA_SHARE.CLUSTER
  wMem : Nat := 16 -- LEA_SHARE.MEM
  wFab : Nat := 16 -- LEA_SHARE.FAB
  vArray : Rat := 0 -- the virtual time V of the array (R399)
  vCluster : Rat := 0 -- the virtual time V of the clusters (R399)
  readyArray : Bool := false -- the lea had a ready matrix op (R400)
  readyCluster : Bool := false -- the lea had a ready row (R400)
  arrayEvents : BitVec 64 := 0 -- LEA_ARRAY_EVENTS
  clusterEvents : BitVec 64 := 0 -- LEA_CLUSTER_EVENTS
  grants : Map Grant := [] -- the grants by index (R393, R394)
  pins : List Pin := [] -- the pinned ranges (R219)
  events : List FaultEvent := [] -- the fault-event queue, oldest first (R405)
  evQueued : Bool := false -- LEA_EVENT_STATUS.QUEUED
  evOverflow : Bool := false -- LEA_EVENT_STATUS.OVERFLOW
  evIntrEnable : Bool := false -- LEA_EVENT_STATUS.INTR_ENABLE
  evDropped : BitVec 16 := 0 -- LEA_EVENT_COUNT.DROPPED
  evQueuedCount : BitVec 16 := 0 -- LEA_EVENT_COUNT.QUEUED_COUNT
  evSeq : BitVec 64 := 0 -- events queued since cold start (Table 14.4 SEQ)
  resetting : Option LeaReset := none -- LEA_RESET_STATUS.RESETTING and the running sequence (R407)
  resetCount : BitVec 16 := 0 -- LEA_RESET_STATUS.RESET_COUNT
  resetCause : ResetCause := .leaReset -- LEA_RESET_STATUS.CAUSE
  resetDone : Bool := false -- LEA_RESET_STATUS.DONE
  pendingEvents : List FaultEvent := [] -- fault events that wait for the mailbox command to end (R39)
  pendingReset : Option ResetCause := none -- a reset that waits for the end of the lea's mailbox command (R39)
  msix : Map Word := [] -- the MSI-X table by word (R404)
  pba : BitVec 64 := 0 -- the Pending Bit Array (R404)
  latch : Map Word := [] -- high words latched by low-word reads, by offset (R7)
  deriving DecidableEq, Repr

/-- The phases of an admitted op. -/
inductive OpPhase
  | waiting                                   -- admitted, not started
  | running                                   -- started
  | done (st : Status) (detail : Nat)         -- its work has ended; OP_COMPLETION is to come
  | entryHeld (st : Status) (detail : Nat)    -- all effects made; the completion entry waits (R47, R48)
  deriving DecidableEq, Repr

/-- An op in flight, keyed by its number in the order of admission. -/
structure Op where
  lea : Nat
  queue : Nat
  slot : Nat -- slot index in the ring
  hdr : List Word -- the 8 header words (Table 2.9)
  body : List Word -- the 24 body words, those past BODY_LEN zero
  phase : OpPhase := .waiting
  stepped : Bool := false -- started once already: a recompute resumes it (R183)
  rank : Bool := false -- a Windrow op in rank-order mode, by its group's mode at admission (R300, Table 11.8)
  deriving DecidableEq, Repr

/-- Edge-domain recovery (01, R19 to R21, R490). -/
structure Recovery where
  dom : Nat
  retry : Bool -- EDGE_RETRY's recovery (R490)
  failed : Nat -- attempts that have failed (R19)
  since : BitVec 64 -- the Cihal domain counter at the attempt's start
  deriving DecidableEq, Repr

/-- The edge domains and the reference clock (01). -/
structure Edge where
  online : BitVec 40 := 0 -- HUB_EDGE_ONLINE.ONLINE
  fenced : BitVec 40 := 0 -- HUB_EDGE_FENCED.FENCED
  lost : BitVec 40 := 0 -- HUB_EDGE_LOST.LOST
  fenceCount : BitVec 16 := 0 -- HUB_EDGE_EVENT_COUNT.FENCE_COUNT
  lossCount : BitVec 16 := 0 -- HUB_EDGE_EVENT_COUNT.LOSS_COUNT
  refPresent : Bool := false -- HUB_REFCLK_STATUS.PRESENT
  refLossCount : BitVec 16 := 0 -- HUB_REFCLK_STATUS.LOSS_COUNT
  pmOsc : Bool := false -- HUB_REFCLK_STATUS.PM_OSC (R20, R24)
  cihOsc : Bool := false -- HUB_REFCLK_STATUS.CIH_OSC (R20, R24)
  count : BitVec 64 := 0 -- CIH_DOMAIN_COUNT.COUNT (R27)
  recovery : Option Recovery := none -- the recovery that runs (R21)
  queued : List Nat := [] -- losses whose recovery is to begin when the window closes (R21)
  returning : List Nat := [] -- domains that a returned reference clock recovers, in index order (R26)
  refLostAt : Option (BitVec 64) := none -- the count at which the reference clock went (R26)
  absentReported : Bool := false -- the 10,000,000-count device fault is reported (R26)
  shadow : List (Nat × Nat × Word) := [] -- writes to an offline domain's registers: domain, offset, value (R252)
  deriving DecidableEq, Repr

/-- The PCIe endpoint (02, R30 to R32; 14, R389). -/
structure Pcie where
  up : Bool := false -- the link is up (R32)
  width : Nat := 0 -- HUB_PCIE_LINK.WIDTH
  gen : Nat := 0 -- HUB_PCIE_LINK.GEN
  retrains : BitVec 16 := 0 -- HUB_PCIE_LINK.RETRAIN_COUNT
  trained : Bool := false -- the link has been up since the cold start
  vfEnable : Bool := false -- the SR-IOV capability's VF Enable (R389)
  numVfs : Nat := 0 -- the SR-IOV capability's NumVFs (R389)
  lastRead : Word := 0 -- the data of the latest register read completion (R9)
  lastAbort : Bool := false -- the latest register access completed with Completer Abort (R6)
  deriving DecidableEq, Repr

/-- What the part writes to the host and sends outside, oldest first. -/
structure Outputs where
  host : List (Nat × List Byte) := [] -- writes to host memory: address and bytes (R32, R49)
  msix : List (Nat × Nat) := [] -- MSI-X messages: lea and vector (R404)
  msixHeld : List (Nat × Nat) := [] -- MSI-X messages that wait for the link (R48)
  ibi : List Byte := [] -- I3C In-Band Interrupts, by data byte (R472)
  deriving DecidableEq, Repr

/-- The hub's op machinery (02, 07, 14). -/
structure Hub where
  dev : DevState := .boot -- HUB_DEVICE_STATE.STATE (Table 2.5)
  devChanges : BitVec 16 := 0 -- HUB_DEVICE_STATE.CHANGE_COUNT
  ops : Map Op := [] -- the ops in flight, by admission number (R46)
  nextOp : Nat := 0 -- the next admission number
  inflightPeak : Nat := 0 -- HUB_INFLIGHT.PEAK
  phaseHeldPeak : Nat := 0 -- HUB_PHASE_HELD.PEAK
  turn : Nat := 0 -- the lea after the one Cihal served last (R36)
  picked : Option Nat := none -- the matrix op picked at the op boundary (R343)
  fallowEvents : BitVec 64 := 0 -- HUB_FALLOW_EVENTS.EVENTS (R345)
  fallowOps : Word := 0 -- HUB_FALLOW_OPS.OPS
  free : Nat := 0 -- the model's own counter of free values drawn, no state of the spec's
  deriving DecidableEq, Repr

/-- One tile of the matrix op in the array. -/
structure Tile where
  t0 : Int -- the tile exponent it has now (R101, R103)
  recomputed : Bool := false -- it has been given its raised exponent (R104)
  final : Bool := false -- its output is written (R105)
  deriving DecidableEq, Repr

/-- A pass of the logical array: band, and for each die that takes part its tile column (R92). -/
structure Pass where
  band : Nat
  tiles : List (Nat × Nat) -- (die, tile column)
  deriving DecidableEq, Repr

/-- What the B-panel store of a die holds (R91): a tile column of B, by column and K index, each element as its code
and its block's scale code. -/
structure Panel where
  col : Nat
  codes : List (List (Nat × Nat))
  deriving DecidableEq, Repr

/-- The matrix op in the array (04). -/
structure MatrixRun where
  op : Nat -- its admission number
  dies : List Nat -- the dies in service when it started, in ascending order (R113)
  removed : List Nat := [] -- dies that left service during the op (R113)
  returned : List Nat := [] -- dies that returned to service when none was left (R250)
  next : Nat := 0 -- passes of the tile walk taken (R92)
  start : Option Int := none -- T0 from the scale history; none: the worst-case bound (R101)
  tiles : Map Tile := [] -- by tile number i × nt + j, from a tile's first drain on
  recompute : List Pass := [] -- recompute passes that are to run next (R103)
  deferred : List (Nat × Nat) := [] -- tiles deferred to the extra passes (R113)
  pass : Option Pass := none -- the pass that streams now
  drain : Option Pass := none -- the pass before it, while it drains (R93)
  panels : Map Panel := [] -- the B-panel store of each die (R91)
  scanned : List (Bool × Nat) := [] -- bound scans made: of B, or else of A; tile column or band (R156)
  events : Nat := 0 -- events so far, for the actual events (R399)
  fallow : Bool := false -- it started as fallow fill (R343)
  charge : Nat := 0 -- planned events charged at the start (R399)
  saturated : Bool := false -- DETAIL.SATURATED
  nanOut : Bool := false -- DETAIL.NAN_OUT
  normSat : Bool := false -- DETAIL.NORM_SAT
  recomputes : Nat := 0 -- DETAIL.RECOMPUTES, not yet saturated
  cancelled : Bool := false -- a lea reset stops it at the end of the pass (Table 14.6)
  deriving DecidableEq, Repr

/-- The logical array (04). -/
structure ArrayUnit where
  run : Option MatrixRun := none -- HUB_ARRAY_STATUS.BUSY and the op in the array (R83)
  inService : BitVec 4 := 0 -- HUB_ARRAY_SHAPE.IN_SERVICE (R85)
  shapeChanges : BitVec 16 := 0 -- HUB_ARRAY_SHAPE.CHANGE_COUNT
  nanOut : Bool := false -- HUB_ARRAY_STATUS.NAN_OUT
  saturated : Bool := false -- HUB_ARRAY_STATUS.SATURATED
  recomputed : Bool := false -- HUB_ARRAY_STATUS.RECOMPUTED
  nanCount : BitVec 16 := 0 -- HUB_ARRAY_EVENT_COUNT.NAN_COUNT
  satCount : BitVec 16 := 0 -- HUB_ARRAY_EVENT_COUNT.SAT_COUNT
  recomputeCount : BitVec 32 := 0 -- HUB_ARRAY_EVENT_COUNT.RECOMPUTE_COUNT
  passes : BitVec 64 := 0 -- HUB_ARRAY_PASS_COUNT.PASSES
  lastInstance : Word := 0 -- HUB_ARRAY_OP.INSTANCE
  tilesWritten : Map (BitVec 64) := [] -- WX_ARRAY_TILES.TILES, by die
  deriving DecidableEq, Repr

/-- How a row on a cluster stands. -/
inductive RowSt
  | running
  | ended                          -- halt reached, or a library row written: ROW_END is to come
  | stopped (cause : Nat)          -- stopped with a CAUSE of Table 5.2 (R122)
  deriving DecidableEq, Repr

/-- One of the 256 vector clusters (05). Cluster c of die n has number 64n + c. -/
structure Cluster where
  priv : Bool := false -- its bit in WX_CLUSTER_PRIV (R140)
  op : Option Nat := none -- the op whose row it runs
  row : Nat := 0 -- the register ROW (R116)
  st : RowSt := .running -- how the row stands
  d : Map Word := [] -- d0–d31 per lane, by 64 × register + lane (R123)
  p : Map Bool := [] -- p1–p3 per lane, by 64 × register + lane
  u : Map Word := [] -- u0–u15
  a : Map Nat := [] -- a0–a7, 48-bit addresses
  len : Nat := 0 -- LEN
  paired : Bool := false -- LEN was set by setvl.p (R128)
  oddTail : Bool := false -- the upper half of the last active lane is inactive (setvl.p of an odd u)
  rowStart : Bool := false -- registers not written since a row start hold unstated values
  pc : Nat := 0 -- address of the next instruction of a user program
  instrs : Nat := 0 -- instructions the row has executed (R122)
  events : Nat := 0 -- cluster events of the row (Table 5.4; R399)
  charge : Nat := 0 -- events charged at its start (R399)
  store : List Host.Cell := [] -- the 128 KiB cluster store, zero where not listed (R118)
  norm : Norm := {} -- norm contributions of the row, added at its end (R190)
  underflow : Nat := 0 -- block-underflow counts of the row, added at its end (R190)
  mxElems : Nat := 0 -- MX elements the row has written (R147)
  saturated : Bool := false -- the row set SATURATED (R124)
  nanOut : Bool := false -- the row wrote a NaN
  normSat : Bool := false -- a square saturated (R110)
  flags : Nat := 0 -- bit 0 NAN_ROW, 1 INF_ROW, 2 MASKED_ROW (Table 5.8)
  hits : List (Nat × Nat) := [] -- data of registered shards that the row has written into (R326)
  deriving DecidableEq, Repr

/-- An element-wise op that has started (05). -/
structure EltRun where
  op : Nat
  nextRow : Nat := 0 -- rows given out in order
  rerun : List Nat := [] -- rows to be run again (R139)
  doneRows : Nat := 0 -- rows that have ended
  fail : Option (Status × Nat) := none -- the op issues no more rows and will complete so (R122)
  cancelled : Bool := false -- stopped by a lea reset
  saturated : Bool := false -- DETAIL.SATURATED
  nanOut : Bool := false -- DETAIL.NAN_OUT
  maskedRow : Bool := false -- DETAIL.MASKED_ROW
  infRow : Bool := false -- DETAIL.INF_ROW
  nanRow : Bool := false -- DETAIL.NAN_ROW
  normSat : Bool := false -- DETAIL.NORM_SAT
  hits : List (Nat × Nat) := [] -- data of registered shards that its rows have written into, as base and bytes (R326)
  deriving DecidableEq, Repr

/-- The scalar-core registers of one die (05). -/
structure ScalarDie where
  stashErr : Bool := false -- WX_SCALAR_STATUS.STASH_ERR
  fault : Bool := false -- WX_SCALAR_STATUS.FAULT
  nanRow : Bool := false -- WX_SCALAR_STATUS.NAN_ROW
  infRow : Bool := false -- WX_SCALAR_STATUS.INF_ROW
  saturated : Bool := false -- WX_SCALAR_STATUS.SATURATED
  events : Word := 0 -- WX_SCALAR_EVENT_COUNT.EVENTS
  rows : BitVec 64 := 0 -- WX_SCALAR_ROWS.ROWS
  privReg : BitVec 64 := 0 -- WX_CLUSTER_PRIV.PRIV, as written (R140)
  deriving DecidableEq, Repr

/-- The scalar cores (05). -/
structure Scalar where
  clusters : Map Cluster := [] -- the 256 clusters
  runs : Map EltRun := [] -- the started element-wise ops, by admission number
  dies : Map ScalarDie := [] -- the registers of each die
  deriving DecidableEq, Repr

/-- The scale history hardware and the weight-update engine's registers (06). -/
structure Scale where
  tableFull : Bool := false -- HUB_SCALE_STATUS.TABLE_FULL
  boundUsed : Bool := false -- HUB_SCALE_STATUS.BOUND_USED
  fullCount : BitVec 16 := 0 -- HUB_SCALE_EVENT_COUNT.FULL_COUNT
  boundCount : BitVec 16 := 0 -- HUB_SCALE_EVENT_COUNT.BOUND_COUNT
  folds : BitVec 64 := 0 -- HUB_SCALE_FOLDS.FOLDS
  updNan : Bool := false -- HUB_UPDATE_STATUS.NAN_OUT
  updSat : Bool := false -- HUB_UPDATE_STATUS.SATURATED
  updNanCount : BitVec 16 := 0 -- HUB_UPDATE_EVENT_COUNT.NAN_COUNT
  updSatCount : BitVec 16 := 0 -- HUB_UPDATE_EVENT_COUNT.SAT_COUNT
  updElements : BitVec 64 := 0 -- HUB_UPDATE_ELEMENTS.ELEMENTS
  deriving DecidableEq, Repr

/-- A stash recompute that runs (07, R182 to R187). -/
structure Recompute where
  job : Nat
  op : Nat -- the stopped op
  target : Nat -- directory index of the target entry
  resumed : Bool := false -- the stopped op runs again
  deriving DecidableEq, Repr

/-- The training step's registers (07). -/
structure Step where
  clipNonfinite : Bool := false -- HUB_STEP_STATUS.CLIP_NONFINITE
  recomputeFailed : Bool := false -- HUB_STEP_STATUS.RECOMPUTE_FAILED
  recomputed : Bool := false -- HUB_STEP_STATUS.RECOMPUTED
  nonfiniteCount : BitVec 8 := 0 -- HUB_STEP_EVENT_COUNT.NONFINITE_COUNT
  failCount : BitVec 8 := 0 -- HUB_STEP_EVENT_COUNT.FAIL_COUNT
  recomputeCount : BitVec 16 := 0 -- HUB_STEP_EVENT_COUNT.RECOMPUTE_COUNT
  replayed : BitVec 64 := 0 -- HUB_STEP_REPLAYED.OPS
  recomputes : List Recompute := [] -- HUB_STEP_STATUS.RECOMPUTING and the running recomputes, one per job (R188)
  deriving DecidableEq, Repr

/-- What is wrong with a sector of HBM. -/
inductive SectorErr
  | poisoned     -- an uncorrectable corrected-class error: readers stall until the refill ends (R208)
  | poisonCode   -- the poison code: reads report POISON (R211)
  | detected     -- a detection-only sector in error until a write covers it whole (R207)
  deriving DecidableEq, Repr

/-- The class and parity of a class unit (R197). -/
structure ClassUnit where
  detect : Bool := false -- detection-only class
  parity : Bool := false -- parity unit
  deriving DecidableEq, Repr

/-- A refill descriptor (R209). -/
structure RefillDesc where
  base : Nat
  len : Nat
  job : Nat -- partner job handle; 0xFFFF: none
  object : Word -- store object; 0: none
  clean : Bool := true
  lastStep : Word := 0 -- the STEP of the latest op that wrote into the region (R210)
  deriving DecidableEq, Repr

/-- The source a refill waits for. -/
inductive RefillWait
  | partner (epoch : Nat) (step : Word) (since lastSent : BitVec 64)
  | resolve (epoch : Nat) (since : BitVec 64)
  -- the image offsets of the unit and of its leaf, and the leaf, once known
  | store (object : Word) (place : Option (Nat × Nat)) (leaf : Option (List Byte))
  deriving DecidableEq, Repr

/-- A refill table entry, keyed by sector (R208). -/
structure Refill where
  desc : Nat -- index of the descriptor it uses
  wait : RefillWait
  deriving DecidableEq, Repr

/-- One memory channel (08). -/
structure Channel where
  online : Bool := false -- EDP_CH_STATUS.ONLINE
  degraded : Bool := false -- EDP_CH_STATUS.DEGRADED
  rowRepaired : Bool := false -- EDP_CH_STATUS.ROW_REPAIRED
  pinRepaired : Bool := false -- EDP_CH_STATUS.PIN_REPAIRED
  sparePins : Nat := 0 -- EDP_CH_STATUS.SPARE_PINS_LEFT
  spareRows : Nat := 0 -- EDP_CH_STATUS.SPARE_ROWS_LEFT
  pinCount : BitVec 16 := 0 -- EDP_CH_EVENT_COUNT.PIN_COUNT
  rowCount : BitVec 16 := 0 -- EDP_CH_EVENT_COUNT.ROW_COUNT
  tgRun : Option (Bool × Nat × Nat × Word) := none -- EDP_TG_STATUS.RUNNING: OFFLINE, pattern, log2 sectors, seed (R224)
  tgFail : Bool := false -- EDP_TG_STATUS.FAIL
  tgDone : Bool := false -- EDP_TG_STATUS.DONE
  tgFailCount : BitVec 16 := 0 -- EDP_TG_EVENT_COUNT.FAIL_COUNT
  tgDoneCount : BitVec 16 := 0 -- EDP_TG_EVENT_COUNT.DONE_COUNT
  tgPins : BitVec 64 := 0 -- EDP_TG_PINS.PINS
  tgMismatches : Nat := 0 -- EDP_TG_MISMATCHES.MISMATCHES
  deriving DecidableEq, Repr

/-- HBM, the Edpins and the shared cache (08). -/
structure Memory where
  hbm : List Host.Cell := [] -- the contents of HBM, zero where not listed (R198)
  errs : Map SectorErr := [] -- sectors in error, by sector number (R207, R208, R211)
  dirty : List Nat := [] -- sectors that are dirty in the shared cache (R217)
  present : List Nat := [] -- sectors brought into the cache by a read (R489)
  units : Map ClassUnit := [] -- the 576 class units (R197); corrected, no parity where not listed (R198)
  refills : Map Refill := [] -- the refill table, by sector number (R208)
  waiting : List Nat := [] -- poisoned sectors that wait for a free refill entry (R212)
  descs : Map RefillDesc := [] -- the refill descriptors, in order of creation (R209)
  scrubRate : Nat := 256 -- SCRUB_RATE (R205)
  refillFailed : Bool := false -- HUB_MEM_STATUS.REFILL_FAILED
  poisoned : Bool := false -- HUB_MEM_STATUS.POISONED
  detected : Bool := false -- HUB_MEM_STATUS.DETECTED
  corrected : Bool := false -- HUB_MEM_STATUS.CORRECTED
  stackLost : BitVec 8 := 0 -- HUB_MEM_STATUS.STACK_LOST (R213)
  lostCount : BitVec 8 := 0 -- HUB_MEM_EVENT_COUNT.LOST_COUNT
  failedCount : BitVec 8 := 0 -- HUB_MEM_EVENT_COUNT.FAILED_COUNT
  poisonCount : BitVec 16 := 0 -- HUB_MEM_EVENT_COUNT.POISON_COUNT
  detectedCount : BitVec 16 := 0 -- HUB_MEM_EVENT_COUNT.DETECTED_COUNT
  correctedCount : BitVec 16 := 0 -- HUB_MEM_EVENT_COUNT.CORRECTED_COUNT
  lastKind : Nat := 0 -- HUB_MEM_LAST_ERROR.KIND
  lastAddr : Nat := 0 -- HUB_MEM_LAST_ERROR.ADDRESS
  refStore : BitVec 16 := 0 -- HUB_MEM_REFILL_COUNT.STORE
  refPartner : BitVec 16 := 0 -- HUB_MEM_REFILL_COUNT.PARTNER
  refParity : BitVec 16 := 0 -- HUB_MEM_REFILL_COUNT.PARITY
  refDropped : BitVec 16 := 0 -- HUB_MEM_REFILL_COUNT.DROPPED
  deadline : Word := 0x000F4240 -- HUB_MEM_REFILL_CFG.DEADLINE
  cacheUncorr : Bool := false -- HUB_CACHE_STATUS.UNCORRECTED
  cacheCorr : Bool := false -- HUB_CACHE_STATUS.CORRECTED
  cacheUncorrCount : BitVec 16 := 0 -- HUB_CACHE_EVENT_COUNT.UNCORR_COUNT
  cacheCorrCount : BitVec 16 := 0 -- HUB_CACHE_EVENT_COUNT.CORR_COUNT
  channels : Map Channel := [] -- the 256 memory channels
  lastScrub : BitVec 64 := 0 -- the Cihal domain counter at the last scrub interval (R205)
  deriving DecidableEq, Repr

/-- The states of a Welxis (HUB_DIE_STATUS.STATE; 09). -/
inductive DieSt
  | inService | queued | resetting | rejoining | fenced
  deriving DecidableEq, Repr

/-- How one lane of a Stile group stands (Table 2.13, STILE_CENSUS_READ). -/
inductive LaneSt
  | active | spare | fused | censusFailed | fieldFailed | retired
  deriving DecidableEq, Repr

/-- One direction of a Stile bundle, keyed by 2 × bundle + direction (0: die to hub, 1: hub to die). Lanes are keyed
by 34 × group + lane; a lane that is not listed is active below 32 and spare from 32 on. -/
structure BundleDir where
  lanes : Map LaneSt := [] -- lane states after the latest census and repairs (R235, R239)
  groupOut : List Nat := [] -- groups out of service (R235, R239)
  invalid : Map Nat := [] -- invalid codes per group since the die's last census (Table 2.13)
  interval : Map Nat := [] -- invalid codes per lane in the running interval of 2^20 counts (R238)
  deriving DecidableEq, Repr

/-- One Welxis (09). -/
structure Die where
  st : DieSt := .resetting -- HUB_DIE_STATUS.STATE (R243 to R250)
  bundles : Map BundleDir := [] -- bundle directions (R231)
  width : Map Nat := [] -- WX_STILE_WIDTH.WIDTH by bundle: 0 full, 1 3/4, 2 1/2, 3 out of service (R240)
  repairing : List Nat := [] -- bundles whose repair runs (R239)
  invalidTotal : BitVec 64 := 0 -- WX_STILE_INVALID.COUNT (R232)
  resets : List (BitVec 64) := [] -- counts at which it was reset, for the fourth-reset rule (R246)
  rate : BitVec 16 := 0 -- WX_EVENT_RATE.RATE
  rateValid : Bool := false -- WX_EVENT_RATE.VALID
  published : Bool := false -- WX_STILE_BUNDLE and WX_STILE_WIDTH are published (Table 9.3 step 5)
  deriving DecidableEq, Repr

/-- The dies and their Stile bundles (09). -/
structure Dies where
  die : Map Die := [] -- Welxis 0 to 3
  window : Option Nat := none -- the die whose recovery window is open (R247)
  waiting : List Nat := [] -- QUEUED dies, in order (R247)
  fencedEvent : Bool := false -- HUB_DIE_STATUS.FENCED_EVENT
  resetDone : Bool := false -- HUB_DIE_STATUS.RESET_DONE
  fenceCount : BitVec 16 := 0 -- HUB_DIE_EVENT_COUNT.FENCE_COUNT
  resetCount : BitVec 16 := 0 -- HUB_DIE_EVENT_COUNT.RESET_COUNT
  interval : Nat := 0 -- the interval of 2^20 counts up to which lane errors are judged (R238)
  errLimit : Nat := 16 -- HUB_STILE_CFG.ERR_LIMIT
  stallCounts : Nat := 1000 -- HUB_STILE_CFG.STALL_COUNTS
  crcMismatch : Bool := false -- HUB_STILE_STATUS.CRC_MISMATCH
  widthStepped : Bool := false -- HUB_STILE_STATUS.WIDTH_STEPPED
  laneRepaired : Bool := false -- HUB_STILE_STATUS.LANE_REPAIRED
  laneFailed : Bool := false -- HUB_STILE_STATUS.LANE_FAILED
  crcCount : BitVec 16 := 0 -- HUB_STILE_EVENT_COUNT.CRC_COUNT
  stepCount : BitVec 16 := 0 -- HUB_STILE_EVENT_COUNT.STEP_COUNT
  repairCount : BitVec 16 := 0 -- HUB_STILE_EVENT_COUNT.REPAIR_COUNT
  failCount : BitVec 16 := 0 -- HUB_STILE_EVENT_COUNT.FAIL_COUNT
  deriving DecidableEq, Repr

/-- Port states (Table 10.2). -/
inductive PortSt
  | disabled | training | hold | up | faulted
  deriving DecidableEq, Repr

/-- A MACsec association (R263, R264). -/
structure MacsecSa where
  an : Nat
  key : List Byte
  salt : List Byte
  ssci : Word
  pn : Nat := 1 -- the next packet number (R265)
  deriving DecidableEq, Repr

/-- One fabric port (10). -/
structure Port where
  st : PortSt := .disabled -- FAB_PORT_STATUS.STATE
  configured : Bool := false -- FAB_PORT_CONFIG has given it lanes
  engine : Nat := 0
  firstLane : Nat := 0
  lanes : Nat := 0
  rate100 : Bool := false -- lanes at 100 Gb/s
  frame : Nat := 1518 -- maximum frame size (R262)
  vlan : Nat := 0 -- 0 untagged
  dscp : Nat := 0
  suite : Nat := 0 -- 0 off, 1 GCM-AES-256, 2 GCM-AES-XPN-256 (R263)
  mac : List Byte := [] -- the port's MAC address (R259)
  ipv4 : List Byte := [] -- the port's IPv4 address; empty: none
  ipv6 : List Byte := [] -- the port's IPv6 address; empty: none
  udp : Nat := 0xB60E -- the UDP port (R266)
  txSa : Map MacsecSa := [] -- the transmit channel's associations, by number (R263)
  rxSa : Map MacsecSa := [] -- the receive channel's associations, by number
  txAn : Option Nat := none -- the association that sends
  faults : List (BitVec 64) := [] -- counts of the link faults within 2^30 counts (R257)
  holdSince : BitVec 64 := 0 -- the count at which HOLD began
  replies : Nat := 0 -- ARP replies and advertisements sent in this interval (R259)
  replyInterval : Nat := 0 -- the interval of 2^20 counts that `replies` counts
  lasers : Bool := false -- the lasers of the port's lanes are on (Table 10.3)
  pnAging : Bool := false -- FAB_PORT_STATUS.PN_AGING
  macsecFail : Bool := false -- FAB_PORT_STATUS.MACSEC_FAIL
  fecHit : Bool := false -- FAB_PORT_STATUS.FEC_LIMIT_HIT
  linkFault : Bool := false -- FAB_PORT_STATUS.LINK_FAULT
  macsecCount : BitVec 16 := 0 -- FAB_PORT_EVENT_COUNT.MACSEC_COUNT
  faultCount : BitVec 16 := 0 -- FAB_PORT_EVENT_COUNT.FAULT_COUNT
  fecUncorr : Nat := 0 -- FAB_PORT_FEC.UNCORRECTED, saturating
  fecCorr : Nat := 0 -- FAB_PORT_FEC.CORRECTED, saturating
  pauses : BitVec 16 := 0 -- FAB_PORT_DROPS.PAUSE
  fcsDrops : BitVec 16 := 0 -- FAB_PORT_DROPS.FCS
  otherDrops : BitVec 32 := 0 -- FAB_PORT_DROPS.OTHER
  eventAt : Map Nat := [] -- by cause: the interval of 2^20 counts in which an event was last raised (R272)
  deriving DecidableEq, Repr

/-- A job key slot (R267). -/
structure KeySlot where
  key : List Byte
  senderId : Nat
  txSeq : Nat := 0 -- packets sent under the slot (R268)
  tag : List Word := [] -- KEY_TAG recorded by BAL_KEY_TAG (R388)
  deriving DecidableEq, Repr

/-- The state of a peer entry (R270). -/
inductive PeerSt
  | active | lost | quarantined
  deriving DecidableEq, Repr

/-- A peer table entry (R270), with the rate control of its device (R283). -/
structure Peer where
  st : PeerSt := .active
  addr : IpAddr
  mac : List Byte
  ports : Nat -- port mask
  faults : List (BitVec 64) := [] -- counts of its peer faults (R273)
  rate : Option Rat := none -- r in Gb/s; none before the first send (R283)
  alpha : Rat := 1 -- α (R283)
  cutAt : Option Nat := none -- the rate window in which r was last lowered (R283)
  rateAt : Nat := 0 -- the rate windows up to which the ends have been taken (R283)
  ceRx : Nat := 0 -- CE marks received from it since its last ACK, for CE_COUNT (R283)
  ceSeen : Bool := false -- an ACK of the running rate window reported CE
  deriving DecidableEq, Repr

/-- A receive window (R271). -/
structure Window where
  base : Nat
  len : Nat
  data : Bool -- writable by DATA
  refill : Bool -- a refill source
  deriving DecidableEq, Repr

/-- A placement record (Table 10.6). -/
structure Placement where
  target : Nat
  offset : Nat
  useSignal : Bool
  signalIdx : Nat
  signalInc : Nat
  deriving DecidableEq, Repr

/-- Where the data of a packet comes from (R278). -/
inductive PktSrc
  | mem (addr len : Nat)          -- read again from the sending op's source memory
  | bytes (b : List Byte)         -- made by a unit of the hub
  deriving DecidableEq, Repr

/-- Which unit a message belongs to. -/
inductive MsgOwner
  | copy (op : Nat)                               -- a copy op (R282)
  | post (op : Nat)                               -- a POST copy
  | windrow (op chunk : Nat)                      -- a CONTRIB
  | result (group gseq chunk rank : Nat)          -- a RESULT
  | escalate (group gseq chunk rank : Nat)        -- an escalate request
  | tokens (op expert : Nat)                      -- a TOKENS message
  | back (op source : Nat)                        -- a return message
  | credit (job link : Nat)                       -- a credit message
  | store (job target kind offset : Nat)          -- a message to a store target, with its image offset
  | bal (job type key item : Nat)                 -- a Baler peer message: of an op, or of a serve to `key`
  deriving DecidableEq, Repr

/-- A packet that a channel has sent and that is not yet acknowledged. -/
structure TxPacket where
  psn : Word
  last : Bool
  post : Bool
  pl : Placement
  src : PktSrc
  owner : MsgOwner
  step : Word
  roleKind : Nat
  roleIndex : Nat
  roleEpoch : Word
  sacked : Bool := false
  retxAt : Option (BitVec 64) := none -- the count of its latest fast retransmission (R278)
  deriving DecidableEq, Repr

/-- A sending channel context of a job: key (peer rank × 4,096 + CHANNEL). -/
structure TxChan where
  next : Word := 0 -- the next PSN
  acked : List TxPacket := [] -- acknowledged packets of the message whose later packets are not
  unacked : List TxPacket := [] -- in rising PSN
  queued : List TxPacket := [] -- packets that wait for the receiver's window or a key (R269, R276)
  rwnd : Nat := 1024 -- the receiver's last advertised RWND (R276)
  since : BitVec 64 := 0 -- the count at which the running timeout started (R278)
  backoff : Nat := 0 -- expiries without progress since the base timeout: the timeout is RTO × 2^min(backoff, 6)
  expiries : Nat := 0 -- expiries in a row without progress (R280)
  repath : Nat := 0 -- the repath count (R274)
  port : Option Nat := none -- the port it sends on (R274)
  deriving DecidableEq, Repr

/-- A packet that a receiving channel has accepted and not yet delivered. -/
structure RxPacket where
  psn : Word
  last : Bool
  post : Bool
  pl : Placement
  body : List Byte
  step : Word
  roleKind : Nat
  roleIndex : Nat
  deriving DecidableEq, Repr

/-- A receiving channel context of a job: key (peer rank × 4,096 + CHANNEL). -/
structure RxChan where
  cum : Word := 0 -- CUM_PSN (R277)
  above : List Word := [] -- accepted PSNs from CUM_PSN on, in rising order
  held : List RxPacket := [] -- accepted packets of messages not yet delivered, in rising PSN (R275)
  delivered : Word := 0 -- PSN of the first packet of the next message to deliver
  unackedCount : Nat := 0 -- accepted packets since the last ACK (R277)
  oldest : Option (BitVec 64) := none -- the count of the oldest unacknowledged arrival (R277)
  deriving DecidableEq, Repr

/-- A frame that the part has sent on a port: the structured headers, the Hykan header and the content before
encryption (Table 10.4, Table 10.5). -/
structure SentFrame where
  port : Nat
  dstMac : List Byte
  dst : IpAddr
  srcPort : Nat
  header : List Byte
  plain : List Byte
  deriving DecidableEq, Repr

/-- The optical engines, ports and the Hykan transport's device-wide state (10). Channels, keys, peers and windows
stand with their job. -/
structure Fabric where
  ports : Map Port := [] -- the 16 ports
  detached : List Nat := [] -- engines whose fibre connector is detached (R485)
  out : List SentFrame := [] -- Hykan frames sent, oldest first
  otherOut : List (Nat × List Byte) := [] -- ARP replies and Neighbor Advertisements sent, by port
  pktData : Nat := 4096 -- PKT_DATA (R276)
  rtoCounts : Nat := 20000 -- RTO_COUNTS (R278)
  retryLimit : Nat := 8 -- RETRY_LIMIT (R280)
  faultLimit : Nat := 16 -- FAULT_LIMIT (R273)
  rateWindow : Nat := 5000 -- RATE_WINDOW (R283)
  minRate : Nat := 1 -- MIN_RATE in Gb/s (R283)
  aiStep : Nat := 10 -- AI_STEP in Gb/s (R283)
  holdCounts : Nat := 1000000 -- HOLD_COUNTS (Table 10.3: 10 ms)
  fecLimit : Nat := 0 -- FEC_LIMIT (R258)
  keyAging : Bool := false -- HYK_STATUS.KEY_AGING
  peerQuarantined : Bool := false -- HYK_STATUS.PEER_QUARANTINED
  peerLost : Bool := false -- HYK_STATUS.PEER_LOST
  authFail : Bool := false -- HYK_STATUS.AUTH_FAIL
  agingCount : BitVec 16 := 0 -- HYK_EVENT_COUNT.AGING_COUNT
  quarantineCount : BitVec 16 := 0 -- HYK_EVENT_COUNT.QUARANTINE_COUNT
  lostCount : BitVec 16 := 0 -- HYK_EVENT_COUNT.LOST_COUNT
  authCount : BitVec 16 := 0 -- HYK_EVENT_COUNT.AUTH_COUNT
  malformed : BitVec 16 := 0 -- HYK_DROPS.MALFORMED
  unknownJob : BitVec 16 := 0 -- HYK_DROPS.UNKNOWN_JOB
  unknownPeer : BitVec 16 := 0 -- HYK_DROPS.UNKNOWN_PEER
  authDrops : BitVec 16 := 0 -- HYK_DROPS.AUTH
  duplicates : BitVec 16 := 0 -- HYK_RETX.DUPLICATE
  timeouts : BitVec 16 := 0 -- HYK_RETX.TIMEOUTS
  retxPackets : BitVec 32 := 0 -- HYK_RETX.PACKETS
  deriving DecidableEq, Repr

/-- The states of an owned chunk (Table 11.4); EMPTY is the absence of an entry. -/
inductive ChunkSt
  | opened | short | escalating | closed | failed | sent
  deriving DecidableEq, Repr

/-- A contribution that waits in its staging slot for its turn (R302). -/
structure Contribution where
  words : List Word -- its elements, decoded to FP32
  weight : Nat
  deriving DecidableEq, Repr

/-- A chunk at its owner, keyed by GSEQ × 1,024 + chunk index (11). -/
structure Chunk where
  st : ChunkSt := .opened -- Table 11.4
  step : Word
  bucket : Nat
  count : Nat
  act : Bool
  divide : Bool
  fmt : Nat -- WIRE_FMT of the first contribution
  rankOrder : Bool
  scale : Nat -- AGREED_SCALE
  sum : List Word := [] -- the running sum (R301, R302)
  taken : List Nat := [] -- contributors added, in the order taken
  waiting : Map Contribution := [] -- contributions not yet due (R302)
  d : Nat := 0 -- D (R306)
  openAt : BitVec 64 := 0 -- the count at its entry into OPEN (R304)
  escalated : Bool := false -- it has escalated (R312)
  result : List Byte := [] -- the data of its RESULT
  resultFmt : Nat := 2 -- the WIRE_FMT of its RESULT
  status : Status := .ok -- the status of its RESULT
  missing : List Nat := [] -- job ranks left out (R305)
  unacked : List Nat := [] -- table indexes of the members that have not acknowledged the RESULT
  deriving DecidableEq, Repr

/-- A RESULT, or an escalate request, that waits in its slot for the member's op (R299, R312). -/
structure EarlyResult where
  request : Bool := false -- an ESCALATE_REQ (R312)
  fmt : Nat
  status : Status
  d : Nat
  present : Nat
  missing : List Nat
  digest : Word
  data : List Byte
  escalated : Bool
  scale : Nat
  deriving DecidableEq, Repr

/-- A Windrow op on this member, from its start. -/
structure WRun where
  group : Nat
  gseq : Option Word := none -- its GSEQ once sent (R297)
  localOnly : Bool := false -- R293
  rank : Bool := false -- it runs in rank-order mode (R300)
  results : Map (Status × Word) := [] -- chunks complete on this member: status and DIGEST (R307, R310)
  unacked : List Nat := [] -- chunks whose contribution is not yet acknowledged (R291)
  elems : List Word := [] -- the elements it contributes, in FP32, formed once (R293, R296)
  fp32 : List Nat := [] -- chunks to be sent in FP32 (R312)
  waitSince : BitVec 64 := 0 -- start of the running RESULT_LIMIT wait (R309)
  whole : Option Status := none -- a status that ends the op as a whole (R291)
  saturated : Bool := false
  nanOut : Bool := false
  normSat : Bool := false
  deriving DecidableEq, Repr

/-- What a step record gathers of the running step (Table 11.6). -/
structure WStep where
  step : Word
  arrival : Bool := false -- an op ran in arrival-order mode
  rank : Bool := false -- an op ran in rank-order mode
  localOnly : Bool := false
  buckets : Nat := 0
  status : Status := .ok
  partialChunks : Nat := 0
  escalatedChunks : Nat := 0
  late : Nat := 0
  moved : Nat := 0
  dMin : Option Nat := none
  dMax : Nat := 0
  firstGseq : Option Word := none
  missing : List Nat := []
  deriving DecidableEq, Repr

/-- A Windrow reduction group (R286, Table 11.8). -/
structure WGroup where
  job : Nat
  memBase : Nat -- the member table's address
  members : List Word -- the member table (R287)
  own : Nat -- the device's own index in it
  roleKind : Nat
  channel : Nat
  reduceEvery : Nat
  baseStep : Word
  modeRank : Bool
  rankUntil : Word
  deadline : Nat := 500000
  quorum : Nat
  resultLimit : Nat := 10000000
  window : Nat
  slotSets : Nat
  slotBytes : Nat
  recBase : Nat
  log2Rec : Nat
  gseq0 : Word -- the initial GSEQ
  gseq : Word -- GSEQ (R297)
  sendStep : Option Word := none -- SEND_STEP; none before the first send
  sendBucket : Nat := 0 -- SEND_BUCKET
  lastStep : Option Word := none -- the previous step, when the previous sent op carried LAST
  expectBase : Word -- the GSEQ expected next of a contributor that `expect` does not list
  expect : Map Word := [] -- the GSEQ expected next of each contributor (R298)
  records : Word := 0 -- RECORDS (R314)
  firsts : List (Word × Word) := [] -- (step, GSEQ) of the bucket 0 of the steps sent, latest first (R332)
  lasts : List (Word × Word) := [] -- (step, GSEQ that followed its LAST) of the last 8 steps (R383)
  chunks : Map Chunk := [] -- the owned chunks
  early : Map EarlyResult := [] -- what waits in the result slots, by GSEQ × 1,024 + the owner's index
  digests : Map (Word × Word) := [] -- DIGEST and STEP of the results taken, by GSEQ × 1,024 + chunk (R310)
  empties : List Word := [] -- GSEQs sent in which the chunk that this member owns has no elements (R288)
  steps : List WStep := [] -- running step records
  written : List Word := [] -- the steps whose records have been written, latest first
  deriving DecidableEq, Repr

/-- The Windrow unit (11). -/
structure Windrow where
  groups : Map WGroup := [] -- groups 0 to 63
  runs : Map WRun := [] -- the started Windrow ops, by admission number
  moved : Bool := false -- WDR_STATUS.MOVED
  escalated : Bool := false -- WDR_STATUS.ESCALATED
  late : Bool := false -- WDR_STATUS.LATE
  partialSet : Bool := false -- WDR_STATUS.PARTIAL
  seqErr : Bool := false -- WDR_STATUS.SEQ_ERR
  lateCount : BitVec 16 := 0 -- WDR_EVENT_COUNT.LATE_COUNT
  escalateCount : BitVec 16 := 0 -- WDR_EVENT_COUNT.ESCALATE_COUNT
  partialCount : BitVec 16 := 0 -- WDR_EVENT_COUNT.PARTIAL_COUNT
  movedCount : BitVec 8 := 0 -- WDR_EVENT_COUNT.MOVED_COUNT
  seqCount : BitVec 8 := 0 -- WDR_EVENT_COUNT.SEQ_COUNT
  closed : BitVec 64 := 0 -- WDR_CHUNKS.CLOSED
  openPeak : Nat := 0 -- WDR_OPEN.PEAK
  deriving DecidableEq, Repr

/-- A message that waits after a ROLE_MOVED NAK (R324). -/
structure RoleWait where
  owner : MsgOwner
  key : Nat -- the sending channel context that holds its packets
  firstNak : BitVec 64
  epoch : Word -- the epoch the message carried
  resendAt : Option (BitVec 64) := none -- the count of the NAK, where the receiver's table lags
  sent : Bool := false -- it is sent again and not accepted yet
  deriving DecidableEq, Repr

/-- A Tedder home slot (R334). -/
structure TedHome where
  expert : Nat
  data0 : Nat
  scale0 : Nat
  data1 : Nat
  scale1 : Nat
  returns : Nat -- base of the return table
  counter : Nat -- COUNTER; bank b uses COUNTER + b
  deriving DecidableEq, Repr

/-- Tedder's configuration and banks of one job (Table 12.8). -/
structure Tedder where
  firstWorker : Nat
  sources : Nat
  cap : Nat
  d : Nat
  fmt : Nat
  topK : Nat
  homeSlots : Nat
  staging : Nat
  returnWin : Nat
  retRows : Nat
  channel : Nat
  homes : Map TedHome := [] -- by home slot
  expected : Map Nat := [] -- expected return count by bank; absent: no DISPATCH since the last COMBINE (R340)
  returned : Map Nat := [] -- return count by bank (R339)
  deriving DecidableEq, Repr

/-- A credit link (R346). -/
structure CreditLink where
  watch : Nat
  roleKind : Nat
  roleIndex : Nat
  window : Nat
  offset : Nat
  remote : Nat
  channel : Nat
  failed : Bool := false -- it sends nothing more (R347)
  deriving DecidableEq, Repr

/-- A region of a Baler set (R354). -/
structure BRegion where
  set : Nat
  kind : Nat
  ordinal : Nat
  base : Nat
  len : Nat
  deriving DecidableEq, Repr

/-- Baler's state of a job (Table 13.7). -/
inductive BalSt
  | idle | paused | capturing | verifying | unverified | failed
  deriving DecidableEq, Repr

/-- A section of the open image (Table 13.3). -/
structure Section where
  kind : Nat
  ordinal : Nat
  source : Nat -- 0 ride and sweep, 1 snapshot copy, 2 drained during the pause
  base : Nat -- region base at capture
  len : Nat -- unpadded bytes
  offset : Nat -- DATA_OFFSET
  area : Nat := 0 -- where its copy stands in the snapshot area
  table : Nat := 0 -- where its leaf table stands in the snapshot area
  leaves : Map (List Byte) := [] -- leaf of each captured unit
  deriving DecidableEq, Repr

/-- The image that a job captures (13), from SNAPSHOT's copy on. -/
structure Image where
  ckptSeq : Word
  step : Word
  noRoom : Bool -- NO_ROOM (R368)
  sections : List Section
  windrow : List Byte -- the WINDROW_STATE section
  bitmap : Nat -- where the capture bitmap stands in the snapshot area (R366)
  loss : Option (List Byte) := none -- LOSS, once LOSS_VALID (R371)
  op : Option Nat := none -- the LOSS_RECORD op that runs
  manifest : List Byte := [] -- the manifest, once sent with SEAL
  deriving DecidableEq, Repr

/-- What a GET that Baler has outstanding is for (R360). -/
inductive GetUse
  | restore                 -- RESTORE
  | relay                   -- the far relay (R373)
  | refill (sector : Nat)   -- a refill from the store (R209)
  deriving DecidableEq, Repr

/-- An outstanding GET (R360). -/
structure Get where
  far : Bool -- the FAR target, else NEAR
  jobId : Word
  rank : Nat
  ckptSeq : Word
  offset : Nat
  units : Nat
  use : GetUse
  deriving DecidableEq, Repr

/-- A RESTORE that runs (R374). -/
structure Restore where
  op : Nat
  set : Nat
  far : Bool
  rank : Nat
  ckptSeq : Word
  manifest : List Byte := [] -- the manifest, once read and verified
  todo : List Nat := [0] -- image offsets of the units to read, in order
  tables : Map (List Byte) := [] -- leaf-table and WINDROW_STATE units read, by image offset
  placing : Bool := false -- these are verified, and the sections are being read
  wrote : Bool := false -- a unit has been written to the set
  deriving DecidableEq, Repr

/-- The far relay of a sealed image (R373). -/
structure Relay where
  ckptSeq : Word
  manifest : List Byte -- the manifest of the sealed image
  todo : List Nat -- image offsets of the units to read, in order: every leaf table, then the sections
  tables : Map (List Byte) := [] -- leaf-table units read, by image offset
  sealSent : Bool := false
  deriving DecidableEq, Repr

/-- A peer DIGEST message that arrived early (R380). -/
structure EarlyDigest where
  rank : Nat -- the sender's rank
  step : Word
  rangeId : Nat
  kind : Nat
  ordinal : Nat
  offset : Nat
  units : Nat
  digest : List Byte
  deriving DecidableEq, Repr

/-- A DIGEST op that has sent its digest (R380). -/
structure DigestRun where
  op : Nat
  digest : List Byte
  since : BitVec 64
  deriving DecidableEq, Repr

/-- A fill that this device serves (R383). -/
structure Serve where
  set : Nat -- the source set
  rank : Nat -- the destination's rank
  destSet : Nat
  doneSent : Bool := false -- scale history and FILL_DONE are sent
  deriving DecidableEq, Repr

/-- Baler's state of one job (13). -/
structure Baler where
  area : Nat -- snapshot area base
  areaLen : Nat
  channel : Nat
  farEvery : Nat
  farRate : Nat
  digestLimit : Nat := 10000000
  ckptSeq : Word
  st : BalSt := .idle -- Table 13.7
  regions : List BRegion := [] -- the registered regions, in order
  mirrors : Map Nat := [] -- MIRRORS of sets 1 to 15
  near : Option Peer := none -- the NEAR store target (R358)
  far : Option Peer := none -- the FAR store target (R358)
  image : Option Image := none -- the open image
  imageStep : Word := 0 -- STEP of the latest image
  snapshotOp : Option Nat := none -- the SNAPSHOT op that runs
  verifyStep : Word := 0 -- VERIFY_STEP of the restored image
  loss : List Byte := [] -- LOSS of the restored image
  gets : List Get := [] -- the GETs outstanding
  restore : Option Restore := none
  relay : Option Relay := none
  digests : List EarlyDigest := [] -- early peer DIGEST messages, at most 16 (R380)
  digestRuns : List DigestRun := []
  historyOps : List Nat := [] -- HISTORY_SYNC ops whose message is not yet acknowledged
  serves : List Serve := [] -- fills served, at most 4 (R382)
  fills : Map Nat := [] -- FILL ops that run: op → destination set
  stateStep : Word := 0 -- STATE_STEP of the latest fill (R384)
  setSteps : Map Word := [] -- STEP of the last update op completed on each set (R383)
  served : Nat := 0 -- fills served, for BAL_STATE_READ
  received : Nat := 0 -- fills received
  deriving DecidableEq, Repr

/-- A hold of a job: what holds it waits for the ops in flight at its start (R175, R365, R378, R383). -/
structure JobHold where
  op : Option Nat -- the PHASE, SNAPSHOT or HISTORY_SYNC op; none: a fill that the job serves
  awaits : List Nat
  since : Option (BitVec 64) := none -- count at which the held ops had ended (BAL_LAST_PAUSE)
  deriving DecidableEq, Repr

/-- A heartbeat sequence and acceptance record of one key slot (R425). -/
structure HbSlot where
  sent : Nat := 0 -- HB_SEQ of the last heartbeat sent
  accepted : Map Nat := [] -- last HB_SEQ accepted, by peer rank
  deriving DecidableEq, Repr

/-- A bound job (12). -/
structure Job where
  lea : Nat
  jobId : Word
  rank : Nat
  ranks : Nat
  seed : Nat
  scaleRegion : Nat
  stepRegion : Nat
  mapRegion : Nat
  gatherHier : Bool := false
  nodeSize : Nat := 1
  segLimit : Nat := 65536
  fallowLimit : Nat := 200000
  resolveCounts : Nat := 10000000
  scaleHdr : List Word := [] -- the scale history region's header as read at bind or restore (R154)
  stepHdr : List Word := [] -- the training-step region's header as read at bind or restore (R173)
  backward : Bool := false -- PHASE is BACKWARD, as the hub keeps it (R173, Table 7.1)
  logNext : Word := 0 -- LOG_NEXT, as the hub keeps it (R173, Table 7.1)
  recomputes : Nat := 0 -- RECOMPUTES, as the hub keeps it (R173, Table 7.1)
  mapHdr : List Word := [] -- the mapping region's header as read at bind or restore (R320)
  logSince : Option Word := none -- LOG_NEXT at the latest change to FORWARD (R183)
  replayPending : Bool := false -- REPLAY_PENDING (R331)
  updateStep : Option Word := none -- the latest STEP of an update op (JOB_READ)
  updateSteps : List Word := [] -- the STEPs of update ops that have started (R332)
  lastBucket : Nat := 0 -- BUCKET of the latest Windrow op with LAST completed (Table 15.3)
  keys : Map KeySlot := [] -- the two key slots (R267)
  sendSlot : Option Nat := none -- the sending slot (R269)
  hb : Map HbSlot := [] -- heartbeat sequences by key slot (R425)
  peers : Map Peer := [] -- the peer table by rank (R270)
  windows : Map Window := [] -- the receive windows (R271)
  tx : Map TxChan := [] -- sending channel contexts
  rx : Map RxChan := [] -- receiving channel contexts
  shards : Map (Nat × Nat) := [] -- registered shards: base and BYTES (R326)
  tedder : Option Tedder := none
  links : Map CreditLink := [] -- credit links (R346)
  baler : Option Baler := none
  waits : List RoleWait := [] -- messages that wait under R324
  hold : Option JobHold := none -- what holds the job's further ops
  deriving DecidableEq, Repr

/-- A store object that refills read (Table 13.11, BAL_OBJECT_SET). -/
structure StoreObject where
  far : Bool -- the FAR target, else NEAR
  jobId : Word
  rank : Nat
  ckptSeq : Word
  sect : Nat -- index of the section in the section table
  base : Nat -- the base that the section stands for
  deriving DecidableEq, Repr

/-- The job units' device-wide registers (12, 13). -/
structure Units where
  linkFailed : Bool := false -- HUB_MAP_STATUS.LINK_FAILED
  resolveFailed : Bool := false -- HUB_MAP_STATUS.RESOLVE_FAILED
  shardChanged : Bool := false -- HUB_MAP_STATUS.SHARD_CHANGED
  linkCount : BitVec 8 := 0 -- HUB_MAP_EVENT_COUNT.LINK_COUNT
  resolveCount : BitVec 8 := 0 -- HUB_MAP_EVENT_COUNT.RESOLVE_COUNT
  shardCount : BitVec 16 := 0 -- HUB_MAP_EVENT_COUNT.SHARD_COUNT
  tedPeerLost : Bool := false -- TED_STATUS.PEER_LOST
  tedBadMessage : Bool := false -- TED_STATUS.BAD_MESSAGE
  tedDropped : Bool := false -- TED_STATUS.DROPPED
  tedLostCount : BitVec 16 := 0 -- TED_EVENT_COUNT.LOST_COUNT
  tedBadCount : BitVec 16 := 0 -- TED_EVENT_COUNT.BAD_COUNT
  tedDropCount : BitVec 32 := 0 -- TED_EVENT_COUNT.DROP_COUNT
  tedRows : BitVec 64 := 0 -- TED_ROWS.ROWS
  tedRuns : Map Nat := [] -- DISPATCH and RETURN ops whose messages are sent and not all acknowledged: DETAIL
  restoreFailed : Bool := false -- BAL_STATUS.RESTORE_FAILED
  farSkipped : Bool := false -- BAL_STATUS.FAR_SKIPPED
  farSealed : Bool := false -- BAL_STATUS.FAR_SEALED
  digestMismatch : Bool := false -- BAL_STATUS.DIGEST_MISMATCH
  replayMismatch : Bool := false -- BAL_STATUS.REPLAY_MISMATCH
  verified : Bool := false -- BAL_STATUS.VERIFIED
  abandoned : Bool := false -- BAL_STATUS.ABANDONED
  sealed : Bool := false -- BAL_STATUS.SEALED
  mismatchCount : BitVec 16 := 0 -- BAL_EVENT_COUNT.MISMATCH_COUNT
  abandonCount : BitVec 16 := 0 -- BAL_EVENT_COUNT.ABANDON_COUNT
  farCount : BitVec 16 := 0 -- BAL_EVENT_COUNT.FAR_COUNT
  sealedCount : BitVec 16 := 0 -- BAL_EVENT_COUNT.SEALED_COUNT
  rideUnits : BitVec 64 := 0 -- BAL_RIDE_UNITS.UNITS
  sweepUnits : BitVec 64 := 0 -- BAL_SWEEP_UNITS.UNITS
  lastPause : Nat := 0 -- BAL_LAST_PAUSE.COUNTS
  fillsDropped : BitVec 8 := 0 -- BAL_FILLS.DROPPED
  fillCount : BitVec 16 := 0 -- BAL_FILLS.FILL_COUNT
  objects : Map StoreObject := [] -- store objects 1 to 255 (Table 13.11)
  deriving DecidableEq, Repr

/-- An entry of the Hedgerow source table (R420). -/
structure SrcEntry where
  mac : List Byte
  rate : Nat
  burst : Nat
  blocked : Bool := false
  tokens : Nat -- tokens in its bucket (R421)
  drops : Nat := 0 -- drops at checks 3, 5, 7 and 8, for MGT_SRC_READ
  recent : Nat := 0 -- such drops in the running interval of 2^20 counts (R422)
  deriving DecidableEq, Repr

/-- A heartbeat's path (R424). -/
inductive HbPath
  | hedgerow | fabric | both
  deriving DecidableEq, Repr

/-- A heartbeat entry (R424). -/
structure HbEntry where
  job : Nat
  rank : Nat -- the peer's rank
  mac : List Byte -- the peer's Hedgerow MAC address
  path : HbPath
  interval : Nat := 1000000
  missLimit : Nat := 5
  since : BitVec 64 -- the count at which the running INTERVAL started
  heard : Bool := false -- a heartbeat was accepted in the running interval
  lost : Bool := false -- it has stopped counting misses (R427)
  misses : Nat := 0 -- MGT_HB.MISSES
  lastFabric : Bool := false -- MGT_HB.LAST_PATH
  peerStep : Word := 0 -- MGT_HB.PEER_STEP
  deriving DecidableEq, Repr

/-- A Hedgerow host ring (R428). -/
structure HdrRing where
  hbm : Bool
  base : Nat
  log2 : Nat
  index : Nat := 0 -- entries written (receive) or taken (transmit)
  deriving DecidableEq, Repr

/-- A frame queued for transmission (R417). -/
structure HdrFrame where
  tier : Nat -- 1 heartbeats, 2 Cihal's frames, 3 the host ring
  bytes : List Byte -- from the destination address, without the FCS
  attempts : Nat := 0 -- collisions so far (R415)
  backoff : Option Nat := none -- slot times it waits (R415)
  deriving DecidableEq, Repr

/-- Armed staging (R431). -/
structure Staging where
  armId : Word
  mac : List Byte
  len : Nat
  next : Nat := 0 -- the next expected offset
  deriving DecidableEq, Repr

/-- The Hedgerow port (15). -/
structure Hedgerow where
  mac : List Byte := [] -- MGT_MAC.ADDRESS (fused, or set by MGT_ADDR_SET)
  multicast : List (List Byte) := [] -- its multicast addresses
  sources : Map SrcEntry := [] -- the source table (R420)
  sharedTokens : Nat := 16 -- tokens of the bucket of unknown sources (R420)
  sharedDrops : List (List Byte × Nat) := [] -- drops of unknown sources in the running interval (R422)
  rxRing : Option HdrRing := none
  txRing : Option HdrRing := none
  rxHead : Nat := 0 -- MGT_RING.RX_HEAD
  txTail : Nat := 0 -- MGT_RING.TX_TAIL
  hb : Map HbEntry := [] -- the heartbeat entries (R424)
  staging : Option Staging := none -- MGT_STATUS.STAGE_ARMED (R431)
  queue : List HdrFrame := [] -- frames queued for transmission, in order of queuing
  sentOut : List (List Byte) := [] -- frames sent on the segment, FCS included, oldest first
  heldHealth : List (List Byte) := [] -- health requests held during a handover (R457)
  healthSent : Nat := 0 -- health responses in the running interval (R430)
  seed : Nat := 0 -- the seed of the back-off generator (R415)
  interval : Nat := 0 -- the interval of 2^20 counts up to which the buckets are refilled (R421)
  gen : Nat := 0 -- draws taken from the back-off generator (R415)
  mediumStuck : Bool := false -- MGT_STATUS.MEDIUM_STUCK
  hbLost : Bool := false -- MGT_STATUS.HB_LOST
  srcBlocked : Bool := false -- MGT_STATUS.SRC_BLOCKED
  authFail : Bool := false -- MGT_STATUS.AUTH_FAIL
  stuckEvent : Bool := false -- MGT_STATUS.STUCK_EVENT
  lostCount : BitVec 16 := 0 -- MGT_EVENT_COUNT.LOST_COUNT
  blockCount : BitVec 16 := 0 -- MGT_EVENT_COUNT.BLOCK_COUNT
  authCount : BitVec 16 := 0 -- MGT_EVENT_COUNT.AUTH_COUNT
  stuckCount : BitVec 16 := 0 -- MGT_EVENT_COUNT.STUCK_COUNT
  healthRate : Nat := 0x40 -- MGT_CFG.HEALTH_RATE
  blockLimit : Nat := 0x40 -- MGT_CFG.BLOCK_LIMIT
  halfEvent : Bool := false -- MGT_CFG.HALF_EVENT
  deliverBad : Bool := false -- MGT_CFG.DELIVER_BAD
  healthEn : Bool := true -- MGT_CFG.HEALTH_EN
  txEn : Bool := true -- MGT_CFG.TX_EN
  stuckCounts : Word := 0x00030D40 -- MGT_STUCK_CFG.COUNTS
  ctr : Map Word := [] -- MGT_CTR[i].COUNT
  half : Word := 0 -- MGT_CTR_HALF.HALF
  halfCount : Word := 0 -- MGT_CTR_HALF_COUNT.EVENTS
  deriving DecidableEq, Repr

/-- A copy of the device record (Table 16.5); its CRC-32 is formed when it is read. -/
structure Record where
  keygen : Nat := 0
  seq : Word := 0
  leafLimit : Nat := 0
  bootCount : Word := 0
  faultNext : Nat := 0
  lanes : Map Word := [] -- LANES by word index, zero where not listed
  log : Map (List Word) := [] -- FAULT_LOG entries, 8 words each
  deriving DecidableEq, Repr

/-- The fuses (Table 16.2 step 3). -/
structure Fuses where
  identity : List Byte := [] -- 16 bytes
  keyHash : List Byte := [] -- the vendor key hash
  minSvn : Nat := 0 -- the fused minimum SVN
  keygen : Nat := 0 -- KEYGEN fuse bits burnt, 0 to 4 (R453)
  mac : List Byte := [] -- the port's MAC address
  revision : Nat := 0 -- the part's ordering revision
  lanes : List Nat := [] -- fused lane maps: lanes unused from assembly, as LANES words without FAILS
  deriving DecidableEq, Repr

/-- A handover that runs (R457). -/
structure Handover where
  bank : Nat -- the bank it starts
  since : BitVec 64 -- the count of its step 3
  reverting : Bool := false -- it runs from the winning bank (R459)
  deriving DecidableEq, Repr

/-- Cihal's firmware, the two-bank store and the signing state (16). -/
structure Firmware where
  fuses : Fuses := {}
  flash : List Host.Cell := [] -- the two banks' flash cells, by flash offset; erased (0xFF) where not listed
  rec0 : Option Record := none -- device record copy 0; none: not valid
  rec1 : Option Record := none -- device record copy 1
  version : Word := 0 -- the running firmware version
  running : Nat := 0 -- CIH_FW_STATUS.RUNNING_BANK
  rom : Bool := true -- Cihal runs its ROM: no image has started
  coldTrial : Bool := false -- the running image is a cold trial (R462)
  coldSince : BitVec 64 := 0 -- the count at which the cold trial started
  verified : Option Nat := none -- the bank marked VERIFIED (R456)
  coldPending : Bool := false -- CIH_FW_STATUS.COLD_PENDING
  noImage : Bool := false -- CIH_FW_STATUS.NO_IMAGE
  reverted : Bool := false -- CIH_FW_STATUS.REVERTED
  activated : Bool := false -- CIH_FW_STATUS.ACTIVATED
  verifyFail : Bool := false -- CIH_FW_STATUS.VERIFY_FAIL
  handover : Option Handover := none -- CIH_FW_STATUS.HANDOVER
  fwAlive : Nat := 100000000 -- FW_ALIVE (R459)
  revertCount : BitVec 16 := 0 -- CIH_FW_EVENT_COUNT.REVERT_COUNT
  activateCount : BitVec 16 := 0 -- CIH_FW_EVENT_COUNT.ACTIVATE_COUNT
  lanesFull : Bool := false -- CIH_STORE_STATUS.LANES_FULL
  keygenAdvanced : Bool := false -- CIH_STORE_STATUS.KEYGEN_ADVANCED
  writeFail : Bool := false -- CIH_STORE_STATUS.WRITE_FAIL
  recordWritten : Bool := false -- CIH_STORE_STATUS.RECORD_WRITTEN
  failCount : BitVec 16 := 0 -- CIH_STORE_EVENT_COUNT.FAIL_COUNT
  writeCount : BitVec 16 := 0 -- CIH_STORE_EVENT_COUNT.WRITE_COUNT
  nextLeaf : Nat := 0 -- CIH_LEAF.NEXT
  leafUnknown : Bool := false -- the leaf state is unknown (R445, R453)
  lastSign : Option (BitVec 64) := none -- the count of the last signature (R452)
  attestArgs : Option (List Word) := none -- the arguments of a deferred ATTEST (R452)
  coldWait : Option ColdStart := none -- a cold start that waits at step 2 or step 6, with what its later steps meet
  totalEvents : Word := 0 -- fault events queued across all leas since cold start (Table 15.5)
  deriving DecidableEq, Repr

/-- The power manager (16). Voltages in mV, temperatures in 1/16 °C, power in W. -/
structure Power where
  target : Nat := 750 -- PWR_VCORE.TARGET_MV
  actual : Nat := 0 -- PWR_VCORE.ACTUAL_MV
  vCap : Nat := 0 -- the voltage that the cap rule allows (R465, R466)
  vTherm : Nat := 0 -- the voltage that the thermal rule allows (R465, R468)
  cap : Nat := 1200
  gain : Nat := 10
  hyst : Nat := 20
  throttle : Nat := 95 -- THROTTLE in °C
  limitCap : Bool := false -- the issue limit of the cap rule is on (R466)
  limitOc : Bool := false -- the issue limit of an over-current warning is on (R467)
  limitCrit : Bool := false -- the issue limit of CRIT is on (Table 16.11)
  throttling : Bool := false -- Tj has reached THROTTLE and not yet fallen below THROTTLE − 3 °C
  lowered : Bool := false -- the cap rule has lowered v since the last cap setting (R469)
  loweredTherm : Bool := false -- the thermal rule has lowered v since the last setting (R469)
  ocEvent : Bool := false -- PWR_STATUS.OC_EVENT
  thermCrit : Bool := false -- PWR_STATUS.THERM_CRIT
  thermThrottle : Bool := false -- PWR_STATUS.THERM_THROTTLE
  capThrottle : Bool := false -- PWR_STATUS.CAP_THROTTLE
  ocCount : BitVec 16 := 0 -- PWR_EVENT_COUNT.OC_COUNT
  critCount : BitVec 16 := 0 -- PWR_EVENT_COUNT.CRIT_COUNT
  thermCount : BitVec 16 := 0 -- PWR_EVENT_COUNT.THERM_COUNT
  capCount : BitVec 16 := 0 -- PWR_EVENT_COUNT.CAP_COUNT
  peakW : Nat := 0 -- PWR_POWER.PEAK_W
  windowW : Nat := 0 -- PWR_POWER.WINDOW_W
  hotSensor : Nat := 0 -- PWR_TEMP.HOT_SENSOR
  tj : Int := 0 -- PWR_TEMP.TJ
  tripped : Bool := false -- THERM_TRIP_N is asserted (R470)
  coreOff : Bool := true -- the core supply of all dies is removed (R470)
  deriving DecidableEq, Repr

/-- The boundary-scan instructions (R482). -/
inductive JtagInstr
  | bypass | idcode | samplePreload | extest | clamp
  deriving DecidableEq, Repr

/-- The board-side pins and sidebands (17). -/
structure Board where
  powered : Bool := true -- the rails are up (R436)
  jtag : JtagInstr := .idcode -- the boundary-scan instruction loaded (R482)
  i3cAddr : Option (BitVec 7) := none -- the I3C dynamic address (R472)
  lastI3c : List Byte := [] -- the data of the latest I3C private read (R472)
  deriving DecidableEq, Repr

/-- What a delivered message is for its unit (Table 11.3, 12, 13). -/
inductive MsgKind
  | contrib | result | escalateReq | tokens | returnRecords | getData | sealed | refused | digest | history
  | fillReq | fillData | fillDone | fillAbort
  deriving DecidableEq, Repr

/-- A message delivered to a unit of the hub and not yet handled (R275), oldest first. -/
structure Delivery where
  kind : MsgKind
  job : Nat -- job handle
  rank : Nat -- the sender's rank; 0xFFFE and 0xFFFD are the NEAR and FAR targets (R358)
  channel : Nat
  target : Nat -- TARGET of the placement record
  offset : Nat
  body : List Byte
  roleKind : Nat
  roleIndex : Nat
  step : Word
  deriving DecidableEq, Repr

/-- A refill request that a device holds until its last-write step reaches the requested one (R210). -/
structure HeldRefill where
  job : Nat
  rank : Nat
  sectorReq : List Byte -- the body of the request
  epoch : Nat
  deriving DecidableEq, Repr

/-- The whole part. -/
structure State where
  pending : List Instr := [] -- the commands that wait, first in, first out
  hub : Hub := {}
  leas : Map Lea := []
  jobs : Map Job := []
  edge : Edge := {}
  pcie : Pcie := {}
  out : Outputs := {}
  array : ArrayUnit := {}
  scalar : Scalar := {}
  scale : Scale := {}
  train : Step := {}
  mem : Memory := {}
  dies : Dies := {}
  fab : Fabric := {}
  wdr : Windrow := {}
  units : Units := {}
  hdr : Hedgerow := {}
  fw : Firmware := {}
  pwr : Power := {}
  board : Board := {}
  delivered : List Delivery := [] -- messages delivered to a unit and not yet handled (R275)
  heldRefills : List HeldRefill := [] -- refill requests held (R210)
  deriving DecidableEq, Repr

/-- The default quotas of lea 0 (Table 14.1). -/
def Quotas.leaZero : Quotas :=
  { queues := 4096, rings := 512, counters := 4096, norm := 65536, inflight := 1024, jobs := 256, contexts := 32768,
    pinMib := 256, grants := 16 }

/-- The part right after reset: in BOOT, before step 2 of Table 16.2, lea 0 DISABLED and every other lea ABSENT (R502),
every register at the reset value of its table. -/
def State.reset : State := { leas := [(0, { st := .disabled, quotas := Quotas.leaZero })] }

end Sys2Proof.Machine
end

