-- ==== Sys2Proof/Machine/Ops.lean ====
section
/-!
DEFINITION. Machine/Ops.lean: the named operations over the state that every unit shares: device and lea states, the
Cihal domain counter, interrupts and fault events, grants, HBM with its classes and errors, and event counters.
-/

namespace Sys2Proof.Machine

/-! ## Codes -/

/-- The code of a status (Table 2.10). -/
def Status.code : Status → Nat
  | .ok => 0x0000 | .partialDone => 0x0001 | .escalated => 0x0002 | .recomputed => 0x0003
  | .badVersion => 0x0100 | .badMessage => 0x0101 | .unknownCommand => 0x0102 | .badOpclass => 0x0103
  | .badArgument => 0x0104 | .badHandle => 0x0105 | .denied => 0x0106 | .stateMismatch => 0x0107
  | .noResource => 0x0108
  | .roleMoved => 0x0200 | .shardChanged => 0x0201 | .cancelled => 0x0202 | .depFailed => 0x0203
  | .poison => 0x0300 | .edgeOffline => 0x0301 | .seqMismatch => 0x0302 | .unitFault => 0x0303
  | .peerLost => 0x0400 | .authFail => 0x0401 | .peerRefused => 0x0402
  | .digestMismatch => 0x0500 | .replayMismatch => 0x0501 | .signature => 0x0502 | .storeFault => 0x0503
  | .leafExhausted => 0x0504

/-- Every status code of Table 2.10. -/
def Status.all : List Status :=
  [.ok, .partialDone, .escalated, .recomputed, .badVersion, .badMessage, .unknownCommand, .badOpclass, .badArgument,
   .badHandle, .denied, .stateMismatch, .noResource, .roleMoved, .shardChanged, .cancelled, .depFailed, .poison,
   .edgeOffline, .seqMismatch, .unitFault, .peerLost, .authFail, .peerRefused, .digestMismatch, .replayMismatch,
   .signature, .storeFault, .leafExhausted]

/-- The status that a code names. -/
def Status.ofCode (n : Nat) : Option Status := Status.all.find? fun s => s.code == n

/-- Class 0x00: completed (Table 2.10). -/
def Status.good (s : Status) : Bool := s.code / 256 == 0

/-- Class 0x01: rejected without side effect (R54). -/
def Status.rejected (s : Status) : Bool := s.code / 256 == 1

/-- The code of a device state (Table 2.5). -/
def DevState.code : DevState → Nat
  | .boot => 0 | .ready => 1 | .run => 2 | .halted => 3

/-- The code of a lea state (LEA_STATE.STATE). -/
def LeaSt.code : LeaSt → Nat
  | .absent => 0 | .disabled => 1 | .enabled => 2 | .resetting => 3 | .faulted => 4

/-- The code of a reset's cause (LEA_RESET_STATUS.CAUSE). -/
def ResetCause.code : ResetCause → Nat
  | .leaReset => 0 | .flr => 1 | .leaDisable => 2 | .vfClear => 3

/-! ## Leas, jobs, dies and ports -/

/-- The lea with this number; a lea that the part does not list is ABSENT. -/
def State.lea (s : State) (l : Nat) : Lea := s.leas.getD l {}

/-- The state with `f` applied to lea `l`, where the part lists it. -/
def State.modLea (s : State) (l : Nat) (f : Lea → Lea) : State :=
  match s.leas.find l with
  | none => s
  | some x => { s with leas := s.leas.insert l (f x) }

/-- The state with `f` applied to job `j`, where it is bound. -/
def State.modJob (s : State) (j : Nat) (f : Job → Job) : State :=
  match s.jobs.find j with
  | none => s
  | some x => { s with jobs := s.jobs.insert j (f x) }

/-- Job `j`, if it is bound to lea `l` (R41, R53). -/
def State.jobOf (s : State) (l j : Nat) : Option Job :=
  match s.jobs.find j with
  | none => none
  | some x => if x.lea = l then some x else none

/-- The state with `f` applied to op `n`, where it is in flight. -/
def State.modOp (s : State) (n : Nat) (f : Op → Op) : State :=
  match s.hub.ops.find n with
  | none => s
  | some o => { s with hub := { s.hub with ops := s.hub.ops.insert n (f o) } }

/-- Die `d`. -/
def State.die (s : State) (d : Nat) : Die := s.dies.die.getD d {}

/-- The state with `f` applied to die `d`. -/
def State.modDie (s : State) (d : Nat) (f : Die → Die) : State :=
  { s with dies := { s.dies with die := s.dies.die.insert d (f (s.die d)) } }

/-- Port `p`. -/
def State.port (s : State) (p : Nat) : Port := s.fab.ports.getD p {}

/-- The state with `f` applied to port `p`. -/
def State.modPort (s : State) (p : Nat) (f : Port → Port) : State :=
  { s with fab := { s.fab with ports := s.fab.ports.insert p (f (s.port p)) } }

/-- The state with another device state; a change is counted (HUB_DEVICE_STATE). -/
def State.setDev (s : State) (d : DevState) : State :=
  if s.hub.dev = d then s
  else { s with hub := { s.hub with dev := d, devChanges := s.hub.devChanges + 1 } }

/-- A lea in another state; a change is counted (LEA_STATE.CHANGE_COUNT). -/
def Lea.goto (x : Lea) (st : LeaSt) : Lea :=
  if x.st = st then x else { x with st := st, changeCount := x.changeCount + 1 }

/-- The state with lea `l` in another state. -/
def State.setLeaSt (s : State) (l : Nat) (st : LeaSt) : State := s.modLea l fun x => x.goto st

/-- Whether the device is in READY or RUN (the legal state of most device commands). -/
def State.live (s : State) : Bool := s.hub.dev = .ready ∨ s.hub.dev = .run

/-- The ops of lea `l` in flight. -/
def State.leaOps (s : State) (l : Nat) : Map Op := s.hub.ops.sel fun _ o => o.lea == l

/-- The job handle in an op's header (Table 2.9). -/
def Op.job (o : Op) : Nat := fld (wordAt o.hdr 2) 15 0
/-- The op class (Table 2.9). -/
def Op.cls (o : Op) : Nat := fld (wordAt o.hdr 0) 31 24
/-- The STEP of an op (Table 2.9). -/
def Op.step (o : Op) : Word := wordAt o.hdr 3
/-- The INSTANCE of an op (Table 2.9). -/
def Op.inst (o : Op) : Word := wordAt o.hdr 6
/-- The SEGMENT of an op (Table 2.9). -/
def Op.segment (o : Op) : Nat := fld (wordAt o.hdr 7) 31 16
/-- The MICROBATCH of an op (Table 2.9). -/
def Op.microbatch (o : Op) : Nat := fld (wordAt o.hdr 7) 15 0
/-- FALLOW_OK (Table 2.9). -/
def Op.fallowOk (o : Op) : Bool := bit (wordAt o.hdr 0) 13
/-- Bits [hi:lo] of body word `i`. -/
def Op.f (o : Op) (i hi lo : Nat) : Nat := fld (wordAt o.body i) hi lo
/-- Body word `i`. -/
def Op.w (o : Op) (i : Nat) : Word := wordAt o.body i
/-- The 48-bit address in body words `i` and `i + 1`. -/
def Op.addr (o : Op) (i : Nat) : Nat := addr48 (wordAt o.body i) (wordAt o.body (i + 1))
/-- Whether the op's work has not ended. -/
def Op.live (o : Op) : Bool :=
  match o.phase with
  | .waiting | .running => true
  | _ => false
/-- Whether the op has started and its work has not ended. -/
def Op.running (o : Op) : Bool := o.phase = .running

/-- The ops of job `j` in flight. -/
def State.jobOps (s : State) (j : Nat) : Map Op := s.hub.ops.sel fun _ o => o.job == j && j != 0xFFFF

/-- Op `n` with its work ended with this status and DETAIL; OP_COMPLETION writes its entry. -/
def State.endOp (s : State) (n : Nat) (st : Status) (detail : Nat := 0) : State :=
  s.modOp n fun o => if o.live then { o with phase := .done st detail } else o

/-! ## The Cihal domain counter and the edge domains -/

/-- The Cihal domain counter (R27). -/
def State.now (s : State) : BitVec 64 := s.edge.count

/-- The counts since `t`. -/
def State.elapsed (s : State) (t : BitVec 64) : Nat := (s.edge.count - t).toNat

/-- The number of the running interval of 2^20 counts (R272, R238, R421). -/
def State.interval (s : State) : Nat := s.edge.count.toNat / 2 ^ 20

/-- Whether edge domain `d` is running with its boundary queues open (HUB_EDGE_ONLINE). -/
def State.edgeOn (s : State) (d : Nat) : Bool := s.edge.online.getLsbD d

/-- Whether edge domain `d` is fenced (HUB_EDGE_FENCED). -/
def State.edgeFenced (s : State) (d : Nat) : Bool := s.edge.fenced.getLsbD d

/-- Whether Cihal serves the mailboxes (R37, R457). -/
def State.cihalServes (s : State) : Bool := s.edgeOn 31 && s.fw.handover.isNone

/-! ## Interrupts and fault events -/

/-- Whether vector `v` of a lea is masked in its MSI-X table; the Mask bit is 1 until written, as PCIe gives it. -/
def Lea.masked (x : Lea) (v : Nat) : Bool := bit (x.msix.getD (4 * v + 3) 1) 0

/-- Lea `l` signals MSI-X vector `v` (R404): a masked vector becomes pending, and a message waits while the link is
down (R48). -/
def State.interrupt (s : State) (l v : Nat) : State :=
  if (s.lea l).masked v then s.modLea l fun x => { x with pba := x.pba ||| (1#64 <<< v) }
  else if s.pcie.up then { s with out := { s.out with msix := s.out.msix ++ [(l, v)] } }
  else { s with out := { s.out with msixHeld := s.out.msixHeld ++ [(l, v)] } }

/-- Whether a lea's fault-event queue takes no event: it is full, or a reset discards the event (R405, R410). -/
def Lea.dropsEvent (x : Lea) : Bool := (x.resetting.any fun r => !r.returned) || 64 ≤ x.events.length

/-- A fault event reaches a lea's queue (R405); SEQ counts every event queued to the lea, dropped ones included. -/
def Lea.takeEvent (x : Lea) (e : FaultEvent) : Lea :=
  if x.dropsEvent then { x with evSeq := x.evSeq + 1, evOverflow := true, evDropped := x.evDropped + 1 }
  else { x with evSeq := x.evSeq + 1, evQueued := true, evQueuedCount := x.evQueuedCount + 1,
                events := x.events ++ [{ e with seq := (x.evSeq + 1).toNat }] }

/-- A fault event for lea `l` takes effect now (R405). -/
def State.applyEvent (s : State) (l : Nat) (e : FaultEvent) : State :=
  let dropped := (s.lea l).dropsEvent
  let s := s.modLea l fun x => x.takeEvent e
  let s := if dropped then s else { s with fw := { s.fw with totalEvents := s.fw.totalEvents + 1 } }
  if !dropped && (s.lea l).evIntrEnable then s.interrupt l 0 else s

/-- Whether a command of the lea is in service and its end is awaited (R39); a lea's reset of itself is not one that
holds back its events. -/
def Lea.inCommand (x : Lea) : Bool :=
  match x.mbx.deferral with
  | none | some .selfReset => false
  | _ => true

/-- A unit queues a fault event to lea `l`; during a command of the lea it waits for the command's end (R39). -/
def State.queueEvent (s : State) (l : Nat) (e : FaultEvent) : State :=
  if (s.leas.find l).isNone then s
  else if (s.lea l).inCommand then s.modLea l fun x => { x with pendingEvents := x.pendingEvents ++ [e] }
  else s.applyEvent l e

/-- The record of a fault event (Table 14.4). -/
def faultEvent (st : Status) (unit cause : Nat) (index : Nat := 0xFFFF) (job : Nat := 0xFFFF) (step : Word := 0)
    (addr : Nat := 0) : FaultEvent :=
  { status := st, unit := unit, cause := cause, job := job, step := step, index := index, addr := addr, seq := 0 }

/-- The words of a fault-event record (Table 14.4). -/
def FaultEvent.words (e : FaultEvent) : List Word :=
  [packFields [(e.status.code, 16), (e.unit, 8), (e.cause, 0)], BitVec.ofNat 32 e.job, e.step,
   BitVec.ofNat 32 e.index] ++ words64 (natField e.addr 47 0) ++ words64 e.seq

/-- The I3C target raises an In-Band Interrupt with this mandatory data byte (R472). -/
def State.ibi (s : State) (b : Nat) : State := { s with out := { s.out with ibi := s.out.ibi ++ [BitVec.ofNat 8 b] } }

/-! ## HBM: units, places and grants -/

/-- The class and parity of class unit `u` (R197, R198). -/
def Memory.unit (m : Memory) (u : Nat) : ClassUnit := m.units.getD u {}

/-- The usable bytes of a class unit (Table 8.1). -/
def ClassUnit.usable (u : ClassUnit) : Nat :=
  (match u.detect, u.parity with
   | false, false => 896 | false, true => 784 | true, false => 960 | true, true => 840) * 2 ^ 20

/-- Whether a span lies within the usable part of one class unit of HBM (R196, R197). -/
def Memory.inUsable (m : Memory) (base len : Nat) : Bool :=
  base / 2 ^ 30 < 576 && base % 2 ^ 30 + len ≤ (m.unit (base / 2 ^ 30)).usable

/-- Whether a span lies within corrected units (R317, R354). -/
def Memory.inCorrected (m : Memory) (base len : Nat) : Bool :=
  m.inUsable base len && !(m.unit (base / 2 ^ 30)).detect

/-- The stack of line index `l` outside parity units (R200). -/
def stackOfLine (l : Nat) : Nat := natField l 2 0 ^^^ natField l 11 9 ^^^ natField l 20 18

/-- The memory channel of line index `l` outside parity units (R200). -/
def channelOfLine (l : Nat) : Nat :=
  stackOfLine l * 32 + (natField l 7 3 ^^^ natField l 16 12 ^^^ natField l 25 21)

/-- The line that holds a usable address (R200, R201): in a parity unit, the data line at its position in its group of
eight, past the one on stack g mod 8 that holds the parity. -/
def Memory.lineOf (m : Memory) (addr : Nat) : Nat :=
  if (m.unit (addr / 2 ^ 30)).parity then
    let j := (addr % 2 ^ 30) >>> 7
    let g := j / 7
    let group := (List.range 8).map fun t => (addr / 2 ^ 30) * 2 ^ 23 + 8 * g + t
    let data := (List.range 8).filter (· != g % 8)
    (group.find? fun l => stackOfLine l == data.getD (j % 7) 0).getD 0
  else addr >>> 7

/-- The stack that holds sector `sec` (R200, R201). -/
def Memory.stackOf (m : Memory) (sec : Nat) : Nat := stackOfLine (m.lineOf (sec * 32))

/-- The sectors that share a parity group with sector `sec`, `sec` itself left out (R201). -/
def groupPeers (sec : Nat) : List Nat :=
  let base := (sec * 32) / 2 ^ 30 * 2 ^ 30
  let o := sec * 32 - base
  let g := (o >>> 7) / 7
  ((List.range 7).map fun k => (base + (7 * g + k) * 128 + o % 128) / 32).filter (· != sec)

/-- Whether grants cover every address from `base` up to `stop` (R393). -/
def coveredFrom (gs : List Grant) : Nat → Nat → Nat → Bool
  | 0, base, stop => stop ≤ base
  | n + 1, base, stop =>
    if stop ≤ base then true
    else match gs.find? fun g => g.base ≤ base && base < g.base + g.len with
      | none => false
      | some g => coveredFrom gs n (g.base + g.len) stop

/-- Whether the span lies within a lea's grant, and within RW grants of it for a write (R393, R499). -/
def Lea.granted (x : Lea) (base len : Nat) (write : Bool) : Bool :=
  let gs := (x.grants.map (·.2)).filter fun g => g.rw || !write
  coveredFrom gs (gs.length + 1) base (base + len)

/-- Whether lea `l` is granted the span (R393). -/
def State.granted (s : State) (l base len : Nat) (write : Bool) : Bool := (s.lea l).granted base len write

/-- The leas whose grant covers sector `sec`. -/
def State.leasOver (s : State) (sec : Nat) : List Nat :=
  (s.leas.filter fun e => e.2.granted (sec * 32) 32 false).map (·.1)

/-- A POISON fault event to every lea whose grant covers the sector (R211, R215). -/
def State.poisonEvents (s : State) (sec : Nat) : State :=
  (s.leasOver sec).foldl (fun s l => s.queueEvent l (faultEvent .poison 0x04 0 (addr := sec * 32))) s

/-! ## HBM: contents -/

/-- The byte at an address; an address that is not listed holds zero (R198). -/
def readByte (m : List Host.Cell) (a : Nat) : Byte := Map.getD m a 0

/-- The cells with one byte written; a byte of zero is not listed. -/
def writeByte (m : List Host.Cell) (a : Nat) (b : Byte) : List Host.Cell :=
  if b = 0 then Map.erase m a else Map.insert m a b

/-- The bytes from an address on. -/
def readCells (m : List Host.Cell) (a : Nat) : Nat → List Byte
  | 0 => []
  | n + 1 => readByte m a :: readCells m (a + 1) n

/-- The cells with bytes written from an address on. -/
def writeCells (m : List Host.Cell) (a : Nat) : List Byte → List Host.Cell
  | [] => m
  | b :: rest => writeCells (writeByte m a b) (a + 1) rest

/-- The canonical form of a list of cells: addresses strictly rising and no zero listed. -/
abbrev Cells.wf (m : List Host.Cell) : Prop := m.Pairwise (fun a b => a.1 < b.1) ∧ ∀ c ∈ m, c.2 ≠ 0

/-- The bytes of HBM in a span. -/
def State.read (s : State) (base len : Nat) : List Byte := readCells s.mem.hbm base len

/-- The word of HBM at an address (R5). -/
def State.readWord (s : State) (a : Nat) : Word := BitVec.ofNat 32 (leToNat (s.read a 4))

/-- `n` words of HBM from an address on. -/
def State.readWords (s : State) (a n : Nat) : List Word := bytesToWords n (s.read a (4 * n))

/-- The sectors that a span touches. -/
def sectorsOf (base len : Nat) : List Nat :=
  if len = 0 then [] else range' (base / 32) ((base + len - 1) / 32 - base / 32 + 1)

/-- The sectors that a span covers whole. -/
def wholeSectors (base len : Nat) : List Nat :=
  let first := ceilDiv base 32
  range' first ((base + len) / 32 - first)

/-- What an access finds at its sectors. -/
inductive Access
  | good
  | stall                                -- it waits: a refill runs, or its HBM PHY domain is offline
  | bad (sec : Nat) (st : Status)        -- it fails with this status
  deriving DecidableEq, Repr

/-- Whether the sector's stack is lost and nothing serves it (R213 to R215). -/
def Memory.lostSector (m : Memory) (sec : Nat) : Bool :=
  m.stackLost.getLsbD (m.stackOf sec) && !(m.unit (sec / 2 ^ 25)).parity

/-- Whether the sector's HBM PHY domain is offline and the cache does not hold the sector (R489). -/
def State.sectorHeld (s : State) (sec : Nat) : Bool :=
  let st := s.mem.stackOf sec
  !s.edgeOn st && !s.mem.stackLost.getLsbD st && !s.mem.dirty.contains sec && !s.mem.present.contains sec

/-- A detection-only sector on a degraded channel reports an error on every read (R206). -/
def Memory.degradedRead (m : Memory) (sec : Nat) : Bool :=
  (m.unit (sec / 2 ^ 25)).detect && ((m.channels.find (channelOfLine (m.lineOf (sec * 32)))).any fun c => c.degraded)

/-- What a read of a sector, or a partial write of it, finds (R207, R208, R211, R214, R215, R489, R497). -/
def State.sectorAccess (s : State) (sec : Nat) : Access :=
  if s.mem.lostSector sec then .bad sec .poison
  else if s.sectorHeld sec then .stall
  else match s.mem.errs.find sec with
    | none => if s.mem.degradedRead sec then .bad sec .unitFault else .good
    | some .poisoned => .stall
    | some .poisonCode => .bad sec .poison
    | some .detected => .bad sec .unitFault

/-- The first failing sector decides; a sector that waits makes the access wait. -/
def accessAll (l : List Access) : Access :=
  if l.any (· = .stall) then .stall
  else (l.find? (· ≠ .good)).getD .good

/-- A read that fails at a sector of a lost stack raises POISON events (R215). -/
def State.lostRead (s : State) (sec : Nat) : State := if s.mem.lostSector sec then s.poisonEvents sec else s

/-- What a read of a span finds. -/
def State.access (s : State) (base len : Nat) : Access := accessAll ((sectorsOf base len).map s.sectorAccess)

/-- What a write of a span finds: only sectors that it covers in part are read first (R202, R497). -/
def State.writeAccess (s : State) (base len : Nat) : Access :=
  let whole := wholeSectors base len
  accessAll (((sectorsOf base len).filter fun x => !whole.contains x).map s.sectorAccess)

/-- The memory with the errors of whole sectors ended by a write (R207, R208, R211, R212). -/
def Memory.clearErrs (m : Memory) (secs : List Nat) : Memory :=
  { m with errs := m.errs.sel (fun k _ => !secs.contains k), refills := m.refills.sel (fun k _ => !secs.contains k),
           waiting := m.waiting.filter fun k => !secs.contains k }

/-- The part of a write that lands: bytes in a lost sector are dropped (R215). -/
def Memory.storeByte (m : Memory) (a : Nat) (b : Byte) : Memory :=
  if m.lostSector (a / 32) then m else { m with hbm := writeByte m.hbm a b }

/-- Bytes stored one after another. -/
def Memory.storeBytes (m : Memory) (a : Nat) : List Byte → Memory
  | [] => m
  | b :: rest => (m.storeByte a b).storeBytes (a + 1) rest

/-- The state with bytes written to HBM from `base` on: whole sectors lose their errors, the sectors become dirty in the
cache (R217), and a lost sector's write raises POISON events (R215). -/
def State.write (s : State) (base : Nat) (bytes : List Byte) : State :=
  let secs := sectorsOf base bytes.length
  let lost := secs.filter s.mem.lostSector
  let m := (s.mem.storeBytes base bytes).clearErrs (wholeSectors base bytes.length)
  let m := { m with dirty := m.dirty ++ secs.filter fun x => !m.dirty.contains x && !lost.contains x }
  lost.foldl State.poisonEvents { s with mem := m }

/-- The state with words written to HBM (R5). -/
def State.writeWords (s : State) (base : Nat) (ws : List Word) : State := s.write base (wordsToBytes ws)

/-- An op or a delivered message of step `st` has written a span: every refill descriptor over it stops being CLEAN and
takes the step as its last-write step (R209, R210). -/
def State.noteWrite (s : State) (st : Word) (base len : Nat) : State :=
  { s with mem := { s.mem with descs := s.mem.descs.mapVals fun _ d =>
      if base < d.base + d.len && d.base < base + len then { d with clean := false, lastStep := st } else d } }

/-- A span of HBM that an op reads or writes (R499). -/
structure Span where
  base : Nat
  len : Nat
  write : Bool := false
  deriving DecidableEq, Repr

/-- What the spans of an op find in HBM. -/
def State.spansAccess (s : State) (l : List Span) : Access :=
  accessAll (l.map fun x => if x.write then s.writeAccess x.base x.len else s.access x.base x.len)

/-- Whether the spans lie within the lea's grant. -/
def State.spansGranted (s : State) (lea : Nat) (l : List Span) : Bool :=
  l.all fun x => s.granted lea x.base x.len x.write

/-! ## Event counters -/

/-- An event counter of lea `l` (R50); zero and not FAILED until written. -/
def State.counter (s : State) (l i : Nat) : Counter := (s.lea l).counters.getD i {}

/-- The state with an event counter replaced. -/
def State.setCounter (s : State) (l i : Nat) (c : Counter) : State :=
  s.modLea l fun x => { x with counters := x.counters.insert i c }

/-! ## Delivered messages -/

/-- The oldest message that waits for a unit, where it is of a kind, with the state without it. -/
def State.front (s : State) (k : MsgKind) : Option (Delivery × State) :=
  match s.delivered with
  | [] => none
  | d :: rest => if d.kind = k then some (d, { s with delivered := rest }) else none

/-! ## The scale history's table (R143 to R148) -/

/-- HEADROOM (Table 6.1). -/
def Job.headroom (j : Job) : Nat := fld (wordAt j.scaleHdr 0) 23 20
/-- UF_LOG2 (Table 6.1). -/
def Job.ufLog2 (j : Job) : Nat := fld (wordAt j.scaleHdr 0) 19 16
/-- LOG2_CAPACITY (Table 6.1). -/
def Job.log2Cap (j : Job) : Nat := fld (wordAt j.scaleHdr 0) 15 8
/-- Warm-up applies to an op of this STEP (R153). -/
def Job.warmUp (j : Job) (step : Word) : Bool := bit (wordAt j.scaleHdr 1) 0 && signedLess step (wordAt j.scaleHdr 2)
/-- The bytes of the scale history region: its header and entries (R143, R144). -/
def Job.scaleLen (j : Job) : Nat := 32 + 32 * 2 ^ j.log2Cap

/-- A scale history entry (Table 6.2). -/
structure HistEntry where
  inst : Word
  pendStep : Word
  estimate : Int -- h, in units of 1/256
  valid : Bool
  used : Bool
  pend : Bool
  pendObs : Option Int -- o; none is coded 0x8000
  pendRecomputes : Nat
  pendUnderflow : Nat
  pendElements : Nat
  foldedStep : Word
  overflowSteps : Nat
  deriving DecidableEq, Repr

/-- The entry that eight words hold (Table 6.2). -/
def HistEntry.ofWords (w : List Word) : HistEntry :=
  { inst := wordAt w 0, pendStep := wordAt w 1, estimate := toSigned 20 (fld (wordAt w 2) 31 12)
    valid := bit (wordAt w 2) 11, used := bit (wordAt w 2) 10, pend := bit (wordAt w 2) 9
    pendObs := if fld (wordAt w 3) 31 16 = 0x8000 then none else some (toSigned 16 (fld (wordAt w 3) 31 16))
    pendRecomputes := fld (wordAt w 3) 15 0, pendUnderflow := (wordAt w 4).toNat, pendElements := (wordAt w 5).toNat
    foldedStep := wordAt w 6, overflowSteps := fld (wordAt w 7) 31 16 }

/-- The words of an entry (Table 6.2). -/
def HistEntry.words (e : HistEntry) : List Word :=
  [e.inst, e.pendStep,
   packFields [(ofSigned 20 e.estimate, 12), (b2n e.valid, 11), (b2n e.used, 10), (b2n e.pend, 9)],
   packFields [(match e.pendObs with
     | none => 0x8000
     | some o => ofSigned 16 o, 16), (e.pendRecomputes, 0)],
   BitVec.ofNat 32 e.pendUnderflow, BitVec.ofNat 32 e.pendElements, e.foldedStep,
   packFields [(e.overflowSteps, 16)]]

/-- The address of slot `i` of the table. -/
def Job.slotAddr (j : Job) (i : Nat) : Nat := j.scaleRegion + 32 + 32 * (i % 2 ^ j.log2Cap)

/-- The entry in slot `i`. -/
def State.histEntry (s : State) (j : Job) (i : Nat) : HistEntry := .ofWords (s.readWords (j.slotAddr i) 8)

/-- The slots that an instance is probed at (R145). -/
def Job.probes (j : Job) (inst : Word) : List Nat := (range' (inst.toNat % 2 ^ j.log2Cap) 8).map (· % 2 ^ j.log2Cap)

/-- The slot of an instance's entry (R145). -/
def State.histSlot (s : State) (j : Job) (inst : Word) : Option Nat :=
  if inst = 0xFFFFFFFF then none
  else (j.probes inst).find? fun i => (s.histEntry j i).used && (s.histEntry j i).inst == inst

/-- Whether an op takes part in the scale history: classes 0x01, 0x02 and 0x05 under a named instance (R146, R501). -/
def Op.inHistory (o : Op) : Bool := (o.cls == 1 || o.cls == 2 || o.cls == 5) && o.inst != 0xFFFFFFFF

/-- The entry of an op's instance, with its job and slot. -/
def State.opEntry (s : State) (o : Op) : Option (Job × Nat × HistEntry) :=
  if !o.inHistory then none
  else match s.jobs.find o.job with
    | none => none
    | some j => (s.histSlot j o.inst).map fun i => (j, i, s.histEntry j i)

/-- Whether the op is held for the fold of its instance (R148). -/
def State.foldHeld (s : State) (o : Op) : Bool :=
  match s.opEntry o with
  | none => false
  | some (_, _, e) => signedLess e.pendStep o.step

/-- Whether an op's work is over as other units see it: its effects are made, its entry may still wait (R48). -/
def Op.completed (o : Op) : Bool :=
  match o.phase with
  | .entryHeld _ _ => true
  | _ => false

/-! ## When an op may start -/

/-- Every earlier op of the op's queue has completed (Table 2.9, WAIT_PREV). -/
def State.prevDone (s : State) (n : Nat) (o : Op) : Bool :=
  s.hub.ops.all fun e => n ≤ e.1 || e.2.lea != o.lea || e.2.queue != o.queue || e.2.completed

/-- The op's wait counter is FAILED (R50). -/
def State.depFailed (s : State) (o : Op) : Bool :=
  bit (wordAt o.hdr 0) 11 && (s.counter o.lea (fld (wordAt o.hdr 5) 31 20)).failed

/-- The op's wait is met (R50). -/
def State.waitMet (s : State) (o : Op) : Bool :=
  !bit (wordAt o.hdr 0) 11 || reached (s.counter o.lea (fld (wordAt o.hdr 5) 31 20)).value (wordAt o.hdr 4)

/-- The op's job is held by another op that does not wait for this one (R175, R365, R378). -/
def State.jobHeld (s : State) (n : Nat) (o : Op) : Bool :=
  match s.jobs.find o.job with
  | none => false
  | some j => match j.hold with
    | none => false
    | some h => h.op != some n && !h.awaits.contains n

/-- A recompute of the op's job runs, whose stopped op has not resumed (R185). -/
def State.recomputeHeld (s : State) (o : Op) : Bool :=
  s.train.recomputes.any fun r => r.job == o.job && !r.resumed

/-- Whether nothing but its wait counter keeps an admitted op from starting. -/
def State.mayStart (s : State) (n : Nat) (o : Op) : Bool :=
  o.phase == .waiting && (s.lea o.lea).st == .enabled && (!bit (wordAt o.hdr 0) 8 || s.prevDone n o) &&
  !s.jobHeld n o && !s.recomputeHeld o && !s.foldHeld o

/-- Whether an admitted op starts now. -/
def State.ready (s : State) (n : Nat) (o : Op) : Bool := s.mayStart n o && (!s.depFailed o && s.waitMet o)

/-! ## The end of a meaning -/

/-- The leas other than lea 0 that are ENABLED. -/
def State.tenants (s : State) : Nat := (s.leas.filter fun e => e.1 != 0 && e.2.st == .enabled).length

/-- The device moves between READY and RUN with the first and the last ENABLED lea other than lea 0 (Table 2.5). -/
def State.settleDev (s : State) : State :=
  match s.hub.dev with
  | .ready => if 0 < s.tenants then s.setDev .run else s
  | .run => if s.tenants = 0 then s.setDev .ready else s
  | _ => s

/-- Whether an admitted op is held by a PHASE op of its job (R175). -/
def State.phaseHolds (s : State) (n : Nat) (o : Op) : Bool :=
  s.jobHeld n o && match s.jobs.find o.job with
    | none => false
    | some j => j.hold.any fun h => h.op.any fun k => (s.hub.ops.find k).any fun x => x.cls == 8

/-- The ops held by PHASE ops or recomputes (HUB_PHASE_HELD.HELD; R175, R185). -/
def State.phaseHeld (s : State) : Nat :=
  (s.hub.ops.filter fun e => e.2.phase == .waiting && (s.phaseHolds e.1 e.2 || s.recomputeHeld e.2)).length

/-- Owned chunks outside EMPTY (WDR_OPEN.OPEN). -/
def Windrow.openChunks (w : Windrow) : Nat := w.groups.foldl (fun n g => n + g.2.chunks.length) 0

/-- The PEAK fields follow the counts they are the highest of (HUB_INFLIGHT, HUB_PHASE_HELD, WDR_OPEN). -/
def State.settlePeaks (s : State) : State :=
  { s with hub := { s.hub with inflightPeak := max s.hub.inflightPeak s.hub.ops.length
                               phaseHeldPeak := max s.hub.phaseHeldPeak s.phaseHeld }
           wdr := { s.wdr with openPeak := max s.wdr.openPeak s.wdr.openChunks } }

/-- Whether op `n` is a ready matrix op of tier 1 (R343). -/
def State.tierOne (s : State) (n : Nat) (o : Op) : Bool := o.cls == 1 && !o.fallowOk && s.ready n o

/-- Whether an element-wise op that has started has rows for a cluster to take (R115). -/
def State.rowsReady (s : State) (n : Nat) (o : Op) : Bool :=
  match s.scalar.runs.find n with
  | none => false
  | some r => r.fail.isNone && !r.cancelled && (!r.rerun.isEmpty || r.nextRow < (o.w 2).toNat)

/-- The V of a lea that gets a ready op or row while the leas with these V have one (R400). -/
def joinShare (v : Rat) : List Rat → Rat
  | [] => v
  | x :: xs =>
    let least := xs.foldl (fun a b => if b < a then b else a) x
    if v < least then least else v

/-- The V of each lea that had no ready matrix op, or no ready row, and now has one (R400). -/
def State.settleShares (s : State) : State :=
  let arr := (s.hub.ops.filter fun e => s.tierOne e.1 e.2).map (·.2.lea)
  let clu := (s.hub.ops.filter fun e => s.rowsReady e.1 e.2).map (·.2.lea)
  let vArr (l : Nat) := (s.leas.filter fun e => e.1 != l && e.2.readyArray && arr.contains e.1).map (·.2.vArray)
  let vClu (l : Nat) := (s.leas.filter fun e => e.1 != l && e.2.readyCluster && clu.contains e.1).map (·.2.vCluster)
  { s with leas := s.leas.mapVals fun l x =>
      { x with readyArray := arr.contains l, readyCluster := clu.contains l
               vArray := if arr.contains l && !x.readyArray then joinShare x.vArray (vArr l) else x.vArray
               vCluster := if clu.contains l && !x.readyCluster then joinShare x.vCluster (vClu l) else x.vCluster } }

/-- What follows every command of itself: the device state, the PEAK fields and the shares' V. -/
def State.settle (s : State) : State := s.settleDev.settlePeaks.settleShares

/-- The outcome of a meaning: the next state, settled. -/
def finish (s : State) : Host.Outcome State Fault Refusal := .next s.settle

end Sys2Proof.Machine
end

