-- ==== Sys2Proof/Machine/Mailbox.lean ====
section
/-!
DEFINITION. Machine/Mailbox.lean: the Cihal mailbox (R34 to R42, R493, R494): the doorbell, the check order of Table 2.8,
the response, and how one command is served. The commands' own bodies stand in their units' files.
-/

namespace Sys2Proof.Machine

/-- What a command's body answers: a failed check of 5 to 7 (no other part is performed, R41), a completed command with
its status and results, or a command whose answer comes later. -/
inductive Reply
  | fail (st : Status)
  | done (s : State) (st : Status) (results : List Word)
  | defer (s : State) (d : Deferral)

/-- A command that completes with ST_OK and no results. -/
def Reply.ok (s : State) : Reply := .done s .ok []

/-- Which leas may issue a command (check 4 of Table 2.8). -/
inductive Issuer
  | any              -- any lea, and the job's lea: a wrong job handle fails check 5 (R41)
  | leaZero
  | zeroOrSelf       -- lea 0 for any lea, any lea for itself; the target is the first argument
  deriving DecidableEq, Repr

/-- A command: its code, the number of words that its arguments call for, who may issue it, and checks 5 to 7 with its
effect, given the issuer and the arguments. -/
structure CmdDef where
  code : Nat
  words : List Word → Nat
  issuer : Issuer
  body : State → Nat → List Word → Reply

/-- Check 4 of Table 2.8. -/
def Issuer.allows (i : Issuer) (lea : Nat) (args : List Word) : Bool :=
  match i with
  | .any => true
  | .leaZero => lea == 0
  | .zeroOrSelf => lea == 0 || (wordAt args 0).toNat == lea

/-- Reply `st` when the condition fails, else go on. -/
def need (c : Bool) (st : Status) (k : Reply) : Reply := if c then k else .fail st

/-- The COMMAND of a latched request (Table 2.3). -/
def reqCode (req : List Word) : Nat := fld (wordAt req 0) 15 0
/-- The LENGTH of a latched request (Table 2.3). -/
def reqLength (req : List Word) : Nat := fld (wordAt req 0) 23 16
/-- The arguments of a latched request: the words past the header that LENGTH covers (Table 2.3). -/
def reqArgs (req : List Word) : List Word := (req.drop 2).take (reqLength req - 2)

/-- Checks 1 to 4 of Table 2.8 and the BOOT rule of R41, then the command's own checks and effect. -/
def checkCommand (table : List CmdDef) (s : State) (lea : Nat) (req : List Word) : Reply :=
  if fld (wordAt req 0) 31 24 ≠ 1 then .fail .badVersion
  else if reqLength req < 2 || 64 < reqLength req then .fail .badMessage
  else match table.find? fun d => d.code == reqCode req with
    | none => .fail .unknownCommand
    | some d =>
      if reqLength req < 2 + d.words (reqArgs req) then .fail .badMessage
      else if !d.issuer.allows lea (reqArgs req) then .fail .denied
      else if s.hub.dev = .boot ∧ 3 < d.code then .fail .stateMismatch
      else d.body s lea (reqArgs req)

/-- The words of a response (Table 2.4). -/
def responseWords (req : List Word) (st : Status) (results : List Word) : List Word :=
  [packFields [(st.code, 16), (reqCode req, 0)], wordAt req 1, BitVec.ofNat 32 (3 + results.length)] ++ results

/-- A table with a list of words stored from index `i` on. -/
def storeWords (m : Map Word) (i : Nat) : List Word → Map Word
  | [] => m
  | w :: rest => storeWords (m.insert i w) (i + 1) rest

/-- Cihal writes the response, sets DONE and clears BUSY (Table 2.4, CIH_MBX_STATUS). -/
def Mailbox.respond (m : Mailbox) (st : Status) (results : List Word) : Mailbox :=
  { m with response := storeWords m.response 0 (responseWords m.latched st results), busy := false, ring := false,
           done := true, doneCount := m.doneCount + 1, deferral := none }

/-- The fault events that waited for the command's end take effect (R39). -/
def State.flushEvents (s : State) (lea : Nat) : State :=
  let evs := (s.lea lea).pendingEvents
  evs.foldl (fun s e => s.applyEvent lea e) (s.modLea lea fun x => { x with pendingEvents := [] })

/-! ## How a lea reset begins (R39, R407, R410) -/

/-- An op that a lea reset meets before its start is cancelled (Table 14.5, step 2). -/
def Op.cancelWaiting (o : Op) : Op := if o.phase = .waiting then { o with phase := .done .cancelled 0 } else o

/-- Steps 1 and 2 of Table 14.5: the lea is RESETTING, its ops that have not started are cancelled, the matrix op in the
array stops at the end of its pass (Table 14.6), and its jobs' recomputes end (R188). -/
def State.beginReset (s : State) (l : Nat) (c : ResetCause) : State :=
  let s := (s.setLeaSt l .resetting).modLea l fun x =>
    { x with resetting := some { cause := c, entries := c == .leaReset || c == .leaDisable }, resetCause := c }
  let ops := s.hub.ops.mapVals fun _ o => if o.lea = l then o.cancelWaiting else o
  let run := s.array.run.map fun r => { r with cancelled := r.cancelled || (s.leaOps l).has r.op }
  let keep := s.train.recomputes.filter fun r => !(s.leaOps l).has r.op
  { s with hub := { s.hub with ops := ops }, array := { s.array with run := run }
           train := { s.train with recomputes := keep } }

/-- A lea that is gone: it is ABSENT and holds no grant (R395). -/
def Lea.toAbsent (x : Lea) : Lea := { x.goto .absent with grants := [] }

/-- A reset joins one that runs (Table 14.7). -/
def Lea.joinReset (x : Lea) (c : ResetCause) : Lea :=
  { x with resetting := x.resetting.map fun r => { r with cause := c, entries := false }, resetCause := c }

/-- A reset reaches lea `l` between two of its mailbox commands (Table 2.5, R409, R410). -/
def State.applyReset (s : State) (l : Nat) (c : ResetCause) : State :=
  match (s.lea l).st with
  | .enabled | .faulted => s.beginReset l c
  | .resetting => s.modLea l fun x => x.joinReset c
  | .disabled =>
    if c = .vfClear then s.modLea l Lea.toAbsent
    else if c = .flr then s.modLea l fun x => { x with msix := [], pba := 0 } else s
  | .absent => s

/-- A reset of lea `l`: it joins a running reset at once, and otherwise waits for the end of the lea's mailbox command
(R39). -/
def State.requestReset (s : State) (l : Nat) (c : ResetCause) : State :=
  if (s.lea l).inCommand && (s.lea l).st != .resetting then s.modLea l fun x => { x with pendingReset := some c }
  else s.applyReset l c

/-- The reset that waited for the command's end begins (R39). -/
def State.flushReset (s : State) (l : Nat) : State :=
  match (s.lea l).pendingReset with
  | none => s
  | some c => (s.modLea l fun x => { x with pendingReset := none }).applyReset l c

/-- Cihal answers the command that lea `lea`'s mailbox holds, and signals vector 0 if asked (R404). -/
def State.respond (s : State) (lea : Nat) (st : Status) (results : List Word := []) : State :=
  let s := s.modLea lea fun x => { x with mbx := x.mbx.respond st results }
  let s := if (s.lea lea).mbx.intrEnable then s.interrupt lea 0 else s
  (s.flushEvents lea).flushReset lea

/-- A doorbell write (R34, R35, R37): it latches the request, sets BUSY and clears DONE, or is an overrun. -/
def Mailbox.doorbell (m : Mailbox) : Mailbox :=
  if m.busy then { m with overrun := true, overrunCount := m.overrunCount + 1 }
  else { m with latched := (List.range 64).map (m.request.getD · 0), busy := true, done := false, ring := true }

/-- Whether the host reaches the lea's window: the link is up and the function exists (R32, R389). -/
def State.reachable (s : State) (lea : Nat) : Bool := s.pcie.up && (s.lea lea).st != .absent

/-- Whether a mailbox holds a command that Cihal can take: one not started, or one held for an edge domain that is no
longer recovering (R15). -/
def State.mbxReady (s : State) (x : Lea) : Bool :=
  x.st != .absent && match x.mbx.deferral with
    | some (.domain d) => s.edgeOn d || s.edgeFenced d
    | some .memory => true
    | some _ => false
    | none => x.mbx.ring

/-- The lea whose command Cihal takes next: the first in round-robin order from the one after the last served (R36). -/
def State.nextMailbox (s : State) : Option Nat :=
  if s.cihalServes then
    ((List.range 64).map fun i => (s.hub.turn + i) % 64).find? fun l => s.mbxReady (s.lea l)
  else none

/-- Cihal serves the command that lea `lea`'s mailbox holds. -/
def State.serve (table : List CmdDef) (s : State) (lea : Nat) : State :=
  let req := (s.lea lea).mbx.latched
  let s := s.modLea lea fun x => { x with mbx := { x.mbx with ring := false, deferral := none } }
  let s := { s with hub := { s.hub with turn := (lea + 1) % 64 } }
  match checkCommand table s lea req with
  | .fail st => s.respond lea st
  | .done t st rs => t.respond lea st rs
  | .defer t d => t.modLea lea fun x => { x with mbx := { x.mbx with deferral := some d } }

/-- The words of a request (Table 2.3). -/
def requestWords (code : Nat) (tag : Word) (args : List Word) : List Word :=
  packFields [(1, 24), (min (2 + args.length) 255, 16), (code, 0)] :: tag :: args

/-- The host issues a command: it writes the request, rings the doorbell, and Cihal serves it at once when it is the
lea's turn and the mailboxes are served; otherwise the command stays latched for MAILBOX_SERVE. -/
def State.issue (s : State) (d : CmdDef) (lea : Nat) (tag : Word) (args : List Word) : State :=
  if s.reachable lea then
    let busy := (s.lea lea).mbx.busy
    let s := s.modLea lea fun x =>
      { x with mbx := { x.mbx with request := storeWords x.mbx.request 0 ((requestWords d.code tag args).take 64) } }
    let s := s.modLea lea fun x => { x with mbx := x.mbx.doorbell }
    if !busy && s.nextMailbox = some lea then s.serve [d] lea else s
  else s

/-- A command whose arguments take a fixed number of words. -/
def cmd (code words : Nat) (issuer : Issuer) (body : State → Nat → List Word → Reply) : CmdDef :=
  { code := code, words := fun _ => words, issuer := issuer, body := body }

/-- A command that reads memory answers its failure, or waits for its sectors (R497). -/
def needAccess (a : Access) (s : State) (k : Reply) : Reply :=
  match a with
  | .good => k
  | .stall => .defer s .memory
  | .bad sec st => .done (s.lostRead sec) st []

/-- A command that needs an edge domain waits while that is offline and fails once it is fenced (R15, Table 1.7). -/
def needDomain (s : State) (d : Nat) (k : Reply) : Reply :=
  if s.edgeOn d then k else if s.edgeFenced d then .fail .edgeOffline else .defer s (.domain d)

/-- The number in argument word `i`. -/
def argN (args : List Word) (i : Nat) : Nat := (wordAt args i).toNat
/-- The 48-bit address in argument words `i` and `i + 1`. -/
def argAddr (args : List Word) (i : Nat) : Nat := addr48 (wordAt args i) (wordAt args (i + 1))
/-- Whether argument words `i` and `i + 1` hold a 48-bit address with its reserved bits zero (R493). -/
def argAddrOk (args : List Word) (i : Nat) : Bool := argN args (i + 1) < 2 ^ 16
/-- The 64-bit value in argument words `i` and `i + 1`. -/
def arg64 (args : List Word) (i : Nat) : Nat := val64 (wordAt args i) (wordAt args (i + 1))
/-- A string of `n` bytes from argument word `i` on (R493). -/
def argBytes (args : List Word) (i n : Nat) : List Byte := (wordsToBytes (args.drop i)).take n
/-- A MAC address in argument words `i` and `i + 1` (R493). -/
def argMac (args : List Word) (i : Nat) : List Byte := argBytes args i 6
/-- The words of a string of bytes (R494). -/
def bytesWords (b : List Byte) : List Word := bytesToWords (ceilDiv b.length 4) (b ++ List.replicate 3 0)

end Sys2Proof.Machine
end

