-- ==== Sys2Proof/Machine/HostControl.lean ====
section
/-!
DEFINITION. Machine/HostControl.lean: the PCIe link and register windows, the doorbells, and the commands of ranges 0x00
and 0x07 that touch leas, rings, queues, counters, quotas, shares and grants (02, 14). Lea resets stand in LeaReset.lean.
-/

namespace Sys2Proof.Machine

/-! ## The PCIe link (R30 to R32, R437) -/

/-- The link goes down: width and generation read 0 (HUB_PCIE_LINK). -/
def State.linkDown (s : State) : State := { s with pcie := { s.pcie with up := false, width := 0, gen := 0 } }

/-- PCIE_LINK_DOWN (R32): nothing else changes; host fetches and host completion entries wait for the link. -/
def execPcieLinkDown (s : State) : Host.Outcome State Fault Refusal := finish s.linkDown

/-- PERST (R437): resets only the PCIe endpoint (domains 28 and 29), so the link goes down and jobs keep running (R32). -/
def execPerst (s : State) : Host.Outcome State Fault Refusal := finish s.linkDown

/-- MISALIGNED_REG_ACCESS (R6): a register access that is not a naturally aligned 32-bit word, by its offset or by its size
(an access at an aligned offset is one of another size), completes with Completer Abort and changes no register. -/
def execMisalignedRegAccess (lea _offset : Nat) (_write : Bool) (s : State) : Host.Outcome State Fault Refusal :=
  if s.reachable lea then finish { s with pcie := { s.pcie with lastAbort := true } } else finish s

/-- ABSENT_VF_ACCESS (R389): a request to the BAR of an ABSENT function causes no action. -/
def execAbsentVfAccess (_lea _offset : Nat) (_write : Bool) (s : State) : Host.Outcome State Fault Refusal := finish s

/-- NUMVFS_WRITE (R389): a write that changes NumVFs while VF Enable is set is ignored; NumVFs is at most TotalVFs. -/
def execNumvfsWrite (n : Nat) (s : State) : Host.Outcome State Fault Refusal :=
  finish (if s.pcie.vfEnable || 63 < n then s else { s with pcie := { s.pcie with numVfs := n } })

/-- Lea `l` enters DISABLED as VF Enable is set (R389). -/
def State.createLea (s : State) (l : Nat) : State :=
  match s.leas.find l with
  | none => { s with leas := s.leas.insert l (Lea.goto {} .disabled) }
  | some x => if x.st = .absent then { s with leas := s.leas.insert l (x.goto .disabled) } else s

/-- VF_ENABLE_SET (R389): leas 1 to NumVFs exist and enter DISABLED. -/
def execVfEnableSet (s : State) : Host.Outcome State Fault Refusal :=
  if s.pcie.vfEnable then finish s
  else finish ((range' 1 s.pcie.numVfs).foldl State.createLea { s with pcie := { s.pcie with vfEnable := true } })

/-! ## Doorbells (R34, R44, R496) -/

/-- MBX_DOORBELL (R34, R35, R37): the write of 1 to RING accepts the request, or is an overrun. -/
def execMbxDoorbell (lea : Nat) (s : State) : Host.Outcome State Fault Refusal :=
  if s.reachable lea then finish (s.modLea lea fun x => { x with mbx := x.mbx.doorbell }) else finish s

/-- A doorbell that is ignored (R44, R496). -/
def Lea.badBell (x : Lea) : Lea := { x with badDoorbell := x.badDoorbell + 1 }

/-- A write to LEA_QDB[q] (R44). -/
def Lea.queueBell (x : Lea) (q : Nat) (v : Word) : Lea :=
  if x.st = .resetting then x.badBell
  else match x.queues.find q with
    | none => x.badBell
    | some k => if v.toNat < 2 ^ k.log2 && fld v 31 16 == 0 then { x with qdb := x.qdb.insert q v.toNat } else x.badBell

/-- QUEUE_DOORBELL (R44). -/
def execQueueDoorbell (lea q : Nat) (tail : Word) (s : State) : Host.Outcome State Fault Refusal :=
  if s.reachable lea && q < 4096 then finish (s.modLea lea fun x => x.queueBell q tail) else finish s

/-- A write to LEA_CDB[r] (R496). -/
def Lea.ringBell (x : Lea) (r : Nat) (v : Word) : Lea :=
  if x.st = .resetting then x.badBell
  else match x.rings.find r with
    | none => x.badBell
    | some k => if v.toNat < 2 ^ k.log2 && fld v 31 16 == 0 then { x with cdb := x.cdb.insert r v.toNat } else x.badBell

/-- CRING_HEAD_DOORBELL (R496). -/
def execCringHeadDoorbell (lea r : Nat) (head : Word) (s : State) : Host.Outcome State Fault Refusal :=
  if s.reachable lea && r < 512 then finish (s.modLea lea fun x => x.ringBell r head) else finish s

/-! ## Commands of range 0x00 (Table 2.7) -/

/-- PING: the firmware version and the Cihal domain counter (Table 2.13). -/
def cmdPing : CmdDef := cmd 0x0001 0 .any fun s _ _ => .done s .ok (s.fw.version :: words64 s.now.toNat)

/-- GET_INFO (Table 2.13). -/
def cmdGetInfo : CmdDef := cmd 0x0002 0 .any fun s l _ =>
  .done s .ok [BitVec.ofNat 32 (s.fw.fuses.revision % 2 ^ 16), BitVec.ofNat 32 l,
    BitVec.ofNat 32 (s.lea l).quotas.queues, BitVec.ofNat 32 (s.lea l).quotas.counters]

/-- The words of a list of fault events. -/
def eventWords : List FaultEvent → List Word
  | [] => []
  | e :: rest => e.words ++ eventWords rest

/-- GET_STATUS (R406): the states, the records left, and up to seven of the oldest records, which leave the queue. -/
def cmdGetStatus : CmdDef := cmd 0x0003 0 .any fun s l _ =>
  let x := s.lea l
  .done (s.modLea l fun x => { x with events := x.events.drop 7 }) .ok
    ([packFields [(s.hub.dev.code, 4), (x.st.code, 0)], BitVec.ofNat 32 (x.events.drop 7).length]
      ++ eventWords (x.events.take 7))

/-- LEA_ENABLE: a DISABLED lea to ENABLED. -/
def cmdLeaEnable : CmdDef := cmd 0x0010 1 .leaZero fun s _ a =>
  need (argN a 0 < 64) .badArgument <|
  need ((s.lea (argN a 0)).st = .disabled && s.live) .stateMismatch <|
  .ok (s.setLeaSt (argN a 0) .enabled)

/-- Whether a ring's span is usable by the lea (R498): a multiple of `align`, and in HBM within its grant. -/
def State.ringOk (s : State) (l : Nat) (hbm : Bool) (base len align : Nat) (rw : Bool) : Bool :=
  base % align == 0 && (!hbm || (s.mem.inUsable base len && s.granted l base len rw))

/-- CRING_CREATE: index, location, base, log2 length. -/
def cmdCringCreate : CmdDef := cmd 0x0020 5 .any fun s l a =>
  let i := argN a 0
  let hbm := argN a 1 == 1
  let base := argAddr a 2
  let log2 := argN a 4
  need (i < 512 && argN a 1 < 2 && argAddrOk a 2 && 4 ≤ log2 && log2 ≤ 16) .badArgument <|
  need (s.ringOk l hbm base (16 * 2 ^ log2) 16 true) .badArgument <|
  need (i < (s.lea l).quotas.rings) .noResource <|
  need ((s.lea l).st = .enabled && !(s.lea l).rings.has i) .stateMismatch <|
  .ok (s.modLea l fun x => { x with rings := x.rings.insert i { hbm := hbm, base := base, log2 := log2 }
                                    cdb := x.cdb.insert i 0 })

/-- CRING_DESTROY: the ring is open and no open or stopped queue names it. -/
def cmdCringDestroy : CmdDef := cmd 0x0021 1 .any fun s l a =>
  let i := argN a 0
  need (i < 512) .badArgument <|
  need ((s.lea l).rings.has i && !((s.lea l).queues.any fun q => q.2.cring == i)) .stateMismatch <|
  .ok (s.modLea l fun x => { x with rings := x.rings.erase i })

/-- QUEUE_CREATE: index, location, base, log2 length, completion ring, priority, fabric-post enable, job handle. -/
def cmdQueueCreate : CmdDef := cmd 0x0022 9 .any fun s l a =>
  let i := argN a 0
  let hbm := argN a 1 == 1
  let base := argAddr a 2
  let log2 := argN a 4
  let post := argN a 7 == 1
  need (i < 4096 && argN a 1 < 2 && argAddrOk a 2 && 4 ≤ log2 && log2 ≤ 16 && argN a 5 < 512 && argN a 6 < 4 &&
    argN a 7 < 2 && (hbm || !post)) .badArgument <|
  need (s.ringOk l hbm base (128 * 2 ^ log2) 128 post) .badArgument <|
  need (!post || (s.jobOf l (argN a 8)).isSome) .badHandle <|
  need ((s.lea l).queues.length < (s.lea l).quotas.queues) .noResource <|
  need ((s.lea l).st = .enabled && !(s.lea l).queues.has i && (s.lea l).rings.has (argN a 5)) .stateMismatch <|
  .ok (s.modLea l fun x => { x with
    queues := x.queues.insert i { hbm := hbm, base := base, log2 := log2, cring := argN a 5, prio := argN a 6,
                                  fabPost := post, job := if post then argN a 8 else 0xFFFF }
    qdb := x.qdb.insert i 0 })

/-- The lea with queue `i` changed. -/
def Lea.modQueue (x : Lea) (i : Nat) (f : Queue → Queue) : Lea :=
  match x.queues.find i with
  | none => x
  | some q => { x with queues := x.queues.insert i (f q) }

/-- Whether queue `i` of a lea is open with this STOPPED state. -/
def Lea.queueIs (x : Lea) (i : Nat) (stopped : Bool) : Bool :=
  match x.queues.find i with
  | none => false
  | some q => q.stopped == stopped

/-- QUEUE_STOP. -/
def cmdQueueStop : CmdDef := cmd 0x0023 1 .any fun s l a =>
  need (argN a 0 < 4096) .badArgument <|
  need ((s.lea l).queueIs (argN a 0) false) .stateMismatch <|
  .ok (s.modLea l fun x => x.modQueue (argN a 0) fun q => { q with stopped := true })

/-- QUEUE_START. -/
def cmdQueueStart : CmdDef := cmd 0x0024 1 .any fun s l a =>
  need (argN a 0 < 4096) .badArgument <|
  need ((s.lea l).queueIs (argN a 0) true) .stateMismatch <|
  .ok (s.modLea l fun x => x.modQueue (argN a 0) fun q => { q with stopped := false })

/-- QUEUE_DESTROY: a STOPPED queue with no op in flight. -/
def cmdQueueDestroy : CmdDef := cmd 0x0025 1 .any fun s l a =>
  need (argN a 0 < 4096) .badArgument <|
  need ((s.lea l).queueIs (argN a 0) true && !((s.leaOps l).any fun e => e.2.queue == argN a 0)) .stateMismatch <|
  .ok (s.modLea l fun x => { x with queues := x.queues.erase (argN a 0) })

/-- COUNTER_SET: writes a counter and clears its FAILED bit; credit links send nothing for it (R346). -/
def cmdCounterSet : CmdDef := cmd 0x0030 2 .any fun s l a =>
  need (argN a 0 < 4096 && argN a 0 < (s.lea l).quotas.counters) .badArgument <|
  need ((s.lea l).st = .enabled) .stateMismatch <|
  .ok (s.setCounter l (argN a 0) { value := wordAt a 1 })

/-! ## Quotas, shares and grants (14) -/

/-- The quota list in the order of Table 14.1. -/
def Quotas.list (q : Quotas) : List Nat :=
  [q.queues, q.rings, q.counters, q.norm, q.inflight, q.jobs, q.contexts, q.pinMib, q.grants]

/-- Quotas from a list in the order of Table 14.1. -/
def Quotas.ofList (l : List Nat) : Quotas :=
  { queues := l.getD 0 0, rings := l.getD 1 0, counters := l.getD 2 0, norm := l.getD 3 0, inflight := l.getD 4 0,
    jobs := l.getD 5 0, contexts := l.getD 6 0, pinMib := l.getD 7 0, grants := l.getD 8 0 }

/-- The largest value of each quota (Table 14.1). -/
def quotaMax : List Nat := [4096, 512, 4096, 65536, 1024, 256, 32768, 256, 16]

/-- The device total of each quota; none where each lea has its own (Table 14.1). -/
def quotaTotal : List (Option Nat) :=
  [some 32768, some 8192, none, some 65536, some 1024, some 256, some 32768, some 256, none]

/-- One more than the highest index that a table holds. -/
def topIndex {α : Type} (m : Map α) : Nat := m.foldl (fun n e => max n (e.1 + 1)) 0

/-- The jobs bound to lea `l`. -/
def State.leaJobs (s : State) (l : Nat) : Map Job := s.jobs.sel fun _ j => j.lea == l

/-- The channel contexts that lea `l` holds. -/
def State.leaContexts (s : State) (l : Nat) : Nat :=
  (s.leaJobs l).foldl (fun n e => n + e.2.tx.length + e.2.rx.length) 0

/-- The MiB that lea `l` has pinned. -/
def Lea.pinnedMib (x : Lea) : Nat := ceilDiv (x.pins.foldl (fun n p => n + p.len) 0) (2 ^ 20)

/-- The present use of each quota of a lea: for indexed resources one more than the highest index in use, otherwise the
number held (log 9). -/
def State.quotaUse (s : State) (l : Nat) : List Nat :=
  let x := s.lea l
  [x.queues.length, topIndex x.rings, topIndex x.counters, topIndex x.norms, (s.leaOps l).length,
   (s.leaJobs l).length, s.leaContexts l, x.pinnedMib, x.grants.length]

/-- The quotas of a lea with those that a mask names replaced by the words that follow. -/
def maskedQuotas (old : List Nat) (mask i : Nat) (vals : List Word) : List Nat :=
  match old with
  | [] => []
  | q :: rest =>
    if mask.testBit i then (wordAt vals 0).toNat :: maskedQuotas rest mask (i + 1) (vals.drop 1)
    else q :: maskedQuotas rest mask (i + 1) vals

/-- LEA_QUOTA_SET: target lea, MASK, one word for each bit that is set (R392, R493). -/
def cmdLeaQuotaSet : CmdDef :=
  { code := 0x0701, words := fun a => 2 + (onesBelow (argN a 1) 32).length, issuer := .leaZero
    body := fun s _ a =>
      let t := argN a 0
      let old := (s.lea t).quotas.list
      let new := maskedQuotas old (argN a 1) 0 (a.drop 2)
      need (t < 64 && argN a 1 < 2 ^ 9 && (List.zip new quotaMax).all fun p => p.1 ≤ p.2) .badArgument <|
      need ((List.range 9).all fun i => match quotaTotal.getD i none with
        | none => true
        | some tot => !(argN a 1).testBit i ||
            s.leas.foldl (fun n e => n + (if e.1 = t then 0 else e.2.quotas.list.getD i 0)) 0 + new.getD i 0 ≤ tot)
        .noResource <|
      need ((s.lea t).st != .absent && (s.lea t).st != .resetting &&
        (List.range 9).all fun i => !(argN a 1).testBit i || (s.quotaUse t).getD i 0 ≤ new.getD i 0) .stateMismatch <|
      .ok (s.modLea t fun x => { x with quotas := Quotas.ofList new }) }

/-- LEA_QUOTA_READ: each quota and its present use (Table 2.13). -/
def cmdLeaQuotaRead : CmdDef := cmd 0x0702 1 .zeroOrSelf fun s _ a =>
  need (argN a 0 < 64) .badArgument <|
  need ((s.lea (argN a 0)).st != .absent) .stateMismatch <|
  .done s .ok ((List.zip (s.lea (argN a 0)).quotas.list (s.quotaUse (argN a 0))).flatMap fun p =>
    [BitVec.ofNat 32 p.1, BitVec.ofNat 32 p.2])

/-- LEA_SHARE_SET: target lea and its ARRAY, CLUSTER, MEM and FAB weights (R403). -/
def cmdLeaShareSet : CmdDef := cmd 0x0703 5 .leaZero fun s _ a =>
  need (argN a 0 < 64 && argN a 1 < 256 && argN a 2 < 256 && argN a 3 < 256 && argN a 4 < 256) .badArgument <|
  need ((s.lea (argN a 0)).st != .absent) .stateMismatch <|
  .ok (s.modLea (argN a 0) fun x =>
    { x with wArray := argN a 1, wCluster := argN a 2, wMem := argN a 3, wFab := argN a 4 })

/-- LEA_GRANT_SET: target lea, base, length, RW, ZERO (R393, R394); the length takes one word (R493). -/
def cmdLeaGrantSet : CmdDef := cmd 0x0704 6 .leaZero fun s _ a =>
  let t := argN a 0
  let base := argAddr a 1
  let len := argN a 3
  need (t < 64 && argAddrOk a 1 && base % 2 ^ 16 == 0 && len % 2 ^ 16 == 0 && 0 < len && s.mem.inUsable base len &&
    argN a 4 < 2 && argN a 5 < 2) .badArgument <|
  need ((s.lea t).grants.length < (s.lea t).quotas.grants) .noResource <|
  need ((s.lea t).st != .absent && (s.lea t).st != .resetting) .stateMismatch <|
  match (s.lea t).grants.freeFrom 0 16 with
  | none => .fail .noResource
  | some i =>
    let s := s.modLea t fun x => { x with grants := x.grants.insert i { base := base, len := len, rw := argN a 4 == 1 } }
    let s := if argN a 5 = 1 then s.write base (List.replicate len 0) else s
    .done s .ok [BitVec.ofNat 32 i]

/-- Whether two spans share an address. -/
def overlaps (b1 l1 b2 l2 : Nat) : Bool := b1 < b2 + l2 && b2 < b1 + l1

/-- The lea that owns a refill descriptor: that of its partner job handle, or lea 0 (R209). -/
def State.descOwner (s : State) (d : RefillDesc) : Nat :=
  match s.jobs.find d.job with
  | none => 0
  | some j => j.lea

/-- Whether a pin, window, refill descriptor, shard or Baler region of the lea lies in the range (R394). -/
def State.rangeUsed (s : State) (l base len : Nat) : Bool :=
  ((s.lea l).pins.any fun p => overlaps p.base p.len base len) ||
  (s.mem.descs.any fun e => s.descOwner e.2 == l && overlaps e.2.base e.2.len base len) ||
  ((s.leaJobs l).any fun e =>
    (e.2.windows.any fun w => overlaps w.2.base w.2.len base len) ||
    (e.2.shards.any fun h => overlaps h.2.1 (32 + h.2.2) base len) ||
    (match e.2.baler with
     | none => false
     | some b => b.regions.any fun r => overlaps r.base r.len base len))

/-- LEA_GRANT_CLEAR: target lea and grant index (R394). -/
def cmdLeaGrantClear : CmdDef := cmd 0x0705 2 .leaZero fun s _ a =>
  let t := argN a 0
  need (t < 64 && argN a 1 < 16) .badArgument <|
  match (s.lea t).grants.find (argN a 1) with
  | none => .fail .badHandle
  | some g =>
    need ((s.leaOps t).isEmpty && !s.rangeUsed t g.base g.len && (s.lea t).st != .resetting) .stateMismatch <|
    .ok (s.modLea t fun x => { x with grants := x.grants.erase (argN a 1) })

/-- LEA_GRANT_READ (Table 2.13). -/
def cmdLeaGrantRead : CmdDef := cmd 0x0706 1 .zeroOrSelf fun s _ a =>
  need (argN a 0 < 64) .badArgument <|
  need ((s.lea (argN a 0)).st != .absent) .stateMismatch <|
  let gs := (s.lea (argN a 0)).grants
  .done s .ok (BitVec.ofNat 32 gs.length :: gs.flatMap fun e =>
    [packFields [(b2n e.2.rw, 31), (e.1, 24), (natField e.2.base 47 32, 0)], BitVec.ofNat 32 e.2.base,
     BitVec.ofNat 32 (e.2.len / 2 ^ 16)])

/-! ## The command rows -/

/-- PING (R40). -/
def execPing (lea : Nat) (tag : Word) (args : List Word) (s : State) : Host.Outcome State Fault Refusal :=
  finish (s.issue cmdPing lea tag args)
/-- GET_INFO (R40). -/
def execGetInfo (lea : Nat) (tag : Word) (args : List Word) (s : State) : Host.Outcome State Fault Refusal :=
  finish (s.issue cmdGetInfo lea tag args)
/-- GET_STATUS (R406). -/
def execGetStatus (lea : Nat) (tag : Word) (args : List Word) (s : State) : Host.Outcome State Fault Refusal :=
  finish (s.issue cmdGetStatus lea tag args)
/-- LEA_ENABLE (R40). -/
def execLeaEnable (lea : Nat) (tag : Word) (args : List Word) (s : State) : Host.Outcome State Fault Refusal :=
  finish (s.issue cmdLeaEnable lea tag args)
/-- CRING_CREATE (R40, R496, R498). -/
def execCringCreate (lea : Nat) (tag : Word) (args : List Word) (s : State) : Host.Outcome State Fault Refusal :=
  finish (s.issue cmdCringCreate lea tag args)
/-- CRING_DESTROY (R40). -/
def execCringDestroy (lea : Nat) (tag : Word) (args : List Word) (s : State) : Host.Outcome State Fault Refusal :=
  finish (s.issue cmdCringDestroy lea tag args)
/-- QUEUE_CREATE (R40, R498). -/
def execQueueCreate (lea : Nat) (tag : Word) (args : List Word) (s : State) : Host.Outcome State Fault Refusal :=
  finish (s.issue cmdQueueCreate lea tag args)
/-- QUEUE_STOP (R40). -/
def execQueueStop (lea : Nat) (tag : Word) (args : List Word) (s : State) : Host.Outcome State Fault Refusal :=
  finish (s.issue cmdQueueStop lea tag args)
/-- QUEUE_START (R40). -/
def execQueueStart (lea : Nat) (tag : Word) (args : List Word) (s : State) : Host.Outcome State Fault Refusal :=
  finish (s.issue cmdQueueStart lea tag args)
/-- QUEUE_DESTROY (R40). -/
def execQueueDestroy (lea : Nat) (tag : Word) (args : List Word) (s : State) : Host.Outcome State Fault Refusal :=
  finish (s.issue cmdQueueDestroy lea tag args)
/-- COUNTER_SET (R40). -/
def execCounterSet (lea : Nat) (tag : Word) (args : List Word) (s : State) : Host.Outcome State Fault Refusal :=
  finish (s.issue cmdCounterSet lea tag args)
/-- LEA_QUOTA_SET (R392). -/
def execLeaQuotaSet (lea : Nat) (tag : Word) (args : List Word) (s : State) : Host.Outcome State Fault Refusal :=
  finish (s.issue cmdLeaQuotaSet lea tag args)
/-- LEA_QUOTA_READ (R412). -/
def execLeaQuotaRead (lea : Nat) (tag : Word) (args : List Word) (s : State) : Host.Outcome State Fault Refusal :=
  finish (s.issue cmdLeaQuotaRead lea tag args)
/-- LEA_SHARE_SET (R403). -/
def execLeaShareSet (lea : Nat) (tag : Word) (args : List Word) (s : State) : Host.Outcome State Fault Refusal :=
  finish (s.issue cmdLeaShareSet lea tag args)
/-- LEA_GRANT_SET (R393, R394). -/
def execLeaGrantSet (lea : Nat) (tag : Word) (args : List Word) (s : State) : Host.Outcome State Fault Refusal :=
  finish (s.issue cmdLeaGrantSet lea tag args)
/-- LEA_GRANT_CLEAR (R394). -/
def execLeaGrantClear (lea : Nat) (tag : Word) (args : List Word) (s : State) : Host.Outcome State Fault Refusal :=
  finish (s.issue cmdLeaGrantClear lea tag args)
/-- LEA_GRANT_READ (R412). -/
def execLeaGrantRead (lea : Nat) (tag : Word) (args : List Word) (s : State) : Host.Outcome State Fault Refusal :=
  finish (s.issue cmdLeaGrantRead lea tag args)

/-- The commands of this file. -/
def hostCommands : List CmdDef :=
  [cmdPing, cmdGetInfo, cmdGetStatus, cmdLeaEnable, cmdCringCreate, cmdCringDestroy, cmdQueueCreate, cmdQueueStop,
   cmdQueueStart, cmdQueueDestroy, cmdCounterSet, cmdLeaQuotaSet, cmdLeaQuotaRead, cmdLeaShareSet, cmdLeaGrantSet,
   cmdLeaGrantClear, cmdLeaGrantRead]

end Sys2Proof.Machine
end

