-- ==== Sys2Proof/Machine/Crypto.lean ====
section
/-!
DEFINITION. Machine/Crypto.lean: the standard algorithms that the manual names: the CRC-32 of IEEE 802.3, SHA-256
(FIPS 180-4), and AES-256 in GCM (FIPS 197, NIST SP 800-38D). All act on bytes in transmission order.
-/

namespace Sys2Proof.Machine

/-! ## CRC-32 -/

/-- One bit of the reflected CRC-32. -/
def crcStep (c : BitVec 32) : BitVec 32 := if c.getLsbD 0 then (c >>> 1) ^^^ 0xEDB88320 else c >>> 1

/-- `n` bits of the reflected CRC-32. -/
def crcSteps : Nat → BitVec 32 → BitVec 32
  | 0, c => c
  | n + 1, c => crcSteps n (crcStep c)

/-- One byte taken into the reflected CRC-32. -/
def crcByte (c : BitVec 32) (b : Byte) : BitVec 32 := crcSteps 8 (c ^^^ b.zeroExtend 32)

/-- The CRC-32 of IEEE 802.3 over a list of bytes. -/
def crc32 (l : List Byte) : BitVec 32 := ~~~ (l.foldl crcByte 0xFFFFFFFF)

/-! ## SHA-256 -/

/-- The round constants of SHA-256. -/
def shaK : List (BitVec 32) :=
  [0x428a2f98, 0x71374491, 0xb5c0fbcf, 0xe9b5dba5, 0x3956c25b, 0x59f111f1, 0x923f82a4, 0xab1c5ed5,
   0xd807aa98, 0x12835b01, 0x243185be, 0x550c7dc3, 0x72be5d74, 0x80deb1fe, 0x9bdc06a7, 0xc19bf174,
   0xe49b69c1, 0xefbe4786, 0x0fc19dc6, 0x240ca1cc, 0x2de92c6f, 0x4a7484aa, 0x5cb0a9dc, 0x76f988da,
   0x983e5152, 0xa831c66d, 0xb00327c8, 0xbf597fc7, 0xc6e00bf3, 0xd5a79147, 0x06ca6351, 0x14292967] ++
  [0x27b70a85, 0x2e1b2138, 0x4d2c6dfc, 0x53380d13, 0x650a7354, 0x766a0abb, 0x81c2c92e, 0x92722c85,
   0xa2bfe8a1, 0xa81a664b, 0xc24b8b70, 0xc76c51a3, 0xd192e819, 0xd6990624, 0xf40e3585, 0x106aa070,
   0x19a4c116, 0x1e376c08, 0x2748774c, 0x34b0bcb5, 0x391c0cb3, 0x4ed8aa4a, 0x5b9cca4f, 0x682e6ff3,
   0x748f82ee, 0x78a5636f, 0x84c87814, 0x8cc70208, 0x90befffa, 0xa4506ceb, 0xbef9a3f7, 0xc67178f2]

/-- The initial hash value of SHA-256. -/
def shaInit : List (BitVec 32) :=
  [0x6a09e667, 0xbb67ae85, 0x3c6ef372, 0xa54ff53a, 0x510e527f, 0x9b05688c, 0x1f83d9ab, 0x5be0cd19]

/-- The word 16 places on in the message schedule. -/
def shaNext (w : List (BitVec 32)) : BitVec 32 :=
  let x := w.getD 14 0
  let y := w.getD 1 0
  (x.rotateRight 17 ^^^ x.rotateRight 19 ^^^ (x >>> 10)) + w.getD 9 0
    + (y.rotateRight 7 ^^^ y.rotateRight 18 ^^^ (y >>> 3)) + w.getD 0 0

/-- One round: the working variables a to h. -/
def shaRound (v : List (BitVec 32)) (k w : BitVec 32) : List (BitVec 32) :=
  match v with
  | [a, b, c, d, e, f, g, h] =>
    let t1 := h + (e.rotateRight 6 ^^^ e.rotateRight 11 ^^^ e.rotateRight 25) + ((e &&& f) ^^^ (~~~e &&& g)) + k + w
    let t2 := (a.rotateRight 2 ^^^ a.rotateRight 13 ^^^ a.rotateRight 22) + ((a &&& b) ^^^ (a &&& c) ^^^ (b &&& c))
    [t1 + t2, a, b, c, d + t1, e, f, g]
  | l => l

/-- The rounds over the remaining constants, with the running sixteen words of the schedule. -/
def shaRounds : List (BitVec 32) → List (BitVec 32) → List (BitVec 32) → List (BitVec 32)
  | [], _, v => v
  | k :: ks, w, v => shaRounds ks (w.drop 1 ++ [shaNext w]) (shaRound v k (w.getD 0 0))

/-- The hash value after one block of 64 bytes. -/
def shaBlock (h : List (BitVec 32)) (block : List Byte) : List (BitVec 32) :=
  let w := (List.range 16).map fun i => BitVec.ofNat 32 (beToNat ((block.drop (4 * i)).take 4))
  List.zipWith (· + ·) h (shaRounds shaK w h)

/-- The hash value after `n` blocks. -/
def shaBlocks : Nat → List (BitVec 32) → List Byte → List (BitVec 32)
  | 0, h, _ => h
  | n + 1, h, l => shaBlocks n (shaBlock h (l.take 64)) (l.drop 64)

/-- SHA-256 of a list of bytes: 32 bytes. -/
def sha256 (l : List Byte) : List Byte :=
  let padded := l ++ [0x80] ++ List.replicate ((119 - l.length % 64) % 64) 0 ++ natToBE 8 (8 * l.length)
  (shaBlocks (padded.length / 64) shaInit padded).flatMap fun w => natToBE 4 w.toNat

/-! ## AES-256 -/

/-- The S-box, in four parts. -/
def aesSbox0 : List Byte :=
  [0x63, 0x7c, 0x77, 0x7b, 0xf2, 0x6b, 0x6f, 0xc5, 0x30, 0x01, 0x67, 0x2b, 0xfe, 0xd7, 0xab, 0x76,
   0xca, 0x82, 0xc9, 0x7d, 0xfa, 0x59, 0x47, 0xf0, 0xad, 0xd4, 0xa2, 0xaf, 0x9c, 0xa4, 0x72, 0xc0,
   0xb7, 0xfd, 0x93, 0x26, 0x36, 0x3f, 0xf7, 0xcc, 0x34, 0xa5, 0xe5, 0xf1, 0x71, 0xd8, 0x31, 0x15,
   0x04, 0xc7, 0x23, 0xc3, 0x18, 0x96, 0x05, 0x9a, 0x07, 0x12, 0x80, 0xe2, 0xeb, 0x27, 0xb2, 0x75]
/-- The S-box, part 1. -/
def aesSbox1 : List Byte :=
  [0x09, 0x83, 0x2c, 0x1a, 0x1b, 0x6e, 0x5a, 0xa0, 0x52, 0x3b, 0xd6, 0xb3, 0x29, 0xe3, 0x2f, 0x84,
   0x53, 0xd1, 0x00, 0xed, 0x20, 0xfc, 0xb1, 0x5b, 0x6a, 0xcb, 0xbe, 0x39, 0x4a, 0x4c, 0x58, 0xcf,
   0xd0, 0xef, 0xaa, 0xfb, 0x43, 0x4d, 0x33, 0x85, 0x45, 0xf9, 0x02, 0x7f, 0x50, 0x3c, 0x9f, 0xa8,
   0x51, 0xa3, 0x40, 0x8f, 0x92, 0x9d, 0x38, 0xf5, 0xbc, 0xb6, 0xda, 0x21, 0x10, 0xff, 0xf3, 0xd2]
/-- The S-box, part 2. -/
def aesSbox2 : List Byte :=
  [0xcd, 0x0c, 0x13, 0xec, 0x5f, 0x97, 0x44, 0x17, 0xc4, 0xa7, 0x7e, 0x3d, 0x64, 0x5d, 0x19, 0x73,
   0x60, 0x81, 0x4f, 0xdc, 0x22, 0x2a, 0x90, 0x88, 0x46, 0xee, 0xb8, 0x14, 0xde, 0x5e, 0x0b, 0xdb,
   0xe0, 0x32, 0x3a, 0x0a, 0x49, 0x06, 0x24, 0x5c, 0xc2, 0xd3, 0xac, 0x62, 0x91, 0x95, 0xe4, 0x79,
   0xe7, 0xc8, 0x37, 0x6d, 0x8d, 0xd5, 0x4e, 0xa9, 0x6c, 0x56, 0xf4, 0xea, 0x65, 0x7a, 0xae, 0x08]
/-- The S-box, part 3. -/
def aesSbox3 : List Byte :=
  [0xba, 0x78, 0x25, 0x2e, 0x1c, 0xa6, 0xb4, 0xc6, 0xe8, 0xdd, 0x74, 0x1f, 0x4b, 0xbd, 0x8b, 0x8a,
   0x70, 0x3e, 0xb5, 0x66, 0x48, 0x03, 0xf6, 0x0e, 0x61, 0x35, 0x57, 0xb9, 0x86, 0xc1, 0x1d, 0x9e,
   0xe1, 0xf8, 0x98, 0x11, 0x69, 0xd9, 0x8e, 0x94, 0x9b, 0x1e, 0x87, 0xe9, 0xce, 0x55, 0x28, 0xdf,
   0x8c, 0xa1, 0x89, 0x0d, 0xbf, 0xe6, 0x42, 0x68, 0x41, 0x99, 0x2d, 0x0f, 0xb0, 0x54, 0xbb, 0x16]
/-- The S-box. -/
def aesSub (b : Byte) : Byte :=
  let n := b.toNat
  (if n < 64 then aesSbox0 else if n < 128 then aesSbox1 else if n < 192 then aesSbox2 else aesSbox3).getD (n % 64) 0

/-- Multiplication by x in GF(2^8). -/
def aesX (b : Byte) : Byte := if b.msb then (b <<< 1) ^^^ 0x1b else b <<< 1

/-- The next word of the AES-256 key schedule, number `i`, from the words so far. -/
def aesKeyWord (ks : List (List Byte)) (i : Nat) : List Byte :=
  let t := ks.getD (i - 1) []
  let t := if i % 8 = 0 then
      match (t.drop 1 ++ t.take 1).map aesSub with
      | b :: rest => (b ^^^ (1#8 <<< (i / 8 - 1))) :: rest
      | [] => []
    else if i % 8 = 4 then t.map aesSub else t
  xorBytes (ks.getD (i - 8) []) t

/-- The key schedule grown by `n` words. -/
def aesExpand : Nat → List (List Byte) → List (List Byte)
  | 0, ks => ks
  | n + 1, ks => aesExpand n (ks ++ [aesKeyWord ks ks.length])

/-- The 15 round keys of an AES-256 key of 32 bytes. -/
def aesRoundKeys (key : List Byte) : List (List Byte) :=
  let ws := aesExpand 52 ((List.range 8).map fun i => (key.drop (4 * i)).take 4)
  (List.range 15).map fun r => ((ws.drop (4 * r)).take 4).flatten

/-- ShiftRows on the column-major state. -/
def aesShift (s : List Byte) : List Byte := (List.range 16).map fun i => s.getD ((i + 4 * (i % 4)) % 16) 0

/-- MixColumns. -/
def aesMix (s : List Byte) : List Byte :=
  (List.range 16).map fun i =>
    let c := 4 * (i / 4)
    let at' := fun k => s.getD (c + (i + k) % 4) 0
    aesX (at' 0) ^^^ (aesX (at' 1) ^^^ at' 1) ^^^ at' 2 ^^^ at' 3

/-- The rounds after the first key; the last has no MixColumns. -/
def aesRounds : List (List Byte) → List Byte → List Byte
  | [], s => s
  | [k], s => xorBytes (aesShift (s.map aesSub)) k
  | k :: ks, s => aesRounds ks (xorBytes (aesMix (aesShift (s.map aesSub))) k)

/-- AES-256 of one block. -/
def aesEncrypt (key block : List Byte) : List Byte :=
  match aesRoundKeys key with
  | [] => block
  | k :: ks => aesRounds ks (xorBytes block k)

/-! ## GCM -/

/-- One step of the product in GF(2^128), over the bits of one factor from the most significant. -/
def ghashMulBits : Nat → BitVec 128 → BitVec 128 → BitVec 128 → BitVec 128
  | 0, _, _, z => z
  | n + 1, x, v, z =>
    let z := if x.getLsbD n then z ^^^ v else z
    ghashMulBits n x (if v.getLsbD 0 then (v >>> 1) ^^^ (0xE1#128 <<< 120) else v >>> 1) z

/-- The product of GHASH. -/
def ghashMul (x y : BitVec 128) : BitVec 128 := ghashMulBits 128 x y 0

/-- GHASH over `n` blocks of 16 bytes. -/
def ghashBlocks (h : BitVec 128) : Nat → BitVec 128 → List Byte → BitVec 128
  | 0, y, _ => y
  | n + 1, y, l => ghashBlocks h n (ghashMul (y ^^^ BitVec.ofNat 128 (beToNat (l.take 16))) h) (l.drop 16)

/-- Bytes padded with zeros to a multiple of 16. -/
def pad16 (l : List Byte) : List Byte := l ++ List.replicate ((16 - l.length % 16) % 16) 0

/-- The counter-mode key stream: `n` blocks from counter value `c` on. -/
def gcmStream (key nonce : List Byte) : Nat → Nat → List Byte
  | 0, _ => []
  | n + 1, c => aesEncrypt key (nonce ++ natToBE 4 c) ++ gcmStream key nonce n (c + 1)

/-- Encryption and decryption of GCM with a 12-byte nonce. -/
def gcmCrypt (key nonce data : List Byte) : List Byte :=
  xorBytes data (gcmStream key nonce (ceilDiv data.length 16) 2)

/-- The 16-byte tag of GCM over additional data and ciphertext. -/
def gcmTag (key nonce aad ct : List Byte) : List Byte :=
  let h := BitVec.ofNat 128 (beToNat (aesEncrypt key (List.replicate 16 0)))
  let l := pad16 aad ++ pad16 ct ++ natToBE 8 (8 * aad.length) ++ natToBE 8 (8 * ct.length)
  xorBytes (natToBE 16 (ghashBlocks h (l.length / 16) 0 l).toNat) (aesEncrypt key (nonce ++ natToBE 4 1))

end Sys2Proof.Machine
end

