-- ==== Sys2Proof/Machine/Hss.lean ====
section
/-!
DEFINITION. Machine/Hss.lean: verification of an HSS signature with the parameters of Table 16.7, as RFC 8554 gives it,
on which R446, R447 and R449 rest.
-/

namespace Sys2Proof.Machine

/-- A slice of a byte string. -/
def slice (b : List Byte) (i n : Nat) : List Byte := (b.drop i).take n

/-- The LM-OTS chain of digit `d` from `x` on to step 15 (w = 4). -/
def otsChain (head : List Byte) : Nat → Nat → List Byte → List Byte
  | 0, _, x => x
  | n + 1, d, x => if 15 ≤ d then x else otsChain head n (d + 1) (sha256 (head ++ natToBE 1 d ++ x))

/-- The 4-bit digits of a byte string, high half first. -/
def nibbles : List Byte → List Nat
  | [] => []
  | b :: rest => b.toNat / 16 :: b.toNat % 16 :: nibbles rest

/-- The candidate public key of an LM-OTS signature of type N32_W4 (4-byte type, C, 67 chains). -/
def otsCandidate (ident : List Byte) (q : Nat) (sig msg : List Byte) : List Byte :=
  let head := ident ++ natToBE 4 q
  let h := sha256 (head ++ natToBE 2 0x8181 ++ slice sig 4 32 ++ msg)
  let sum := (nibbles h).foldl (fun n d => n + (15 - d)) 0
  let digits := (nibbles (h ++ natToBE 2 (sum * 16))).take 67
  sha256 (head ++ natToBE 2 0x8080 ++ (List.range 67).flatMap fun i =>
    otsChain (head ++ natToBE 2 i) 15 (digits.getD i 0) (slice sig (36 + 32 * i) 32))

/-- The root that a leaf and its path give. -/
def lmsRoot (ident : List Byte) : Nat → Nat → List Byte → List Byte → List Byte
  | 0, _, _, x => x
  | h + 1, node, path, x =>
    let sib := path.take 32
    let up := sha256 (ident ++ natToBE 4 (node / 2) ++ natToBE 2 0x8383 ++ if node % 2 = 1 then sib ++ x else x ++ sib)
    lmsRoot ident h (node / 2) (path.drop 32) up

/-- An LMS signature of tree height `h` and type code `lms` verifies under a 56-byte public key. -/
def lmsVerify (lms h : Nat) (key msg sig : List Byte) : Bool :=
  let ident := slice key 8 16
  let q := beToNat (slice sig 0 4)
  let kc := otsCandidate ident q (slice sig 4 2180) msg
  let leaf := sha256 (ident ++ natToBE 4 (2 ^ h + q) ++ natToBE 2 0x8282 ++ kc)
  key.length == 56 && sig.length == 4 + 2180 + 4 + 32 * h && beToNat (slice key 0 4) == lms &&
  beToNat (slice key 4 4) == 3 && beToNat (slice sig 4 4) == 3 && beToNat (slice sig 2184 4) == lms && q < 2 ^ h &&
  lmsRoot ident h (2 ^ h + q) (slice sig 2188 (32 * h)) leaf == slice key 24 32

/-- An HSS signature (Table 16.7: two levels, H20 over H10) verifies under a 60-byte public key. -/
def hssVerify (key msg sig : List Byte) : Bool :=
  let mid := slice sig 2832 56
  key.length == 60 && sig.length == 5396 && beToNat (slice key 0 4) == 2 && beToNat (slice sig 0 4) == 1 &&
  lmsVerify 8 20 (slice key 4 56) mid (slice sig 4 2828) && lmsVerify 6 10 mid msg (slice sig 2888 2508)

end Sys2Proof.Machine
end

