-- ==== Sys2Proof/Machine/Firmware.lean ====
section
/-!
DEFINITION. Machine/Firmware.lean: the two-bank store, the device record, firmware banks, attestation and the handover
(16, R441 to R464, R473). Cold start stands in StartUp.lean.
-/

namespace Sys2Proof.Machine

/-! ## The store -/

/-- The flash offset of a bank (Table 16.4). -/
def bankBase (b : Nat) : Nat := 0x01000000 + b * 0x02000000

/-- Bytes of a bank; erased flash reads 0xFF. -/
def Firmware.bank (f : Firmware) (b off n : Nat) : List Byte :=
  (range' (bankBase b + off) n).map fun a => Map.getD f.flash a 0xFF

/-- A little-endian number in a bank. -/
def Firmware.bankN (f : Firmware) (b off n : Nat) : Nat := leToNat (f.bank b off n)

/-- Flash with bytes written. -/
def flashStore (m : List Host.Cell) (a : Nat) : List Byte → List Host.Cell
  | [] => m
  | x :: rest => flashStore (if x = 0xFF then Map.erase m a else Map.insert m a x) (a + 1) rest

/-- A bank with bytes written at an offset. -/
def Firmware.putBank (f : Firmware) (b off : Nat) (bytes : List Byte) : Firmware :=
  { f with flash := flashStore f.flash (bankBase b + off) bytes }

/-- A bank erased. -/
def Firmware.eraseBank (f : Firmware) (b : Nat) : Firmware :=
  { f with flash := f.flash.filter fun c => c.1 < bankBase b || bankBase b + 0x02000000 ≤ c.1
           verified := if f.verified = some b then none else f.verified }

/-- Fields of a bank's header (Table 16.6). -/
def Firmware.bankVersion (f : Firmware) (b : Nat) : Nat := f.bankN b 4 4
@[inherit_doc Firmware.bankVersion] def Firmware.bankSvn (f : Firmware) (b : Nat) : Nat := f.bankN b 8 4
@[inherit_doc Firmware.bankVersion] def Firmware.bankRunstate (f : Firmware) (b : Nat) : Nat := f.bankN b 14 2
@[inherit_doc Firmware.bankVersion] def Firmware.bankSeq (f : Firmware) (b : Nat) : Nat := f.bankN b 8180 4
@[inherit_doc Firmware.bankVersion] def Firmware.bankTrial (f : Firmware) (b : Nat) : Nat := f.bankN b 8184 1
@[inherit_doc Firmware.bankVersion] def Firmware.bankDigest (f : Firmware) (b : Nat) : List Byte := f.bank b 32 32

/-- The checks of R447 on signature, key hash and digest, with the header's form and its CRC. -/
def Firmware.bankAuthentic (f : Firmware) (b : Nat) : Bool :=
  f.bankN b 0 4 == 1 && f.bankN b 8188 4 == (crc32 (f.bank b 0 8188)).toNat && f.bankN b 16 4 ≤ 0x02000000 - 8192 &&
  sha256 (f.bank b 64 60) == f.fuses.keyHash && hssVerify (f.bank b 64 60) (f.bank b 0 64) (f.bank b 124 5396) &&
  sha256 (f.bank b 8192 (f.bankN b 16 4)) == f.bankDigest b && f.bankTrial b != 2

/-- The checks of R447 on SVN and MIN_REVISION. -/
def Firmware.bankAllowed (f : Firmware) (b : Nat) : Bool := f.fuses.minSvn ≤ f.bankSvn b && f.bankN b 12 2 ≤ f.fuses.revision

/-- Whether a bank is valid (R447). -/
def Firmware.bankValid (f : Firmware) (b : Nat) : Bool := f.bankAuthentic b && f.bankAllowed b

/-- The store winner (R447). -/
def Firmware.winner (f : Firmware) : Option Nat :=
  match f.bankValid 0, f.bankValid 1 with
  | false, false => none
  | true, false => some 0
  | false, true => some 1
  | true, true => if f.bankSeq 0 < f.bankSeq 1 then some 1 else some 0

/-- CIH_FW_STATUS.TRIAL: the running bank is not the winner, or a cold trial runs. -/
def Firmware.trial (f : Firmware) : Bool := f.coldTrial || (!f.rom && f.winner != some f.running)

/-- The writable bank (R455). -/
def Firmware.writable (f : Firmware) : Option Nat :=
  if f.trial || f.coldPending then none
  else [0, 1].find? fun b => f.winner != some b && (f.rom || f.running != b)

/-- The second 4 KiB of a bank's header rewritten with SEQ and COLD_TRIAL, and its CRC (R460 to R462). -/
def Firmware.rewriteHeader (f : Firmware) (b seq trial : Nat) : Firmware :=
  let f := f.putBank b 8180 (natToLE 4 seq ++ natToLE 1 trial)
  f.putBank b 8188 (natToLE 4 (crc32 (f.bank b 0 8188)).toNat)

/-! ## The device record -/

/-- The winning copy of the device record: its number and contents (R444). -/
def Firmware.record (f : Firmware) : Option (Nat × Record) :=
  match f.rec0, f.rec1 with
  | none, none => none
  | some a, none => some (0, a)
  | none, some b => some (1, b)
  | some a, some b => if a.seq.toNat < b.seq.toNat then some (1, b) else some (0, a)

/-- The record that Cihal works from: the winner, or an empty one (R445). -/
def Firmware.current (f : Firmware) : Record :=
  match f.record with
  | some (_, r) => r
  | none => {}

/-- A record write (R443): to the copy that is not the winner, with SEQ one more. -/
def Firmware.writeRecord (f : Firmware) (g : Record → Record) : Firmware :=
  let r := { g f.current with seq := f.current.seq + 1 }
  let f := match f.record with
    | some (0, _) => { f with rec1 := some r }
    | _ => { f with rec0 := some r }
  { f with recordWritten := true, writeCount := f.writeCount + 1 }

/-- Cihal writes the record; a fenced xSPI domain makes the write fail. -/
def State.writeRecord (s : State) (g : Record → Record) : State :=
  if s.edgeFenced 33 then { s with fw := { s.fw with writeFail := true, failCount := s.fw.failCount + 1 } }
  else { s with fw := s.fw.writeRecord g }

/-- A fault-log entry, its SEQ words replaced by BOOT_COUNT (Table 16.5). -/
def Record.logFault (r : Record) (w : List Word) : Record :=
  { r with log := r.log.insert r.faultNext (w.take 6 ++ [r.bootCount, 0]), faultNext := (r.faultNext + 1) % 16 }

/-- The bytes of a record copy (Table 16.5). -/
def Record.bytes (r : Record) : List Byte :=
  let b := [1, BitVec.ofNat 8 r.keygen, 0, 0] ++ wordsToBytes ([r.seq, BitVec.ofNat 32 r.leafLimit, r.bootCount,
      BitVec.ofNat 32 r.faultNext, 0, 0, 0] ++ (List.range 1024).map (r.lanes.getD · 0)) ++
    (List.range 16).flatMap fun i => wordsToBytes (r.log.getD i (List.replicate 8 0))
  b ++ natToLE 4 (crc32 b).toNat

/-! ## Health data (Table 15.5) -/

/-- The code of a die's state in Table 15.5. -/
def DieSt.health : DieSt → Nat
  | .inService => 0 | .queued => 1 | .resetting => 1 | .rejoining => 2 | .fenced => 3

/-- The body of HEALTH_RESP (Table 15.5), big-endian. -/
def State.health (s : State) : List Byte :=
  natToBE 1 s.hub.dev.code ++
  natToBE 1 (((List.range 4).map fun d => (s.die d).st.health <<< (2 * d)).foldl (· + ·) 0) ++
  natToBE 1 s.mem.stackLost.toNat ++ natToBE 1 ((s.leas.filter fun e => e.2.st == .enabled).length) ++
  natToBE 5 s.edge.fenced.toNat ++ natToBE 5 s.edge.online.toNat ++ natToBE 2 (ofSigned 16 s.pwr.tj) ++
  natToBE 2 s.pwr.windowW ++ natToBE 4 s.fw.version.toNat ++ natToBE 2 s.pwr.actual ++ natToBE 8 s.now.toNat ++
  natToBE 4 s.fw.totalEvents.toNat ++ List.replicate 28 0

/-- A Hedgerow frame of the part: Ethernet header, Hedgerow header and body, without the FCS (R423). -/
def State.hdrFrame (s : State) (dst : List Byte) (type seq : Nat) (body : List Byte) : List Byte :=
  dst ++ s.hdr.mac ++ natToBE 2 0x88B5 ++ natToBE 1 (16 + type) ++ [0] ++ natToBE 2 body.length ++ natToBE 4 seq ++ body

/-- A frame queued for transmission in a tier (R417). -/
def State.queueHdr (s : State) (tier : Nat) (bytes : List Byte) : State :=
  { s with hdr := { s.hdr with queue := s.hdr.queue ++ [{ tier := tier, bytes := bytes }] } }

/-- A counter of Table 15.6 counts `n` more; its half-range bit is set as bit 31 changes (R433). -/
def State.hdrCount (s : State) (i : Nat) (n : Nat := 1) : State :=
  let old := s.hdr.ctr.getD i 0
  let new := old + BitVec.ofNat 32 n
  let s := { s with hdr := { s.hdr with ctr := s.hdr.ctr.insert i new } }
  if old.msb = new.msb then s
  else
    let s := { s with hdr := { s.hdr with half := s.hdr.half ||| (1#32 <<< i), halfCount := s.hdr.halfCount + 1 } }
    if s.hdr.halfEvent then s.queueEvent 0 (faultEvent .ok 0x01 0x20 (index := i)) else s

/-- Cihal answers an accepted health request, within the rate (R430); the request is the whole frame. -/
def State.answerHealth (s : State) (req : List Byte) : State :=
  if s.hdr.healthSent < s.hdr.healthRate then
    { s with hdr := { s.hdr with healthSent := s.hdr.healthSent + 1 } }.queueHdr 2
      (s.hdrFrame (slice req 6 6) 3 (beToNat (slice req 18 4)) s.health)
  else s.hdrCount 19

/-- The health requests held during a handover are answered (R457). -/
def State.flushHealth (s : State) : State :=
  s.hdr.heldHealth.foldl State.answerHealth { s with hdr := { s.hdr with heldHealth := [] } }

/-! ## Firmware commands (R455 to R463) -/

/-- Whether staging is armed. -/
def State.armed (s : State) : Bool := s.hdr.staging.isSome

/-- Bytes written to the writable bank (R455): a write at offset 0 erases it first, and the VERIFIED mark goes. -/
def Firmware.program (f : Firmware) (b off : Nat) (bytes : List Byte) : Firmware :=
  let f := if off = 0 then f.eraseBank b else f
  { f.putBank b off bytes with verified := if f.verified = some b then none else f.verified }

/-- FW_WRITE: bank offset, length, HBM source (R455). -/
def cmdFwWrite : CmdDef := cmd 0x0901 4 .leaZero fun s _ a =>
  let off := argN a 0
  let len := argN a 1
  need (off % 4096 == 0 && len % 4096 == 0 && 0 < len && off + len ≤ 0x02000000 && argAddrOk a 2 &&
    s.mem.inUsable (argAddr a 2) len && s.granted 0 (argAddr a 2) len false) .badArgument <|
  match s.fw.writable with
  | none => .fail .stateMismatch
  | some b =>
    need (!s.armed) .stateMismatch <| needDomain s 33 <| needAccess (s.access (argAddr a 2) len) s <|
    .ok { s with fw := s.fw.program b off (s.read (argAddr a 2) len) }

/-- FW_VERIFY (R456). A header whose form or CRC fails counts with the signature (log 20). -/
def cmdFwVerify : CmdDef := cmd 0x0902 0 .leaZero fun s _ _ =>
  match s.fw.writable with
  | none => .fail .stateMismatch
  | some b =>
    need (!s.armed) .stateMismatch <| needDomain s 33 <|
    let failed := { s with fw := { s.fw with verifyFail := true, revertCount := s.fw.revertCount + 1 } }
    if !s.fw.bankAuthentic b then .done failed .signature []
    else if !s.fw.bankAllowed b then .done failed .badArgument []
    else .ok { s with fw := { s.fw with verified := some b } }

/-- FW_ACTIVATE (R457, R458): steps 1 to 3 of Table 16.9; HANDOVER_ALIVE or FW_ALIVE_TIMEOUT follows. -/
def cmdFwActivate : CmdDef := cmd 0x0903 0 .leaZero fun s _ _ =>
  match s.fw.verified with
  | none => .fail .stateMismatch
  | some b =>
    need (!s.fw.trial && s.fw.writable == some b && s.fw.bankRunstate b == s.fw.bankRunstate s.fw.running)
      .stateMismatch <| needDomain s 33 <|
    .defer { s with fw := { s.fw with handover := some { bank := b, since := s.now } } } .fwActivate

/-- FW_COMMIT (R460). -/
def cmdFwCommit : CmdDef := cmd 0x0904 0 .leaZero fun s _ _ =>
  need s.fw.trial .stateMismatch <| needDomain s 33 <|
  if s.fw.coldTrial then
    .ok { s with fw := { s.fw.rewriteHeader s.fw.running (s.fw.bankSeq s.fw.running) 0 with coldTrial := false } }
  else match s.fw.winner with
    | none => .fail .stateMismatch
    | some w =>
      .ok { s with fw := s.fw.rewriteHeader s.fw.running (s.fw.bankSeq w + 1) 0 }

/-- FW_SVN_COMMIT (R463). -/
def cmdFwSvnCommit : CmdDef := cmd 0x0905 0 .leaZero fun s _ _ =>
  need (!s.fw.trial) .stateMismatch <| needDomain s 38 <|
  .ok { s with fw := { s.fw with
    fuses := { s.fw.fuses with minSvn := max s.fw.fuses.minSvn (s.fw.bankSvn s.fw.running) } } }

/-- FW_INFO. -/
def cmdFwInfo : CmdDef := cmd 0x0906 0 .any fun s _ _ =>
  .done s .ok (([0, 1].flatMap fun b => [BitVec.ofNat 32 (b2n (s.fw.bankValid b)), BitVec.ofNat 32 (s.fw.bankSeq b),
    BitVec.ofNat 32 (s.fw.bankVersion b), BitVec.ofNat 32 (s.fw.bankSvn b)]) ++
    [BitVec.ofNat 32 s.fw.running, BitVec.ofNat 32 s.fw.fuses.minSvn])

/-- FW_COMMIT_COLD (R461). -/
def cmdFwCommitCold : CmdDef := cmd 0x0907 0 .leaZero fun s _ _ =>
  match s.fw.writable, s.fw.winner with
  | some b, some w =>
    need (!s.fw.trial && s.fw.verified == some b && s.fw.bankRunstate b != s.fw.bankRunstate s.fw.running)
      .stateMismatch <| needDomain s 33 <|
    .ok { s with fw := { s.fw.rewriteHeader b (s.fw.bankSeq w + 1) 1 with coldPending := true } }
  | _, _ => .fail .stateMismatch

/-! ## Attestation (R449 to R454) -/

/-- The next KEYGEN fuse bit is burnt and the new generation starts at leaf 0 (R453). -/
def Firmware.advanceKeygen (f : Firmware) : Firmware :=
  { f with fuses := { f.fuses with keygen := min 4 (f.fuses.keygen + 1) }, keygenAdvanced := true
           failCount := f.failCount + 1, nextLeaf := 0, leafUnknown := false }

/-- The report (Table 16.8). -/
def State.report16 (s : State) (nonce : List Byte) : List Byte :=
  let f := s.fw
  let w := f.winner.getD 0
  [1, BitVec.ofNat 8 f.fuses.keygen, 0, 0] ++ natToLE 4 f.nextLeaf ++ f.fuses.identity ++ nonce ++
  natToLE 4 f.version.toNat ++ natToLE 2 (f.bankSvn f.running) ++ natToLE 2 f.fuses.minSvn ++ f.bankDigest f.running ++
  f.bankDigest w ++ [BitVec.ofNat 8 f.running, BitVec.ofNat 8 w, BitVec.ofNat 8 (b2n f.trial), 0] ++ s.health.take 36 ++
  List.replicate 88 0

/-- The status with which ATTEST ends at once without signing: no generation is left, or no leaf (R450, R453). -/
def Firmware.attestRefused (f : Firmware) : Option Status :=
  if 4 ≤ f.fuses.keygen then some .storeFault else if 2 ^ 30 ≤ f.nextLeaf then some .leafExhausted else none

/-- ATTEST signs (R451, R454): a record raises LEAF_LIMIT first where the leaf calls for it. -/
def State.sign (s : State) (a : List Word) : State :=
  let s := if s.fw.current.leafLimit ≤ s.fw.nextLeaf then
    s.writeRecord fun r => { r with leafLimit := r.leafLimit + 64, keygen := s.fw.fuses.keygen } else s
  let rep := s.report16 (argBytes a 0 32)
  let sig := (List.range 5396).map (Config.attestByte s.fw.fuses.keygen s.fw.nextLeaf rep)
  { s.write (argAddr a 8) (rep ++ sig) with fw := { s.fw with nextLeaf := s.fw.nextLeaf + 1, lastSign := some s.now } }

/-- Whether the rate interval of R452 has passed. -/
def State.maySign (s : State) : Bool :=
  match s.fw.lastSign with
  | none => true
  | some t => 2 ^ 25 ≤ s.elapsed t

/-- ATTEST: NONCE (8 words), destination (R452, R454). -/
def cmdAttest : CmdDef := cmd 0x0910 10 .leaZero fun s _ a =>
  need (argAddrOk a 8 && s.mem.inUsable (argAddr a 8) 5652 && s.granted 0 (argAddr a 8) 5652 true) .badArgument <|
  need s.live .stateMismatch <|
  let s := if s.fw.leafUnknown then { s with fw := s.fw.advanceKeygen } else s
  match s.fw.attestRefused with
  | some st => .done s st []
  | none =>
    if !s.maySign then .defer { s with fw := { s.fw with attestArgs := some a } } .attest
    else needDomain s 33 <| needAccess (s.writeAccess (argAddr a 8) 5652) s <| .ok (s.sign a)

/-- STORE_READ: destination; the winning record is copied to HBM (R473). -/
def cmdStoreRead : CmdDef := cmd 0x0911 2 .leaZero fun s _ a =>
  need (argAddrOk a 0 && s.mem.inUsable (argAddr a 0) 4644 && s.granted 0 (argAddr a 0) 4644 true) .badArgument <|
  need s.live .stateMismatch <| needDomain s 33 <| needAccess (s.writeAccess (argAddr a 0) 4644) s <|
  .ok (s.write (argAddr a 0) s.fw.current.bytes)

/-- ATTEST_DEFERRED_SIGN (R452): the deferred ATTEST signs once the interval has passed. -/
def execAttestDeferredSign (s : State) : Host.Outcome State Fault Refusal :=
  match (s.lea 0).mbx.deferral, s.fw.attestArgs with
  | some .attest, some a =>
    if s.maySign && s.cihalServes && s.edgeOn 33 then
      finish ({ s.sign a with fw := { (s.sign a).fw with attestArgs := none } }.respond 0 .ok)
    else finish s
  | _, _ => finish s

/-! ## The handover (Table 16.9) -/

/-- The image in bank `b` runs. -/
def Firmware.run (f : Firmware) (b : Nat) : Firmware :=
  { f with running := b, rom := false, version := BitVec.ofNat 32 (f.bankVersion b), handover := none }

/-- HANDOVER_ALIVE (R457, R459): step 5 of Table 16.9; a reverting handover ends with REVERTED and ST_UNIT_FAULT. -/
def execHandoverAlive (s : State) : Host.Outcome State Fault Refusal :=
  match s.fw.handover with
  | none => finish s
  | some h =>
    if !s.edgeOn 31 then finish s
    else if h.reverting then
      finish ({ s with fw := { s.fw.run h.bank with reverted := true
                                                    revertCount := s.fw.revertCount + 1 } }.flushHealth.respond 0 .unitFault)
    else
      finish ({ s with fw := { s.fw.run h.bank with activated := true
                                                    activateCount := s.fw.activateCount + 1 } }.flushHealth.respond 0 .ok)

/-- FW_ALIVE_TIMEOUT (R459): Cihal ROM runs the handover again with the winning bank. -/
def execFwAliveTimeout (s : State) : Host.Outcome State Fault Refusal :=
  match s.fw.handover with
  | none => finish s
  | some h =>
    if !h.reverting && s.fw.fwAlive ≤ s.elapsed h.since then
      finish { s with fw := { s.fw with
        handover := some { bank := s.fw.winner.getD s.fw.running, since := s.now, reverting := true } } }
    else finish s

/-! ## The command rows -/

/-- FW_WRITE (R455). -/
def execFwWrite (lea : Nat) (tag : Word) (args : List Word) (s : State) : Host.Outcome State Fault Refusal :=
  finish (s.issue cmdFwWrite lea tag args)
/-- FW_VERIFY (R456). -/
def execFwVerify (lea : Nat) (tag : Word) (args : List Word) (s : State) : Host.Outcome State Fault Refusal :=
  finish (s.issue cmdFwVerify lea tag args)
/-- FW_ACTIVATE (R457). -/
def execFwActivate (lea : Nat) (tag : Word) (args : List Word) (s : State) : Host.Outcome State Fault Refusal :=
  finish (s.issue cmdFwActivate lea tag args)
/-- FW_COMMIT (R460). -/
def execFwCommit (lea : Nat) (tag : Word) (args : List Word) (s : State) : Host.Outcome State Fault Refusal :=
  finish (s.issue cmdFwCommit lea tag args)
/-- FW_SVN_COMMIT (R463). -/
def execFwSvnCommit (lea : Nat) (tag : Word) (args : List Word) (s : State) : Host.Outcome State Fault Refusal :=
  finish (s.issue cmdFwSvnCommit lea tag args)
/-- FW_INFO (R473). -/
def execFwInfo (lea : Nat) (tag : Word) (args : List Word) (s : State) : Host.Outcome State Fault Refusal :=
  finish (s.issue cmdFwInfo lea tag args)
/-- FW_COMMIT_COLD (R461). -/
def execFwCommitCold (lea : Nat) (tag : Word) (args : List Word) (s : State) : Host.Outcome State Fault Refusal :=
  finish (s.issue cmdFwCommitCold lea tag args)
/-- ATTEST (R454). -/
def execAttest (lea : Nat) (tag : Word) (args : List Word) (s : State) : Host.Outcome State Fault Refusal :=
  finish (s.issue cmdAttest lea tag args)
/-- STORE_READ (R473). -/
def execStoreRead (lea : Nat) (tag : Word) (args : List Word) (s : State) : Host.Outcome State Fault Refusal :=
  finish (s.issue cmdStoreRead lea tag args)

/-- The commands of this file. -/
def firmwareCommands : List CmdDef :=
  [cmdFwWrite, cmdFwVerify, cmdFwActivate, cmdFwCommit, cmdFwSvnCommit, cmdFwInfo, cmdFwCommitCold, cmdAttest,
   cmdStoreRead]

end Sys2Proof.Machine
end

