-- ==== Sys2Proof/Machine/Transport.lean ====
section
/-!
DEFINITION. Machine/Transport.lean: the sending side of the Hykan transport (10): roles, channels, the header of Table
10.4, sealing (R268), windows of unacknowledged packets (R276), ports (R274) and key ages (R269).
-/

namespace Sys2Proof.Machine

/-! ## Roles (R320 to R322) -/

/-- WORKERS, PARTNERS, SHARDS and EXPERTS of the job's mapping region (Table 12.3). -/
def Job.workers (j : Job) : Nat := fld (wordAt j.mapHdr 1) 15 0
@[inherit_doc Job.workers] def Job.partners (j : Job) : Nat := fld (wordAt j.mapHdr 3) 15 0
@[inherit_doc Job.workers] def Job.shardCount (j : Job) : Nat := fld (wordAt j.mapHdr 2) 15 0
@[inherit_doc Job.workers] def Job.experts (j : Job) : Nat := fld (wordAt j.mapHdr 2) 31 16

/-- The first entry and the length of a role kind's section of the role table (R320, Table 12.4). -/
def Job.roleSection (j : Job) (kind : Nat) : Nat × Nat :=
  match kind with
  | 1 => (0, j.workers)
  | 2 => (j.workers, j.partners)
  | 3 => (j.workers + j.partners, j.shardCount)
  | 4 => (j.workers + j.partners + j.shardCount, j.experts)
  | _ => (0, 0)

/-- The address of a role's entry; none beyond its section (R322). -/
def Job.roleAddr (j : Job) (kind index : Nat) : Option Nat :=
  let sec := j.roleSection kind
  if index < sec.2 then some (j.mapRegion + 32 + 8 * (sec.1 + index)) else none

/-- A role table entry (R322). -/
structure Role where
  rank : Nat
  aux : Nat
  epoch : Word
  deriving DecidableEq, Repr

/-- The role table entry of a role (R322). -/
def State.role (s : State) (j : Job) (kind index : Nat) : Option Role :=
  (j.roleAddr kind index).map fun a =>
    { rank := fld (s.readWord a) 15 0, aux := fld (s.readWord a) 31 16, epoch := s.readWord (a + 4) }

/-- Whether this device holds the role at the epoch (R322). -/
def State.holdsRole (s : State) (j : Job) (kind index : Nat) (epoch : Word) : Bool :=
  match s.role j kind index with
  | none => false
  | some r => r.rank == j.rank && r.epoch == epoch

/-! ## Peers, channels and packets -/

/-- The peer entry of a rank: the peer table's, or a store target's (R270, R358). -/
def Job.peer (j : Job) (rank : Nat) : Option Peer :=
  if rank = 0xFFFE then (match j.baler with
    | some b => b.near
    | none => none)
  else if rank = 0xFFFD then (match j.baler with
    | some b => b.far
    | none => none)
  else j.peers.find rank

/-- The job with the peer entry of a rank changed, where it has one. -/
def Job.modPeer (j : Job) (rank : Nat) (f : Peer → Peer) : Job :=
  if rank = 0xFFFE then { j with baler := j.baler.map fun b => { b with near := b.near.map f } }
  else if rank = 0xFFFD then { j with baler := j.baler.map fun b => { b with far := b.far.map f } }
  else match j.peers.find rank with
    | none => j
    | some p => { j with peers := j.peers.insert rank (f p) }

/-- Whether the peer of a rank is ACTIVE. -/
def Job.peerActive (j : Job) (rank : Nat) : Bool :=
  match j.peer rank with
  | some p => p.st == .active
  | none => false

/-- Whether the peer of a rank is LOST or QUARANTINED. -/
def Job.peerGone (j : Job) (rank : Nat) : Bool :=
  match j.peer rank with
  | some p => p.st != .active
  | none => false

/-- The key of a channel context: rank and CHANNEL. -/
def chanKey (rank channel : Nat) : Nat := rank * 4096 + channel

/-- The channel contexts in use on the device (R282). -/
def State.contexts (s : State) : Nat := s.jobs.foldl (fun n e => n + e.2.tx.length + e.2.rx.length) 0

/-- Whether a channel context exists or one more may be used: the device's 32,768 and the lea's quota (R282, R391). -/
def State.contextFree (s : State) (j : Job) (key : Nat) : Bool :=
  j.tx.has key || (s.contexts < 32768 &&
    s.jobs.foldl (fun n e => n + (if e.2.lea = j.lea then e.2.tx.length + e.2.rx.length else 0)) 0
      < (s.lea j.lea).quotas.contexts)

/-- The MTU rate of a port in Gb/s. -/
def Port.gbps (p : Port) : Nat := p.lanes * if p.rate100 then 100 else 200

/-- The end of the range of a port's MACsec packet numbers (R265). -/
def Port.pnEnd (p : Port) : Nat := if p.suite = 2 then 2 ^ 64 - 1 else 2 ^ 32 - 1

/-- Whether a port can send a frame: UP, and MACsec off or with a sending association not at its end (R257, R265). -/
def Port.canSend (p : Port) : Bool :=
  p.st == .up && (p.suite == 0 || match p.txAn with
    | none => false
    | some a => match p.txSa.find a with
      | none => false
      | some sa => sa.pn < p.pnEnd)

/-- The UP ports of a peer's mask. -/
def State.upPorts (s : State) (mask : Nat) : List Nat := (onesBelow mask 16).filter fun p => (s.port p).st == .up

/-- The port a channel sends on: the one it has while that is UP, else one chosen by hash (R274). -/
def State.choosePort (s : State) (mask key : Nat) (c : TxChan) : Option Nat :=
  let ups := s.upPorts mask
  match c.port with
  | some p => if ups.contains p then some p
      else if ups = [] then none else ups[Config.portHash key (c.repath + 1) ups.length % ups.length]?
  | none => if ups = [] then none else ups[Config.portHash key c.repath ups.length % ups.length]?

/-- A port after one frame sent: MACsec's packet number counts up and ages (R265). -/
def Port.sent (p : Port) : Port :=
  match p.suite, p.txAn with
  | 0, _ => p
  | _, none => p
  | _, some a => match p.txSa.find a with
    | none => p
    | some sa =>
      let aged := sa.pn + 1 == 3 * (p.pnEnd + 1) / 4
      { p with txSa := p.txSa.insert a { sa with pn := sa.pn + 1 }, pnAging := p.pnAging || aged
               faultCount := if aged then p.faultCount + 1 else p.faultCount }

/-- The header of Table 10.4. -/
structure HykHeader where
  type : Nat
  slot : Nat
  last : Bool := false
  ackReq : Bool := false
  retx : Bool := false
  channel : Nat := 0
  jobId : Word
  src : Nat
  dst : Nat
  psn : Word := 0
  step : Word := 0
  roleKind : Nat := 0
  roleIndex : Nat := 0
  roleEpoch : Word := 0
  senderId : Nat
  txSeq : Nat
  deriving DecidableEq, Repr

/-- The 36 bytes of the header (Table 10.4, big-endian). -/
def HykHeader.bytes (h : HykHeader) : List Byte :=
  [BitVec.ofNat 8 (16 + h.type % 16),
   BitVec.ofNat 8 (h.slot % 2 * 128 + b2n h.last * 64 + b2n h.ackReq * 32 + b2n h.retx * 16)] ++
  natToBE 2 h.channel ++ natToBE 4 h.jobId.toNat ++ natToBE 2 h.src ++ natToBE 2 h.dst ++ natToBE 4 h.psn.toNat ++
  natToBE 4 h.step.toNat ++ natToBE 1 h.roleKind ++ natToBE 3 h.roleIndex ++ natToBE 4 h.roleEpoch.toNat ++
  natToBE 2 h.senderId ++ natToBE 6 h.txSeq

/-- The nonce of a packet (R268). -/
def HykHeader.nonce (h : HykHeader) : List Byte := natToBE 2 h.senderId ++ natToBE 4 h.jobId.toNat ++ natToBE 6 h.txSeq

/-- The header that 36 bytes hold (Table 10.4). -/
def parseHeader (b : List Byte) : HykHeader :=
  let f := fun i n => beToNat ((b.drop i).take n)
  { type := natField (f 0 1) 3 0, slot := natField (f 1 1) 7 7, last := natField (f 1 1) 6 6 == 1
    ackReq := natField (f 1 1) 5 5 == 1, retx := natField (f 1 1) 4 4 == 1, channel := f 2 2
    jobId := BitVec.ofNat 32 (f 4 4), src := f 8 2, dst := f 10 2, psn := BitVec.ofNat 32 (f 12 4)
    step := BitVec.ofNat 32 (f 16 4), roleKind := f 20 1, roleIndex := f 21 3, roleEpoch := BitVec.ofNat 32 (f 24 4)
    senderId := f 28 2, txSeq := f 30 6 }

/-- The UDP payload of a sent frame under its key: header, encrypted content and tag (R268). -/
def SentFrame.wire (f : SentFrame) (key : List Byte) : List Byte :=
  let nonce := (parseHeader f.header).nonce
  let ct := gcmCrypt key nonce f.plain
  f.header ++ ct ++ gcmTag key nonce f.header ct

/-- The placement record (Table 10.6). -/
def Placement.bytes (p : Placement) (len : Nat) : List Byte :=
  natToBE 2 p.target ++ natToBE 2 len ++ natToBE 4 p.offset ++
  natToBE 2 (b2n p.useSignal * 2 ^ 15 + p.signalIdx % 2 ^ 12) ++ natToBE 1 p.signalInc ++ natToBE 1 0

/-- The data of a packet; memory is read when the packet is sent, and again for each retransmission (R278). -/
def State.packetData (s : State) (p : TxPacket) : List Byte :=
  match p.src with
  | .mem a n => s.read a n
  | .bytes b => b

/-- Whether a message of this owner asks for an ACK on its last packet (R296). -/
def MsgOwner.asksAck : MsgOwner → Bool
  | .windrow _ _ | .result _ _ _ _ | .escalate _ _ _ _ => true
  | _ => false

/-- The sending key slot of a job, if it may send now (R267, R269). -/
def Job.sendKey (j : Job) : Option (Nat × KeySlot) :=
  match j.sendSlot with
  | none => none
  | some i => match j.keys.find i with
    | none => none
    | some k => if k.txSeq < 2 ^ 48 - 1 then some (i, k) else none

/-- The rate window that runs (R283). -/
def State.rateWindowNow (s : State) : Nat := s.edge.count.toNat / s.fab.rateWindow

/-- One packet goes out to a rank under the job's sending slot: TX_SEQ counts up, and KEY_AGING is set at 2^47 (R268,
R269). The frame stands in the port's output with its plaintext. -/
def State.emit (s : State) (jh : Nat) (port rank srcPort : Nat) (type : Nat) (mk : HykHeader → HykHeader)
    (plain : List Byte) : State :=
  match s.jobs.find jh with
  | none => s
  | some j => match j.sendKey, j.peer rank with
    | some (slot, k), some p =>
      let h := mk { type := type, slot := slot, jobId := j.jobId, src := j.rank, dst := rank, senderId := k.senderId,
                    txSeq := k.txSeq }
      let frame : SentFrame := { port := port, dstMac := p.mac, dst := p.addr, srcPort := srcPort, header := h.bytes,
                                 plain := plain }
      let aged := k.txSeq + 1 == 2 ^ 47
      let s := s.modJob jh fun j => { j with keys := j.keys.insert slot { k with txSeq := k.txSeq + 1 } }
      let s := s.modJob jh fun j => j.modPeer rank fun p =>
        match p.rate with
        | none => { p with rate := some ((s.port port).gbps : Rat), rateAt := s.rateWindowNow }
        | some _ => p
      let s := s.modPort port Port.sent
      { s with fab := { s.fab with out := s.fab.out ++ [frame], keyAging := s.fab.keyAging || aged
                                   agingCount := if aged then s.fab.agingCount + 1 else s.fab.agingCount } }
    | _, _ => s

/-- A DATA or POST packet of a channel goes out on its port (R266, R274). -/
def State.emitData (s : State) (jh key : Nat) (c : TxChan) (port : Nat) (p : TxPacket) (retx : Bool) : State :=
  let data := s.packetData p
  s.emit jh port (key / 4096) (0xC000 + (Config.sourcePortHash key c.repath).toNat) (if p.post then 2 else 1)
    (fun h => { h with last := p.last, ackReq := p.last && p.owner.asksAck, retx := retx, channel := key % 4096,
                       psn := p.psn, step := p.step, roleKind := p.roleKind, roleIndex := p.roleIndex,
                       roleEpoch := p.roleEpoch })
    (p.pl.bytes data.length ++ data)

/-- Whether a job's channel may send one packet more: a key, an ACTIVE peer, a port, and room in the window (R276). -/
def State.maySend (s : State) (j : Job) (key : Nat) (c : TxChan) : Option Nat :=
  match j.sendKey, j.peer (key / 4096) with
  | some _, some p =>
    if p.st = .active && c.unacked.length < min 1024 c.rwnd then
      match s.choosePort p.ports key c with
      | some q => if (s.port q).canSend then some q else none
      | none => none
    else none
  | _, _ => none

/-- Whether a message of this owner waits under R324 and is not sent again yet. -/
def Job.waitsFor (j : Job) (o : MsgOwner) : Bool := j.waits.any fun w => w.owner == o && !w.sent

/-- Up to `n` queued packets of a channel go out (R276); those of a message that waits under R324 stay. -/
def State.pump (s : State) (jh key : Nat) : Nat → State
  | 0 => s
  | n + 1 => match s.jobs.find jh with
    | none => s
    | some j => match j.tx.find key with
      | none => s
      | some c => match c.queued with
        | [] => s
        | p :: rest => match j.waitsFor p.owner, s.maySend j key c with
          | true, _ | _, none => s
          | false, some port =>
            let moved := match c.port with
              | some q => q != port
              | none => false
            let c := { c with port := some port, repath := if moved then c.repath + 1 else c.repath }
            let p := { p with psn := c.next }
            let s := s.emitData jh key c port p false
            let c := { c with next := c.next + 1, queued := rest, unacked := c.unacked ++ [p]
                              since := if c.unacked = [] then s.now else c.since }
            (s.modJob jh fun j => { j with tx := j.tx.insert key c }).pump jh key n

/-- Every channel of a job sends what it may. -/
def State.pumpJob (s : State) (jh : Nat) : State :=
  match s.jobs.find jh with
  | none => s
  | some j => j.tx.foldl (fun s e => s.pump jh e.1 e.2.queued.length) s

/-- Every channel of every job sends what it may. -/
def State.pumpAll (s : State) : State := s.jobs.foldl (fun s e => s.pumpJob e.1) s

/-- A message to send: where it goes, what its packets hold, and whose it is. -/
structure Message where
  rank : Nat
  channel : Nat
  target : Nat
  offset : Nat := 0
  data : List PktSrc -- one item for each packet
  owner : MsgOwner
  step : Word := 0
  post : Bool := false
  useSignal : Bool := false
  signalIdx : Nat := 0
  signalInc : Nat := 0
  roleKind : Nat := 0
  roleIndex : Nat := 0
  roleEpoch : Word := 0
  deriving DecidableEq, Repr

/-- The bytes that a packet's source holds. -/
def PktSrc.size : PktSrc → Nat
  | .mem _ n => n
  | .bytes b => b.length

/-- Memory cut into packets of PKT_DATA bytes (R276). -/
def cutMem (pkt a : Nat) : Nat → Nat → List PktSrc
  | 0, _ => []
  | fuel + 1, len => if len ≤ pkt then [.mem a len] else .mem a pkt :: cutMem pkt (a + pkt) fuel (len - pkt)

/-- Bytes cut into packets of PKT_DATA bytes (R276). -/
def cutBytes (pkt : Nat) : Nat → List Byte → List PktSrc
  | 0, _ => []
  | fuel + 1, b =>
    if b.length ≤ pkt then [.bytes b] else .bytes (b.take pkt) :: cutBytes pkt fuel (b.drop pkt)

/-- Memory as the packets of a message. -/
def State.packMem (s : State) (a len : Nat) : List PktSrc := cutMem s.fab.pktData a (len / s.fab.pktData + 1) len

/-- Bytes as the packets of a message. -/
def State.packBytes (s : State) (b : List Byte) : List PktSrc := cutBytes s.fab.pktData (b.length / s.fab.pktData + 1) b

/-- The packets of a message from an offset on; each takes its PSN as it goes out. -/
def Message.packets (m : Message) : Nat → List PktSrc → List TxPacket
  | _, [] => []
  | off, d :: rest =>
    { psn := 0, last := rest.isEmpty, post := m.post
      pl := { target := m.target, offset := off, useSignal := m.useSignal, signalIdx := m.signalIdx,
              signalInc := m.signalInc }
      src := d, owner := m.owner, step := m.step, roleKind := m.roleKind, roleIndex := m.roleIndex,
      roleEpoch := m.roleEpoch } :: m.packets (off + d.size) rest

/-- A message is queued on its channel and sent as far as it may (R274, R276). -/
def State.send (s : State) (jh : Nat) (m : Message) : State :=
  let key := chanKey m.rank m.channel
  let s := s.modJob jh fun j =>
    let c := j.tx.getD key {}
    { j with tx := j.tx.insert key { c with queued := c.queued ++ m.packets m.offset m.data } }
  s.pump jh key m.data.length

/-- A message to the holder of a role at the epoch that the role table holds; nothing is sent where the role does not
exist (R322, R324). -/
def State.sendRole (s : State) (jh : Nat) (kind index : Nat) (m : Message) : State :=
  match s.jobs.find jh with
  | none => s
  | some j => match s.role j kind index with
    | none => s
    | some r => s.send jh { m with rank := r.rank, roleKind := kind, roleIndex := index, roleEpoch := r.epoch }

/-- The port for a packet outside the channels (ACK, NAK, refill and heartbeat packets). -/
def State.loosePort (s : State) (j : Job) (rank channel : Nat) : Option Nat :=
  match j.peer rank with
  | none => none
  | some p =>
    match s.choosePort p.ports (chanKey rank channel) (j.tx.getD (chanKey rank channel) {}) with
    | some q => if (s.port q).canSend then some q else none
    | none => none

/-- A packet outside the channels goes out, where a port and a key allow it. -/
def State.emitLoose (s : State) (jh rank channel type : Nat) (mk : HykHeader → HykHeader) (plain : List Byte) : State :=
  match s.jobs.find jh with
  | none => s
  | some j => match s.loosePort j rank channel with
    | none => s
    | some port =>
      s.emit jh port rank (0xC000 + (Config.sourcePortHash (chanKey rank channel) 0).toNat) type mk plain

/-! ## What a channel still holds -/

/-- The packets of a channel that are not acknowledged, sent or not. -/
def TxChan.outstanding (c : TxChan) : List TxPacket := c.unacked ++ c.queued

/-- Whether any packet of this owner is not acknowledged. -/
def Job.outstanding (j : Job) (o : MsgOwner) : Bool := j.tx.any fun e => e.2.outstanding.any fun p => p.owner == o

/-- Whether the packets sent so far end amid a message. -/
def TxChan.midMessage (c : TxChan) : Bool :=
  match c.unacked.getLast? with
  | none => false
  | some p => !p.last

/-- The rest of the message that is on its way, then what is queued behind it. -/
def splitMessage : List TxPacket → List TxPacket × List TxPacket
  | [] => ([], [])
  | p :: rest => if p.last then ([p], rest) else ((p :: (splitMessage rest).1), (splitMessage rest).2)

/-- The channel with the queued messages of some owners taken out; a message that is on its way is sent to its end. -/
def TxChan.dropMessages (c : TxChan) (o : MsgOwner → Bool) : TxChan :=
  let s := if c.midMessage then splitMessage c.queued else ([], c.queued)
  { c with queued := s.1 ++ s.2.filter fun p => !o p.owner }

/-- The job with the queued messages of some owners taken out. -/
def Job.dropMessages (j : Job) (o : MsgOwner → Bool) : Job :=
  { j with tx := j.tx.mapVals fun _ c => c.dropMessages o }

end Sys2Proof.Machine
end

