-- ==== Sys2Proof/Machine/Signals.lean ====
section
/-!
DEFINITION. Machine/Signals.lean: signalling and failing event counters (R51) with the credit links that watch them
(R346, R347), and the shard headers that follow writes (R326).
-/

namespace Sys2Proof.Machine

/-- Increments of at most 255 that add up to `n` (R346). -/
def splitInc : Nat → Nat → List Nat
  | 0, _ => []
  | fuel + 1, n => if n = 0 then [] else if n ≤ 255 then [n] else 255 :: splitInc fuel (n - 255)

/-- One credit message of a link (R346): a 32-byte DATA message with a signal increment on the remote counter. -/
def State.sendCredit (s : State) (jh i : Nat) (l : CreditLink) (inc : Nat) : State :=
  s.sendRole jh l.roleKind l.roleIndex
    { rank := 0, channel := l.channel, target := l.window, offset := l.offset
      data := [.bytes ((List.range 32).map Config.creditByte)], owner := .credit jh i, useSignal := true
      signalIdx := l.remote, signalInc := inc }

/-- The links of a lea's jobs that watch a counter and have not failed: job and link. -/
def State.watchers (s : State) (l i : Nat) : List (Nat × Nat × CreditLink) :=
  (s.jobs.sel fun _ j => j.lea == l).flatMap fun e => (e.2.links.filter fun k => k.2.watch == i && !k.2.failed).map fun k => (e.1, k.1, k.2)

/-- A signal raises counter `i` of lea `l` by `n` (R51); every credit link that watches it sends `n` credits (R346). -/
def State.signal (s : State) (l i n : Nat) : State :=
  let c := s.counter l i
  let s := s.setCounter l i { c with value := c.value + BitVec.ofNat 32 n }
  (s.watchers l i).foldl (fun s w => (splitInc (n + 1) n).foldl (fun s k => s.sendCredit w.1 w.2.1 w.2.2 k) s) s

/-- A credit link fails (R347): it sends nothing more, LINK_FAILED is set, and the job's lea gets a fault event. -/
def State.failLink (s : State) (jh i : Nat) : State :=
  match s.jobs.find jh with
  | none => s
  | some j =>
    let s := s.modJob jh fun j => { j with links := j.links.mapVals fun k l => if k = i then { l with failed := true } else l }
    let s := { s with units := { s.units with linkFailed := true, linkCount := s.units.linkCount + 1 } }
    s.queueEvent j.lea (faultEvent .depFailed 0x01 0 (job := jh))

/-- Counter `i` of lea `l` is FAILED (R51); the links that watch it fail (R347). -/
def State.failCounter (s : State) (l i : Nat) : State :=
  let s := s.setCounter l i { s.counter l i with failed := true }
  (s.watchers l i).foldl (fun s w => s.failLink w.1 w.2.1) s

/-- A shard's header after a write into its data: VERSION counts up and STEP is the writer's (Table 12.5). -/
def State.bumpShard (s : State) (base : Nat) (step : Word) : State :=
  s.writeWords (base + 4) [step, s.readWord (base + 8) + 1]

/-- The shards that an op or a delivered message has written into take their new headers, each once (R326). Answers the
status of a header that could not be written, if one could not (R497), with the shard. -/
def State.noteShards (s : State) (step : Word) (spans : List Span) : State × Option (Nat × Nat × Status) :=
  let hits := s.jobs.flatMap fun e =>
    (e.2.shards.filter fun h => spans.any fun x => x.write && x.base < h.2.1 + 32 + h.2.2 && h.2.1 + 32 < x.base + x.len).map
      fun h => (h.1, h.2.1)
  hits.foldl (fun r h => match r.1.access (h.2) 32 with
    | .bad sec st => (r.1.lostRead sec, some (h.1, sec, st))
    | _ => (r.1.bumpShard h.2 step, r.2)) (s, none)

end Sys2Proof.Machine
end

