-- ==== Sys2Proof/Machine/Scale.lean ====
section
/-!
DEFINITION. Machine/Scale.lean: the scale history of a job (06, R143 to R154): entries, slots, pending reports, the fold
and the starting exponent an estimate gives.
-/

namespace Sys2Proof.Machine

/-- The slot that an instance without an entry claims (R145). -/
def State.histFree (s : State) (j : Job) (inst : Word) : Option Nat :=
  (j.probes inst).find? fun i => !(s.histEntry j i).used

/-- An entry written to its slot. -/
def State.putHist (s : State) (j : Job) (i : Nat) (e : HistEntry) : State := s.writeWords (j.slotAddr i) e.words

/-- The entry that a new instance starts with (R145). -/
def HistEntry.fresh (o : Op) : HistEntry :=
  { inst := o.inst, pendStep := o.step, estimate := 0, valid := false, used := true, pend := false, pendObs := none
    pendRecomputes := 0, pendUnderflow := 0, pendElements := 0, foldedStep := o.step, overflowSteps := 0 }

/-- Admission claims a slot for a new instance, or sets TABLE_FULL (R145). -/
def State.claimSlot (s : State) (o : Op) : State :=
  if !o.inHistory then s
  else match s.jobs.find o.job with
    | none => s
    | some j => match s.histSlot j o.inst with
      | some _ => s
      | none => match s.histFree j o.inst with
        | some i => s.putHist j i (HistEntry.fresh o)
        | none => { s with scale := { s.scale with tableFull := true, fullCount := s.scale.fullCount + 1 } }

/-- Whether the op's STEP lies below its instance's PEND_STEP (R149). -/
def State.belowPending (s : State) (o : Op) : Bool :=
  match s.opEntry o with
  | none => false
  | some (_, _, e) => signedLess o.step e.pendStep

/-- What an op adds to its instance's pending report (R147): an observed exponent, recomputed tiles, block-underflow
counts and MX elements. -/
structure Report where
  obs : Option Int := none
  recomputes : Nat := 0
  underflow : Nat := 0
  elements : Nat := 0
  deriving DecidableEq, Repr

/-- The larger of two observations. -/
def maxObs : Option Int → Option Int → Option Int
  | none, b => b
  | a, none => a
  | some a, some b => some (max a b)

/-- A report added to an entry (R147), fields saturating as Table 6.2 gives. -/
def HistEntry.add (e : HistEntry) (r : Report) : HistEntry :=
  { e with pend := true, pendObs := maxObs e.pendObs r.obs, pendRecomputes := satNat 16 (e.pendRecomputes + r.recomputes)
           pendUnderflow := satNat 32 (e.pendUnderflow + r.underflow)
           pendElements := satNat 32 (e.pendElements + r.elements) }

/-- An op's report reaches its instance's entry while that entry is pending the op's STEP (R147). -/
def State.report (s : State) (o : Op) (r : Report) : State :=
  if r = {} then s
  else match s.opEntry o with
    | none => s
    | some (j, i, e) => if e.pendStep = o.step then s.putHist j i (e.add r) else s

/-- The fold of R150. -/
def HistEntry.fold (e : HistEntry) (ufLog2 : Nat) : HistEntry :=
  let e := match e.pendObs with
    | none => e
    | some o =>
      let o256 := 256 * o
      if !e.valid || e.estimate ≤ o256 then { e with estimate := o256, valid := true }
      else
        let sh := if e.pendElements < e.pendUnderflow * 2 ^ ufLog2 then 2 else 3
        { e with estimate := e.estimate - (e.estimate - o256 + 2 ^ sh - 1) / 2 ^ sh }
  if 0 < e.pendRecomputes then { e with overflowSteps := satNat 16 (e.overflowSteps + 1) } else e

/-- The entry with its pending report discarded (R148, R151). -/
def HistEntry.discard (e : HistEntry) : HistEntry :=
  { e with pend := false, pendObs := none, pendRecomputes := 0, pendUnderflow := 0, pendElements := 0 }

/-- SCALE_FOLD (R148): once every admitted op of PEND_STEP that names the instance has completed, and an op of a later
STEP is held, the pending report is folded and PEND_STEP becomes the first held op's STEP. -/
def execScaleFold (job inst : Nat) (s : State) : Host.Outcome State Fault Refusal :=
  match s.jobs.find job with
  | none => finish s
  | some j => match s.histSlot j (BitVec.ofNat 32 inst) with
    | none => finish s
    | some i =>
      let e := s.histEntry j i
      let mine := s.hub.ops.filter fun x => x.2.job == job && x.2.inHistory && x.2.inst == BitVec.ofNat 32 inst
      let open' := mine.any fun x => x.2.step == e.pendStep && !x.2.completed
      match mine.find? fun x => x.2.phase == .waiting && signedLess e.pendStep x.2.step with
      | none => finish s
      | some h =>
        if open' then finish s
        else
          let e' := { (e.fold j.ufLog2).discard with foldedStep := e.pendStep, pendStep := h.2.step }
          finish { s.putHist j i e' with scale := { (s.putHist j i e').scale with folds := s.scale.folds + 1 } }

/-- An exponent held in [−512, 511] (R152, R155). -/
def clampT (t : Int) : Int := max (-512) (min 511 t)

/-- The starting exponent that a VALID entry gives an op (R152). -/
def State.histT0 (s : State) (o : Op) : Option Int :=
  match s.opEntry o with
  | none => none
  | some (j, _, e) =>
    if e.valid then some (clampT ((e.estimate + 255) / 256 + j.headroom + if j.warmUp o.step then 4 else 0)) else none

/-- Every entry of the job whose pending report is of step `st` loses it (R151). -/
def State.discardReports (s : State) (j : Job) (st : Word) : State :=
  (List.range (2 ^ j.log2Cap)).foldl (fun s i =>
    let e := s.histEntry j i
    if e.used && e.pend && e.pendStep == st then s.putHist j i e.discard else s) s

/-- An empty region for a restore without history (R159): no slot used, WARM, and WARM_END_STEP 256 steps on. -/
def State.emptyHistory (s : State) (j : Job) (firstStep : Word) : State :=
  let s := s.writeWords (j.scaleRegion + 4) [1, firstStep + 256]
  (List.range (2 ^ j.log2Cap)).foldl (fun s i => s.writeWords (j.slotAddr i) (List.replicate 8 0)) s

end Sys2Proof.Machine
end

