-- ==== Sys2Proof/Machine/Jobs.lean ====
section
/-!
DEFINITION. Machine/Jobs.lean: binding and unbinding jobs, roles, shards, Tedder's configuration and credit links: the
commands of range 0x05 (12, R316 to R347, R352). ROLE_WRITE stands in Roles.lean, STEP_REPLAY in StepReplay.lean.
-/

namespace Sys2Proof.Machine

/-- A command of a job's lea whose first argument is the job handle (check 5: R41). -/
def jobCmdV (code : Nat) (words : List Word → Nat) (body : State → Nat → Nat → Job → List Word → Reply) : CmdDef :=
  { code := code, words := words, issuer := .any
    body := fun s l a => match s.jobOf l (argN a 0) with
      | none => .fail .badHandle
      | some j => body s l (argN a 0) j a }

@[inherit_doc jobCmdV]
def jobCmd (code words : Nat) (body : State → Nat → Nat → Job → List Word → Reply) : CmdDef :=
  jobCmdV code (fun _ => words) body

/-! ## The training-step and mapping regions -/

/-- LOG2_LOG and LOG2_DIR (Table 7.1). -/
def Job.log2Log (j : Job) : Nat := fld (wordAt j.stepHdr 0) 15 8
@[inherit_doc Job.log2Log] def Job.log2Dir (j : Job) : Nat := fld (wordAt j.stepHdr 0) 7 0
/-- The address of a forward log slot (R180). -/
def Job.logAddr (j : Job) (i : Word) : Nat := j.stepRegion + 32 + 128 * (i.toNat % 2 ^ j.log2Log)
/-- The address of a stash directory entry (Table 7.4). -/
def Job.dirAddr (j : Job) (i : Nat) : Nat := j.stepRegion + 32 + 128 * 2 ^ j.log2Log + 32 * i
/-- The bytes of the training-step region. -/
def Job.stepLen (j : Job) : Nat := 32 + 128 * 2 ^ j.log2Log + 32 * 2 ^ j.log2Dir
/-- LOG2_GATHER (Table 12.3). -/
def Job.log2Gather (j : Job) : Nat := fld (wordAt j.mapHdr 0) 15 8
/-- The base of the gather directory (R320). -/
def Job.gatherBase (j : Job) : Nat :=
  j.mapRegion + 32 + roundUp (8 * (j.workers + j.partners + j.shardCount + j.experts)) 32
/-- The address of a gather directory entry (Table 12.6). -/
def Job.gatherAddr (j : Job) (i : Nat) : Nat := j.gatherBase + 32 * i
/-- The bytes of the mapping region (R320). -/
def Job.mapLen (j : Job) : Nat := j.gatherBase - j.mapRegion + 32 * 2 ^ j.log2Gather
/-- Job `jh` moves to a phase, and the hub writes PHASE to its header (R173, R175). -/
def State.setPhase (s : State) (jh : Nat) (j : Job) (backward : Bool) : State :=
  (s.writeWords (j.stepRegion + 4) [BitVec.ofNat 32 (b2n backward)]).modJob jh fun x => { x with backward := backward }

/-- VALID of a stash directory entry cleared. -/
def State.clearDirValid (s : State) (j : Job) (i : Nat) : State :=
  let a := j.dirAddr i + 16
  if bit (s.readWord a) 31 then s.writeWords a [s.readWord a &&& 0x7FFFFFFF] else s

/-! ## JOB_BIND (R316, R317) -/

/-- The scale header follows Table 6.1. -/
def scaleHdrOk (w : List Word) : Bool :=
  fld (wordAt w 0) 31 24 == 1 && 10 ≤ fld (wordAt w 0) 15 8 && fld (wordAt w 0) 15 8 ≤ 16 && fld (wordAt w 0) 7 0 == 0 &&
  fld (wordAt w 1) 31 1 == 0 && (w.drop 3).all (· == 0)
/-- The training-step header follows Table 7.1. -/
def stepHdrOk (w : List Word) : Bool :=
  fld (wordAt w 0) 31 24 == 1 && fld (wordAt w 0) 23 16 == 0 && 10 ≤ fld (wordAt w 0) 15 8 &&
  fld (wordAt w 0) 15 8 ≤ 20 && 8 ≤ fld (wordAt w 0) 7 0 && fld (wordAt w 0) 7 0 ≤ 16 && fld (wordAt w 1) 31 1 == 0 &&
  (w.drop 4).all (· == 0)
/-- The mapping header follows Table 12.3, with WORKERS a multiple of the node size (R317). -/
def mapHdrOk (node : Nat) (w : List Word) : Bool :=
  fld (wordAt w 0) 31 24 == 1 && fld (wordAt w 0) 23 16 == 0 && fld (wordAt w 0) 15 8 ≤ 16 && fld (wordAt w 0) 7 0 == 0 &&
  fld (wordAt w 1) 31 16 == 0 && 1 ≤ fld (wordAt w 1) 15 0 && fld (wordAt w 1) 15 0 ≤ 1024 &&
  fld (wordAt w 3) 31 16 == 0 && fld (wordAt w 3) 15 0 ≤ 1024 && (w.drop 4).all (· == 0) &&
  fld (wordAt w 1) 15 0 % node == 0

/-- Whether a span lies within the lea's grant, for writing, and within corrected units (R317, R354). -/
def State.regionOk (s : State) (l base len : Nat) : Bool := s.mem.inCorrected base len && s.granted l base len true

/-- A job as JOB_BIND's arguments give it, its regions' headers read (R317). -/
def State.bound (s : State) (l : Nat) (a : List Word) : Job :=
  { lea := l, jobId := wordAt a 0, rank := argN a 1, ranks := argN a 2, seed := arg64 a 3
    scaleRegion := argAddr a 5, stepRegion := argAddr a 7, mapRegion := argAddr a 9
    gatherHier := argN a 11 == 1, nodeSize := argN a 12
    segLimit := if argN a 13 = 0 then 65536 else argN a 13
    fallowLimit := argN a 14
    resolveCounts := if argN a 15 = 0 then 10000000 else argN a 15
    scaleHdr := s.readWords (argAddr a 5) 8, stepHdr := s.readWords (argAddr a 7) 8
    mapHdr := s.readWords (argAddr a 9) 8 }

/-- Whether JOB_BIND's plain arguments are in range (Table 12.2). -/
def bindArgsOk (a : List Word) : Bool :=
  1 ≤ argN a 2 && argN a 2 ≤ 1024 && argN a 1 < argN a 2 && argAddrOk a 5 && argAddrOk a 7 && argAddrOk a 9 &&
  argAddr a 5 % 32 == 0 && argAddr a 7 % 32 == 0 && argAddr a 9 % 32 == 0 && argN a 11 < 2 && 1 ≤ argN a 12 &&
  argN a 12 ≤ 64 && (argN a 13 == 0 || (4096 ≤ argN a 13 && argN a 13 ≤ 1048576 && argN a 13 % 4096 == 0))

/-- The headers follow their tables, and the regions that they give lie inside the grant and corrected units (R317). -/
def State.headersOk (s : State) (j : Job) : Bool :=
  scaleHdrOk j.scaleHdr && stepHdrOk j.stepHdr && mapHdrOk j.nodeSize j.mapHdr &&
  s.regionOk j.lea j.scaleRegion j.scaleLen && s.regionOk j.lea j.stepRegion j.stepLen &&
  s.regionOk j.lea j.mapRegion j.mapLen

/-- The training-step region as bind leaves it (R173): PHASE FORWARD, LOG_NEXT, RECOMPUTES and LAST_TARGET zero, and no
directory entry VALID. -/
def State.bindStep (s : State) (j : Job) : State :=
  (List.range (2 ^ j.log2Dir)).foldl (fun s i => s.clearDirValid j i) (s.writeWords (j.stepRegion + 4) [0, 0, 0])

/-- JOB_BIND: the arguments of Table 12.2 in its order; answers the handle. -/
def cmdJobBind : CmdDef := cmd 0x0501 16 .any fun s l a =>
  let j := s.bound l a
  need (bindArgsOk a && s.regionOk l j.scaleRegion 32 && s.regionOk l j.stepRegion 32 && s.regionOk l j.mapRegion 32)
    .badArgument <|
  needAccess (accessAll [s.access j.scaleRegion 32, s.access j.stepRegion 32, s.access j.mapRegion 32]) s <|
  need (s.headersOk j) .badArgument <|
  need (s.jobs.length < 256 && (s.leaJobs l).length < (s.lea l).quotas.jobs) .noResource <|
  need ((s.lea l).st = .enabled && s.jobs.all fun e => e.2.jobId != j.jobId) .stateMismatch <|
  match s.jobs.freeFrom 0 257 with
  | none => .fail .noResource
  | some h => .done ({ s with jobs := s.jobs.insert h { j with logSince := some 0 } }.bindStep j) .ok
      [BitVec.ofNat 32 h]

/-! ## JOB_UNBIND, JOB_READ (R319, Table 2.13) -/

/-- The job leaves the device: its key slots, contexts, shards, links, Tedder and Baler state go with it, and its
Windrow groups and heartbeat entries are removed (R319, Table 15.7); messages for it that no unit has handled are discarded. -/
def State.unbind (s : State) (h : Nat) : State :=
  { s with jobs := s.jobs.erase h
           wdr := { s.wdr with groups := s.wdr.groups.sel fun _ g => g.job != h }
           hdr := { s.hdr with hb := s.hdr.hb.sel fun _ e => e.job != h }
           delivered := s.delivered.filter fun d => d.job != h
           heldRefills := s.heldRefills.filter fun d => d.job != h }

/-- JOB_UNBIND. -/
def cmdJobUnbind : CmdDef := jobCmd 0x0502 1 fun s _ h _ _ =>
  need (s.jobOps h).isEmpty .stateMismatch <| .ok (s.unbind h)

/-- JOB_READ. -/
def cmdJobRead : CmdDef := jobCmd 0x0503 1 fun s _ _ j _ =>
  .done s .ok ([j.jobId, BitVec.ofNat 32 j.rank, BitVec.ofNat 32 j.ranks] ++ words64 j.seed ++ words48 j.scaleRegion ++
    words48 j.stepRegion ++ words48 j.mapRegion ++
    [BitVec.ofNat 32 (b2n j.gatherHier), BitVec.ofNat 32 j.nodeSize, BitVec.ofNat 32 j.segLimit,
     BitVec.ofNat 32 j.fallowLimit, BitVec.ofNat 32 j.resolveCounts, BitVec.ofNat 32 (b2n j.replayPending),
     j.updateStep.getD 0])

/-! ## ROLE_WRITE, ROLE_READ (R323, Table 2.13) -/

/-- Arguments KIND, FIRST and COUNT name entries of one section of the role table. -/
def Job.rolesOk (j : Job) (a : List Word) : Bool :=
  1 ≤ argN a 3 && argN a 3 ≤ 30 && 1 ≤ argN a 1 && argN a 1 ≤ 4 && argN a 2 + argN a 3 ≤ (j.roleSection (argN a 1)).2

/-- The address of entry `i` of the entries named. -/
def Job.roleBase (j : Job) (a : List Word) : Nat := (j.roleAddr (argN a 1) (argN a 2)).getD 0

/-- ROLE_READ: JOB, KIND, FIRST, COUNT. -/
def cmdRoleRead : CmdDef := jobCmd 0x0505 4 fun s _ _ j a =>
  need (j.rolesOk a) .badArgument <|
  needAccess (s.access (j.roleBase a) (8 * argN a 3)) s <|
  .done s .ok (s.readWords (j.roleBase a) (2 * argN a 3))

/-! ## Shards (R326) -/

/-- SHARD_SET: JOB, SHARD, base, BYTES. -/
def cmdShardSet : CmdDef := jobCmd 0x0520 5 fun s l h j a =>
  let base := argAddr a 2
  need (argN a 1 < 65536 && argAddrOk a 2 && s.mem.inUsable base (32 + argN a 4) && s.granted l base (32 + argN a 4) true)
    .badArgument <|
  need (!j.shards.has (argN a 1)) .stateMismatch <|
  needAccess (s.writeAccess base 32) s <|
  .ok ((s.modJob h fun j => { j with shards := j.shards.insert (argN a 1) (base, argN a 4) }).writeWords base
    [packFields [(1, 24), (argN a 1, 0)], 0, 0, wordAt a 4, 0, 0, 0, 0])

/-- SHARD_CLEAR: JOB, SHARD. -/
def cmdShardClear : CmdDef := jobCmd 0x0521 2 fun s _ h j a =>
  need (argN a 1 < 65536) .badArgument <|
  need (j.shards.has (argN a 1)) .stateMismatch <|
  .ok (s.modJob h fun j => { j with shards := j.shards.erase (argN a 1) })

/-! ## Tedder's configuration (R334) -/

/-- Whether a Tedder op of the job is in flight. -/
def State.tedderBusy (s : State) (h : Nat) : Bool := (s.jobOps h).any fun e => e.2.cls == 5

/-- SLOT_BYTES (R334). -/
def Tedder.slotBytes (t : Tedder) : Nat := roundUp (64 + t.cap * (t.d + t.d / 32)) 32
/-- REC_BYTES (R334). -/
def Tedder.recBytes (t : Tedder) : Nat := roundUp (t.d + t.d / 32) 32

/-- The configuration that TED_SET's arguments give (Table 12.8). -/
def tedArgs (a : List Word) : Tedder :=
  { firstWorker := argN a 1, sources := argN a 2, cap := argN a 3, d := argN a 4, fmt := argN a 5, topK := argN a 6
    homeSlots := argN a 7, staging := argN a 8, returnWin := argN a 9, retRows := argN a 10, channel := argN a 11
    homes := [] }

/-- The length of a job's window; zero where it is not set. -/
def Job.windowLen (j : Job) (i : Nat) : Nat :=
  match j.windows.find i with
  | none => 0
  | some w => w.len

/-- Whether TED_SET's arguments are in range and its windows are large enough (Table 12.8). -/
def Job.tedOk (j : Job) (t : Tedder) : Bool :=
  1 ≤ t.sources && t.sources ≤ 1024 && 1 ≤ t.cap && t.cap ≤ 65536 && 32 ≤ t.d && t.d ≤ 16384 && t.d % 32 == 0 &&
  (t.fmt == 3 || t.fmt == 4) && 1 ≤ t.topK && t.topK ≤ 8 && t.homeSlots ≤ 64 && t.staging < 256 && t.returnWin < 256 &&
  t.channel < 4096 && 2 * t.homeSlots * t.sources * t.slotBytes ≤ j.windowLen t.staging &&
  2 * t.retRows * t.recBytes ≤ j.windowLen t.returnWin

/-- TED_SET: JOB and the arguments of Table 12.8 in its order. -/
def cmdTedSet : CmdDef := jobCmd 0x0530 12 fun s _ h j a =>
  need (j.tedOk (tedArgs a)) .badArgument <|
  need (!s.tedderBusy h) .stateMismatch <|
  .ok (s.modJob h fun j => { j with tedder := some (tedArgs a) })

/-- TED_CLEAR: JOB. -/
def cmdTedClear : CmdDef := jobCmd 0x0531 1 fun s _ h _ _ =>
  need (!s.tedderBusy h) .stateMismatch <|
  .ok (s.modJob h fun j => { j with tedder := none })

/-- The home slot that TED_HOME_SET's arguments give. -/
def tedHomeArgs (a : List Word) : TedHome :=
  { expert := argN a 2, data0 := argAddr a 3, scale0 := argAddr a 5, data1 := argAddr a 7, scale1 := argAddr a 9
    returns := argAddr a 11, counter := argN a 13 }

/-- TED_HOME_SET: JOB, home slot, expert, data and scale bases of banks 0 and 1, return table base, counter. The areas
lie in the lea's grant: SOURCES × CAP rows a bank, and SOURCES entries of 8 bytes a bank of the return table. -/
def cmdTedHomeSet : CmdDef := jobCmd 0x0532 14 fun s l h j a =>
  let o := tedHomeArgs a
  match j.tedder with
  | none => need (argN a 1 < 64 && o.expert < 65535) .badArgument (.fail .stateMismatch)
  | some t =>
    let rows := t.sources * t.cap
    need (argN a 1 < t.homeSlots && o.expert < 65535 && o.counter + 1 < (s.lea l).quotas.counters && argAddrOk a 3 &&
      argAddrOk a 5 && argAddrOk a 7 && argAddrOk a 9 && argAddrOk a 11 &&
      s.spansGranted l [⟨o.data0, rows * t.d, true⟩, ⟨o.scale0, rows * (t.d / 32), true⟩, ⟨o.data1, rows * t.d, true⟩,
        ⟨o.scale1, rows * (t.d / 32), true⟩, ⟨o.returns, 2 * t.sources * 8, true⟩]) .badArgument <|
    need (!s.tedderBusy h) .stateMismatch <|
    .ok (s.modJob h fun j => { j with tedder := some { t with homes := t.homes.insert (argN a 1) o } })

/-! ## Credit links (R346) -/

/-- The link that CREDIT_LINK_SET's arguments give. -/
def linkArgs (a : List Word) : CreditLink :=
  { watch := argN a 2, roleKind := argN a 3, roleIndex := argN a 4, window := argN a 5, offset := argN a 6
    remote := argN a 7, channel := argN a 8 }

/-- CREDIT_LINK_SET: JOB, link, WATCH, ROLE_KIND, ROLE_INDEX, window, offset, remote counter, channel. -/
def cmdCreditLinkSet : CmdDef := jobCmd 0x0540 9 fun s l h j a =>
  need (argN a 1 < 256 && argN a 2 < (s.lea l).quotas.counters && argN a 2 < 4096 && 1 ≤ argN a 3 && argN a 3 ≤ 4 &&
    argN a 4 < 2 ^ 24 && argN a 5 < 256 && argN a 6 % 32 == 0 && argN a 7 < 4096 && argN a 8 < 4096) .badArgument <|
  need (!j.links.has (argN a 1)) .stateMismatch <|
  .ok (s.modJob h fun j => { j with links := j.links.insert (argN a 1) (linkArgs a) })

/-- CREDIT_LINK_CLEAR: JOB, link; its credits that are not yet sent are discarded. -/
def cmdCreditLinkClear : CmdDef := jobCmd 0x0541 2 fun s _ h j a =>
  need (argN a 1 < 256) .badArgument <|
  need (j.links.has (argN a 1)) .stateMismatch <|
  .ok (s.modJob h fun j => { j.dropMessages (· == .credit h (argN a 1)) with links := j.links.erase (argN a 1) })

/-! ## The command rows -/

/-- JOB_BIND (R316, R317). -/
def execJobBind (lea : Nat) (tag : Word) (args : List Word) (s : State) : Host.Outcome State Fault Refusal :=
  finish (s.issue cmdJobBind lea tag args)
/-- JOB_UNBIND (R319). -/
def execJobUnbind (lea : Nat) (tag : Word) (args : List Word) (s : State) : Host.Outcome State Fault Refusal :=
  finish (s.issue cmdJobUnbind lea tag args)
/-- JOB_READ (R352). -/
def execJobRead (lea : Nat) (tag : Word) (args : List Word) (s : State) : Host.Outcome State Fault Refusal :=
  finish (s.issue cmdJobRead lea tag args)
/-- ROLE_READ (R352). -/
def execRoleRead (lea : Nat) (tag : Word) (args : List Word) (s : State) : Host.Outcome State Fault Refusal :=
  finish (s.issue cmdRoleRead lea tag args)
/-- SHARD_SET (R326). -/
def execShardSet (lea : Nat) (tag : Word) (args : List Word) (s : State) : Host.Outcome State Fault Refusal :=
  finish (s.issue cmdShardSet lea tag args)
/-- SHARD_CLEAR (R352). -/
def execShardClear (lea : Nat) (tag : Word) (args : List Word) (s : State) : Host.Outcome State Fault Refusal :=
  finish (s.issue cmdShardClear lea tag args)
/-- TED_SET (R334). -/
def execTedSet (lea : Nat) (tag : Word) (args : List Word) (s : State) : Host.Outcome State Fault Refusal :=
  finish (s.issue cmdTedSet lea tag args)
/-- TED_CLEAR (R352). -/
def execTedClear (lea : Nat) (tag : Word) (args : List Word) (s : State) : Host.Outcome State Fault Refusal :=
  finish (s.issue cmdTedClear lea tag args)
/-- TED_HOME_SET (R334). -/
def execTedHomeSet (lea : Nat) (tag : Word) (args : List Word) (s : State) : Host.Outcome State Fault Refusal :=
  finish (s.issue cmdTedHomeSet lea tag args)
/-- CREDIT_LINK_SET (R346). -/
def execCreditLinkSet (lea : Nat) (tag : Word) (args : List Word) (s : State) : Host.Outcome State Fault Refusal :=
  finish (s.issue cmdCreditLinkSet lea tag args)
/-- CREDIT_LINK_CLEAR (R352). -/
def execCreditLinkClear (lea : Nat) (tag : Word) (args : List Word) (s : State) : Host.Outcome State Fault Refusal :=
  finish (s.issue cmdCreditLinkClear lea tag args)

/-- The commands of this file. -/
def jobCommands : List CmdDef :=
  [cmdJobBind, cmdJobUnbind, cmdJobRead, cmdRoleRead, cmdShardSet, cmdShardClear, cmdTedSet,
   cmdTedClear, cmdTedHomeSet, cmdCreditLinkSet, cmdCreditLinkClear]

end Sys2Proof.Machine
end

