-- ==== Sys2Proof/Machine/OpCore.lean ====
section
/-!
DEFINITION. Machine/OpCore.lean: what every op class shares: when an op may start (R43, R50, R175, R185), the forward log
(R180), the stash directory (Table 7.4), and what an op does whose access to HBM fails (R207, R208, R211).
-/

namespace Sys2Proof.Machine

/-! ## Holds, and ops that run -/

/-- Whether every op that a hold waits for has completed. -/
def State.holdOver (s : State) (h : JobHold) : Bool :=
  h.awaits.all fun k => match s.hub.ops.find k with
    | none => true
    | some o => o.completed

/-- A job is held: by an op, or by a fill that it serves (R175, R365, R378, R383). -/
def State.takeHold (s : State) (jh : Nat) (op : Option Nat) : State :=
  let set := ((s.jobOps jh).filter fun e => some e.1 != op && !e.2.completed).map (·.1)
  s.modJob jh fun j => { j with hold := some { op := op, awaits := set, since := if set = [] then some s.now else none } }

/-- A job's hold notes when the ops that it waits for have completed (BAL_LAST_PAUSE). -/
def State.noteHold (s : State) (jh : Nat) : State :=
  match s.jobs.find jh with
  | none => s
  | some j => match j.hold with
    | none => s
    | some h =>
      if h.since.isNone && s.holdOver h then s.modJob jh fun j => { j with hold := some { h with since := some s.now } }
      else s

/-- The op's number, if it is in flight. -/
def State.op (s : State) (n : Nat) : Option Op := s.hub.ops.find n

/-- Whether op `n` runs and is of a class; the ops of a lea that is RESETTING do nothing more (Table 14.6). -/
def State.runs (s : State) (n cls : Nat) : Option Op :=
  match s.op n with
  | none => none
  | some o => if o.running && o.cls == cls && (s.lea o.lea).st != .resetting then some o else none

/-! ## The forward log (R180) and the stash directory (R181, Table 7.4) -/

/-- Whether an op of the forward log cannot be replayed (R180). -/
def Op.unreplayable (o : Op) : Bool :=
  (4 ≤ o.cls && o.cls ≤ 7) || (o.cls == 3 && o.f 0 31 30 != 0) || (o.cls == 2 && bit (o.w 4) 20)

/-- An op that starts in FORWARD is copied into its job's forward log (R180). -/
def State.logForward (s : State) (o : Op) : State :=
  if o.cls = 8 then s
  else match s.jobs.find o.job with
    | none => s
    | some j =>
      if j.backward then s
      else
        let i := j.logNext
        let s := s.writeWords (j.logAddr i) ((o.hdr ++ o.body).take 32)
        (s.writeWords (j.stepRegion + 8) [i + 1]).modJob o.job fun j => { j with logNext := i + 1 }

/-- The op that a forward log slot holds. -/
def State.logSlot (s : State) (j : Job) (i : Word) : Op :=
  let w := s.readWords (j.logAddr i) 32
  { lea := j.lea, queue := 0, slot := 0, hdr := w.take 8, body := w.drop 8 }

/-- A stash directory entry (Table 7.4). -/
structure DirEntry where
  prev : Nat
  layer : Nat
  step : Word
  segment : Nat
  microbatch : Nat
  base : Nat
  valid : Bool
  noReplay : Bool
  len : Nat
  first : Word
  last : Word
  deriving DecidableEq, Repr

/-- The entry that eight words hold (Table 7.4). -/
def DirEntry.ofWords (w : List Word) : DirEntry :=
  { prev := fld (wordAt w 0) 31 16, layer := fld (wordAt w 0) 15 0, step := wordAt w 1
    segment := fld (wordAt w 2) 31 16, microbatch := fld (wordAt w 2) 15 0
    base := addr48 (wordAt w 3) (wordAt w 4), valid := bit (wordAt w 4) 31, noReplay := bit (wordAt w 4) 30
    len := (wordAt w 5).toNat, first := wordAt w 6, last := wordAt w 7 }

/-- The words of an entry (Table 7.4). -/
def DirEntry.words (e : DirEntry) : List Word :=
  [packFields [(e.prev, 16), (e.layer, 0)], e.step, packFields [(e.segment, 16), (e.microbatch, 0)],
   BitVec.ofNat 32 e.base, packFields [(b2n e.valid, 31), (b2n e.noReplay, 30), (natField e.base 47 32, 0)],
   BitVec.ofNat 32 e.len, e.first, e.last]

/-- Directory entry `i`. -/
def State.dirEntry (s : State) (j : Job) (i : Nat) : DirEntry := .ofWords (s.readWords (j.dirAddr i) 8)

/-- Whether an index names a directory entry; 0xFFFF never does (R181). -/
def Job.dirOk (j : Job) (i : Nat) : Bool := i < 2 ^ j.log2Dir && i != 0xFFFF

/-- The entry that a recompute would rebuild: it covers the sector, and its STEP, MICROBATCH and SEGMENT are the op's
(R182). -/
def State.recomputeTarget (s : State) (o : Op) (sec : Nat) : Option (Job × Nat) :=
  match s.jobs.find o.job with
  | none => none
  | some j =>
    if !j.backward then none
    else
      let hit := fun (e : DirEntry) => e.valid && e.step == o.step && e.microbatch == o.microbatch &&
        e.segment == o.segment && overlaps e.base e.len (sec * 32) 32
      ((List.range (2 ^ j.log2Dir)).find? fun i => j.dirOk i && hit (s.dirEntry j i)).map fun i => (j, i)

/-! ## Accesses that fail -/

/-- An op whose access fails ends with the status; a detected error that a recompute is to mend is left to
DETECTED_READ_ERROR (R182, R207). -/
def State.failAccess (s : State) (n : Nat) (sec : Nat) (st : Status) (detail : Nat := 0) : State :=
  match s.op n with
  | none => s
  | some o => if st = .unitFault ∧ (s.recomputeTarget o sec).isSome then s else (s.lostRead sec).endOp n st detail

/-- An op's work: it waits while a sector that it needs is refilled or its HBM PHY domain is offline, and it ends where
an access fails. -/
def State.withAccess (s : State) (n : Nat) (spans : List Span) (k : State → State) : State :=
  match s.spansAccess spans with
  | .stall => s
  | .bad sec st => s.failAccess n sec st
  | .good => k s

/-- An op's writes are noted in refill descriptors (R210) and shard headers (R326); a shard header that cannot be
written gives the op its status in place of ST_OK (Table 8.7). -/
def State.noteOp (s : State) (o : Op) (spans : List Span) (st : Status) : State × Status :=
  let s := spans.foldl (fun s x => if x.write then s.noteWrite o.step x.base x.len else s) s
  let r := s.noteShards o.step spans
  match r.2 with
  | some (_, _, e) => (r.1, if st = .ok then e else st)
  | none => (r.1, st)

/-- An op's work ends: its writes are noted, and its phase becomes done. -/
def State.finishOp (s : State) (n : Nat) (spans : List Span) (st : Status := .ok) (detail : Nat := 0) : State :=
  match s.op n with
  | none => s
  | some o =>
    let r := s.noteOp o spans st
    r.1.endOp n r.2 detail

end Sys2Proof.Machine
end

