-- ==== Sys2Proof/Machine/Dies.lean ====
section
/-!
DEFINITION. Machine/Dies.lean: the Welxis dies and their Stile bundles: census, lane repair, reset, rejoin and fencing
(09, R231 to R253), and what a die takes with it when it leaves service (R112, R113, R139).
-/

namespace Sys2Proof.Machine

/-! ## A die leaves service -/

/-- Whether an element-wise op has AMO set (Table 5.1). -/
def Op.amo (o : Op) : Bool := bit (o.w 4) 20
/-- The ROWS of an element-wise op (Table 5.1). -/
def Op.rows (o : Op) : Nat := (o.w 2).toNat

/-- DETAIL of an element-wise op (Table 5.2). -/
def EltRun.detail (r : EltRun) (cause : Nat) : Nat :=
  b2n r.saturated * 2 ^ 15 + b2n r.nanOut * 2 ^ 14 + b2n r.maskedRow * 2 ^ 13 + b2n r.infRow * 2 ^ 12 +
  b2n r.nanRow * 2 ^ 11 + b2n r.normSat * 2 ^ 10 + cause

/-- An element-wise op's work ends once it has failed or been cancelled and none of its rows runs, or every row has
ended (R122). -/
def State.eltSettle (s : State) (n : Nat) : State :=
  match s.scalar.runs.find n, s.hub.ops.find n with
  | some r, some o =>
    if s.scalar.clusters.any (fun c => c.2.op == some n) then s
    else
      let t := { s with scalar := { s.scalar with runs := s.scalar.runs.erase n } }
      let spans := r.hits.map fun x => { base := x.1, len := x.2, write := true }
      if r.cancelled then t.finishOp n spans .cancelled (r.detail 0)
      else match r.fail with
        | some (st, cause) => t.finishOp n spans st (r.detail cause)
        | none => if o.rows ≤ r.doneRows then t.finishOp n spans .ok (r.detail 0) else s
  | _, _ => s

/-- Hardware sets of `k` bits of WX_SCALAR_STATUS of die `d` (R55). -/
def State.dieFlag (s : State) (d : Nat) (k : Nat) (f : ScalarDie → ScalarDie) : State :=
  { s with scalar := { s.scalar with dies := s.scalar.dies.modify d {} fun x =>
      let y := f x
      { y with events := y.events + BitVec.ofNat 32 k } } }

/-- A cluster's row is given up: it is to run again, or fails an AMO op (R139). -/
def State.dropRow (s : State) (c : Nat) : State :=
  match s.scalar.clusters.find c with
  | none => s
  | some k => match k.op with
    | none => s
    | some n =>
      let amo := (s.hub.ops.find n).any Op.amo
      let runs := s.scalar.runs.modify n { op := n } fun r =>
        let r := { r with hits := r.hits ++ k.hits.filter fun h => !r.hits.contains h }
        if amo then { r with fail := some (r.fail.getD (.unitFault, 4)) } else { r with rerun := r.rerun ++ [k.row] }
      let s := { s with scalar := { s.scalar with clusters := s.scalar.clusters.insert c { priv := k.priv }
                                                  runs := if s.scalar.runs.has n then runs else s.scalar.runs } }
      (if amo then s.dieFlag (c / 64) 1 fun x => { x with fault := true } else s).eltSettle n

/-- The tiles of a pass on die `d`. -/
def Pass.on (p : Pass) (d : Nat) : List (Nat × Nat) := (p.tiles.filter fun t => t.1 == d).map fun t => (p.band, t.2)

/-- A pass without die `d`. -/
def Pass.without (p : Pass) (d : Nat) : Pass := { p with tiles := p.tiles.filter fun t => t.1 != d }

/-- The dies that take part in the rest of a matrix op (R113). -/
def MatrixRun.alive (r : MatrixRun) : List Nat := r.dies.filter (fun d => !r.removed.contains d) ++ r.returned

/-- A die leaves a matrix op: the tiles that it holds, and those that it was to recompute, are deferred (R112, R113), and
its B-panel store is lost. -/
def MatrixRun.dropDie (r : MatrixRun) (d : Nat) : MatrixRun :=
  if !r.alive.contains d then r
  else
    let held := (r.drain.map fun p => p.on d).getD [] ++ (r.pass.map fun p => p.on d).getD [] ++
      r.recompute.flatMap fun p => p.on d
    { r with
      removed := if r.removed.contains d then r.removed else r.removed ++ [d]
      returned := r.returned.filter (· != d)
      deferred := r.deferred ++ held
      pass := r.pass.map fun p => p.without d
      drain := r.drain.map fun p => p.without d
      recompute := (r.recompute.map fun p => p.without d).filter fun p => !p.tiles.isEmpty
      panels := r.panels.erase d }

/-- A die leaves service (Table 9.6, step 2): its bit goes, the matrix op in the array loses it (R112, R113), and its
rows are given up (R139). -/
def State.dieOut (s : State) (d : Nat) : State :=
  let was := s.array.inService.getLsbD d
  let a := s.array
  let a := { a with run := a.run.map fun r => r.dropDie d }
  let a := if was then { a with inService := a.inService &&& ~~~ (1#4 <<< d), shapeChanges := a.shapeChanges + 1 } else a
  (range' (64 * d) 64).foldl State.dropRow { s with array := a }

/-- Whether a matrix op keeps a rejoining die out (R245): not one that has no die left and waits for one (R250). -/
def State.arrayHolds (s : State) : Bool := s.array.run.any fun r => !r.alive.isEmpty

/-- A die returns to service: its array and its clusters (R245); a matrix op that has no die left takes it (R250). -/
def State.dieIn (s : State) (d : Nat) : State :=
  { s with array := { s.array with inService := s.array.inService ||| (1#4 <<< d)
                                   run := s.array.run.map fun (r : MatrixRun) => if r.alive.isEmpty then { r with returned := [d] } else r
                                   shapeChanges := s.array.shapeChanges + 1 } }.modDie d fun x => { x with st := .inService }

/-! ## Census (R234 to R237, R240) -/

/-- A lane by its place in a LANES word (Table 16.5): die, 2 × bundle + direction, 34 × group + lane. -/
def laneOf (w : Word) : Nat × Nat × Nat :=
  (fld w 31 30, 2 * fld w 29 25 + fld w 24 24, 34 * fld w 23 20 + fld w 19 14)

/-- The LANES word of a lane (Table 16.5). -/
def laneWord (d dir lane fails : Nat) : Word :=
  packFields [(d, 30), (dir / 2, 25), (dir % 2, 24), (lane / 34, 20), (lane % 34, 14), (fails, 12)]

/-- The lanes that the fuses name as failed from assembly (R234). -/
def Firmware.fusedLane (f : Firmware) (d dir lane : Nat) : Bool :=
  f.fuses.lanes.any fun w => laneOf (BitVec.ofNat 32 w) == (d, dir, lane)

/-- Whether a lane is on the retired-lane list (R236). -/
def Firmware.retiredLane (f : Firmware) (d dir lane : Nat) : Bool :=
  f.current.lanes.any fun e => fld e.2 13 12 == 2 && laneOf e.2 == (d, dir, lane)

/-- How a lane stands before data bits are mapped: none where it may carry data. -/
def State.laneBad (s : State) (d dir lane : Nat) (failed : List (Nat × Nat)) : Option LaneSt :=
  if s.fw.fusedLane d dir lane then some .fused
  else if failed.contains (dir, lane) then some .censusFailed
  else if s.fw.retiredLane d dir lane then some .retired
  else none

/-- The map of one group: each data bit on the next good lane (R235); answers the lanes past their default places, and
the number of good lanes. -/
def mapGroup (g : Nat) (bad : Nat → Option LaneSt) : Nat → Nat → Nat → Map LaneSt → Map LaneSt × Nat
  | 0, _, good, m => (m, good)
  | n + 1, l, good, m =>
    match bad (34 * g + l) with
    | some st => mapGroup g bad n (l + 1) good (m.insert (34 * g + l) st)
    | none =>
      let st : LaneSt := if good < 32 then .active else .spare
      let dflt : LaneSt := if l < 32 then .active else .spare
      mapGroup g bad n (l + 1) (good + 1) (if st = dflt then m else m.insert (34 * g + l) st)

/-- The census of one bundle direction (R235). -/
def censusDir (bad : Nat → Option LaneSt) : BundleDir :=
  (List.range 16).foldl (fun b g =>
    let r := mapGroup g bad 34 0 0 b.lanes
    { b with lanes := r.1, groupOut := if r.2 < 32 then b.groupOut ++ [g] else b.groupOut }) { lanes := [], groupOut := [] }

/-- The width that a number of groups in service allows (Table 9.4). -/
def groupWidth (n : Nat) : Nat := if 16 ≤ n then 0 else if 12 ≤ n then 1 else if 8 ≤ n then 2 else 3

/-- Groups in service in one direction of a bundle. -/
def Die.groups (x : Die) (dir : Nat) : Nat := 16 - (x.bundles.getD dir { lanes := [], groupOut := [] }).groupOut.length

/-- The width that a bundle's groups allow: its worse direction (R240). -/
def Die.allowed (x : Die) (b : Nat) : Nat := max (groupWidth (x.groups (2 * b))) (groupWidth (x.groups (2 * b + 1)))

/-- The width of every bundle that its groups allow. -/
def Die.allWidths (x : Die) : Map Nat := ((List.range 32).map fun b => (b, x.allowed b)).filter fun e => e.2 != 0

/-- The census of a die (Table 9.3): new maps, counts and widths. -/
def State.census (s : State) (d : Nat) (failed : List (Nat × Nat)) : State :=
  s.modDie d fun x =>
    let x := { x with bundles := (List.range 64).map fun dir => (dir, censusDir fun l => s.laneBad d dir l failed)
                      repairing := [], published := true }
    { x with width := x.allWidths }

/-- Whether a bundle of the die is below 1/2 (R242). -/
def Die.narrow (x : Die) : Bool := x.width.any fun e => e.2 == 3

/-! ## Fencing (R249, R250) -/

/-- Every die is fenced: a fatal fault, and the device is HALTED (R250, R443). -/
def State.checkAllFenced (s : State) : State :=
  if (List.range 4).all fun d => (s.die d).st == .fenced then
    (s.writeRecord fun r => r.logFault ((List.range 8).map (Config.fatalWord 1))).setDev .halted
  else s

/-- A WX_UNFENCE that waits for the die is answered. -/
def State.answerUnfence (s : State) (d : Nat) (st : Status) : State :=
  if (s.lea 0).mbx.deferral = some (.wxUnfence d) then s.respond 0 st else s

/-- A die is fenced (R249). -/
def State.fenceDie (s : State) (d : Nat) : State :=
  let s := (s.dieOut d).modDie d fun x => { x with st := .fenced, rateValid := false, repairing := [] }
  let ds := { s.dies with window := if s.dies.window = some d then none else s.dies.window
                          waiting := s.dies.waiting.filter (· != d)
                          fencedEvent := true, fenceCount := s.dies.fenceCount + 1 }
  ({ s with dies := ds }.answerUnfence d .unitFault).checkAllFenced

/-! ## Reset (R243 to R247) -/

/-- The reset of a die begins (Table 9.6, steps 1 and 2), and its recovery window opens. -/
def State.startReset (s : State) (d : Nat) : State :=
  let s := (s.dieOut d).modDie d fun x =>
    { x with st := .resetting
             resets := (x.resets.filter fun t => s.elapsed t < 2 ^ 30) ++ [s.now], repairing := [] }
  { s with dies := { s.dies with window := some d } }

/-- A cause of R243 in a die (R247). -/
def State.dieCause (s : State) (d : Nat) : State :=
  match (s.die d).st with
  | .fenced | .queued => s
  | .resetting => s.fenceDie d
  | .inService | .rejoining =>
    if s.dies.window.isNone then s.startReset d
    else
      let s := (s.dieOut d).modDie d fun x => { x with st := .queued, repairing := [] }
      { s with dies := { s.dies with waiting := s.dies.waiting ++ [d] } }

/-- STILE_CRC_MISMATCH (R232). -/
def execStileCrcMismatch (die : Nat) (s : State) : Host.Outcome State Fault Refusal :=
  if 4 ≤ die ∨ (s.die die).st = .fenced then finish s
  else finish ({ s with dies := { s.dies with crcMismatch := true, crcCount := s.dies.crcCount + 1 } }.dieCause die)

/-- WELXIS_INTERNAL_FAULT (R243). -/
def execWelxisInternalFault (die : Nat) (s : State) : Host.Outcome State Fault Refusal :=
  if 4 ≤ die then finish s else finish (s.dieCause die)

/-- Whether the die was reset for the fourth time within 2^30 counts (R246). -/
def State.fourthReset (s : State) (d : Nat) : Bool := 4 ≤ ((s.die d).resets.filter fun t => s.elapsed t < 2 ^ 30).length

/-- WELXIS_SELF_TEST_END (R246): steps 4 to 6 of Table 9.6. -/
def execWelxisSelfTestEnd (die : Nat) (census : Census) (s : State) : Host.Outcome State Fault Refusal :=
  if s.dies.window ≠ some die then finish s
  else
    let s := s.census die census.failed
    if (s.die die).narrow || !census.selfTest || s.fourthReset die then finish (s.fenceDie die)
    else
      let s := s.modDie die fun x => { x with st := .rejoining, rate := census.rate, rateValid := true }
      finish { s with dies := { s.dies with window := none, resetDone := true, resetCount := s.dies.resetCount + 1 } }

/-- QUEUED_WELXIS_RESET (R247): the first queued die's reset begins once no window is open. -/
def execQueuedWelxisReset (s : State) : Host.Outcome State Fault Refusal :=
  match s.dies.window, s.dies.waiting with
  | none, d :: rest => finish ({ s with dies := { s.dies with waiting := rest } }.startReset d)
  | _, _ => finish s

/-- DIE_REJOIN (R245): at an op boundary. -/
def execDieRejoin (die : Nat) (s : State) : Host.Outcome State Fault Refusal :=
  if (s.die die).st = .rejoining ∧ !s.arrayHolds then finish ((s.dieIn die).answerUnfence die .ok) else finish s

/-! ## Lanes in the field (R232, R236 to R241) -/

/-- A field failure recorded in the device record (R236, R237). -/
def Record.failLane (r : Record) (d dir lane : Nat) : Record × Bool :=
  match r.lanes.find? fun e => laneOf e.2 == (d, dir, lane) && fld e.2 13 12 != 0 with
  | some e => ({ r with lanes := r.lanes.insert e.1 (laneWord d dir lane 2) }, true)
  | none => match r.lanes.freeFrom 0 1024 with
    | some i => ({ r with lanes := r.lanes.insert i (laneWord d dir lane 1) }, true)
    | none => match r.lanes.find? fun e => fld e.2 13 12 == 1 with
      | some e => ({ r with lanes := r.lanes.insert e.1 (laneWord d dir lane 1) }, true)
      | none => (r, false)

/-- Whether a lane carries data. -/
def BundleDir.carries (b : BundleDir) (lane : Nat) : Bool :=
  (match b.lanes.find lane with
   | none => lane % 34 < 32
   | some st => st == .active) && !b.groupOut.contains (lane / 34)

/-- A direction of a bundle as it stands. -/
def Die.dir (x : Die) (dir : Nat) : BundleDir := x.bundles.getD dir { lanes := [], groupOut := [] }

/-- A lane is failing (R238): it is marked and recorded, and its bundle's repair runs or takes it in (R239, R241). A
lane of a die in reset or fenced is left to the census. -/
def State.laneFails (s : State) (d dir lane : Nat) : State :=
  let x := s.die d
  if (x.st ≠ .inService ∧ x.st ≠ .rejoining) ∨ !(x.dir dir).carries lane then s
  else
    let b := x.dir dir
    let s := s.modDie d fun x =>
      { x with bundles := x.bundles.insert dir { b with lanes := b.lanes.insert lane .fieldFailed }
               repairing := if x.repairing.contains (dir / 2) then x.repairing else x.repairing ++ [dir / 2] }
    let s := { s with dies := { s.dies with laneFailed := true, failCount := s.dies.failCount + 1 } }
    if (s.fw.current.failLane d dir lane).2 then s.writeRecord fun r => (r.failLane d dir lane).1
    else { s with fw := { s.fw with lanesFull := true, failCount := s.fw.failCount + 1 } }

/-- STILE_INVALID_CODE (R232): refused and resent, and counted against the lane. -/
def execStileInvalidCode (die dir lane : Nat) (s : State) : Host.Outcome State Fault Refusal :=
  if 4 ≤ die ∨ 64 ≤ dir ∨ 544 ≤ lane ∨ (s.die die).st = .fenced then finish s
  else finish (s.modDie die fun x =>
    let b := x.dir dir
    let b := { b with invalid := b.invalid.modify (lane / 34) 0 (· + 1), interval := b.interval.modify lane 0 (· + 1) }
    { x with bundles := x.bundles.insert dir b, invalidTotal := x.invalidTotal + 1 })

/-- The lanes of a die over ERR_LIMIT in the interval that ends. -/
def Die.overLimit (x : Die) (limit : Nat) : List (Nat × Nat) :=
  x.bundles.flatMap fun b => (b.2.interval.filter fun e => limit < e.2).map fun e => (b.1, e.1)

/-- LANE_ERROR_INTERVAL (R238): at each interval of 2^20 counts. -/
def execLaneErrorInterval (s : State) : Host.Outcome State Fault Refusal :=
  if s.interval ≤ s.dies.interval then finish s
  else
    let bad := (List.range 4).flatMap fun d => ((s.die d).overLimit s.dies.errLimit).map fun l => (d, l.1, l.2)
    let s := bad.foldl (fun s l => s.laneFails l.1 l.2.1 l.2.2) s
    finish { s with dies := { s.dies with
      interval := s.interval
      die := s.dies.die.mapVals fun _ x => { x with bundles := x.bundles.mapVals fun _ b => { b with interval := [] } } } }

/-- GROUP_STALL_TIMEOUT (R238): every lane that has not settled is failing. -/
def execGroupStallTimeout (die dir : Nat) (lanes : List Nat) (s : State) : Host.Outcome State Fault Refusal :=
  if 4 ≤ die ∨ 64 ≤ dir then finish s else finish (lanes.foldl (fun s l => s.laneFails die dir l) s)

/-- One group with its failed lanes' places taken by spares, lowest first; out of service where they do not suffice
(R239). Answers the direction and whether a spare was used. -/
def BundleDir.repairGroup (b : BundleDir) (g : Nat) : BundleDir × Bool :=
  let lanes := range' (34 * g) 34
  let active := (lanes.filter b.carries).length
  let spares := lanes.filter fun l => (match b.lanes.find l with
    | none => 32 ≤ l % 34
    | some st => st == .spare)
  if 32 ≤ active ∨ b.groupOut.contains g then (b, false)
  else if active + spares.length < 32 then ({ b with groupOut := b.groupOut ++ [g] }, false)
  else ({ b with lanes := (spares.take (32 - active)).foldl (fun m l => m.insert l .active) b.lanes }, true)

/-- Every group of a direction repaired. -/
def BundleDir.repair (b : BundleDir) : BundleDir × Bool :=
  (List.range 16).foldl (fun r g => ((r.1.repairGroup g).1, r.2 || (r.1.repairGroup g).2)) (b, false)

/-- BUNDLE_REPAIR_DONE (R239, R240, R242): steps 3 to 5 of Table 9.5. -/
def execBundleRepairDone (die bundle : Nat) (verified : Bool) (s : State) : Host.Outcome State Fault Refusal :=
  let x := s.die die
  if !x.repairing.contains bundle || !verified then finish s
  else
    let r0 := (x.dir (2 * bundle)).repair
    let r1 := (x.dir (2 * bundle + 1)).repair
    let x' := { x with bundles := (x.bundles.insert (2 * bundle) r0.1).insert (2 * bundle + 1) r1.1
                       repairing := x.repairing.filter (· != bundle) }
    let w := max (x.width.getD bundle 0) (x'.allowed bundle)
    let stepped := x.width.getD bundle 0 < w
    let s := s.modDie die fun _ => { x' with width := if w = 0 then x'.width.erase bundle else x'.width.insert bundle w }
    let ds := s.dies
    let ds := if r0.2 || r1.2 then { ds with laneRepaired := true, repairCount := ds.repairCount + 1 } else ds
    let ds := if stepped then { ds with widthStepped := true, stepCount := ds.stepCount + 1 } else ds
    let s := { s with dies := ds }
    finish (if w = 3 then s.fenceDie die else s)

/-! ## Commands of range 0x02 (R253) -/

/-- WX_RESET: die. -/
def cmdWxReset : CmdDef := cmd 0x0201 1 .leaZero fun s _ a =>
  need (argN a 0 < 4) .badArgument <|
  need ((s.die (argN a 0)).st = .inService) .stateMismatch <|
  .ok (s.dieCause (argN a 0))

/-- WX_FENCE: die (R250). -/
def cmdWxFence : CmdDef := cmd 0x0202 1 .leaZero fun s _ a =>
  let d := argN a 0
  need (d < 4) .badArgument <|
  need ((s.die d).st != .fenced && (List.range 4).any fun e => e != d && (s.die e).st != .fenced) .stateMismatch <|
  .ok (s.fenceDie d)

/-- WX_UNFENCE: die; answered when the die rejoins or is fenced again. It queues behind an open window (R247). -/
def cmdWxUnfence : CmdDef := cmd 0x0203 1 .leaZero fun s _ a =>
  let d := argN a 0
  need (d < 4) .badArgument <|
  need ((s.die d).st = .fenced && s.live) .stateMismatch <|
  if s.dies.window.isNone then .defer (s.startReset d) (.wxUnfence d)
  else .defer { s.modDie d fun x => { x with st := .queued } with
    dies := { (s.modDie d fun x => { x with st := .queued }).dies with waiting := s.dies.waiting ++ [d] } } (.wxUnfence d)

/-- The 3-bit code of a lane state (Table 2.13). -/
def LaneSt.code : LaneSt → Nat
  | .active => 0 | .spare => 1 | .fused => 2 | .censusFailed => 3 | .fieldFailed => 4 | .retired => 5

/-- The state of a lane. -/
def BundleDir.lane (b : BundleDir) (l : Nat) : LaneSt := b.lanes.getD l (if l % 34 < 32 then .active else .spare)

/-- The stream of lane states (Table 2.13). -/
def BundleDir.stream (b : BundleDir) : Nat :=
  (List.range 544).foldl (fun n l => n + (b.lane l).code <<< (3 * l)) 0

/-- STILE_CENSUS_READ: die, bundle, direction (Table 2.13). -/
def cmdStileCensusRead : CmdDef := cmd 0x0204 3 .leaZero fun s _ a =>
  need (argN a 0 < 4 && argN a 1 < 32 && argN a 2 < 2) .badArgument <|
  need ((s.die (argN a 0)).st != .fenced) .stateMismatch <|
  let b := (s.die (argN a 0)).dir (2 * argN a 1 + argN a 2)
  .done s .ok (((List.range 51).map fun k => BitVec.ofNat 32 (b.stream >>> (32 * k))) ++
    (List.range 8).map fun k => packFields [(satNat 16 (b.invalid.getD (2 * k + 1) 0), 16),
      (satNat 16 (b.invalid.getD (2 * k) 0), 0)])

/-- STILE_WIDTH_SET: die, bundle, width: 0 the census width, 1 3/4, 2 1/2 (R240). -/
def cmdStileWidthSet : CmdDef := cmd 0x0205 3 .leaZero fun s _ a =>
  let d := argN a 0
  let b := argN a 1
  let w := argN a 2
  need (d < 4 && b < 32 && w < 3 && (w == 0 || (s.die d).allowed b ≤ w)) .badArgument <|
  need ((s.die d).st = .inService) .stateMismatch <|
  let old := (s.die d).width.getD b 0
  let new := if w = 0 then (s.die d).allowed b else w
  let s := s.modDie d fun x => { x with width := if new = 0 then x.width.erase b else x.width.insert b new }
  .ok (if old < new then { s with dies := { s.dies with widthStepped := true, stepCount := s.dies.stepCount + 1 } } else s)

/-- STILE_RETIRE_CLEAR (R236): the retired lanes leave the record; the next census takes effect from it. -/
def cmdStileRetireClear : CmdDef := cmd 0x0206 0 .leaZero fun s _ _ =>
  need s.live .stateMismatch <| needDomain s 33 <|
  .ok (s.writeRecord fun r => { r with lanes := r.lanes.sel fun _ w => fld w 13 12 != 2 })

/-! ## The command rows -/

/-- WX_RESET (R253). -/
def execWxReset (lea : Nat) (tag : Word) (args : List Word) (s : State) : Host.Outcome State Fault Refusal :=
  finish (s.issue cmdWxReset lea tag args)
/-- WX_FENCE (R250). -/
def execWxFence (lea : Nat) (tag : Word) (args : List Word) (s : State) : Host.Outcome State Fault Refusal :=
  finish (s.issue cmdWxFence lea tag args)
/-- WX_UNFENCE (R253). -/
def execWxUnfence (lea : Nat) (tag : Word) (args : List Word) (s : State) : Host.Outcome State Fault Refusal :=
  finish (s.issue cmdWxUnfence lea tag args)
/-- STILE_CENSUS_READ (R253). -/
def execStileCensusRead (lea : Nat) (tag : Word) (args : List Word) (s : State) : Host.Outcome State Fault Refusal :=
  finish (s.issue cmdStileCensusRead lea tag args)
/-- STILE_WIDTH_SET (R240). -/
def execStileWidthSet (lea : Nat) (tag : Word) (args : List Word) (s : State) : Host.Outcome State Fault Refusal :=
  finish (s.issue cmdStileWidthSet lea tag args)
/-- STILE_RETIRE_CLEAR (R236). -/
def execStileRetireClear (lea : Nat) (tag : Word) (args : List Word) (s : State) : Host.Outcome State Fault Refusal :=
  finish (s.issue cmdStileRetireClear lea tag args)

/-- The commands of this file. -/
def dieCommands : List CmdDef :=
  [cmdWxReset, cmdWxFence, cmdWxUnfence, cmdStileCensusRead, cmdStileWidthSet, cmdStileRetireClear]

end Sys2Proof.Machine
end

