-- ==== Sys2Proof/Machine/Float.lean ====
section
/-!
DEFINITION. Machine/Float.lean: the number formats, their exact values, and rounding (R57 to R60, R65 to R71).
A value is held exactly, as a sign, a natural number and a power of two; rounding happens once, when a value is
encoded (R67). FP32 arithmetic forms the exact result and rounds it once (R124).
-/

namespace Sys2Proof.Machine

/-- The formats of Table 3.1. -/
inductive Fmt
  | bf16 | fp16 | fp32 | e4m3 | e5m2 | e3m2 | e2m3 | e2m1 | mxint8
  deriving DecidableEq, Repr

/-- The exact value of a code: NaN, an infinity, or (−1)^neg × m × 2^e. -/
inductive Val
  | nan
  | inf (neg : Bool)
  | fin (neg : Bool) (m : Nat) (e : Int)
  deriving DecidableEq, Repr

/-- The format that a code of Table 3.1 names; 0x9 to 0xF are reserved (R57). -/
def fmtOfCode : Nat → Option Fmt
  | 0 => some .bf16 | 1 => some .fp16 | 2 => some .fp32 | 3 => some .e4m3 | 4 => some .e5m2
  | 5 => some .e3m2 | 6 => some .e2m3 | 7 => some .e2m1 | 8 => some .mxint8 | _ => none

/-- The code of a format (Table 3.1). -/
def fmtCode : Fmt → Nat
  | .bf16 => 0 | .fp16 => 1 | .fp32 => 2 | .e4m3 => 3 | .e5m2 => 4 | .e3m2 => 5 | .e2m3 => 6 | .e2m1 => 7 | .mxint8 => 8

/-- Element bits (Table 3.1). -/
def fmtBits : Fmt → Nat
  | .bf16 => 16 | .fp16 => 16 | .fp32 => 32 | .e4m3 => 8 | .e5m2 => 8 | .e3m2 => 6 | .e2m3 => 6 | .e2m1 => 4 | .mxint8 => 8

/-- Whether 32 elements of the format share a scale (Table 3.1). -/
def fmtBlock : Fmt → Bool
  | .bf16 => false | .fp16 => false | .fp32 => false | _ => true

/-- The mantissa bits of the floating-point formats (Table 3.3); MXINT8 has none. -/
def fmtMant : Fmt → Nat
  | .bf16 => 7 | .fp16 => 10 | .fp32 => 23 | .e4m3 => 3 | .e5m2 => 2 | .e3m2 => 2 | .e2m3 => 3 | .e2m1 => 1 | .mxint8 => 0

/-- The exponent bias (Table 3.3); MXINT8 has none. -/
def fmtBias : Fmt → Nat
  | .bf16 => 127 | .fp16 => 15 | .fp32 => 127 | .e4m3 => 7 | .e5m2 => 15 | .e3m2 => 3 | .e2m3 => 1 | .e2m1 => 1 | .mxint8 => 0

/-- The code of the largest finite magnitude (Table 3.4). -/
def fmtMaxCode : Fmt → Nat
  | .bf16 => 0x7F7F | .fp16 => 0x7BFF | .fp32 => 0x7F7FFFFF | .e4m3 => 0x7E | .e5m2 => 0x7B | .e3m2 => 0x1F
  | .e2m3 => 0x1F | .e2m1 => 0x7 | .mxint8 => 0x7F

/-- The column emax of Table 3.4. -/
def fmtEmax : Fmt → Int
  | .bf16 => 127 | .fp16 => 15 | .fp32 => 127 | .e4m3 => 8 | .e5m2 => 15 | .e3m2 => 4 | .e2m3 => 2 | .e2m1 => 2 | .mxint8 => 0

/-- Whether the format has codes for the infinities (Table 3.4). -/
def fmtHasInf : Fmt → Bool
  | .bf16 => true | .fp16 => true | .fp32 => true | .e5m2 => true | _ => false

/-- Data bytes of one block of 32 elements (Table 3.5); of one element, for a format that is not block-scaled. -/
def fmtUnitBytes : Fmt → Nat
  | .bf16 => 2 | .fp16 => 2 | .fp32 => 4 | .e3m2 => 24 | .e2m3 => 24 | .e2m1 => 16 | _ => 32

/-- The exact value of an element code, its block's scale apart (R58, Table 3.4). -/
def decodeElem (f : Fmt) (code : Nat) : Val :=
  if f = .mxint8 then
    let q := toSigned 8 (code % 256)
    .fin (decide (q < 0)) q.natAbs (-6)
  else
    let mb := fmtMant f
    let neg := code.testBit (fmtBits f - 1)
    let mag := code % 2 ^ (fmtBits f - 1)
    let e := mag >>> mb
    let m := mag % 2 ^ mb
    if mag > fmtMaxCode f then
      if fmtHasInf f && mag = fmtMaxCode f + 1 then .inf neg else .nan
    else if e = 0 then .fin neg m (1 - (fmtBias f : Int) - mb)
    else .fin neg (2 ^ mb + m) ((e : Int) - fmtBias f - mb)

/-- A magnitude m, or one strictly between m and m + 1 where `sticky`, divided by 2^sh and rounded to the nearest
integer, a tie going to the even one (R67). -/
def rneShift (m sh : Nat) (sticky : Bool) : Nat :=
  if sh = 0 then m
  else if sh > m.log2 + 2 then 0
  else
    let q := m >>> sh
    let r := m % 2 ^ sh
    let half := 2 ^ (sh - 1)
    if r > half || (r = half && (sticky || q % 2 = 1)) then q + 1 else q

/-- The magnitude code of m × 2^e in a format with the given mantissa bits, bias and largest code, rounded once
(R67) and saturated (R69); the flag says that it saturated. -/
def encodeMag (mb bias maxCode m : Nat) (e : Int) (sticky : Bool) : Nat × Bool :=
  if m = 0 then (0, false)
  else
    let qmin : Int := 1 - (bias : Int) - mb
    let q := max ((m.log2 : Int) + e - mb) qmin
    let n := if q ≤ e then m <<< (e - q).toNat else rneShift m (q - e).toNat sticky
    let code := (q - qmin).toNat * 2 ^ mb + n
    if code > maxCode then (maxCode, true) else (code, false)

/-- The canonical quiet NaN that the part writes (R60). -/
def canonNan : Fmt → Nat
  | .bf16 => 0x7FC0 | .fp16 => 0x7E00 | .fp32 => 0x7FC00000 | .e4m3 => 0x7F | .e5m2 => 0x7F | _ => 0

/-- The element code of a value (R67, R69 to R71) and whether a finite value saturated. A NaN, or an infinity in a
format without infinities, never reaches an element of a block format: it makes a NaN block (R73). -/
def encodeVal (f : Fmt) (v : Val) (sticky : Bool := false) : Nat × Bool :=
  let sgn (neg : Bool) := if neg then 2 ^ (fmtBits f - 1) else 0
  match v with
  | .nan => (canonNan f, false)
  | .inf neg => if fmtHasInf f then (sgn neg + fmtMaxCode f + 1, false) else (sgn neg + fmtMaxCode f, true)
  | .fin neg m e =>
    if f = .mxint8 then
      let n := if (-6 : Int) ≤ e then m <<< (e + 6).toNat else rneShift m (-6 - e).toNat sticky
      let k := min n 127
      (ofSigned 8 (if neg then -(k : Int) else k), decide (n > 127))
    else
      let r := encodeMag (fmtMant f) (fmtBias f) (fmtMaxCode f) m e sticky
      (sgn neg + r.1, r.2)

/-- Whether a value is a NaN. -/
def Val.isNan : Val → Bool
  | .nan => true | _ => false

/-- Whether a value is an infinity. -/
def Val.isInf : Val → Bool
  | .inf _ => true | _ => false

/-- Whether a value is a zero of either sign. -/
def Val.isZero : Val → Bool
  | .fin _ m _ => m = 0 | _ => false

/-- The sign of a value; a NaN has sign 0. -/
def Val.neg : Val → Bool
  | .nan => false | .inf n => n | .fin n _ _ => n

/-- The value with its sign changed. -/
def Val.negate : Val → Val
  | .nan => .nan | .inf n => .inf (!n) | .fin n m e => .fin (!n) m e

/-- The value without its sign. -/
def Val.abs : Val → Val
  | .nan => .nan | .inf _ => .inf false | .fin _ m e => .fin false m e

/-- The zero with the given sign. -/
def Val.zero (neg : Bool) : Val := .fin neg 0 0

/-- One. -/
def Val.one : Val := .fin false 1 0

/-- A finite value times a power of two; the others are unchanged. -/
def Val.scale2 (v : Val) (k : Int) : Val :=
  match v with
  | .fin n m e => .fin n m (e + k)
  | w => w

/-- The integer s for which a finite value is s × 2^q, where q is not above its exponent. -/
def Val.intAt (v : Val) (q : Int) : Int :=
  match v with
  | .fin n m e => let k : Int := (m <<< (e - q).toNat : Nat); if n then -k else k
  | _ => 0

/-- The exponent of a finite value. -/
def Val.expo : Val → Int
  | .fin _ _ e => e | _ => 0

/-- The value z × 2^q. -/
def Val.ofInt (z q : Int) : Val := .fin (decide (z < 0)) z.natAbs q

/-- The exact sum (R124): infinities as IEEE 754 defines; an exact zero is −0 only where both terms are. -/
def Val.add (a b : Val) : Val :=
  match a, b with
  | .nan, _ => .nan
  | _, .nan => .nan
  | .inf x, .inf y => if x = y then .inf x else .nan
  | .inf x, _ => .inf x
  | _, .inf y => .inf y
  | .fin na ma ea, .fin nb mb eb =>
    if ma = 0 && mb = 0 then .fin (na && nb) 0 0
    else if ma = 0 then .fin nb mb eb
    else if mb = 0 then .fin na ma ea
    else
      let q := min ea eb
      let z := Val.intAt (.fin na ma ea) q + Val.intAt (.fin nb mb eb) q
      Val.ofInt z q

/-- The exact difference. -/
def Val.sub (a b : Val) : Val := a.add b.negate

/-- The exact product (R124): zero times an infinity is an invalid operation. -/
def Val.mul (a b : Val) : Val :=
  match a, b with
  | .nan, _ => .nan
  | _, .nan => .nan
  | .inf x, .inf y => .inf (x != y)
  | .inf x, .fin y m _ => if m = 0 then .nan else .inf (x != y)
  | .fin x m _, .inf y => if m = 0 then .nan else .inf (x != y)
  | .fin x m e, .fin y n k => .fin (x != y) (m * n) (e + k)

/-- A strict comparison of two values that are not NaN; −0 and +0 compare equal. -/
def Val.lt (a b : Val) : Bool :=
  match a, b with
  | .nan, _ => false
  | _, .nan => false
  | .inf x, .inf y => x && !y
  | .inf x, _ => x
  | _, .inf y => !y
  | .fin na ma ea, .fin nb mb eb =>
    let q := min ea eb
    decide (Val.intAt (.fin na ma ea) q < Val.intAt (.fin nb mb eb) q)

/-- Equality of two values as numbers; a NaN equals nothing. -/
def Val.numEq (a b : Val) : Bool := !a.isNan && !b.isNan && !a.lt b && !b.lt a

/-- The magnitude of a finite value is at least 2^k. -/
def Val.magGe (v : Val) (k : Int) : Bool :=
  match v with
  | .fin _ m e => m ≠ 0 && decide (k ≤ (m.log2 : Int) + e)
  | _ => false

/-- floor(log2 |v|) of a finite value that is not zero. -/
def Val.log2 (v : Val) : Int :=
  match v with
  | .fin _ m e => (m.log2 : Int) + e
  | _ => 0

/-- The integer nearest to a finite value × 2^−q, ties to even: the alignment of R97. -/
def Val.roundAt (v : Val) (q : Int) : Int :=
  match v with
  | .fin n m e =>
    let k : Int := (if q ≤ e then m <<< (e - q).toNat else rneShift m (q - e).toNat false : Nat)
    if n then -k else k
  | _ => 0

/-- The FP32 value that a word holds. -/
def fp32 (w : Word) : Val := decodeElem .fp32 w.toNat

/-- A value rounded once to FP32 (R67), and whether it saturated (R69). -/
def toFp32 (v : Val) (sticky : Bool := false) : Word × Bool :=
  let r := encodeVal .fp32 v sticky
  (BitVec.ofNat 32 r.1, r.2)

/-- FP32 +∞, −∞ and the canonical NaN (R60, Table 3.4). -/
def f32Inf : Word := 0x7F800000
def f32NegInf : Word := 0xFF800000
def f32Nan : Word := 0x7FC00000
/-- FP32 1.0. -/
def f32One : Word := 0x3F800000

/-- FP32 operations: the exact result rounded once, and whether it saturated (R124). -/
def fadd (a b : Word) : Word × Bool := toFp32 ((fp32 a).add (fp32 b))
def fsub (a b : Word) : Word × Bool := toFp32 ((fp32 a).sub (fp32 b))
def fmul (a b : Word) : Word × Bool := toFp32 ((fp32 a).mul (fp32 b))
def fma (a b c : Word) : Word × Bool := toFp32 (((fp32 a).mul (fp32 b)).add (fp32 c))

/-- fmin: NaN if either input is NaN; −0 orders below +0 (R124). -/
def fmin (a b : Word) : Word :=
  let x := fp32 a
  let y := fp32 b
  if x.isNan || y.isNan then f32Nan
  else if x.lt y then a
  else if y.lt x then b
  else if x.neg then a else b

/-- fmax: NaN if either input is NaN; −0 orders below +0 (R124). -/
def fmax (a b : Word) : Word :=
  let x := fp32 a
  let y := fp32 b
  if x.isNan || y.isNan then f32Nan
  else if x.lt y then b
  else if y.lt x then a
  else if x.neg then b else a

/-- Sign operations; a NaN is the canonical NaN, whose payload is never carried through (R60). -/
def fabs (a : Word) : Word := if (fp32 a).isNan then f32Nan else a &&& 0x7FFFFFFF
def fneg (a : Word) : Word := if (fp32 a).isNan then f32Nan else a ^^^ 0x80000000

/-- The integer square root, by its bits from the top. -/
def isqrtBits : Nat → Nat → Nat → Nat
  | 0, _, r => r
  | b + 1, n, r => if (r + 2 ^ b) * (r + 2 ^ b) ≤ n then isqrtBits b n (r + 2 ^ b) else isqrtBits b n r

/-- The integer square root. -/
def isqrt (n : Nat) : Nat := isqrtBits (n.log2 / 2 + 1) n 0

/-- The quotient of two finite magnitudes, with enough bits to round and whether it is inexact. -/
def divMag (ma : Nat) (ea : Int) (mb : Nat) (eb : Int) : Nat × Int × Bool :=
  let k := 40 + mb.log2
  let n := ma <<< k
  (n / mb, ea - eb - k, n % mb ≠ 0)

/-- FP32 division following IEEE 754 for zero and infinite operands (R125). -/
def fdiv (a b : Word) : Word × Bool :=
  match fp32 a, fp32 b with
  | .nan, _ => (f32Nan, false)
  | _, .nan => (f32Nan, false)
  | .inf _, .inf _ => (f32Nan, false)
  | .inf x, .fin y _ _ => toFp32 (.inf (x != y))
  | .fin x _ _, .inf y => toFp32 (.zero (x != y))
  | .fin x ma ea, .fin y mb eb =>
    if mb = 0 then (if ma = 0 then (f32Nan, false) else toFp32 (.inf (x != y)))
    else
      let (q, e, st) := divMag ma ea mb eb
      toFp32 (.fin (x != y) q e) st

/-- rcp: rcp(±0) is ±∞ and rcp(±∞) is ±0 (R125). -/
def rcp (a : Word) : Word × Bool := fdiv f32One a

/-- The square root of a finite magnitude with enough bits to round, and whether it is inexact. -/
def sqrtMag (m : Nat) (e : Int) : Nat × Int × Bool :=
  let odd := e % 2 ≠ 0
  let m1 := if odd then 2 * m else m
  let e1 := if odd then e - 1 else e
  let m2 := m1 <<< 64
  let r := isqrt m2
  (r, (e1 - 64) / 2, r * r ≠ m2)

/-- The correctly rounded square root (R170, R194); of a negative value it is an invalid operation (R124). -/
def fsqrt (a : Word) : Word × Bool :=
  match fp32 a with
  | .nan => (f32Nan, false)
  | .inf n => (if n then f32Nan else f32Inf, false)
  | .fin n m e =>
    if m = 0 then (a, false)
    else if n then (f32Nan, false)
    else
      let (r, k, st) := sqrtMag m e
      toFp32 (.fin false r k) st

/-- rsqrt (R125): +∞ at +0, −∞ at −0, +0 at +∞, NaN for a negative value. -/
def frsqrt (a : Word) : Word × Bool :=
  match fp32 a with
  | .nan => (f32Nan, false)
  | .inf n => (if n then f32Nan else 0, false)
  | .fin n m e =>
    if m = 0 then (if n then f32NegInf else f32Inf, false)
    else if n then (f32Nan, false)
    else
      let odd := e % 2 ≠ 0
      let m1 := if odd then 2 * m else m
      let e1 := if odd then e - 1 else e
      let k := 40 + m1.log2
      let r := isqrt (2 ^ (2 * k) / m1)
      toFp32 (.fin false r (-(e1 / 2) - k)) (r * r * m1 ≠ 2 ^ (2 * k))

/-- A Word with the BF16 code `lo` in its low half and `hi` in its high half. -/
def pairWord (hi lo : Nat) : Word := BitVec.ofNat 32 (hi <<< 16 + lo)

/-- The BF16 values of the low and high halves of a word (R126). -/
def bf16Lo (w : Word) : Val := decodeElem .bf16 (fld w 15 0)
def bf16Hi (w : Word) : Val := decodeElem .bf16 (fld w 31 16)

/-- A paired BF16 operation: each half rounds once under R67 (R126). The first flag is the low half's saturation. -/
def pairOp (lo hi : Val) : Word × Bool × Bool :=
  let l := encodeVal .bf16 lo
  let h := encodeVal .bf16 hi
  (pairWord h.1 l.1, l.2, h.2)

end Sys2Proof.Machine
end

