-- ==== Sys2Proof/Machine/Mx.lean ====
section
/-!
DEFINITION. Machine/Mx.lean: MX blocks and tensors in memory (R59, R61 to R63, R65, R72 to R79, R488, R499).
Reading is over any byte reader, so that this file knows nothing of the state.
-/

namespace Sys2Proof.Machine

/-- What encoding a run of elements gives: the bytes to write, the flags, the count of elements that vanished under
their block's scale (R75), the MX elements written, and the values as written. -/
structure EncOut where
  writes : List (Nat × List Byte)
  overflow : Bool
  nanBlock : Bool
  nanOut : Bool
  underflow : Nat
  mxElems : Nat
  vals : List Val
  deriving DecidableEq, Repr

/-- A tensor in memory: format, data-plane base, scale-plane base, row pitch in bytes, rows, and row extent. -/
structure Tensor where
  fmt : Fmt
  base : Nat
  scaleBase : Nat
  pitch : Nat
  rows : Nat
  extent : Nat
  deriving DecidableEq, Repr

/-- The exponent of an E8M0 code other than 0xFF (R59). -/
def scaleExp (c : Nat) : Int := (c : Int) - 127

/-- The value of an element code under its block's scale (R65). -/
def decodeMx (f : Fmt) (code scale : Nat) : Val :=
  if scale = 0xFF then .nan else (decodeElem f code).scale2 (scaleExp scale)

/-- Whether a block is written as a NaN block (R73). -/
def isNanBlock (f : Fmt) (xs : List Val) : Bool :=
  xs.any Val.isNan || (f ≠ .e5m2 && xs.any Val.isInf)

/-- The largest magnitude among the finite values of a block (R72). -/
def amax (xs : List Val) : Val :=
  xs.foldl (fun a x => if x.isNan || x.isInf then a else if a.lt x.abs then x.abs else a) (.zero false)

/-- The scale code that the encoding chooses for a block with no NaN block and a non-zero amax (R72). -/
def chooseScale (f : Fmt) (a : Val) : Nat :=
  let xe := a.log2 - fmtEmax f
  let xe := if (encodeVal f (a.scale2 (-xe))).2 then xe + 1 else xe
  (min (max xe (-127)) 127 + 127).toNat

/-- A block's scale code, element codes, overflow, NaN-block and underflow count (R72 to R78). A supplied scale is
kept for every block that is not a NaN block (R77). -/
def encodeBlock (f : Fmt) (fixed : Option Nat) (xs : List Val) : Nat × List Nat × Bool × Bool × Nat :=
  if isNanBlock f xs then (0xFF, xs.map fun _ => 0, false, true, 0)
  else
    let a := amax xs
    let sc := match fixed with
      | some c => c
      | none => if a.isZero then 0 else chooseScale f a
    let enc := xs.map fun x => encodeVal f (x.scale2 (-(scaleExp sc)))
    let under := (xs.zip enc).filter fun p => !p.1.isZero && !p.1.isInf && (decodeElem f p.2.1).isZero
    (sc, enc.map (·.1), enc.any (·.2), false, under.length)

/-- The bytes of a block's 32 codes (R61); missing codes are 0 (R63). -/
def packBlock (f : Fmt) (codes : List Nat) : List Byte :=
  let c (i : Nat) := codes.getD i 0
  match f with
  | .e3m2 | .e2m3 =>
    (List.range 8).flatMap fun g =>
      natToLE 3 (c (4 * g) + c (4 * g + 1) <<< 6 + c (4 * g + 2) <<< 12 + c (4 * g + 3) <<< 18)
  | .e2m1 => (List.range 16).map fun i => BitVec.ofNat 8 (c (2 * i) + 16 * c (2 * i + 1))
  | _ => (List.range 32).map fun i => BitVec.ofNat 8 (c i)

/-- The number that `n` bytes at an address hold. -/
def rdNat (rd : Nat → Byte) (a n : Nat) : Nat := leToNat ((range' a n).map rd)

/-- The code of element `i` of the block at address `a` (R61). -/
def blockCode (rd : Nat → Byte) (f : Fmt) (a i : Nat) : Nat :=
  match f with
  | .e3m2 | .e2m3 => natField (rdNat rd (a + 3 * (i / 4)) 3) (6 * (i % 4) + 5) (6 * (i % 4))
  | .e2m1 => natField (rd (a + i / 2)).toNat (4 * (i % 2) + 3) (4 * (i % 2))
  | _ => (rd (a + i)).toNat

/-- Data bytes of one storage row of `n` elements, without pitch gaps. -/
def rowBytes (f : Fmt) (n : Nat) : Nat :=
  if fmtBlock f then ceilDiv n 32 * fmtUnitBytes f else n * fmtUnitBytes f

/-- The address of block `j` of row `r`, and of its scale (R62). -/
def Tensor.blockAddr (t : Tensor) (r j : Nat) : Nat := t.base + r * t.pitch + j * fmtUnitBytes t.fmt
def Tensor.scaleAddr (t : Tensor) (r j : Nat) : Nat := t.scaleBase + r * ceilDiv t.extent 32 + j

/-- The value of element (r, c); beyond the extent it is padding, +0 (R63). -/
def Tensor.elem (t : Tensor) (rd : Nat → Byte) (r c : Nat) : Val :=
  if t.extent ≤ c then .zero false
  else if fmtBlock t.fmt then
    decodeMx t.fmt (blockCode rd t.fmt (t.blockAddr r (c / 32)) (c % 32)) (rd (t.scaleAddr r (c / 32))).toNat
  else decodeElem t.fmt (rdNat rd (t.base + r * t.pitch + c * fmtUnitBytes t.fmt) (fmtUnitBytes t.fmt))

/-- The values of a row. -/
def Tensor.row (t : Tensor) (rd : Nat → Byte) (r : Nat) : List Val := (List.range t.extent).map (t.elem rd r)

/-- Split a list into runs of 32. -/
def chunks32 : Nat → List Val → List (List Val)
  | 0, _ => []
  | n + 1, l => if l.isEmpty then [] else l.take 32 :: chunks32 n (l.drop 32)

/-- A write put before a list of writes, joined with the first of them where that one starts where it ends. -/
def joinRun (x : Nat × List Byte) : List (Nat × List Byte) → List (Nat × List Byte)
  | [] => [x]
  | y :: rest => if x.1 + x.2.length = y.1 then (x.1, x.2 ++ y.2) :: rest else x :: y :: rest

/-- A list of writes with neighbours joined, so that sectors written whole are written at once (R217). -/
def joinRuns (l : List (Nat × List Byte)) : List (Nat × List Byte) := l.foldr joinRun []

/-- Encode the values `xs` of row `r` from column `c0` on; `c0` is a multiple of 32 for a block format. -/
def Tensor.encodeSeg (t : Tensor) (fixed : Option Nat) (r c0 : Nat) (xs : List Val) : EncOut :=
  if fmtBlock t.fmt then
    let blks := (chunks32 (xs.length / 32 + 1) xs).map (encodeBlock t.fmt fixed)
    let at' := blks.zipIdx (c0 / 32)
    let data := at'.map fun (b, j) => (t.blockAddr r j, packBlock t.fmt b.2.1)
    let scales := at'.map fun (b, j) => (t.scaleAddr r j, [BitVec.ofNat 8 b.1])
    { writes := joinRuns (data ++ scales)
      overflow := blks.any fun b => b.2.2.1
      nanBlock := blks.any fun b => b.2.2.2.1
      nanOut := blks.any fun b => b.2.2.2.1
      underflow := (blks.map fun b => b.2.2.2.2).sum
      mxElems := xs.length
      vals := blks.flatMap fun b => b.2.1.map fun c => decodeMx t.fmt c b.1 }
  else
    let enc := xs.map fun x => encodeVal t.fmt x
    { writes := joinRuns ((enc.zipIdx c0).map fun (e, c) =>
        (t.base + r * t.pitch + c * fmtUnitBytes t.fmt, natToLE (fmtUnitBytes t.fmt) e.1))
      overflow := enc.any (·.2)
      nanBlock := false
      nanOut := xs.any Val.isNan
      underflow := 0
      mxElems := 0
      vals := enc.map fun e => decodeElem t.fmt e.1 }

/-- The bytes that an op addresses in a tensor, as (base, length) spans (R499). -/
def Tensor.spans (t : Tensor) : List (Nat × Nat) :=
  let data := (t.base, (t.rows - 1) * t.pitch + rowBytes t.fmt t.extent)
  if fmtBlock t.fmt then [data, (t.scaleBase, t.rows * ceilDiv t.extent 32)] else [data]

/-- The bytes of rows r0 to r0 + n − 1 and columns c0 to c0 + c − 1, with the scales of their blocks (R93). -/
def Tensor.segSpans (t : Tensor) (r0 n c0 c : Nat) : List (Nat × Nat) :=
  (range' r0 n).flatMap fun r =>
    if fmtBlock t.fmt then
      let j0 := c0 / 32
      let blocks := ceilDiv (c0 + c) 32 - j0
      [(t.blockAddr r j0, blocks * fmtUnitBytes t.fmt), (t.scaleAddr r j0, blocks)]
    else [(t.base + r * t.pitch + c0 * fmtUnitBytes t.fmt, c * fmtUnitBytes t.fmt)]

/-- The code of element (r, c) and its block's scale code (0 where the format has none). -/
def Tensor.codeAt (t : Tensor) (rd : Nat → Byte) (r c : Nat) : Nat × Nat :=
  if fmtBlock t.fmt then
    (blockCode rd t.fmt (t.blockAddr r (c / 32)) (c % 32), (rd (t.scaleAddr r (c / 32))).toNat)
  else (rdNat rd (t.base + r * t.pitch + c * fmtUnitBytes t.fmt) (fmtUnitBytes t.fmt), 0)

/-- The value of an element code under its scale code. -/
def codeVal (f : Fmt) (x : Nat × Nat) : Val := if fmtBlock f then decodeMx f x.1 x.2 else decodeElem f x.1

/-- The alignment and pitch rules of a tensor (R62, R488). -/
def Tensor.aligned (t : Tensor) : Bool :=
  if fmtBlock t.fmt then
    t.base % 32 = 0 && t.scaleBase % 32 = 0 && t.pitch % 32 = 0 && rowBytes t.fmt t.extent ≤ t.pitch
  else
    t.base % fmtUnitBytes t.fmt = 0 && t.pitch % fmtUnitBytes t.fmt = 0 && rowBytes t.fmt t.extent ≤ t.pitch

/-- A conversion between non-block formats: one rounding from the exact source value (R79). -/
def convertCode (src dst : Fmt) (code : Nat) : Nat × Bool := encodeVal dst (decodeElem src code)

end Sys2Proof.Machine
end

