-- ==== Sys2Proof/Machine/Norms.lean ====
section
/-!
DEFINITION. Machine/Norms.lean: norm capture (R110, R111, R191, R192), compensated pairs (R165) and the widening of BF16
values, which several engines share.
-/

namespace Sys2Proof.Machine

/-- One value captured by a norm entry, and whether its square saturated (R110, R192). -/
def Norm.capture (x : Norm) (v : Val) : Norm × Bool :=
  if v.isNan then ({ x with nan := true }, false)
  else if v.isInf then ({ x with inf := true }, false)
  else
    let r := toFp32 (v.mul v)
    ({ x with sum := x.sum + ((fp32 r.1).intAt (-149)).toNat, count := satNat 32 (x.count + 1) }, r.2)

/-- A list of values captured, and whether any square saturated. -/
def Norm.captureAll (x : Norm) (l : List Val) : Norm × Bool :=
  l.foldl (fun a v => ((a.1.capture v).1, a.2 || (a.1.capture v).2)) (x, false)

/-- Two sets of contributions joined (R111). -/
def Norm.join (x y : Norm) : Norm :=
  { sum := x.sum + y.sum, count := satNat 32 (x.count + y.count), nan := x.nan || y.nan, inf := x.inf || y.inf }

/-- Contributions reach norm entry `i` of lea `l` (R191, R192). -/
def State.addNorm (s : State) (l i : Nat) (y : Norm) : State :=
  if y = {} then s else s.modLea l fun x => { x with norms := x.norms.insert i ((x.norms.getD i {}).join y) }

/-- A BF16 code widened exactly to FP32 (R66). -/
def widenBf16 (code : Nat) : Word := (toFp32 (decodeElem .bf16 code)).1

/-- The exact value of a compensated pair: hi in bits [15:0], lo in bits [31:16] (R165). -/
def pairVal (w : Word) : Val := (bf16Lo w).add (bf16Hi w)

/-- A value added to a pair: the new pair and the overflow flag (R165). -/
def pairAdd (w : Word) (x : Val) : Word × Bool :=
  match (pairVal w).add x with
  | .nan => (pairWord (canonNan .bf16) (canonNan .bf16), false)
  | .inf n => (pairWord 0 (encodeVal .bf16 (.inf n)).1, false)
  | .fin n m e =>
    let t := Val.fin n m e
    let hi := encodeVal .bf16 t
    if hi.2 then (pairWord 0 hi.1, true)
    else (pairWord (encodeVal .bf16 (t.sub (decodeElem .bf16 hi.1))).1 hi.1, false)

/-- Whether a pair holds a NaN. -/
def pairNan (w : Word) : Bool := (bf16Lo w).isNan || (bf16Hi w).isNan

end Sys2Proof.Machine
end

