-- ==== Sys2Proof/Machine/ArrayUnit.lean ====
section
/-!
DEFINITION. Machine/ArrayUnit.lean: the logical array (04, R83 to R113): the matrix op, its tile walk, the cells, the output
stage, recompute and deferred passes, and the choice of the next op with its shares (R343 to R345, R399 to R401).
-/

namespace Sys2Proof.Machine

/-! ## The matrix op's body (R86, R87) -/

/-- The tensor that four words from `i` on describe (Table 4.1, words 5 to 8). -/
def tensorAt (w : List Word) (i : Nat) (f : Fmt) (rows extent : Nat) : Tensor :=
  { fmt := f, base := addr48 (wordAt w i) (wordAt w (i + 1))
    scaleBase := (wordAt w (i + 2)).toNat + 2 ^ 32 * fld (wordAt w (i + 1)) 31 16
    pitch := (wordAt w (i + 3)).toNat, rows := rows, extent := extent }

/-- A matrix op's descriptor (Table 4.1). -/
structure MatDesc where
  m : Nat
  n : Nat
  k : Nat
  a : Tensor
  b : Tensor
  c : Tensor
  transA : Bool
  transB : Bool
  outTrans : Bool
  normEn : Bool
  fixed : Option Nat -- the scale of FIXED_SCALE
  shift : Int
  normIdx : Nat
  deriving DecidableEq, Repr

/-- The descriptor in an op's body. -/
def Op.mat (o : Op) : MatDesc :=
  let fmt (hi lo : Nat) := (fmtOfCode (o.f 3 hi lo)).getD .bf16
  let m := (o.w 0).toNat
  let n := (o.w 1).toNat
  let k := (o.w 2).toNat
  let ta := bit (o.w 3) 19
  let tb := bit (o.w 3) 18
  let ot := bit (o.w 3) 17
  { m := m, n := n, k := k
    a := if ta then tensorAt o.body 5 (fmt 31 28) k m else tensorAt o.body 5 (fmt 31 28) m k
    b := if tb then tensorAt o.body 9 (fmt 27 24) k n else tensorAt o.body 9 (fmt 27 24) n k
    c := if ot then tensorAt o.body 13 (fmt 23 20) n m else tensorAt o.body 13 (fmt 23 20) m n
    transA := ta, transB := tb, outTrans := ot, normEn := bit (o.w 3) 16
    fixed := if bit (o.w 3) 15 then some (o.f 4 31 24) else none
    shift := toSigned 8 (o.f 3 7 0), normIdx := o.f 4 15 0 }

/-- A format that an array operand or output may have (Table 3.2). -/
def arrayFmtOk (code : Nat) : Bool := code == 0 || code == 1 || (3 ≤ code && code ≤ 8)

/-- A tensor's spans as an op reads or writes them. -/
def Tensor.accessSpans (t : Tensor) (write : Bool) : List Span :=
  t.spans.map fun x => { base := x.1, len := x.2, write := write }

/-- Check 3 of R53 for a matrix op (R86, R87, R191). -/
def State.matArgOk (s : State) (o : Op) : Bool :=
  let d := o.mat
  fld (wordAt o.hdr 0) 23 16 == 3 && o.f 3 14 8 == 0 && o.f 4 23 16 == 0 && (o.body.drop 17).all (· == 0) &&
  1 ≤ d.m && d.m ≤ 2 ^ 24 && 1 ≤ d.n && d.n ≤ 2 ^ 24 && 1 ≤ d.k && d.k ≤ 2 ^ 20 &&
  arrayFmtOk (o.f 3 31 28) && arrayFmtOk (o.f 3 27 24) && arrayFmtOk (o.f 3 23 20) &&
  d.a.aligned && d.b.aligned && d.c.aligned &&
  (d.fixed.isNone || (fmtBlock d.c.fmt && d.fixed != some 0xFF)) &&
  (!d.normEn || d.normIdx < (s.lea o.lea).quotas.norm) &&
  s.spansGranted o.lea (d.a.accessSpans false ++ d.b.accessSpans false ++ d.c.accessSpans true)

/-! ## The tile grid (R84, R92) -/

/-- Bands and tile columns. -/
def MatDesc.mt (d : MatDesc) : Nat := ceilDiv d.m 768
@[inherit_doc MatDesc.mt] def MatDesc.nt (d : MatDesc) : Nat := ceilDiv d.n 768
/-- Output rows of band `i`, and output columns of tile column `j`, clipped (R84). -/
def MatDesc.rowsOf (d : MatDesc) (i : Nat) : Nat := min 768 (d.m - 768 * i)
@[inherit_doc MatDesc.rowsOf] def MatDesc.colsOf (d : MatDesc) (j : Nat) : Nat := min 768 (d.n - 768 * j)
/-- The number of tile (i, j). -/
def MatDesc.tileNo (d : MatDesc) (t : Nat × Nat) : Nat := t.1 * d.nt + t.2

/-- The storage rows and columns of A that band `i` takes, and of B that tile column `j` takes: first row, rows, first
column, columns. -/
def MatDesc.segA (d : MatDesc) (i : Nat) : Nat × Nat × Nat × Nat :=
  if d.transA then (0, d.k, 768 * i, d.rowsOf i) else (768 * i, d.rowsOf i, 0, d.k)
@[inherit_doc MatDesc.segA] def MatDesc.segB (d : MatDesc) (j : Nat) : Nat × Nat × Nat × Nat :=
  if d.transB then (0, d.k, 768 * j, d.colsOf j) else (768 * j, d.colsOf j, 0, d.k)

/-- The spans that a segment of a tensor is read from (R93). -/
def Tensor.segReads (t : Tensor) (g : Nat × Nat × Nat × Nat) : List Span :=
  (t.segSpans g.1 g.2.1 g.2.2.1 g.2.2.2).map fun x => { base := x.1, len := x.2 }

/-- The largest K whose B panel fits the B-panel store (Table 4.3). -/
def MatDesc.panelK (d : MatDesc) : Nat :=
  match d.b.fmt, d.transB with
  | .e4m3, false | .e5m2, false | .mxint8, false => 21152
  | .e4m3, true | .e5m2, true | .mxint8, true => 10912
  | .e3m2, false | .e2m3, false => 27936
  | .e3m2, true | .e2m3, true => 12480
  | .e2m1, false => 41120
  | .e2m1, true => 14560
  | _, _ => 10922

/-- Whether a tile column's B panel is staged (R91). -/
def MatDesc.fits (d : MatDesc) : Bool := d.k ≤ d.panelK

/-! ## Events (R90, R93, R94, R344) -/

/-- The events that K elements take in a cell, by the wider operand (R80, Table 3.6). -/
def MatDesc.kEvents (d : MatDesc) : Nat :=
  let w := max (fmtBits d.a.fmt) (fmtBits d.b.fmt)
  if w ≤ 4 then ceilDiv d.k 2 else if w ≤ 8 then d.k else 2 * d.k

/-- The bytes of a 768 × 768 output tile (R94). -/
def MatDesc.tileBytes (d : MatDesc) : Nat :=
  if fmtBlock d.c.fmt then 768 * 24 * (fmtUnitBytes d.c.fmt + 1) else 768 * 768 * fmtUnitBytes d.c.fmt

/-- Four times the sum of a die's bundle width fractions (Table 9.4). -/
def Die.widthSum (x : Die) : Nat := ((List.range 32).map fun b => match x.width.getD b 0 with
  | 0 => 4 | 1 => 3 | 2 => 2 | _ => 0).sum

/-- pout of a die (R94): the bytes over 121.9 times its width. -/
def State.pout (s : State) (d : MatDesc) (die : Nat) : Nat := ceilDiv (40 * d.tileBytes) (1219 * (s.die die).widthSum)

/-- The events of a pass in which these dies take part, at the plain-path rate (R93, R94). -/
def State.passEvents (s : State) (d : MatDesc) (dies : List Nat) : Nat :=
  dies.foldl (fun e n => max e (s.pout d n)) (max d.kEvents 192)

/-- The dies in service, in ascending order (R85). -/
def State.inServiceDies (s : State) : List Nat := onesBelow s.array.inService.toNat 4

/-- The planned events of an op (R344): the tile-walk formula without recompute, rerun or bound-scan passes. -/
def State.plannedEvents (s : State) (d : MatDesc) : Nat :=
  let dies := s.inServiceDies
  let g := dies.length
  (List.range (ceilDiv d.nt g)).foldl (fun e p =>
    let pe := s.passEvents d (dies.take (d.nt - p * g))
    e + d.mt * pe * (if d.transA || (d.transB && !d.fits) then 2 else 1) +
      if d.transB && d.fits && !d.transA then pe else 0) 1726

/-! ## The starting exponent (R101, R155) -/

/-- The largest exponent of a list, where it holds one. -/
def maxExp (l : List (Option Int)) : Option Int := l.foldl maxObs none

/-- The largest group exponent of a segment of an operand (R155). -/
def Tensor.groupExp (t : Tensor) (rd : Nat → Byte) (g : Nat × Nat × Nat × Nat) : Option Int :=
  let rows := range' g.1 g.2.1
  if fmtBlock t.fmt then
    let j0 := g.2.2.1 / 32
    let blocks := range' j0 (ceilDiv (g.2.2.1 + g.2.2.2) 32 - j0)
    maxExp (rows.flatMap fun r => blocks.map fun j =>
      let c := (rd (t.scaleAddr r j)).toNat
      if c = 0xFF then none else some (scaleExp c + fmtEmax t.fmt + 1))
  else
    maxExp (rows.flatMap fun r => (range' g.2.2.1 g.2.2.2).map fun c =>
      let v := t.elem rd r c
      if v.isNan || v.isInf || v.isZero then none else some (v.log2 + 1))

/-- The worst-case bound of tile (i, j) (R155). -/
def MatDesc.bound (d : MatDesc) (rd : Nat → Byte) (t : Nat × Nat) : Int :=
  match d.a.groupExp rd (d.segA t.1), d.b.groupExp rd (d.segB t.2) with
  | some a, some b => clampT (a + b + log2Ceil d.k + 1)
  | _, _ => 0

/-! ## The cells (R96 to R99, R102) -/

/-- What a cell holds when K has streamed past it: its flags, the exact sum S in units of 2^(T − 47), and the largest
floor(log2) + 1 of its finite products. -/
structure Cell where
  nan : Bool := false
  pinf : Bool := false
  ninf : Bool := false
  sum : Int := 0
  top : Option Int := none
  deriving DecidableEq, Repr

/-- One product taken into a cell under tile exponent T (R97 to R99). -/
def Cell.take (t : Int) (c : Cell) (x : Val × Val) : Cell :=
  match x.1.mul x.2 with
  | .nan => { c with nan := true }
  | .inf false => { c with pinf := true }
  | .inf true => { c with ninf := true }
  | .fin n m e =>
    let p := Val.fin n m e
    let c := if p.isZero then c else { c with top := maxObs c.top (some (p.log2 + 1)) }
    if p.magGe t then c else { c with sum := c.sum + p.roundAt (t - 47) }

/-- A cell that has taken all of K. -/
def Cell.run (t : Int) (a b : List Val) : Cell := (a.zip b).foldl (fun c x => Cell.take t c x) {}

/-- Whether a cell's result is NaN or infinite (R99). -/
def Cell.special (c : Cell) : Bool := c.nan || c.pinf || c.ninf

/-- Whether a cell has overflowed (R102); one whose result is NaN or infinite never has (R99). -/
def Cell.over (t : Int) (c : Cell) : Bool :=
  !c.special && ((c.top.any fun e => t < e) || c.sum < -2 ^ 47 || 2 ^ 47 - 1 < c.sum)

/-- The needed exponent of a cell (R102). -/
def Cell.needed (t : Int) (c : Cell) : Int :=
  let s := if c.sum = 0 then t else (c.sum.natAbs.log2 : Int) + 1 + t - 47
  max t (max s (c.top.getD t))

/-- A cell's result (R99). -/
def Cell.value (t : Int) (c : Cell) : Val :=
  if c.nan || (c.pinf && c.ninf) then .nan
  else if c.pinf then .inf false
  else if c.ninf then .inf true
  else Val.ofInt c.sum (t - 47)

/-- The exponent that a final cell result reports (R147). -/
def Cell.obs (t : Int) (c : Cell) : Option Int :=
  if c.special || c.sum = 0 then none else some ((c.value t).log2 + 1)

/-- Row `m` of A, and the codes of column `n` of B, over all of K (R89). -/
def MatDesc.rowA (d : MatDesc) (rd : Nat → Byte) (m : Nat) : List Val :=
  (List.range d.k).map fun k => if d.transA then d.a.elem rd k m else d.a.elem rd m k
@[inherit_doc MatDesc.rowA] def MatDesc.colB (d : MatDesc) (rd : Nat → Byte) (n : Nat) : List (Nat × Nat) :=
  (List.range d.k).map fun k => if d.transB then d.b.codeAt rd k n else d.b.codeAt rd n k

/-- The B panel of tile column `j` as memory holds it. -/
def MatDesc.panel (d : MatDesc) (rd : Nat → Byte) (j : Nat) : List (List (Nat × Nat)) :=
  (range' (768 * j) (d.colsOf j)).map (d.colB rd)

/-- The cells of band `i` against a B panel, by row and column. -/
def MatDesc.cells (d : MatDesc) (rd : Nat → Byte) (t : Int) (i : Nat) (b : List (List (Nat × Nat))) : List (List Cell) :=
  let cols := b.map fun c => c.map (codeVal d.b.fmt)
  (range' (768 * i) (d.rowsOf i)).map fun m => cols.map fun c => Cell.run t (d.rowA rd m) c

/-! ## The output stage (R107 to R110) -/

/-- The columns of a list of rows of `n` entries. -/
def columns {α : Type} (n : Nat) (l : List (List α)) : List (List α) :=
  (List.range n).map fun j => l.flatMap fun r => (r.drop j).take 1

/-- A tile's output, encoded by storage rows (R107 to R109). -/
def MatDesc.encode (d : MatDesc) (t : Int) (i j : Nat) (cells : List (List Cell)) : List EncOut :=
  let vals := cells.map fun r => r.map fun c => (c.value t).scale2 d.shift
  if d.outTrans then
    ((columns (d.colsOf j) vals).zipIdx (768 * j)).map fun x => d.c.encodeSeg d.fixed x.2 (768 * i) x.1
  else (vals.zipIdx (768 * i)).map fun x => d.c.encodeSeg d.fixed x.2 (768 * j) x.1

/-- The spans that encoded rows are written to. -/
def encSpans (l : List EncOut) : List Span :=
  l.flatMap fun e => e.writes.map fun x => { base := x.1, len := x.2.length, write := true }

/-- The state with encoded rows written. -/
def State.putEnc (s : State) (l : List EncOut) : State :=
  l.foldl (fun (s : State) e => e.writes.foldl (fun (s : State) x => s.write x.1 x.2) s) s

/-- HUB_ARRAY_STATUS after a tile's output (R107). -/
def ArrayUnit.flag (a : ArrayUnit) (sat nan : Bool) : ArrayUnit :=
  let a := if sat then { a with saturated := true, satCount := a.satCount + 1 } else a
  if nan then { a with nanOut := true, nanCount := a.nanCount + 1 } else a

/-- A tile on which every check is passed is written (R105, R107, R110): flags, counts, norm capture and the report.
A replayed op adds nothing to the norm table or the scale history (R184). -/
def State.writeTile (s : State) (o : Op) (r : MatrixRun) (replay : Bool) (die : Nat) (t : Int) (cells : List (List Cell))
    (enc : List EncOut) : State × MatrixRun :=
  let s := s.putEnc enc
  let s := (encSpans enc).foldl (fun (s : State) x => s.noteWrite o.step x.base x.len) s
  let sat := enc.any EncOut.overflow
  let nan := enc.any EncOut.nanOut
  let norm := if o.mat.normEn && !replay then Norm.captureAll {} (enc.flatMap EncOut.vals) else ({}, false)
  let s := { s with array := { (s.array.flag sat nan) with
    tilesWritten := s.array.tilesWritten.modify die 0 (· + 1) } }
  let s := s.addNorm o.lea o.mat.normIdx norm.1
  let obs := maxExp (cells.flatMap fun row => row.map (Cell.obs t))
  let s := if replay then s else s.report o { obs := obs, underflow := (enc.map EncOut.underflow).sum
                                              elements := (enc.map EncOut.mxElems).sum }
  (s, { r with saturated := r.saturated || sat, nanOut := r.nanOut || nan, normSat := r.normSat || norm.2 })

/-! ## The drain of a pass (R102 to R105) -/

/-- What the drain of a pass comes to. -/
inductive Drained
  | waits                                                       -- a sector waits for a refill or its HBM PHY domain
  | failed (s : State) (r : MatrixRun) (sec : Nat) (st : Status)  -- an access fails
  | done (s : State) (r : MatrixRun)
  deriving DecidableEq, Repr

/-- Whether a die's B-panel store holds tile column `j`. -/
def MatrixRun.staged (r : MatrixRun) (die j : Nat) : Bool :=
  (r.panels.find die).any fun p => p.col == j && !p.codes.isEmpty

/-- The B panel of a tile: from the die's store where it holds the column, from memory otherwise (R91). -/
def State.panelOf (s : State) (d : MatDesc) (r : MatrixRun) (die j : Nat) : List (List (Nat × Nat)) :=
  match r.panels.find die with
  | some p => if p.col = j ∧ p.codes ≠ [] then p.codes else d.panel (readByte s.mem.hbm) j
  | none => d.panel (readByte s.mem.hbm) j

/-- A die's store filled with the panel of its first pass over the tile column (R91). -/
def MatrixRun.fill (r : MatrixRun) (die j : Nat) (b : List (List (Nat × Nat))) : MatrixRun :=
  if (r.panels.find die).any fun p => p.col == j then { r with panels := r.panels.insert die { col := j, codes := b } } else r

/-- A bound scan of a 16-bit operand, once for each band of A and each panel of B, adds the events of one pass (R156). -/
def MatrixRun.scan (r : MatrixRun) (d : MatDesc) (ofB : Bool) (x : Nat) : MatrixRun :=
  let t := if ofB then d.b else d.a
  if fmtBlock t.fmt || r.scanned.contains (ofB, x) then r
  else { r with scanned := r.scanned ++ [(ofB, x)]
                events := r.events + max d.kEvents 192 * if (if ofB then d.transB else d.transA) then 2 else 1 }

/-- A tile as its drain finds it: the exponent that it has now, its own or its T0 (R101, R155). -/
def State.tileNow (s : State) (d : MatDesc) (r : MatrixRun) (t : Nat × Nat) : Tile × MatrixRun :=
  match r.tiles.find (d.tileNo t) with
  | some x => (x, r)
  | none => match r.start with
    | some t0 => ({ t0 := t0 }, r)
    | none => ({ t0 := d.bound (readByte s.mem.hbm) t }, (r.scan d false t.1).scan d true t.2)

/-- An overflowed tile takes its raised exponent and awaits its recompute (R103). -/
def State.overflowTile (s : State) (o : Op) (r : MatrixRun) (replay : Bool) (t : Nat × Nat) (needed : Int) :
    State × MatrixRun :=
  let a := s.array
  let s := { s with array := { a with recomputed := true, recomputeCount := a.recomputeCount + 1 } }
  let s := if replay then s else s.report o { obs := some needed, recomputes := 1 }
  (s, { r with tiles := r.tiles.insert (o.mat.tileNo t) { t0 := needed + 1, recomputed := true }
               recomputes := r.recomputes + 1 })

/-- The drain of one tile: it overflows, it is written, or an access of its output fails or waits. -/
def State.drainTile (s : State) (o : Op) (r : MatrixRun) (replay : Bool) (die : Nat) (t : Nat × Nat) : Drained × Bool :=
  let d := o.mat
  let b := s.panelOf d r die t.2
  let (x, r) := s.tileNow d (r.fill die t.2 b) t
  let cells := d.cells (readByte s.mem.hbm) x.t0 t.1 b
  if !x.recomputed && cells.any fun row => row.any (Cell.over x.t0) then
    let needed := cells.foldl (fun e row => row.foldl (fun e c => if c.over x.t0 then max e (c.needed x.t0) else e) e) x.t0
    let y := s.overflowTile o r replay t needed
    (.done y.1 y.2, true)
  else
    let enc := d.encode x.t0 t.1 t.2 cells
    match s.spansAccess (encSpans enc) with
    | .stall => (.waits, false)
    | .bad sec st => (.failed s r sec st, false)
    | .good =>
      let y := s.writeTile o r replay die x.t0 cells enc
      (.done y.1 { y.2 with tiles := y.2.tiles.insert (d.tileNo t) { x with final := true } }, false)

/-- The drain of the tiles of a pass, with the tiles that overflowed. -/
def State.drainTiles (s : State) (o : Op) (r : MatrixRun) (replay : Bool) (band : Nat) (raised : List (Nat × Nat)) :
    List (Nat × Nat) → Drained
  | [] => .done s (if raised = [] then r else { r with recompute := r.recompute ++ [{ band := band, tiles := raised }] })
  | t :: rest => match s.drainTile o r replay t.1 (band, t.2) with
    | (.done s r, ov) => s.drainTiles o r replay band (if ov then raised ++ [t] else raised) rest
    | (x, _) => x

/-- The spans that a pass reads: its band of A, and each B panel that is not staged (R93). -/
def MatrixRun.passReads (r : MatrixRun) (d : MatDesc) (p : Pass) : List Span :=
  if p.tiles.isEmpty then []
  else d.a.segReads (d.segA p.band) ++
    (p.tiles.filter fun t => !r.staged t.1 t.2).flatMap fun t => d.b.segReads (d.segB t.2)

/-- The drain of a pass. -/
def State.drainPass (s : State) (o : Op) (r : MatrixRun) (replay : Bool) (p : Pass) : Drained :=
  match s.spansAccess (r.passReads o.mat p) with
  | .stall => .waits
  | .bad sec st => .failed s r sec st
  | .good => s.drainTiles o r replay p.band [] p.tiles

/-! ## The order of passes (R92, R103, R113) -/

/-- The next pass of the walk that has a tile, among `n` passes; the tiles of removed dies are deferred (R113). -/
def MatrixRun.walk (r : MatrixRun) (d : MatDesc) : Nat → MatrixRun × Option Pass
  | 0 => (r, none)
  | n + 1 =>
    let p := r.next / d.mt
    let band := r.next % d.mt
    let all := (r.dies.zipIdx (p * r.dies.length)).filter fun x => x.2 < d.nt
    let gone := all.filter fun x => r.removed.contains x.1
    let r := { r with next := r.next + 1, deferred := r.deferred ++ gone.map fun x => (band, x.2) }
    match all.filter fun x => !r.removed.contains x.1 with
    | [] => r.walk d n
    | tiles => (r, some { band := band, tiles := tiles })

/-- The passes of the walk. -/
def MatrixRun.walkLen (r : MatrixRun) (d : MatDesc) : Nat := d.mt * ceilDiv d.nt r.dies.length

/-- The next extra pass over deferred tiles: the lowest band's, in increasing tile column (R113). -/
def MatrixRun.extra (r : MatrixRun) : MatrixRun × Option Pass :=
  match r.deferred, sortNat r.alive with
  | [], _ => (r, none)
  | _, [] => (r, none)
  | x :: rest, alive =>
    let band := rest.foldl (fun b y => min b y.1) x.1
    let js := (sortNat ((r.deferred.filter fun y => y.1 == band).map (·.2))).take alive.length
    ({ r with deferred := r.deferred.filter fun y => !(y.1 == band && js.contains y.2) },
     some { band := band, tiles := alive.zip js })

/-- The next pass: a recompute pass, the walk's next, or an extra one. -/
def MatrixRun.take (r : MatrixRun) (d : MatDesc) : MatrixRun × Option Pass :=
  match r.recompute with
  | p :: rest => ({ r with recompute := rest }, some p)
  | [] => match r.walk d (r.walkLen d - r.next) with
    | (r, some p) => (r, some p)
    | (r, none) => r.extra

/-- Whether a pass takes an operand from the transpose path (R90, R91). -/
def MatrixRun.transPass (r : MatrixRun) (d : MatDesc) (p : Pass) : Bool :=
  d.transA || (d.transB && p.tiles.any fun t => !(r.panels.find t.1).any fun x => x.col == t.2)

/-- A pass starts: it is counted (HUB_ARRAY_PASS_COUNT), its events are added, and the stores of its dies turn to its
tile columns (R91). -/
def State.beginPass (s : State) (d : MatDesc) (r : MatrixRun) (p : Pass) : State × MatrixRun :=
  let ev := s.passEvents d (p.tiles.map (·.1)) * if r.transPass d p then 2 else 1
  let panels := if d.fits then p.tiles.foldl (fun (m : Map Panel) t =>
    if (m.find t.1).any fun x => x.col == t.2 then m else m.insert t.1 { col := t.2, codes := [] }) r.panels else r.panels
  ({ s with array := { s.array with passes := s.array.passes + 1 } }, { r with events := r.events + ev, panels := panels })

/-! ## The end of a matrix op (R88, R399, R345) -/

/-- DETAIL of a matrix op (Table 4.2). -/
def MatrixRun.detail (r : MatrixRun) : Nat :=
  b2n r.saturated * 2 ^ 15 + b2n r.nanOut * 2 ^ 14 + b2n r.normSat * 2 ^ 13 + b2n r.start.isNone * 2 ^ 12 +
  min r.recomputes 4095

/-- A share's weight as a divisor (R399, R400). -/
def weightOf (w : Nat) : Rat := if w = 0 then 1 else (w : Rat)

/-- The op leaves the array: its share, or the fallow count, takes the actual events (R399, R345). -/
def State.leaveArray (s : State) (o : Op) (r : MatrixRun) : State :=
  let s := { s with array := { s.array with run := none } }
  if r.fallow then { s with hub := { s.hub with fallowEvents := s.hub.fallowEvents + BitVec.ofNat 64 r.events } }
  else s.modLea o.lea fun x =>
    { x with vArray := x.vArray + ((r.events : Rat) - (r.charge : Rat)) / weightOf x.wArray
             arrayEvents := x.arrayEvents + BitVec.ofNat 64 r.events - BitVec.ofNat 64 r.charge }

/-- The matrix op's work ends with a status. -/
def State.endMatrix (s : State) (o : Op) (r : MatrixRun) (st : Status) : State :=
  (s.leaveArray o r).finishOp r.op (if r.tiles.any fun t => t.2.final then o.mat.c.accessSpans true else []) st r.detail

/-- Whether nothing of the op is left to run. -/
def MatrixRun.over (r : MatrixRun) (d : MatDesc) : Bool :=
  r.pass.isNone && r.drain.isNone &&
  (r.cancelled || (r.recompute.isEmpty && r.walkLen d ≤ r.next && r.deferred.isEmpty))

/-- The run written back, or the op ended where nothing of it is left (Table 14.6 for a cancelled one). -/
def State.putRun (s : State) (o : Op) (r : MatrixRun) : State :=
  if r.over o.mat then s.endMatrix o r (if r.cancelled then .cancelled else .ok)
  else { s with array := { s.array with run := some r } }

/-! ## The commands -/

/-- The op in the array and its run. -/
def State.inArray (s : State) : Option (Op × MatrixRun) :=
  match s.array.run with
  | none => none
  | some r => match s.op r.op with
    | none => none
    | some o => if o.running then some (o, r) else none

/-- The next pass starts, if one may: the pass before it then drains (R93, R95). -/
def State.passStart (s : State) : Option State :=
  match s.inArray with
  | none => none
  | some (o, r) =>
    if r.cancelled || (r.pass.isSome && r.drain.isSome) then none
    else match r.take o.mat with
      | (_, none) => none
      | (r, some p) =>
        let x := s.beginPass o.mat { r with drain := if r.pass.isSome then r.pass else r.drain, pass := some p } p
        some { x.1 with array := { x.1.array with run := some x.2 } }

/-- The drain of the oldest pass ends, if one has begun. -/
def State.passEnd (s : State) : Option State :=
  match s.inArray with
  | none => none
  | some (o, r) =>
    let old := if r.drain.isSome then r.drain else r.pass
    let r' := if r.drain.isSome then { r with drain := none } else { r with pass := none }
    match old with
    | none => none
    | some p => match s.drainPass o r' false p with
      | .waits => if r.cancelled then some (s.endMatrix o r .cancelled) else none
      | .done s r => some (s.putRun o r)
      | .failed s r sec st =>
        if st = .unitFault ∧ (s.recomputeTarget o sec).isSome then none else some ((s.lostRead sec).endMatrix o r st)

/-- ARRAY_PASS_START (R92, R103, R113). -/
def execArrayPassStart (s : State) : Host.Outcome State Fault Refusal := finish (s.passStart.getD s)

/-- ARRAY_PASS_END (R102 to R105). -/
def execArrayPassEnd (s : State) : Host.Outcome State Fault Refusal := finish (s.passEnd.getD s)

/-- The op in the array runs pass after pass, each starting while the one before it drains, for at most `n` starts and
drains. -/
def State.runMatrix (s : State) : Nat → State
  | 0 => s
  | n + 1 => match s.passStart with
    | some t => t.runMatrix n
    | none => match s.passEnd with
      | some t => t.runMatrix n
      | none => s

/-- Starts and drains that an op can still take: two for each tile and each recompute of it, and one more. -/
def MatDesc.fuel (d : MatDesc) : Nat := 4 * d.mt * d.nt + 4

/-- MATRIX_OP (R86): the op in the array runs to its end, or as far as memory and the dies in service let it. -/
def execMatrixOp (s : State) : Host.Outcome State Fault Refusal :=
  match s.inArray with
  | none => finish s
  | some (o, _) => finish (s.runMatrix o.mat.fuel)

/-! ## The next op (R343, R344, R399 to R401) -/

/-- The priority class of an op's queue; of a queue that is no longer open, the last. -/
def State.opPrio (s : State) (o : Op) : Nat := (((s.lea o.lea).queues.find o.queue).map fun q => q.prio).getD 256

/-- The lea that wins an arbitration point (R399, R400): of those with a weight, else of those without, the one of the
smallest V, the lower lea on a tie. -/
def pickLea (l : List (Nat × Nat × Rat)) : Option Nat :=
  let pool := if l.any fun x => x.2.1 != 0 then l.filter fun x => x.2.1 != 0 else l
  (pool.foldl (fun (a : Option (Nat × Nat × Rat)) x => match a with
    | none => some x
    | some y => if x.2.2 < y.2.2 then some x else some y) none).map (·.1)

/-- Of a lea's ops, the first by priority class and then by admission (R401). -/
def State.firstByPrio (s : State) (l : Map Op) : Option Nat :=
  (l.foldl (fun (a : Option (Nat × Op)) x => match a with
    | none => some x
    | some y => if s.opPrio x.2 < s.opPrio y.2 then some x else some y) none).map (·.1)

/-- The smallest FALLOW_LIMIT among bound jobs with a matrix op admitted but not ready (R344). -/
def State.fallowLimit (s : State) : Option Nat :=
  s.hub.ops.foldl (fun (a : Option Nat) e =>
    if e.2.cls = 1 ∧ e.2.phase = .waiting ∧ !s.ready e.1 e.2 then
      match s.jobs.find e.2.job with
      | none => a
      | some j => some (min j.fallowLimit (a.getD j.fallowLimit))
    else a) none

/-- The op that the hub picks (R343). -/
def State.nextMatrix (s : State) : Option Nat :=
  let one := s.hub.ops.filter fun e => s.tierOne e.1 e.2
  match pickLea ((s.leas.filter fun x => one.any fun e => e.2.lea == x.1).map fun x => (x.1, x.2.wArray, x.2.vArray)) with
  | some l => s.firstByPrio (one.filter fun e => e.2.lea == l)
  | none =>
    let two := s.hub.ops.filter fun e => e.2.cls == 1 && e.2.fallowOk && s.ready e.1 e.2
    (two.find? fun e => s.fallowLimit.all fun k => s.plannedEvents e.2.mat ≤ k).map (·.1)

/-- Whether the op that is picked can still start. -/
def State.pickStands (s : State) : Bool :=
  match s.hub.picked with
  | none => false
  | some n => match s.op n with
    | none => false
    | some o => s.ready n o

/-- NEXT_MATRIX_OP_PICK (R343): at an op boundary, while a die is in service, the hub picks the next matrix op. -/
def execNextMatrixOpPick (s : State) : Host.Outcome State Fault Refusal :=
  if s.array.run.isSome || s.pickStands || s.array.inService = 0 then finish s
  else finish { s with hub := { s.hub with picked := s.nextMatrix } }

/-- The op that is picked starts in the array (R83, R101): its share is charged (R399), and it takes T0 from the scale
history, or from the worst-case bound. -/
def State.startMatrix (s : State) (n : Nat) (o : Op) : State :=
  let start := s.histT0 o
  let ev := s.plannedEvents o.mat
  let r : MatrixRun := { op := n, dies := s.inServiceDies, start := start, fallow := o.fallowOk, charge := ev, events := 1726 }
  let c := s.scale
  let s := if start.isSome then s else { s with scale := { c with boundUsed := true, boundCount := c.boundCount + 1 } }
  let s := if o.fallowOk then { s with hub := { s.hub with fallowOps := s.hub.fallowOps + 1 } }
    else s.modLea o.lea fun x => { x with vArray := x.vArray + (ev : Rat) / weightOf x.wArray
                                          arrayEvents := x.arrayEvents + BitVec.ofNat 64 ev }
  { s with array := { s.array with run := some r, lastInstance := o.inst }, hub := { s.hub with picked := none } }

/-! ## Replay (R183, R184) -/

/-- A replayed matrix op runs to its end in the array, for at most `n` passes; it reports nothing. -/
def State.replayPasses (s : State) (o : Op) (r : MatrixRun) : Nat → Drained
  | 0 => .done s r
  | n + 1 => match r.take o.mat with
    | (r, none) => .done s r
    | (r, some p) =>
      let x := s.beginPass o.mat r p
      match x.1.drainPass o x.2 true p with
      | .done s r => s.replayPasses o r n
      | y => y

/-- A replayed matrix op, with the T0 that its op entry gives now (R184). -/
def State.replayMatrix (s : State) (o : Op) : Drained :=
  s.replayPasses o { op := 0, dies := s.inServiceDies, start := s.histT0 o } o.mat.fuel

end Sys2Proof.Machine
end

