-- ==== Sys2Proof/Machine/Store.lean ====
section
/-!
DEFINITION. Machine/Store.lean: messages to a store target (13, R358 to R360) and the place of things in a checkpoint
image (R355, R356), which Baler and refills share.
-/

namespace Sys2Proof.Machine

/-- The rank that a store target answers to (R358). -/
def storeRank (far : Bool) : Nat := if far then 0xFFFD else 0xFFFE

/-- The store header (Table 13.4), little-endian. -/
def storeHeader (type : Nat) (jobId : Word) (rank units : Nat) (seq : Word) (off : Nat) (st : Nat := 0) : List Byte :=
  wordsToBytes ([packFields [(1, 24), (type, 20)], jobId, packFields [(rank, 16), (units, 0)], seq] ++ words64 off ++
    [packFields [(st, 16)], 0])

/-- A message to a store target (R359), as part of the Baler traffic `kind` of job `jh`. -/
def State.sendStore (s : State) (jh : Nat) (far : Bool) (type units : Nat) (jobId : Word) (rank : Nat) (seq : Word)
    (off : Nat) (body : List Byte) (owner : MsgOwner) : State :=
  match s.jobs.find jh with
  | none => s
  | some j => match j.baler with
    | none => s
    | some b => s.send jh { rank := storeRank far, channel := b.channel, target := 0,
                            data := s.packBytes (storeHeader type jobId rank units seq off ++ body), owner := owner }

/-- The job's Baler state changed, where it has one. -/
def State.modBaler (s : State) (jh : Nat) (f : Baler → Baler) : State :=
  s.modJob jh fun j => { j with baler := j.baler.map f }

/-- A GET goes to its target and becomes outstanding (R360). -/
def State.sendGet (s : State) (jh : Nat) (g : Get) : State :=
  (s.modBaler jh fun b => { b with gets := b.gets ++ [g] }).sendStore jh g.far 3 g.units g.jobId g.rank g.ckptSeq g.offset []
    (.store jh (storeRank g.far) 3 g.offset)

/-- GETs outstanding at a target (R360: at most four). -/
def Baler.outstanding (b : Baler) (far : Bool) : Nat := (b.gets.filter fun g => g.far == far).length

/-- A section table entry of a manifest (Table 13.3). -/
structure SectEntry where
  kind : Nat
  ordinal : Nat
  base : Nat
  len : Nat
  offset : Nat
  digest : List Byte
  deriving DecidableEq, Repr

/-- A little-endian number in a byte string. -/
def leAt (b : List Byte) (i n : Nat) : Nat := leToNat ((b.drop i).take n)

/-- Entry `i` of a manifest's section table. -/
def sectEntry (m : List Byte) (i : Nat) : SectEntry :=
  let o := 128 + 64 * i
  { kind := leAt m (o + 3) 1, ordinal := leAt m (o + 2) 1 / 16, base := leAt m (o + 4) 4 + 2 ^ 32 * leAt m (o + 8) 2
    len := leAt m (o + 12) 8, offset := leAt m (o + 20) 8, digest := (m.drop (o + 32)).take 32 }

/-- Units of a section. -/
def SectEntry.units (e : SectEntry) : Nat := ceilDiv e.len 4096
/-- Image offset of a section's leaf table (R355). -/
def SectEntry.leafOffset (e : SectEntry) : Nat := e.offset + 4096 * e.units

end Sys2Proof.Machine
end

