-- ==== Sys2Proof/Machine/MemoryUnit.lean ====
section
/-!
DEFINITION. Machine/MemoryUnit.lean: memory errors, poison and refill, the loss of a stack, the traffic generators and
the commands of range 0x01 (08).
-/

namespace Sys2Proof.Machine

/-! ## Noting errors -/

/-- An event of HUB_MEM_LAST_ERROR. -/
def Memory.last (m : Memory) (kind sec : Nat) : Memory := { m with lastKind := kind, lastAddr := sec * 32 }

/-- The refill descriptor that covers a sector. -/
def Memory.descOf (m : Memory) (sec : Nat) : Option (Nat × RefillDesc) :=
  m.descs.find? fun e => e.2.base ≤ sec * 32 && sec * 32 < e.2.base + e.2.len

/-! ## Refill (R208 to R212) -/

/-- The poison of a sector ends without data: the poison code is written, and POISON events go out (R211). -/
def State.refillFail (s : State) (sec : Nat) : State :=
  let m := s.mem
  let m := { m with errs := m.errs.insert sec .poisonCode, refills := m.refills.erase sec, refillFailed := true
                    failedCount := m.failedCount + 1 }
  { s with mem := m.last 4 sec }.poisonEvents sec

/-- The sector takes its data again, and its readers go on (Table 8.3, step 5). -/
def Memory.refilled (m : Memory) (sec : Nat) (data : List Byte) : Memory :=
  (m.storeBytes (sec * 32) (data.take 32)).clearErrs [sec]

/-- Whether the parity group of a sector can give it back (R209): no other line of the group is lost or poisoned. -/
def Memory.parityServes (m : Memory) (sec : Nat) : Bool :=
  let g := (sec * 32 % 2 ^ 30) / 128 / 7
  (m.unit (sec / 2 ^ 25)).parity && !m.stackLost.getLsbD (g % 8) &&
  (groupPeers sec).all fun p => !m.stackLost.getLsbD (m.stackOf p) && !m.errs.has p

/-- The worker whose state this device holds: its own WORKER role, or the one that it mirrors as a PARTNER, with the
kind of the pair's other role. -/
def State.pairRole (s : State) (j : Job) : Option (Nat × Nat) :=
  match (List.range j.workers).find? fun i => (s.role j 1 i).any fun r => r.rank == j.rank with
  | some i => some (2, i)
  | none => match (List.range j.partners).find? fun i => (s.role j 2 i).any fun r => r.rank == j.rank with
    | some i => some (1, i)
    | none => none

/-- A REFILL_REQ to the partner role (R210, R279): sector address and last-write step. -/
def State.sendRefillReq (s : State) (jh sec : Nat) (step : Word) (kind index : Nat) (r : Role) : State :=
  s.emitLoose jh r.rank 0 6 (fun h => { h with roleKind := kind, roleIndex := index, roleEpoch := r.epoch })
    (natToBE 8 (sec * 32) ++ natToBE 4 step.toNat ++ [0, 0, 0, 0])

/-- The role holder that a refill request goes to; none where the partner is unavailable. -/
def State.refillPartner (s : State) (d : RefillDesc) : Option (Nat × Nat × Role) :=
  match s.jobs.find d.job with
  | none => none
  | some j => match s.pairRole j with
    | none => none
    | some (kind, index) => match s.role j kind index with
      | none => none
      | some r => if j.peerActive r.rank && j.sendKey.isSome then some (kind, index, r) else none

/-- The job whose store target holds an object's image: the bound job of that JOB_ID. -/
def State.objectJob (s : State) (o : StoreObject) : Option (Nat × Job × Baler) :=
  match s.jobs.find? fun e => e.2.jobId == o.jobId with
  | none => none
  | some (h, j) => j.baler.map fun b => (h, j, b)

/-- The next GET of a store refill goes out where the target has room (R360): the manifest, then the unit's leaf, then
the unit. -/
def State.askStore (s : State) (sec : Nat) (o : StoreObject) (off : Nat) : State :=
  match s.objectJob o with
  | none => s.refillFail sec
  | some (h, j, b) =>
    if !j.peerActive (storeRank o.far) then s.refillFail sec
    else if 4 ≤ b.outstanding o.far then s
    else s.sendGet h { far := o.far, jobId := o.jobId, rank := o.rank, ckptSeq := o.ckptSeq, offset := off, units := 1,
                       use := .refill sec }

/-- Source 3: the store object, while the descriptor is CLEAN (R209). -/
def State.refillStore (s : State) (sec di : Nat) (d : RefillDesc) : State :=
  match s.units.objects.find d.object.toNat with
  | none => s.refillFail sec
  | some o =>
    if !d.clean || d.object = 0 then s.refillFail sec
    else
      let e : Refill := { desc := di, wait := .store d.object none none }
      { s with mem := { s.mem with refills := s.mem.refills.insert sec e } }.askStore sec o 0

/-- Source 2: the pair partner, and the store where it is unavailable. -/
def State.refillStart (s : State) (sec : Nat) : State :=
  if s.mem.parityServes sec then
    { s with mem := { s.mem.refilled sec (s.read (sec * 32) 32) with refParity := s.mem.refParity + 1 } }
  else match s.mem.descOf sec with
    | none => s.refillFail sec
    | some (di, d) => match s.refillPartner d with
      | none => s.refillStore sec di d
      | some (kind, index, r) =>
        let w := RefillWait.partner r.epoch.toNat d.lastStep s.now s.now
        { s with mem := { s.mem with refills := s.mem.refills.insert sec { desc := di, wait := w } } }.sendRefillReq
          d.job sec d.lastStep kind index r

/-- The partner is unavailable: the store is tried (R209). -/
def State.refillNext (s : State) (sec : Nat) : State :=
  match s.mem.refills.find sec with
  | none => s
  | some e => match s.mem.descs.find e.desc with
    | none => s.refillFail sec
    | some d => s.refillStore sec e.desc d

/-- A corrected-class sector is poisoned, unless it is already, and its refill starts or waits for an entry (R208, R212). -/
def State.poison (s : State) (sec : Nat) : State :=
  if s.mem.lostSector sec || (s.mem.errs.has sec) then s
  else
    let m := s.mem
    let m := { m with errs := m.errs.insert sec .poisoned, poisoned := true, poisonCount := m.poisonCount + 1 }.last 3 sec
    let s := { s with mem := m }
    if s.mem.refills.length < 256 then s.refillStart sec
    else { s with mem := { s.mem with waiting := s.mem.waiting ++ [sec] } }

/-- A detection-only sector is in error (R207). -/
def State.detect (s : State) (sec : Nat) : State :=
  let m := s.mem
  let m := { m with errs := m.errs.insert sec .detected, detected := true, detectedCount := m.detectedCount + 1 }
  { s with mem := m.last 2 sec }

/-- An uncorrectable error of a sector, by its class (R207, R208). -/
def State.uncorrectable (s : State) (sec : Nat) : State :=
  if 576 ≤ sec / 2 ^ 25 then s
  else if (s.mem.unit (sec / 2 ^ 25)).detect then s.detect sec else s.poison sec

/-- HBM_UNCORRECTABLE_READ (R208). -/
def execHbmUncorrectableRead (sector : Nat) (s : State) : Host.Outcome State Fault Refusal :=
  if 576 ≤ sector / 2 ^ 25 || (s.mem.unit (sector / 2 ^ 25)).detect then finish s else finish (s.poison sector)

/-- REFILL_TABLE_FREE (R212): a poisoned sector that waits takes a free entry. -/
def execRefillTableFree (s : State) : Host.Outcome State Fault Refusal :=
  match s.mem.waiting with
  | [] => finish s
  | sec :: rest =>
    if s.mem.refills.length < 256 then finish ({ s with mem := { s.mem with waiting := rest } }.refillStart sec) else finish s

/-- Whether a GET of the sector is outstanding. -/
def State.getRuns (s : State) (sec : Nat) : Bool :=
  s.jobs.any fun e => match e.2.baler with
    | none => false
    | some b => b.gets.any fun g => g.use == .refill sec

/-- The image offset that a store refill reads next: the manifest, the leaf's unit, the unit. -/
def storeOffset (place : Option (Nat × Nat)) (leaf : Option (List Byte)) : Nat :=
  match place, leaf with
  | some (_, l), none => l / 4096 * 4096
  | some (p, _), some _ => p
  | none, _ => 0

/-- REFILL_REQ_RESEND (R279): an unanswered request goes out again every RTO_COUNTS; a store refill whose GET found the
target full is sent once it has room. -/
def execRefillReqResend (sector : Nat) (s : State) : Host.Outcome State Fault Refusal :=
  match s.mem.refills.find sector with
  | none => finish s
  | some e => match e.wait, s.mem.descs.find e.desc with
    | .partner ep st since sent, some d =>
      if s.elapsed sent < s.fab.rtoCounts then finish s
      else match s.refillPartner d with
        | none => finish (s.refillNext sector)
        | some (kind, index, r) =>
          let e := { e with wait := .partner ep st since s.now }
          finish ({ s with mem := { s.mem with refills := s.mem.refills.insert sector e } }.sendRefillReq
            d.job sector st kind index r)
    | .store object place leaf, _ => match s.units.objects.find object.toNat with
      | none => finish (s.refillFail sector)
      | some o => if s.getRuns sector then finish s
          else finish (s.askStore sector o (storeOffset place leaf))
    | .resolve ep _, some d => match s.refillPartner d with
      | none => finish s
      | some (kind, index, r) =>
        if r.epoch.toNat = ep then finish s
        else
          let e := { e with wait := .partner r.epoch.toNat d.lastStep s.now s.now }
          finish ({ s with mem := { s.mem with refills := s.mem.refills.insert sector e } }.sendRefillReq
            d.job sector d.lastStep kind index r)
    | _, none => finish s

/-- REFILL_DEADLINE (R210, R324): the partner counts as unavailable after DEADLINE counts, or after RESOLVE_COUNTS while
its role is being resolved. -/
def execRefillDeadline (sector : Nat) (s : State) : Host.Outcome State Fault Refusal :=
  match s.mem.refills.find sector with
  | none => finish s
  | some e => match e.wait with
    | .partner _ _ since _ =>
      if s.mem.deadline.toNat ≤ s.elapsed since then finish (s.refillNext sector) else finish s
    | .resolve _ since =>
      let limit := match s.mem.descs.find e.desc with
        | none => 0
        | some d => match s.jobs.find d.job with
          | none => 0
          | some j => j.resolveCounts
      if limit ≤ s.elapsed since then
        finish ({ s with units := { s.units with resolveFailed := true
                                                 resolveCount := s.units.resolveCount + 1 } }.refillNext sector)
      else finish s
    | .store _ _ _ => finish s

/-- A reply to a refill request (R210, Table 10.5): data, VERSION_AHEAD or NOT_HELD. -/
def State.refillReply (s : State) (jh sec result : Nat) (data : List Byte) : State :=
  let dropped := { s with mem := { s.mem with refDropped := s.mem.refDropped + 1 } }
  match s.mem.refills.find sec with
  | none => dropped
  | some e => match e.wait, s.mem.descs.find e.desc with
    | .partner _ _ _ _, some d =>
      if d.job ≠ jh then dropped
      else if result = 0 then
        { s with mem := { s.mem.refilled sec data with refPartner := s.mem.refPartner + 1 } }
      else s.refillNext sec
    | _, _ => dropped

/-- A reply to a partner's request (R210). -/
def State.sendRefillReply (s : State) (jh rank sec result : Nat) (data : List Byte) : State :=
  s.emitLoose jh rank 0 7 id (natToBE 8 (sec * 32) ++ natToBE 1 result ++ List.replicate 7 0 ++ data)

/-- What this device answers to a request for a sector at a last-write step (R210): none while it holds the request. -/
def State.refillAnswer (s : State) (sec : Nat) (step : Word) : Option (Nat × List Byte) :=
  match s.mem.descOf sec with
  | none => some (2, [])
  | some (_, d) =>
    if s.sectorAccess sec ≠ .good then some (2, [])
    else if d.lastStep = step then some (0, s.read (sec * 32) 32)
    else if signedLess d.lastStep step then none else some (1, [])

/-- A received refill request is answered, or held once (R210, R279). -/
def State.refillRequest (s : State) (jh rank sec : Nat) (step : Word) : State :=
  match s.refillAnswer sec step with
  | some (r, data) => s.sendRefillReply jh rank sec r data
  | none =>
    let h : HeldRefill := { job := jh, rank := rank, sectorReq := natToBE 8 (sec * 32) ++ natToBE 4 step.toNat, epoch := 0 }
    if s.heldRefills.contains h then s else { s with heldRefills := s.heldRefills ++ [h] }

/-- REFILL_REQ_SERVE (R210): the first held request whose step the region has reached is answered. -/
def execRefillReqServe (s : State) : Host.Outcome State Fault Refusal :=
  let sec := fun (h : HeldRefill) => beToNat (h.sectorReq.take 8) / 32
  let st := fun (h : HeldRefill) => BitVec.ofNat 32 (beToNat (h.sectorReq.drop 8))
  match s.heldRefills.find? fun h => (s.refillAnswer (sec h) (st h)).isSome with
  | none => finish s
  | some h =>
    let s' := { s with heldRefills := s.heldRefills.filter (· ≠ h) }
    match s.refillAnswer (sec h) (st h) with
    | none => finish s
    | some (r, data) => finish (s'.sendRefillReply h.job h.rank (sec h) r data)

/-- Data of a store refill's GET (BAL_OBJECT_SET): manifest, leaf unit, then the unit, checked against its leaf. -/
def State.refillGot (s : State) (sec off : Nat) (data : List Byte) : State :=
  match s.mem.refills.find sec with
  | none => s
  | some e => match e.wait, s.mem.descs.find e.desc with
    | .store object place leaf, some d => match s.units.objects.find object.toNat with
      | none => s.refillFail sec
      | some o =>
        let put := fun w => { s with mem := { s.mem with refills := s.mem.refills.insert sec { e with wait := w } } }
        let x := sectEntry data o.sect
        let rel := sec * 32 - o.base
        if !d.clean then s.refillFail sec
        else match place, leaf with
          | none, _ =>
            if off ≠ 0 || sec * 32 < o.base || x.len ≤ rel then s.refillFail sec
            else
              let place := (x.offset + rel / 4096 * 4096, x.leafOffset + 32 * (rel / 4096))
              (put (.store object (some place) none)).askStore sec o (storeOffset (some place) none)
          | some p, none =>
            let l := (data.drop (p.2 % 4096)).take 32
            (put (.store object (some p) (some l))).askStore sec o p.1
          | some _, some l =>
            if sha256 data ≠ l then s.refillFail sec
            else { s with mem := { s.mem.refilled sec (data.drop (rel % 4096)) with refStore := s.mem.refStore + 1 } }
    | _, _ => s

/-! ## Errors that are corrected, scrub, channels and the cache (R203 to R206, R217) -/

/-- A corrected error (R203). -/
def State.correctedAt (s : State) (sec : Nat) : State :=
  let m := s.mem
  { s with mem := { m with corrected := true, correctedCount := m.correctedCount + 1 }.last 1 sec }

/-- CORRECTED_READ_ERROR (R203): of the corrected class. -/
def execCorrectedReadError (sector : Nat) (s : State) : Host.Outcome State Fault Refusal :=
  if 576 ≤ sector / 2 ^ 25 || (s.mem.unit (sector / 2 ^ 25)).detect then finish s else finish (s.correctedAt sector)

/-- A scrub's uncorrectable find (R205): poison in the corrected class, a count in the detection-only class. -/
def State.scrubFind (s : State) (sec : Nat) : State :=
  if 576 ≤ sec / 2 ^ 25 then s
  else if (s.mem.unit (sec / 2 ^ 25)).detect then
    let m := s.mem
    { s with mem := { m with detected := true, detectedCount := m.detectedCount + 1 }.last 2 sec }
  else s.poison sec

/-- PATROL_SCRUB (R205): one interval of 2^20 counts, with the sectors that it corrects and those that it cannot. -/
def execPatrolScrub (corrected uncorrectable : List Nat) (s : State) : Host.Outcome State Fault Refusal :=
  if s.mem.scrubRate = 0 || s.elapsed s.mem.lastScrub < 2 ^ 20 then finish s
  else
    let s := { s with mem := { s.mem with lastScrub := s.now } }
    let s := (corrected.take (8 * s.mem.scrubRate)).foldl
      (fun s x => if (s.mem.unit (x / 2 ^ 25)).detect then s else s.correctedAt x) s
    finish ((uncorrectable.take (8 * s.mem.scrubRate)).foldl State.scrubFind s)

/-- The state with a channel changed. -/
def State.modChannel (s : State) (ch : Nat) (f : Channel → Channel) : State :=
  { s with mem := { s.mem with channels := s.mem.channels.insert ch (f (s.mem.channels.getD ch {})) } }

/-- CHANNEL_REPAIR (R206): a failing pin, or a failing row, takes a spare. -/
def execChannelRepair (ch : Nat) (pin : Bool) (s : State) : Host.Outcome State Fault Refusal :=
  if 256 ≤ ch then finish s
  else finish (s.modChannel ch fun c =>
    if pin then
      if 0 < c.sparePins then { c with sparePins := c.sparePins - 1, pinRepaired := true, pinCount := c.pinCount + 1 }
      else { c with degraded := true }
    else if 0 < c.spareRows then
      { c with spareRows := c.spareRows - 1, rowRepaired := true, rowCount := c.rowCount + 1 }
    else c)

/-- CACHE_ERROR (R217): corrected; or repaired from HBM in a clean sector; or an HBM error in a dirty one. -/
def execCacheError (sector : Nat) (correctable : Bool) (s : State) : Host.Outcome State Fault Refusal :=
  if correctable then finish { s with mem := { s.mem with cacheCorr := true, cacheCorrCount := s.mem.cacheCorrCount + 1 } }
  else
    let s := { s with mem := { s.mem with cacheUncorr := true, cacheUncorrCount := s.mem.cacheUncorrCount + 1 } }
    if s.mem.dirty.contains sector then finish (s.uncorrectable sector) else finish s

/-! ## Loss of a stack (R213 to R215, R489) -/

/-- A stack is lost: dirty lines outside parity units are discarded with their POISON events (R489), and nothing of the
stack waits for a refill any more. -/
def State.loseStack (s : State) (k : Nat) : State :=
  if 8 ≤ k || s.mem.stackLost.getLsbD k then s
  else
    let m := { s.mem with stackLost := s.mem.stackLost ||| (1#8 <<< k), lostCount := s.mem.lostCount + 1 }
    let gone := m.dirty.filter m.lostSector
    let lines := (gone.map (· / 4)).eraseDups
    let m := { m with dirty := m.dirty.filter fun x => m.stackOf x != k, present := m.present.filter fun x => m.stackOf x != k
                      refills := m.refills.sel fun x _ => !m.lostSector x, waiting := m.waiting.filter fun x => !m.lostSector x
                      channels := m.channels.mapVals fun c x => if c / 32 = k then { x with online := false } else x }
    lines.foldl (fun s l => s.poisonEvents (4 * l)) { s with mem := m }

/-- EDPIN_FAULT (R213): Cihal retires the stack. -/
def execEdpinFault (stack : Nat) (s : State) : Host.Outcome State Fault Refusal := finish (s.loseStack stack)

/-! ## Traffic generators (R224, R225) -/

/-- The end of a run (R225). -/
def Channel.endRun (c : Channel) (mismatches : Nat) (pins : BitVec 64) : Channel :=
  let c := { c with tgRun := none, tgDone := true, tgDoneCount := c.tgDoneCount + 1, tgPins := pins
                    tgMismatches := satNat 32 (c.tgMismatches + mismatches) }
  if 0 < mismatches then { c with tgFail := true, tgFailCount := c.tgFailCount + 1 } else c

/-- TG_RUN_END (R225). -/
def execTgRunEnd (ch mismatches : Nat) (pins : BitVec 64) (s : State) : Host.Outcome State Fault Refusal :=
  match (s.mem.channels.getD ch {}).tgRun with
  | none => finish s
  | some _ => finish (s.modChannel ch fun c => c.endRun mismatches pins)

/-- MEM_TG_START: channel, MODE (0 LIVE, 1 OFFLINE), PATTERN, LOG2_SECTORS, SEED (R224). -/
def cmdMemTgStart : CmdDef := cmd 0x0110 5 .leaZero fun s _ a =>
  let ch := argN a 0
  need (ch < 256 && argN a 1 < 2 && argN a 2 < 4 && 4 ≤ argN a 3 && argN a 3 ≤ 28) .badArgument <|
  need ((s.mem.channels.getD ch {}).tgRun.isNone && (argN a 1 == 0 || s.hub.dev == .boot || s.mem.stackLost.getLsbD (ch / 32)))
    .stateMismatch <|
  .ok (s.modChannel ch fun c => { c with tgRun := some (argN a 1 == 1, argN a 2, argN a 3, wordAt a 4), tgPins := 0 })

/-- MEM_TG_STOP: channel; what the run had found is a free value. -/
def cmdMemTgStop : CmdDef := cmd 0x0111 1 .leaZero fun s _ a =>
  need (argN a 0 < 256) .badArgument <|
  need ((s.mem.channels.getD (argN a 0) {}).tgRun.isSome) .stateMismatch <|
  let n := s.hub.free
  let s := { s with hub := { s.hub with free := n + 1 } }
  .ok (s.modChannel (argN a 0) fun c => c.endRun (Config.tgMismatches n) (Config.tgPins n))

/-! ## Commands of range 0x01 (R226) -/

/-- A run of class units configured and filled with zeros (R199). -/
def Memory.configure (m : Memory) (first count : Nat) (u : ClassUnit) : Memory :=
  let inRun := fun (a : Nat) => first ≤ a && a < first + count
  { m with units := (range' first count).foldl (fun t i => if u = {} then Map.erase t i else Map.insert t i u) m.units
           hbm := m.hbm.filter fun c => !inRun (c.1 / 2 ^ 30)
           errs := m.errs.sel fun x _ => !inRun (x / 2 ^ 25)
           refills := m.refills.sel fun x _ => !inRun (x / 2 ^ 25)
           waiting := m.waiting.filter fun x => !inRun (x / 2 ^ 25)
           dirty := m.dirty.filter fun x => !inRun (x / 2 ^ 25)
           present := m.present.filter fun x => !inRun (x / 2 ^ 25) }

/-- MEM_UNIT_CONFIG: FIRST_UNIT, COUNT, CLASS, PARITY (R199). -/
def cmdMemUnitConfig : CmdDef := cmd 0x0101 4 .leaZero fun s _ a =>
  let first := argN a 0
  let count := argN a 1
  let hit := fun (b l : Nat) => overlaps b l (first * 2 ^ 30) (count * 2 ^ 30)
  need (1 ≤ count && first + count ≤ 576 && argN a 2 < 2 && argN a 3 < 2) .badArgument <|
  need (s.mem.stackLost == 0 && s.leas.all fun e =>
    (e.2.grants.all fun g => !hit g.2.base g.2.len) && e.2.pins.all fun p => !hit p.base p.len) .stateMismatch <|
  .ok { s with mem := s.mem.configure first count { detect := argN a 2 == 1, parity := argN a 3 == 1 } }

/-- MEM_REFILL_SET: base, length, partner job handle, store object (R209). -/
def cmdMemRefillSet : CmdDef := cmd 0x0102 5 .leaZero fun s _ a =>
  let base := argAddr a 0
  let len := argN a 2
  need (argAddrOk a 0 && 0 < len && len % 2 ^ 16 == 0 && argN a 4 < 256) .badArgument <|
  need (argN a 3 == 0xFFFF || s.jobs.has (argN a 3)) .badHandle <|
  need (s.mem.inCorrected base len && s.mem.descs.all fun e => !overlaps e.2.base e.2.len base len) .stateMismatch <|
  let d : RefillDesc := { base := base, len := len, job := argN a 3, object := wordAt a 4 }
  .ok { s with mem := { s.mem with descs := s.mem.descs.insert (topIndex s.mem.descs) d } }

/-- MEM_REFILL_CLEAR: base. -/
def cmdMemRefillClear : CmdDef := cmd 0x0103 2 .leaZero fun s _ a =>
  need (argAddrOk a 0) .badArgument <|
  need (s.mem.descs.any fun e => e.2.base == argAddr a 0) .stateMismatch <|
  .ok { s with mem := { s.mem with descs := s.mem.descs.sel fun _ d => d.base != argAddr a 0 } }

/-- MEM_PIN: base, length (R219). -/
def cmdMemPin : CmdDef := cmd 0x0104 3 .any fun s l a =>
  let base := argAddr a 0
  let len := argN a 2
  let mib := fun (n : Nat) => ceilDiv n (2 ^ 20)
  need (argAddrOk a 0 && base % 2 ^ 16 == 0 && 0 < len && len % 2 ^ 16 == 0) .badArgument <|
  need (mib ((s.lea l).pins.foldl (fun n p => n + p.len) len) ≤ (s.lea l).quotas.pinMib &&
    mib (s.leas.foldl (fun n e => n + e.2.pins.foldl (fun n p => n + p.len) 0) len) ≤ 256) .noResource <|
  need (s.mem.inUsable base len && s.granted l base len false) .stateMismatch <|
  .ok (s.modLea l fun x => { x with pins := x.pins ++ [{ base := base, len := len }] })

/-- MEM_UNPIN: base, length; dirty sectors are written back (R219). -/
def cmdMemUnpin : CmdDef := cmd 0x0105 3 .any fun s l a =>
  let base := argAddr a 0
  let len := argN a 2
  need (argAddrOk a 0) .badArgument <|
  need ((s.lea l).pins.contains { base := base, len := len }) .stateMismatch <|
  let s := s.modLea l fun x => { x with pins := x.pins.erase { base := base, len := len } }
  .ok { s with mem := { s.mem with dirty := s.mem.dirty.filter fun x => x * 32 < base || base + len ≤ x * 32 } }

/-- MEM_SCRUB_SET: SCRUB_RATE (R205). -/
def cmdMemScrubSet : CmdDef := cmd 0x0106 1 .leaZero fun s _ a =>
  need (argN a 0 < 65536) .badArgument <|
  need s.live .stateMismatch <|
  .ok { s with mem := { s.mem with scrubRate := argN a 0 } }

/-- MEM_POISON_LIST (Table 2.13). -/
def cmdMemPoisonList : CmdDef := cmd 0x0107 0 .any fun s l _ =>
  need ((s.lea l).st = .enabled) .stateMismatch <|
  let all := (s.mem.errs.filter fun e => e.2 == .poisonCode && s.granted l (e.1 * 32) 32 false).map (·.1)
  let some30 := all.take 30
  .done s .ok (packFields [(b2n (decide (30 < all.length)), 31), (some30.length, 0)] ::
    some30.flatMap fun x => words48 (x * 32))

/-! ## The command rows -/

/-- MEM_UNIT_CONFIG (R199). -/
def execMemUnitConfig (lea : Nat) (tag : Word) (args : List Word) (s : State) : Host.Outcome State Fault Refusal :=
  finish (s.issue cmdMemUnitConfig lea tag args)
/-- MEM_REFILL_SET (R209). -/
def execMemRefillSet (lea : Nat) (tag : Word) (args : List Word) (s : State) : Host.Outcome State Fault Refusal :=
  finish (s.issue cmdMemRefillSet lea tag args)
/-- MEM_REFILL_CLEAR (R226). -/
def execMemRefillClear (lea : Nat) (tag : Word) (args : List Word) (s : State) : Host.Outcome State Fault Refusal :=
  finish (s.issue cmdMemRefillClear lea tag args)
/-- MEM_PIN (R219). -/
def execMemPin (lea : Nat) (tag : Word) (args : List Word) (s : State) : Host.Outcome State Fault Refusal :=
  finish (s.issue cmdMemPin lea tag args)
/-- MEM_UNPIN (R219). -/
def execMemUnpin (lea : Nat) (tag : Word) (args : List Word) (s : State) : Host.Outcome State Fault Refusal :=
  finish (s.issue cmdMemUnpin lea tag args)
/-- MEM_SCRUB_SET (R205). -/
def execMemScrubSet (lea : Nat) (tag : Word) (args : List Word) (s : State) : Host.Outcome State Fault Refusal :=
  finish (s.issue cmdMemScrubSet lea tag args)
/-- MEM_POISON_LIST (R226). -/
def execMemPoisonList (lea : Nat) (tag : Word) (args : List Word) (s : State) : Host.Outcome State Fault Refusal :=
  finish (s.issue cmdMemPoisonList lea tag args)
/-- MEM_TG_START (R224). -/
def execMemTgStart (lea : Nat) (tag : Word) (args : List Word) (s : State) : Host.Outcome State Fault Refusal :=
  finish (s.issue cmdMemTgStart lea tag args)
/-- MEM_TG_STOP (R225). -/
def execMemTgStop (lea : Nat) (tag : Word) (args : List Word) (s : State) : Host.Outcome State Fault Refusal :=
  finish (s.issue cmdMemTgStop lea tag args)

/-- The commands of this file. -/
def memoryCommands : List CmdDef :=
  [cmdMemUnitConfig, cmdMemRefillSet, cmdMemRefillClear, cmdMemPin, cmdMemUnpin, cmdMemScrubSet, cmdMemPoisonList,
   cmdMemTgStart, cmdMemTgStop]

end Sys2Proof.Machine
end

