-- ==== Sys2Proof/Machine/Sync.lean ====
section
/-!
DEFINITION. Machine/Sync.lean: the sync ops (class 0x08): PHASE, MARK, NORM_READ and CLIP (07, R174 to R195), SHARD_STAMP,
SHARD_CHECK and PREFETCH (12, R329 to R333). PHASE and MARK take effect when they start (Start.lean).
-/

namespace Sys2Proof.Machine

/-- FUNC of a sync op (Table 7.2, Table 12.7). -/
def Op.func (o : Op) : Nat := o.f 0 31 24

/-- COUNT of NORM_READ (Table 7.2). -/
def Op.normCount (o : Op) : Nat := if o.f 0 15 0 = 0 then 65536 else o.f 0 15 0

/-- Whether an FP32 word is a positive value, +∞ allowed (Table 7.2, MAX_NORM). -/
def positiveFp32 (w : Word) : Bool := !(fp32 w).isNan && (Val.zero false).lt (fp32 w)

/-- Check 3 of R53 for a sync op (R174, R191, Table 12.7): whether its body is in order. -/
def State.syncArgOk (s : State) (o : Op) : Bool :=
  let norms := (s.lea o.lea).quotas.norm
  let inDir := match s.jobOf o.lea o.job with
    | none => o.job != 0xFFFF
    | some j => o.f 1 15 0 + o.f 0 15 0 ≤ 2 ^ j.log2Gather
  fld (wordAt o.hdr 0) 23 16 == 1 &&
  match o.func with
  | 1 => o.job != 0xFFFF
  | 2 => o.job != 0xFFFF
  | 3 => o.job != 0xFFFF && o.f 1 15 0 + o.normCount ≤ norms &&
         (o.addr 2 == 0 || s.granted o.lea (o.addr 2) (8 * o.normCount) true)
  | 4 => o.job != 0xFFFF && o.f 1 15 0 + o.f 0 15 0 ≤ norms && positiveFp32 (o.w 2)
  | 0x20 | 0x21 => 1 ≤ o.f 0 15 0 && inDir
  | 0x22 => (o.w 3).toNat % 128 == 0 && s.granted o.lea (o.addr 1) (o.w 3).toNat false
  | _ => false

/-! ## PHASE (R175, R176) -/

/-- The phase that a PHASE op moves its job to. -/
def Op.toBackward (o : Op) : Bool := bit (o.w 0) 0

/-- A PHASE op starts: it holds its job until the ops now in flight have completed (R175). -/
def State.startPhase (s : State) (n : Nat) (o : Op) : State := s.takeHold o.job (some n)

/-- PHASE_COMPLETE (R175): the phase changes, and the job's held ops may start. A change to FORWARD begins the ops that
a chain's first entry takes (R181). -/
def execPhaseComplete (n : Nat) (s : State) : Host.Outcome State Fault Refusal :=
  match s.runs n 8 with
  | none => finish s
  | some o => match s.jobs.find o.job with
    | none => finish s
    | some j => match j.hold with
      | none => finish s
      | some h =>
        if o.func ≠ 1 ∨ h.op ≠ some n ∨ !s.holdOver h then finish s
        else
          let s := s.setPhase o.job j o.toBackward
          let since := if o.toBackward then j.logSince else some j.logNext
          finish ((s.modJob o.job fun j => { j with hold := none, logSince := since }).endOp n .ok)

/-! ## MARK (R181) -/

/-- Whether a forward log op in [first, last] with the op's MICROBATCH and SEGMENT cannot be replayed. -/
def State.anyUnreplayable (s : State) (j : Job) (o : Op) (first last : Word) : Bool :=
  (List.range (min (last - first + 1).toNat (2 ^ j.log2Log))).any fun i =>
    let x := s.logSlot j (first + BitVec.ofNat 32 i)
    x.microbatch == o.microbatch && x.segment == o.segment && x.unreplayable

/-- A MARK op starts: it writes its directory entry and ends (R181). -/
def State.startMark (s : State) (n : Nat) (o : Op) : State :=
  match s.jobs.find o.job with
  | none => s
  | some j =>
    let i := o.f 0 15 0
    let prev := o.f 1 31 16
    if !j.dirOk i || (prev != 0xFFFF && !j.dirOk prev) then s.endOp n .badArgument
    else
      let last := j.logNext - 1
      let first := if prev = 0xFFFF then j.logSince.getD 0 else (s.dirEntry j prev).last + 1
      let e : DirEntry :=
        { prev := prev, layer := o.f 1 15 0, step := o.step, segment := o.segment, microbatch := o.microbatch
          base := o.addr 2, valid := true, noReplay := s.anyUnreplayable j o first last, len := (o.w 4).toNat
          first := first, last := last }
      (s.writeWords (j.dirAddr i) e.words).endOp n .ok

/-! ## NORM_READ (R191 to R193) -/

/-- A norm entry of a lea. -/
def State.norm (s : State) (l i : Nat) : Norm := (s.lea l).norms.getD i {}

/-- The state with a norm entry replaced. -/
def State.putNorm (s : State) (l i : Nat) (x : Norm) : State := s.modLea l fun a => { a with norms := a.norms.insert i x }

/-- The sum of norm entries rounded once to FP32, and whether it saturated (R193, R194). -/
def normWord (sum : Nat) : Word × Bool := toFp32 (.fin false sum (-149))

/-- The record of a norm entry (R193). -/
def Norm.record (x : Norm) : List Word :=
  let r := normWord x.sum
  let sat := !x.nan && !x.inf && r.2
  [if x.nan then f32Nan else if x.inf then f32Inf else r.1,
   packFields [(b2n x.nan, 31), (b2n x.inf, 30), (b2n sat, 29), (satNat 29 x.count, 0)]]

/-- NORM_READ's work on `k` entries from `i` on, their records at `a` on, with the op's status: it stops at a record that
cannot be written (Table 8.7). -/
def State.normRead (s : State) (l : Nat) (clear : Bool) : Nat → Nat → Nat → State × Status
  | 0, _, _ => (s, .ok)
  | k + 1, i, a => match s.writeAccess a 8 with
    | .bad sec st => (s.lostRead sec, st)
    | _ =>
      let t := s.writeWords a (s.norm l i).record
      (if clear then t.putNorm l i {} else t).normRead l clear k (i + 1) (a + 8)

/-- The entries of a NORM_READ that only clears. -/
def State.clearNorms (s : State) (l first count : Nat) : State :=
  s.modLea l fun x => { x with norms := x.norms.sel fun i _ => i < first || first + count ≤ i }

/-- NORM_READ (R193). -/
def execNormRead (n : Nat) (s : State) : Host.Outcome State Fault Refusal :=
  match s.runs n 8 with
  | none => finish s
  | some o =>
    if o.func ≠ 3 then finish s
    else if o.addr 2 = 0 then finish ((s.clearNorms o.lea (o.f 1 15 0) o.normCount).endOp n .ok)
    else if s.writeAccess (o.addr 2) (8 * o.normCount) = .stall then finish s
    else
      let r := s.normRead o.lea (bit (o.w 0) 23) o.normCount (o.f 1 15 0) (o.addr 2)
      finish (r.1.finishOp n [{ base := o.addr 2, len := 8 * o.normCount, write := true }] r.2)

/-! ## CLIP (R194, R195) -/

/-- The clip factor's product with RECIP (R194). -/
def clipScale (sum : Nat) (maxNorm recip : Word) : Word :=
  let r := (fsqrt (normWord sum).1).1
  let c := if (fp32 maxNorm).lt (fp32 r) then (fdiv maxNorm r).1 else f32One
  (fmul c recip).1

/-- GSCALE written into `k` slots from `i` on, those of class 0x07; the status of a slot that fails (Table 8.7). -/
def State.clipSlots (s : State) (q : Queue) (g : Word) : Nat → Nat → State × Option Status
  | 0, _ => (s, none)
  | k + 1, i =>
    let a := q.base + 128 * (i % 2 ^ q.log2)
    if fld (s.readWord a) 31 24 ≠ 7 then
      match s.access a 4 with
      | .bad sec st => (s.lostRead sec, some st)
      | _ => s.clipSlots q g k (i + 1)
    else match s.writeAccess (a + 112) 4 with
      | .bad sec st => (s.lostRead sec, some st)
      | _ => (s.writeWords (a + 112) [g]).clipSlots q g k (i + 1)

/-- The words that CLIP writes into a queue's slots. -/
def State.clipSpans (s : State) (o : Op) (q : Queue) : List Span :=
  (((range' (o.f 4 31 16) (o.f 4 15 0)).map fun i => q.base + 128 * (i % 2 ^ q.log2)).filter fun a =>
    fld (s.readWord a) 31 24 == 7).map fun a => { base := a + 112, len := 4, write := true }

/-- What CLIP does to an HBM queue whose tail is in place (R194). -/
def State.clipQueue (s : State) (n : Nat) (o : Op) (q : Queue) : State :=
  let es := (range' (o.f 1 15 0) (o.f 0 15 0)).map (s.norm o.lea)
  if es.any fun x => x.nan || x.inf then
    let t := { s.train with clipNonfinite := true, nonfiniteCount := s.train.nonfiniteCount + 1 }
    { s with train := t }.endOp n .ok 0x8000
  else
    let g := clipScale (es.foldl (fun a x => a + x.sum) 0) (o.w 2) (o.w 3)
    let r := s.clipSlots q g (o.f 4 15 0) (o.f 4 31 16)
    match r.2 with
    | some st => r.1.finishOp n (s.clipSpans o q) st
    | none => (r.1.modLea o.lea fun x => { x with qdb := x.qdb.insert (o.f 1 27 16) (o.f 5 15 0) }).finishOp n (s.clipSpans o q)

/-- Whether a slot that CLIP reads or writes waits for a refill. -/
def State.clipStalls (s : State) (o : Op) (q : Queue) : Bool :=
  (range' (o.f 4 31 16) (o.f 4 15 0)).any fun i => s.access (q.base + 128 * (i % 2 ^ q.log2)) 128 == .stall

/-- CLIP (R194, R195). -/
def execClip (n : Nat) (s : State) : Host.Outcome State Fault Refusal :=
  match s.runs n 8 with
  | none => finish s
  | some o =>
    if o.func ≠ 4 then finish s
    else match (s.lea o.lea).queues.find (o.f 1 27 16) with
      | none => finish (s.endOp n .stateMismatch)
      | some q =>
        let tail := (s.lea o.lea).qdb.getD (o.f 1 27 16) 0
        if !q.hbm || q.stopped || tail ≠ o.f 4 31 16 || (o.f 4 31 16 + o.f 4 15 0) % 2 ^ q.log2 ≠ o.f 5 15 0 then
          finish (s.endOp n .stateMismatch)
        else if s.clipStalls o q then finish s
        else finish (s.clipQueue n o q)

/-! ## SHARD_STAMP, SHARD_CHECK (R329, R330) and PREFETCH (R333) -/

/-- The buffer of a gather directory entry (Table 12.6). -/
def State.gatherBuffer (s : State) (a : Nat) : Nat := addr48 (s.readWord (a + 4)) (s.readWord (a + 8))

/-- The entries that a shard op names, by their addresses. -/
def Op.gatherEntries (o : Op) (j : Job) : List Nat := (range' (o.f 1 15 0) (o.f 0 15 0)).map j.gatherAddr

/-- The spans that a shard op reads. -/
def State.gatherSpans (s : State) (l : List Nat) : List Span :=
  l.flatMap fun a => [{ base := a, len := 32 }, { base := s.gatherBuffer a, len := 32 }]

/-- An entry stamped with its buffer's STEP and VERSION (R329). -/
def State.stampEntry (s : State) (a : Nat) : State :=
  let b := s.gatherBuffer a
  let t := s.writeWords a [s.readWord a ||| 0x80000000]
  t.writeWords (a + 12) [s.readWord (b + 4), s.readWord (b + 8)]

/-- SHARD_STAMP's work. -/
def State.shardStamp (s : State) (n : Nat) (l : List Nat) : State :=
  if l.all fun a => fld (s.readWord (s.gatherBuffer a)) 15 0 == fld (s.readWord a) 15 0 then
    (l.foldl State.stampEntry s).endOp n .ok
  else s.endOp n .badArgument

/-- SHARD_STAMP (R329). -/
def execShardStamp (n : Nat) (s : State) : Host.Outcome State Fault Refusal :=
  match s.runs n 8 with
  | none => finish s
  | some o => match s.jobs.find o.job with
    | none => finish s
    | some j =>
      if o.func ≠ 0x20 then finish s
      else finish (s.withAccess n (s.gatherSpans (o.gatherEntries j)) fun s => s.shardStamp n (o.gatherEntries j))

/-- Whether an entry is stamped and still agrees with its buffer's header (R330). -/
def State.stampHolds (s : State) (a : Nat) : Bool :=
  let b := s.gatherBuffer a
  bit (s.readWord a) 31 && s.readWord (a + 12) == s.readWord (b + 4) && s.readWord (a + 16) == s.readWord (b + 8)

/-- A shard has changed (R330): the flags, the event and the op's status. -/
def State.shardChanged (s : State) (n : Nat) (o : Op) : State :=
  let s := { s with units := { s.units with shardChanged := true, shardCount := s.units.shardCount + 1 } }
  let s := s.modJob o.job fun j => { j with replayPending := true }
  (s.queueEvent o.lea (faultEvent .shardChanged 0x01 0 (job := o.job) (step := o.step))).endOp n .shardChanged

/-- SHARD_CHECK (R330). -/
def execShardCheck (n : Nat) (s : State) : Host.Outcome State Fault Refusal :=
  match s.runs n 8 with
  | none => finish s
  | some o => match s.jobs.find o.job with
    | none => finish s
    | some j =>
      if o.func ≠ 0x21 then finish s
      else finish (s.withAccess n (s.gatherSpans (o.gatherEntries j)) fun s =>
        if (o.gatherEntries j).all s.stampHolds then s.endOp n .ok else s.shardChanged n o)

/-- PREFETCH (R333): the region's sectors are brought into the cache. -/
def execPrefetch (n : Nat) (s : State) : Host.Outcome State Fault Refusal :=
  match s.runs n 8 with
  | none => finish s
  | some o =>
    if o.func ≠ 0x22 then finish s
    else
      let secs := sectorsOf (o.addr 1) (o.w 3).toNat
      finish (s.withAccess n [{ base := o.addr 1, len := (o.w 3).toNat }] fun s =>
        { s with mem := { s.mem with present := s.mem.present ++ secs.filter fun x => !s.mem.present.contains x } }.endOp
          n .ok)

end Sys2Proof.Machine
end

