-- ==== Sys2Proof/Machine/Update.lean ====
section
/-!
DEFINITION. Machine/Update.lean: the weight-update engine (06, R161 to R172): stochastic rounding, its generators, and the
modes SGD, ADAMW, LION and ACCUMULATE.
-/

namespace Sys2Proof.Machine

/-! ## Stochastic rounding (R161 to R164) -/

/-- The seed of a lane's generator (R163). -/
def laneSeed (jobSeed : Nat) (layer part lane : Nat) (step : Word) : BitVec 64 :=
  let s := BitVec.ofNat 64 jobSeed ^^^ (BitVec.ofNat 64 layer <<< 48) ^^^ (BitVec.ofNat 64 part <<< 42) ^^^
    (BitVec.ofNat 64 lane <<< 32) ^^^ step.zeroExtend 64
  if s = 0 then 1 else s

/-- One step of a generator (R163). -/
def laneNext (s : BitVec 64) : BitVec 64 :=
  let s := s ^^^ (s <<< 13)
  let s := s ^^^ (s >>> 7)
  s ^^^ (s <<< 17)

/-- The 16-bit output of a generator's state (R163). -/
def laneOut (s : BitVec 64) : Nat :=
  (natField s.toNat 63 48 + natField s.toNat 47 32 + natField s.toNat 31 16 + natField s.toNat 15 0) % 65536

/-- A stochastic write of an FP32 value as BF16: its code and the overflow flag (R162). -/
def stochBf16 (f : Word) (r : Nat) : Nat × Bool :=
  if (fp32 f).isNan then (canonNan .bf16, false)
  else if (fp32 f).isInf then (fld f 31 16, false)
  else
    let code := fld f 31 16 + if r < fld f 15 0 then 1 else 0
    if code % 0x8000 = 0x7F80 then (code - 1, true) else (code, false)

/-! ## The op body (Table 6.5) -/

/-- The modes of Table 6.5. -/
inductive UpdMode
  | sgd | adamw | lion | accumulate
  deriving DecidableEq, Repr

/-- MODE of an update op (Table 6.5). -/
def Op.updMode (o : Op) : Option UpdMode :=
  match o.f 0 31 28 with
  | 0 => some .sgd | 1 => some .adamw | 2 => some .lion | 8 => some .accumulate | _ => none

/-- GRAD_KIND (Table 6.5). -/
def Op.gradKind (o : Op) : Nat := o.f 0 27 26
/-- Bytes of a gradient element. -/
def Op.gradBytes (o : Op) : Nat := if o.gradKind = 0 then 2 else 4
/-- COUNT of an update op. -/
def Op.updCount (o : Op) : Nat := (o.w 2).toNat

/-- The spans that an update op reads and writes (R169). -/
def Op.updSpans (o : Op) : List Span :=
  let n := o.updCount
  let p (base size : Nat) (write : Bool) : List Span :=
    { base := base, len := n * size } :: if write then [{ base := base, len := n * size, write := true }] else []
  let g := p (o.addr 9) o.gradBytes (o.gradKind == 2 && bit (o.w 0) 24)
  match o.updMode with
  | some .adamw => p (o.addr 3) 2 true ++ p (o.addr 5) 2 true ++ p (o.addr 7) 2 true ++ g
  | some .accumulate => p (o.addr 3) 4 true ++ g
  | _ => p (o.addr 3) 2 true ++ p (o.addr 5) 2 true ++ g

/-- Check 3 of R53 for an update op (R168, R169). -/
def State.updArgOk (s : State) (o : Op) : Bool :=
  let q := (s.lea o.lea).quotas.norm
  fld (wordAt o.hdr 0) 23 16 == 3 && o.updMode.isSome && o.gradKind != 3 && 1 ≤ o.updCount && o.updCount ≤ 2 ^ 31 &&
  o.f 0 22 16 == 0 && o.f 1 31 6 == 0 && o.f 12 31 16 == 0 && (o.body.drop 21).all (· == 0) &&
  o.updSpans.all (fun x => x.base % 32 == 0) && s.spansGranted o.lea o.updSpans &&
  (!bit (o.w 0) 23 || (o.f 11 31 16 < q && (o.updMode == some .accumulate || (o.f 11 15 0 < q && o.f 12 15 0 < q))))

/-! ## One element (R170) -/

/-- What the engine writes and captures for one element: new first moment, second moment and weight in FP32 before the
write, and the values g and u. -/
structure UpdElem where
  m : Word
  v : Word
  w : Word
  u : Word
  deriving DecidableEq, Repr

/-- sign(c) (R170): +0 at either zero, the canonical NaN at NaN. -/
def fsign (c : Word) : Word :=
  if (fp32 c).isNan then f32Nan else if (fp32 c).isZero then 0 else if (fp32 c).neg then 0xBF800000 else f32One

/-- The lines of R170 for one element, from the stored w, m, v and the gradient g. -/
def updElem (mode : UpdMode) (nesterov : Bool) (lr b1 b2 eps wd c1 c2 : Word) (w m v g : Word) : UpdElem :=
  let mul (a b : Word) : Word := (fmul a b).1
  let decay (d : Word) : Word := mul lr (fma wd w d).1
  let m1 := (fma b1 m (mul (fsub f32One b1).1 g)).1
  match mode with
  | .sgd =>
    let n := (fma b1 m g).1
    let u := decay (if nesterov then (fma b1 n g).1 else n)
    { m := n, v := v, w := (fsub w u).1, u := u }
  | .adamw =>
    let n := (fma b2 v (mul (fsub f32One b2).1 (mul g g))).1
    let d := (fdiv (mul m1 c1) (fadd (fsqrt (mul n c2)).1 eps).1).1
    { m := m1, v := n, w := (fsub w (decay d)).1, u := decay d }
  | .lion =>
    let u := decay (fsign m1)
    { m := (fma b2 m (mul (fsub f32One b2).1 g)).1, v := v, w := (fsub w u).1, u := u }
  | .accumulate => { m := m, v := v, w := w, u := 0 }

/-- What an update op has gathered so far. -/
structure UpdAcc where
  gens : Map (BitVec 64) := [] -- the lanes' generators that have drawn
  saturated : Bool := false
  nanOut : Bool := false
  normSat : Bool := false
  normG : Norm := {}
  normU : Norm := {}
  normW : Norm := {}
  deriving DecidableEq, Repr

/-- The next output of the generator of a lane (R163, R164). -/
def UpdAcc.draw (a : UpdAcc) (seed : BitVec 64) (lane : Nat) : Nat × UpdAcc :=
  let s := laneNext (a.gens.getD lane seed)
  (laneOut s, { a with gens := a.gens.insert lane s })

/-- One stochastic write: the BF16 code, with its flags taken. -/
def UpdAcc.write (a : UpdAcc) (seed : BitVec 64) (lane : Nat) (f : Word) : Nat × UpdAcc :=
  let (r, a) := a.draw seed lane
  let c := stochBf16 f r
  (c.1, { a with saturated := a.saturated || c.2, nanOut := a.nanOut || (fp32 f).isNan })

/-- The stored gradient of element `i`, widened or formed as FP32 (R170). -/
def State.gradAt (s : State) (o : Op) (i : Nat) : Word :=
  if o.gradKind = 0 then widenBf16 (leToNat (s.read (o.addr 9 + 2 * i) 2))
  else
    let w := s.readWord (o.addr 9 + 4 * i)
    if o.gradKind = 1 then w else (toFp32 (pairVal w)).1

/-- A stored BF16 state element. -/
def State.bf16At (s : State) (base i : Nat) : Word := widenBf16 (leToNat (s.read (base + 2 * i) 2))

/-- A BF16 code stored. -/
def State.putBf16 (s : State) (base i code : Nat) : State := s.write (base + 2 * i) (natToLE 2 code)

/-- The values captured for the norm entries of an element (R171). -/
def UpdAcc.norms (a : UpdAcc) (en : Bool) (g u : Val) (w : Option Val) : UpdAcc :=
  if !en then a
  else
    let x := a.normG.capture g
    let a := { a with normG := x.1, normSat := a.normSat || x.2 }
    match w with
    | none => a
    | some w =>
      let y := a.normU.capture u
      let z := a.normW.capture w
      { a with normU := y.1, normW := z.1, normSat := a.normSat || y.2 || z.2 }

/-- A gradient pair cleared after it is read (Table 6.5, CLEAR_GRAD). -/
def State.clearGrad (s : State) (o : Op) (i : Nat) : State :=
  if o.gradKind = 2 && bit (o.w 0) 24 then s.writeWords (o.addr 9 + 4 * i) [0] else s

/-- Element `i` of an update op (R170, R171). -/
def State.updOne (s : State) (o : Op) (mode : UpdMode) (jobSeed i : Nat) (a : UpdAcc) : State × UpdAcc :=
  let g := (fmul (o.w 20) (s.gradAt o i)).1
  let en := bit (o.w 0) 23
  match mode with
  | .accumulate =>
    let r := pairAdd (s.readWord (o.addr 3 + 4 * i)) (fp32 g)
    let a := { a with saturated := a.saturated || r.2, nanOut := a.nanOut || pairNan r.1 }
    (((s.clearGrad o i).writeWords (o.addr 3 + 4 * i) [r.1]), a.norms en (fp32 g) (.zero false) none)
  | _ =>
    let v0 := if mode = .adamw then s.bf16At (o.addr 7) i else 0
    let e := updElem mode (bit (o.w 0) 25) (o.w 13) (o.w 14) (o.w 15) (o.w 16) (o.w 17) (o.w 18) (o.w 19)
      (s.bf16At (o.addr 3) i) (s.bf16At (o.addr 5) i) v0 g
    let seed := laneSeed jobSeed (o.f 0 15 0) (o.f 1 5 0) (i % 1024) o.step
    let s := s.clearGrad o i
    let (cm, a) := a.write seed (i % 1024) e.m
    let s := s.putBf16 (o.addr 5) i cm
    let (cv, b) := a.write seed (i % 1024) e.v
    let (s, a) := if mode = .adamw then (s.putBf16 (o.addr 7) i cv, b) else (s, a)
    let (cw, a) := a.write seed (i % 1024) e.w
    (s.putBf16 (o.addr 3) i cw, a.norms en (fp32 g) (fp32 e.u) (some (decodeElem .bf16 cw)))

/-- `k` elements from `i` on. -/
def State.updLoop (s : State) (o : Op) (mode : UpdMode) (jobSeed : Nat) : Nat → Nat → UpdAcc → State × UpdAcc
  | 0, _, a => (s, a)
  | k + 1, i, a =>
    let r := s.updOne o mode jobSeed i a
    r.1.updLoop o mode jobSeed k (i + 1) r.2

/-- The engine's registers after an op (HUB_UPDATE_STATUS and its companions). -/
def Scale.updated (x : Scale) (a : UpdAcc) (n : Nat) : Scale :=
  { x with updNan := x.updNan || a.nanOut, updSat := x.updSat || a.saturated
           updNanCount := if a.nanOut then x.updNanCount + 1 else x.updNanCount
           updSatCount := if a.saturated then x.updSatCount + 1 else x.updSatCount
           updElements := x.updElements + BitVec.ofNat 64 n }

/-- A whole update op (R168 to R172). -/
def State.runUpdate (s : State) (n : Nat) (o : Op) (mode : UpdMode) : State :=
  let seed := match s.jobs.find o.job with
    | none => 0
    | some j => j.seed
  s.withAccess n o.updSpans fun s =>
    let r := s.updLoop o mode seed o.updCount 0 {}
    let s := r.1
    let a := r.2
    let s := ((s.addNorm o.lea (o.f 11 31 16) a.normG).addNorm o.lea (o.f 11 15 0) a.normU).addNorm o.lea (o.f 12 15 0) a.normW
    let detail := b2n a.saturated * 2 ^ 15 + b2n a.nanOut * 2 ^ 14 + b2n a.normSat * 2 ^ 13
    { s with scale := s.scale.updated a o.updCount }.finishOp n o.updSpans .ok detail

/-- An update op of a mode runs (R168). -/
def State.updateRow (s : State) (n : Nat) (mode : UpdMode) : State :=
  match s.runs n 7 with
  | none => s
  | some o => if o.updMode = some mode then s.runUpdate n o mode else s

/-- SGD (R170). -/
def execSgd (n : Nat) (s : State) : Host.Outcome State Fault Refusal := finish (s.updateRow n .sgd)
/-- ADAMW (R170). -/
def execAdamw (n : Nat) (s : State) : Host.Outcome State Fault Refusal := finish (s.updateRow n .adamw)
/-- LION (R170). -/
def execLion (n : Nat) (s : State) : Host.Outcome State Fault Refusal := finish (s.updateRow n .lion)
/-- ACCUMULATE (R170). -/
def execAccumulate (n : Nat) (s : State) : Host.Outcome State Fault Refusal := finish (s.updateRow n .accumulate)

end Sys2Proof.Machine
end

