-- ==== Sys2Proof/Machine/Windrow.lean ====
section
/-!
DEFINITION. Machine/Windrow.lean: the Windrow unit (11): groups and chunks, the wire format, the chunk at its owner, the
results that a member takes, and the step record.
-/

namespace Sys2Proof.Machine

/-! ## Groups and chunks (R286 to R288) -/

/-- The table indexes of a group's contributors, in order (R287). -/
def WGroup.contributors (g : WGroup) : List Nat :=
  (List.range g.members.length).filter fun i => !bit (wordAt g.members i) 31

/-- R: the number of contributors. -/
def WGroup.count (g : WGroup) : Nat := g.contributors.length

/-- The role of member `m`: kind and index (R287). -/
def WGroup.memberRole (g : WGroup) (m : Nat) : Nat × Nat :=
  let w := wordAt g.members m
  (if bit w 30 then 2 else g.roleKind, fld w 23 0)

/-- The contributor index of this device, if it contributes. -/
def WGroup.ownIndex (g : WGroup) : Option Nat :=
  if bit (wordAt g.members g.own) 31 then none else g.contributors.idxOf? g.own

/-- CH of a bucket of `count` elements over `r` contributors (R288). -/
def chunkLen (count r : Nat) : Nat := 8 * ceilDiv count (8 * r)

/-- The elements of chunk `c`: its first element and how many it holds (R288). -/
def chunkSpan (count r c : Nat) : Nat × Nat :=
  let ch := chunkLen count r
  (c * ch, min ((c + 1) * ch) count - c * ch)

/-- The contributor index that owns chunk `c` of a bucket (R288). -/
def ownerOf (r bucket c : Nat) : Nat := (c + bucket) % r

/-- The chunk of a bucket that contributor `i` owns. -/
def ownedChunk (r bucket i : Nat) : Nat := (i + r - bucket % r) % r

/-- The key of a chunk in the owner's table. -/
def chunkKey (gseq : Word) (c : Nat) : Nat := gseq.toNat * 1024 + c

/-- The state with a group changed. -/
def State.modGroup (s : State) (g : Nat) (f : WGroup → WGroup) : State :=
  match s.wdr.groups.find g with
  | none => s
  | some x => { s with wdr := { s.wdr with groups := s.wdr.groups.insert g (f x) } }

/-- The state with a Windrow run changed. -/
def State.modRun (s : State) (n : Nat) (f : WRun → WRun) : State :=
  match s.wdr.runs.find n with
  | none => s
  | some x => { s with wdr := { s.wdr with runs := s.wdr.runs.insert n (f x) } }

/-- A sequence mismatch is noted (R297, R298, R299). -/
def State.seqError (s : State) : State := { s with wdr := { s.wdr with seqErr := true, seqCount := s.wdr.seqCount + 1 } }

/-- Whether the peer that holds a role is LOST or QUARANTINED. -/
def State.roleGone (s : State) (j : Job) (kind index : Nat) : Bool :=
  match s.role j kind index with
  | none => false
  | some r => j.peerGone r.rank

/-- Whether contributor `i` of a group is LOST or QUARANTINED (R308). -/
def State.contributorGone (s : State) (g : WGroup) (i : Nat) : Bool :=
  match s.jobs.find g.job with
  | none => false
  | some j => s.roleGone j g.roleKind (g.memberRole (g.contributors.getD i 0)).2

/-! ## The wire format (R294, R295, R311) -/

/-- The Windrow header (Table 11.3). -/
structure WHeader where
  type : Nat
  fmt : Nat
  rank : Bool
  escalate : Bool
  act : Bool
  divide : Bool
  group : Nat
  gseq : Word
  step : Word
  bucket : Nat
  chunk : Nat
  count : Nat
  weight : Nat
  status : Nat := 0
  present : Nat := 0
  digest : Word := 0
  epoch : Word := 0
  scale : Nat := 0
  missing : List Nat := []
  deriving DecidableEq, Repr

/-- The 256 bytes of the header (Table 11.3, little-endian). -/
def WHeader.bytes (h : WHeader) : List Byte :=
  let w0 := packFields [(1, 24), (h.type, 20), (h.fmt, 16), (b2n h.rank, 15), (b2n h.escalate, 14), (b2n h.act, 13),
    (b2n h.divide, 12), (h.group, 0)]
  let miss := (List.range 32).map fun i =>
    BitVec.ofNat 32 ((h.missing.filter fun r => r / 32 == i).foldl (fun a r => a + 2 ^ (r % 32)) 0)
  wordsToBytes ([w0, h.gseq, h.step, packFields [(h.bucket, 16), (h.chunk, 0)], BitVec.ofNat 32 h.count,
    BitVec.ofNat 32 h.weight, packFields [(h.status, 16), (h.present, 0)], h.digest, h.epoch,
    packFields [(h.scale, 24)]] ++ List.replicate 22 0 ++ miss)

/-- The header that 256 bytes hold. -/
def WHeader.parse (b : List Byte) : WHeader :=
  let w := bytesToWords 64 b
  let f := fun i hi lo => fld (wordAt w i) hi lo
  { type := f 0 23 20, fmt := f 0 19 16, rank := f 0 15 15 == 1, escalate := f 0 14 14 == 1, act := f 0 13 13 == 1
    divide := f 0 12 12 == 1, group := f 0 5 0, gseq := wordAt w 1, step := wordAt w 2, bucket := f 3 31 16
    chunk := f 3 15 0, count := (wordAt w 4).toNat, weight := (wordAt w 5).toNat, status := f 6 31 16
    present := f 6 15 0, digest := wordAt w 7, epoch := wordAt w 8, scale := f 9 31 24
    missing := (List.range 1024).filter fun r => bit (wordAt w (32 + r / 32)) (r % 32) }

/-- Blocks of 32 values, the last one padded with +0 (R63). -/
def paddedBlocks : Nat → List Val → List (List Val)
  | 0, _ => []
  | n + 1, l =>
    if l.isEmpty then []
    else (l.take 32 ++ List.replicate (32 - min 32 l.length) (.zero false)) :: paddedBlocks n (l.drop 32)

/-- A chunk's data in agreed-scale mode: data plane and scale plane, and whether an element saturated (R311). -/
def encodeAgreed (f : Fmt) (scale : Nat) (ws : List Word) : List Byte × Bool :=
  let blks := (paddedBlocks (ws.length / 32 + 1) (ws.map fp32)).map (encodeBlock f (some scale))
  (blks.flatMap (fun b => packBlock f b.2.1) ++ blks.map (fun b => BitVec.ofNat 8 b.1), blks.any fun b => b.2.2.1)

/-- A chunk's data in FP32: CH words, those past the chunk's elements +0 (R295). -/
def encodeFp32 (ch : Nat) (ws : List Word) : List Byte := wordsToBytes (ws ++ List.replicate (ch - ws.length) 0)

/-- The elements that a message's data hold, as FP32 (R65, R66, R311). -/
def decodeChunk (fmt n : Nat) (data : List Byte) : List Word :=
  match fmt, fmtOfCode fmt with
  | 2, _ => bytesToWords n data
  | _, none => []
  | _, some f =>
    let planeLen := 32 * ceilDiv n 32
    (List.range n).map fun i =>
      (toFp32 (decodeMx f (data.getD i 0).toNat (data.getD (planeLen + i / 32) 0).toNat)).1

/-- The digest of a RESULT's data (Table 11.3). -/
def digestOf (data : List Byte) : Word := crc32 data

/-! ## Sending to a member (R294, R296) -/

/-- The window offset of the slot of a GSEQ and an index, in the contribution or the result area (R294). -/
def WGroup.slotOffset (g : WGroup) (result : Bool) (gseq : Word) (i : Nat) : Nat :=
  ((if result then g.slotSets * g.count else 0) + gseq.toNat % g.slotSets * g.count + i) * g.slotBytes

/-- A message to member `m` of a group. -/
def State.wdrSend (s : State) (g : WGroup) (m : Nat) (result : Bool) (i : Nat) (h : WHeader) (data : List Byte)
    (owner : MsgOwner) : State :=
  let role := g.memberRole m
  s.sendRole g.job role.1 role.2
    { rank := 0, channel := g.channel, target := g.window, offset := g.slotOffset result h.gseq i
      data := s.packBytes (h.bytes ++ data), owner := owner, step := h.step }

/-- The epoch at which this device owns chunks of a group (Table 11.3, OWNER_EPOCH). -/
def State.ownEpoch (s : State) (g : WGroup) : Word :=
  match s.jobs.find g.job with
  | none => 0
  | some j => match s.role j (g.memberRole g.own).1 (g.memberRole g.own).2 with
    | none => 0
    | some r => r.epoch

/-! ## Step records (R314, Table 11.6) -/

/-- The order of statuses in an op and in a step record (R291). -/
def wdrRank : Status → Nat
  | .ok => 0 | .partialDone => 1 | .escalated => 2 | .peerLost => 3 | .seqMismatch => 4 | _ => 5

/-- The worse of two statuses (R291). -/
def wdrMax (a b : Status) : Status := if wdrRank a < wdrRank b then b else a

/-- The group with its running record of a step changed. -/
def WGroup.modStep (g : WGroup) (step : Word) (f : WStep → WStep) : WGroup :=
  if g.steps.any fun x => x.step == step then
    { g with steps := g.steps.map fun x => if x.step == step then f x else x }
  else { g with steps := g.steps ++ [f { step := step }] }

/-- The running record of a step changed, unless the step's record is written. -/
def WGroup.noteStep (g : WGroup) (step : Word) (f : WStep → WStep) : WGroup :=
  if g.steps.any (fun x => x.step == step) || g.written.all (· != step) then g.modStep step f else g

/-- The words 0 to 23 of a step record, then words 32 to 63 (Table 11.6). -/
def WStep.words (x : WStep) (group : Nat) (count : Nat) : List Word × List Word :=
  let mode := if x.arrival && x.rank then 2 else if x.rank then 1 else 0
  ([packFields [(1, 24), (mode, 22), (b2n x.localOnly, 21), (group, 0)], x.step,
    packFields [(satNat 16 x.buckets, 16), (x.status.code, 0)],
    packFields [(satNat 16 x.partialChunks, 16), (satNat 16 x.escalatedChunks, 0)],
    packFields [(satNat 16 x.late, 16), (satNat 16 x.moved, 0)], BitVec.ofNat 32 (x.dMin.getD 0),
    BitVec.ofNat 32 x.dMax, x.firstGseq.getD 0] ++ words64 count ++ List.replicate 14 0,
   (List.range 32).map fun i =>
     BitVec.ofNat 32 (((x.missing.eraseDups).filter fun r => r / 32 == i).foldl (fun a r => a + 2 ^ (r % 32)) 0))

/-- The step record of a step is written, its host fields left alone (R314); a partial sector that fails raises an event
(Table 8.7). -/
def State.writeStepRecord (s : State) (gi : Nat) (g : WGroup) (x : WStep) : State :=
  let a := g.recBase + 256 * (g.records.toNat % 2 ^ g.log2Rec)
  let ws := x.words gi s.now.toNat
  let s := (s.writeWords a ws.1).writeWords (a + 128) ws.2
  let s := s.modGroup gi fun g => { g with records := g.records + 1, steps := g.steps.filter fun y => y.step != x.step
                                           written := (x.step :: g.written).take 64 }
  let lea := match s.jobs.find g.job with
    | none => 0
    | some j => j.lea
  match s.writeAccess a 96 with
  | .bad sec st => s.queueEvent lea (faultEvent st 0x06 0x40 (index := gi) (addr := sec * 32))
  | _ => s

/-! ## The end of a Windrow op (R291, R314) -/

/-- Word accessors of the op body (Table 11.1). -/
def Op.wGroup (o : Op) : Nat := o.f 0 5 0
@[inherit_doc Op.wGroup] def Op.wAct (o : Op) : Bool := o.f 0 31 28 == 1
@[inherit_doc Op.wGroup] def Op.wFmt (o : Op) : Nat := o.f 0 27 24
@[inherit_doc Op.wGroup] def Op.wSrcKind (o : Op) : Nat := o.f 0 23 20
@[inherit_doc Op.wGroup] def Op.wResFmt (o : Op) : Nat := o.f 0 19 16
@[inherit_doc Op.wGroup] def Op.wLast (o : Op) : Bool := bit (o.w 0) 15
@[inherit_doc Op.wGroup] def Op.wBucket (o : Op) : Nat := o.f 1 31 16
@[inherit_doc Op.wGroup] def Op.wCount (o : Op) : Nat := (o.w 2).toNat
@[inherit_doc Op.wGroup] def Op.wWeight (o : Op) : Nat := o.f 9 13 0
@[inherit_doc Op.wGroup] def Op.wScale (o : Op) : Nat := o.f 10 31 24
@[inherit_doc Op.wGroup] def Op.wResBytes (o : Op) : Nat := if o.wResFmt = 0 then 2 else 4

/-- The chunks of an op's bucket that hold elements (R288). -/
def WGroup.chunksOf (g : WGroup) (o : Op) : List Nat :=
  (List.range g.count).filter fun c => 0 < (chunkSpan o.wCount g.count c).2

/-- DETAIL of a Windrow op (Table 11.2). -/
def WRun.detail (r : WRun) : Nat :=
  let n := (r.results.filter fun e => e.2.1 == .partialDone || e.2.1 == .escalated).length
  b2n r.saturated * 2 ^ 15 + b2n r.nanOut * 2 ^ 14 + b2n r.normSat * 2 ^ 13 + b2n r.localOnly * 2 ^ 12 +
  b2n (r.rank && !r.localOnly) * 2 ^ 11 + satNat 11 n

/-- What an op adds to the running record of its step (Table 11.6). -/
def WStep.take (x : WStep) (r : WRun) (st : Status) : WStep :=
  { x with buckets := x.buckets + 1, status := wdrMax x.status st
           arrival := x.arrival || (!r.localOnly && r.gseq.isSome && !r.rank)
           rank := x.rank || (!r.localOnly && r.gseq.isSome && r.rank), localOnly := x.localOnly || r.localOnly
           partialChunks := x.partialChunks + (r.results.filter fun e => e.2.1 == .partialDone).length
           escalatedChunks := x.escalatedChunks + (r.results.filter fun e => e.2.1 == .escalated).length }

/-- The spans that a Windrow op writes. -/
def Op.wSpans (o : Op) (local' : Bool) : List Span :=
  if local' then [{ base := o.addr 5, len := 4 * o.wCount, write := true }]
  else [{ base := o.addr 7, len := o.wResBytes * o.wCount, write := true }]

/-- A Windrow op ends with a status: its step's record takes it in, and is written at LAST (R314). -/
def State.wdrEnd (s : State) (n : Nat) (st : Status) : State :=
  match s.wdr.runs.find n, s.op n with
  | some r, some o =>
    let s := { s with wdr := { s.wdr with runs := s.wdr.runs.erase n } }
    let s := s.modGroup r.group fun g => g.noteStep o.step fun x => x.take r st
    let s := s.modJob o.job fun j => if o.wLast then { j with lastBucket := o.wBucket } else j
    let s := match s.wdr.groups.find r.group with
      | none => s
      | some g => match g.steps.find? (fun (x : WStep) => x.step == o.step) with
        | some x => if o.wLast then s.writeStepRecord r.group g x else s
        | none => s
    if st.good then s.finishOp n (o.wSpans r.localOnly) st r.detail else s.endOp n st r.detail
  | _, _ => s

/-- The chunk that a run's member owns, if it holds elements. -/
def WGroup.ownChunk (g : WGroup) (o : Op) : Option Nat :=
  match g.ownIndex with
  | none => none
  | some i =>
    let c := ownedChunk g.count o.wBucket i
    if 0 < (chunkSpan o.wCount g.count c).2 then some c else none

/-- Whether every member has acknowledged the result of the chunk that the op's member owns (R291). -/
def WGroup.ownAcked (g : WGroup) (o : Op) (gseq : Word) : Bool :=
  match g.ownChunk o with
  | none => true
  | some c => match g.chunks.find (chunkKey gseq c) with
    | none => true
    | some k => k.unacked.isEmpty

/-- A Windrow op ends once its chunks are complete and its messages acknowledged (R291). -/
def State.wdrCheck (s : State) (n : Nat) : State :=
  match s.wdr.runs.find n, s.op n with
  | some r, some o => match r.whole, r.gseq, s.wdr.groups.find r.group with
    | some st, _, _ => s.wdrEnd n st
    | none, some q, some g =>
      if r.unacked.isEmpty && (g.chunksOf o).all (fun c => r.results.has c) && g.ownAcked o q then
        s.wdrEnd n (r.results.foldl (fun a e => wdrMax a e.2.1) .ok)
      else s
    | _, _, _ => s
  | _, _ => s

/-- The run of a group that was sent under a GSEQ. -/
def State.runOf (s : State) (g : Nat) (gseq : Word) : Option (Nat × WRun) :=
  s.wdr.runs.find? fun e => e.2.group == g && e.2.gseq == some gseq

/-- An op ends at once for one chunk's sake: its status is the highest that its chunks have reached (R291, R308, R309). -/
def State.wdrAbort (s : State) (n c : Nat) (st : Status) : State :=
  match s.wdr.runs.find n with
  | none => s
  | some r => s.wdrEnd n (wdrMax (r.results.foldl (fun a e => wdrMax a e.2.1) .ok)
      (match r.results.find c with
        | some e => e.1
        | none => st))

/-! ## Taking results (R299, R307) -/

/-- The words of a result converted into RESULT_FMT: codes, whether one saturated, and whether one is a NaN. -/
def resultCodes (fmt : Nat) (ws : List Word) : List Nat × Bool × Bool :=
  let f : Fmt := if fmt = 0 then .bf16 else .fp32
  let enc := ws.map fun w => encodeVal f (fp32 w)
  (enc.map (·.1), enc.any (·.2), ws.any fun w => (fp32 w).isNan)

/-- The values of a result written into RESULT, with norm capture (R307). -/
def State.writeResult (s : State) (n : Nat) (o : Op) (first : Nat) (ws : List Word) : State :=
  let (codes, sat, nan) := resultCodes o.wResFmt ws
  let f : Fmt := if o.wResFmt = 0 then .bf16 else .fp32
  let a := o.addr 7 + o.wResBytes * first
  let s := (s.write a (codes.flatMap (natToLE o.wResBytes))).noteWrite o.step a (o.wResBytes * codes.length)
  let cap := Norm.captureAll {} (codes.map (decodeElem f))
  let en := bit (o.w 0) 12
  let s := if en then s.addNorm o.lea (o.f 1 15 0) cap.1 else s
  s.modRun n fun r => { r with saturated := r.saturated || sat, nanOut := r.nanOut || nan
                               normSat := r.normSat || (en && cap.2) }

/-- What a step's record takes from a RESULT (Table 11.6). -/
def WStep.takeResult (x : WStep) (act : Bool) (m : EarlyResult) : WStep :=
  let x := { x with missing := (x.missing ++ m.missing).eraseDups }
  if act || m.status == .seqMismatch || m.status == .peerLost then x
  else { x with dMin := some (min m.d (x.dMin.getD m.d)), dMax := max x.dMax m.d }

/-- A later RESULT of a chunk that was already taken is discarded; it counts where its DIGEST differs (R310). -/
def State.laterResult (s : State) (gi : Nat) (old new : Word) (step : Word) : State :=
  if old = new then s
  else
    let s := s.modGroup gi fun g => g.noteStep step fun x => { x with moved := x.moved + 1 }
    { s with wdr := { s.wdr with moved := true, movedCount := s.wdr.movedCount + 1 } }

/-- The span of RESULT that a chunk's values fill. -/
def Op.wChunkSpan (o : Op) (r c : Nat) : Span :=
  let sp := chunkSpan o.wCount r c
  { base := o.addr 7 + o.wResBytes * sp.1, len := o.wResBytes * sp.2, write := true }

/-- A RESULT reaches a member's running op: it is taken, waits for memory (none), or is discarded (R307, R310). -/
def State.takeResult (s : State) (n : Nat) (r : WRun) (o : Op) (gi : Nat) (g : WGroup) (gseq : Word) (c : Nat)
    (m : EarlyResult) : Option State :=
  let sp := chunkSpan o.wCount g.count c
  match r.results.find c with
  | some old => some (s.laterResult gi old.2 m.digest o.step)
  | none =>
    let note (s : State) : State :=
      let s := s.modGroup gi fun g =>
        { g.noteStep o.step fun x => x.takeResult o.wAct m with
          digests := g.digests.insert (chunkKey gseq c) (m.digest, o.step) }
      (s.modRun n fun r => { r with results := r.results.insert c (m.status, m.digest) }).wdrCheck n
    if m.status = .seqMismatch ∨ m.status = .peerLost then some (note s)
    else match s.spansAccess [o.wChunkSpan g.count c] with
      | .stall => none
      | .bad sec st => some ((s.lostRead sec).wdrEnd n st)
      | .good => some (note (s.writeResult n o sp.1 (decodeChunk m.fmt sp.2 m.data)))

/-- A slot that holds a result no more: its older RESULT was discarded (R299). -/
def EarlyResult.lost (m : EarlyResult) : EarlyResult :=
  { m with request := false, status := .seqMismatch, d := 0, missing := [], digest := 0, data := [] }

/-- A RESULT or a request waits in its slot for an op that has not been sent; an unconsumed RESULT of GSEQ − SLOT_SETS is
discarded (R299). -/
def State.keepEarly (s : State) (gi : Nat) (g : WGroup) (gseq : Word) (owner : Nat) (m : EarlyResult) : State :=
  let old := chunkKey (gseq - BitVec.ofNat 32 g.slotSets) owner
  let put (s : State) : State := s.modGroup gi fun g => { g with early := g.early.insert (chunkKey gseq owner) m }
  match g.early.find old with
  | none => put s
  | some e =>
    if e.request || e.status == .seqMismatch then put s
    else put ((s.modGroup gi fun g => { g with early := g.early.insert old e.lost }).seqError)

/-! ## The chunk at its owner (R301 to R306, R311, R312) -/

/-- D as an FP32 word. -/
def fp32Nat (n : Nat) : Word := (toFp32 (.fin false n 0)).1

/-- The chunk with one contribution added to its sum (R301, R302). -/
def Chunk.addIn (k : Chunk) (i : Nat) (x : Contribution) : Chunk :=
  { k with sum := if k.taken = [] then x.words else List.zipWith (fun a b => (fadd a b).1) k.sum x.words
           taken := k.taken ++ [i], d := k.d + x.weight, waiting := k.waiting.erase i }

/-- In rank-order mode, the contributions now due are added (R302). -/
def Chunk.addDue : Nat → Chunk → Chunk
  | 0, k => k
  | n + 1, k => match k.waiting.find k.taken.length with
    | none => k
    | some x => (k.addIn k.taken.length x).addDue n

/-- A contribution taken in the order of the chunk's mode. -/
def Chunk.take (k : Chunk) (i : Nat) (x : Contribution) : Chunk :=
  if k.rankOrder then ({ k with waiting := k.waiting.insert i x }).addDue (k.waiting.length + 1) else k.addIn i x

/-- Whether contributor `i`'s contribution is held by the chunk. -/
def Chunk.holds (k : Chunk) (i : Nat) : Bool := k.taken.contains i || k.waiting.has i

/-- Whether the chunk still takes contributions. -/
def Chunk.live (k : Chunk) : Bool := k.st == .opened || k.st == .short || k.st == .escalating

/-- The RESULT header of a chunk (Table 11.3). -/
def State.resultHeader (s : State) (gi : Nat) (g : WGroup) (gseq : Word) (c : Nat) (k : Chunk) : WHeader :=
  { type := 2, fmt := k.resultFmt, rank := k.rankOrder, escalate := k.escalated, act := k.act, divide := k.divide
    group := gi, gseq := gseq, step := k.step, bucket := k.bucket, chunk := c, count := k.count, weight := k.d
    status := k.status.code, present := k.taken.length, digest := digestOf k.result, epoch := s.ownEpoch g
    scale := if k.resultFmt = 2 then 0 else k.scale, missing := k.missing }

/-- A chunk's RESULT goes to member `m`. -/
def State.sendResult (s : State) (gi : Nat) (g : WGroup) (gseq : Word) (c : Nat) (k : Chunk) (m : Nat) : State :=
  s.wdrSend g m true (ownerOf g.count k.bucket c) (s.resultHeader gi g gseq c k) k.result
    (.result gi gseq.toNat c m)

/-- Whether member `m`'s role is held by this device. -/
def State.memberHere (s : State) (g : WGroup) (m : Nat) : Bool :=
  m == g.own || match s.jobs.find g.job with
    | none => false
    | some j => match s.role j (g.memberRole m).1 (g.memberRole m).2 with
      | none => false
      | some r => r.rank == j.rank

/-- Whether member `m` is another device that can be reached. -/
def State.memberThere (s : State) (g : WGroup) (m : Nat) : Bool :=
  !s.memberHere g m && match s.jobs.find g.job with
    | none => false
    | some j => match s.role j (g.memberRole m).1 (g.memberRole m).2 with
      | none => false
      | some r => j.peerActive r.rank

/-- The chunk stands in the owner's table. -/
def State.putChunk (s : State) (gi : Nat) (gseq : Word) (c : Nat) (k : Chunk) : State :=
  s.modGroup gi fun g => { g with chunks := g.chunks.insert (chunkKey gseq c) k }

/-- What a chunk's RESULT is for the member that owns the chunk. -/
def Chunk.early (k : Chunk) : EarlyResult :=
  { fmt := k.resultFmt, status := k.status, d := k.d, present := k.taken.length, missing := k.missing
    digest := digestOf k.result, data := k.result, escalated := k.escalated, scale := k.scale }

/-- The owner's own op takes its chunk's result; without one, or while memory makes it wait, the result stays in its slot
(R299, R307). -/
def State.takeOwn (s : State) (gi : Nat) (gseq : Word) (c : Nat) (k : Chunk) : State :=
  match s.wdr.groups.find gi with
  | none => s
  | some g =>
    let keep := s.keepEarly gi g gseq (ownerOf g.count k.bucket c) k.early
    match s.runOf gi gseq with
    | none => if signedLess gseq g.gseq then s else keep
    | some (n, r) => match s.op n with
      | none => s
      | some o => (s.takeResult n r o gi g gseq c k.early).getD keep

/-- A chunk that is CLOSED or FAILED goes to every member and is SENT; the owner takes the result itself (R306, R307). -/
def State.publish (s : State) (gi : Nat) (g : WGroup) (gseq : Word) (c : Nat) (k : Chunk) : State :=
  let ms := (List.range g.members.length).filter (s.memberThere g)
  let k := { k with st := .sent, unacked := ms, waiting := [] }
  let s := s.putChunk gi gseq c k
  let s := { s with wdr := { s.wdr with closed := s.wdr.closed + 1 } }
  (ms.foldl (fun s m => s.sendResult gi g gseq c k m) s).takeOwn gi gseq c k

/-- A chunk fails (Table 11.4). -/
def State.failChunk (s : State) (gi : Nat) (g : WGroup) (gseq : Word) (c : Nat) (k : Chunk) (st : Status) : State :=
  s.publish gi g gseq c { k with st := .failed, status := st, result := [], resultFmt := 2 }

/-- A sequence mismatch at an owner: SEQ_ERR and a fault event; a chunk before SENT fails (R298). -/
def State.failSeq (s : State) (gi : Nat) (g : WGroup) (gseq : Word) (c : Nat) (k : Chunk) : State :=
  let lea := match s.jobs.find g.job with
    | none => 0
    | some j => j.lea
  let s := s.seqError.queueEvent lea (faultEvent .seqMismatch 0x06 0 (index := gi) (job := g.job) (step := k.step))
  if k.live then s.failChunk gi g gseq c k .seqMismatch else s

/-- The elements of a chunk as the owner's own op contributes them. -/
def State.ownContribution (s : State) (gi : Nat) (g : WGroup) (gseq : Word) (c : Nat) : Option (Nat × Contribution) :=
  match g.ownIndex, s.runOf gi gseq with
  | some i, some (n, r) => match s.op n with
    | none => none
    | some o =>
      let sp := chunkSpan o.wCount g.count c
      some (i, { words := (r.elems.drop sp.1).take sp.2, weight := o.wWeight })
  | _, _ => none

/-- A chunk escalates (R312): its sum is discarded, every other contributor is asked for FP32, and this device's own
contribution is taken again in FP32. -/
def State.escalate (s : State) (gi : Nat) (g : WGroup) (gseq : Word) (c : Nat) (k : Chunk) : State × Chunk :=
  let k := { k with st := .escalating, escalated := true, sum := [], taken := [], waiting := [], d := 0 }
  let k := match s.ownContribution gi g gseq c with
    | none => k
    | some (i, x) => k.take i x
  let s := s.putChunk gi gseq c k
  let s := { s with wdr := { s.wdr with escalated := true, escalateCount := s.wdr.escalateCount + 1 } }
  let h0 := s.resultHeader gi g gseq c k
  let h : WHeader := { h0 with type := 3, status := 0, present := 0, digest := 0, weight := 0, missing := [] }
  ((g.contributors.filter (s.memberThere g)).foldl (fun s m =>
    s.wdrSend g m true (ownerOf g.count k.bucket c) h [] (.escalate gi gseq.toNat c m)) s, k)

/-- The job ranks of the contributors left out of a chunk (R305). -/
def State.leftOut (s : State) (g : WGroup) (k : Chunk) : List Nat :=
  ((List.range g.count).filter fun i => !k.taken.contains i).map fun i => match s.jobs.find g.job with
    | none => 0
    | some j => match s.role j g.roleKind (g.memberRole (g.contributors.getD i 0)).2 with
      | none => 0
      | some r => r.rank

/-- A chunk closes with its data (R305, R306). -/
def State.closeAs (s : State) (gi : Nat) (g : WGroup) (gseq : Word) (c : Nat) (k : Chunk) (fmt : Nat)
    (data : List Byte) : State :=
  let out := s.leftOut g k
  let st : Status := if k.escalated then .escalated else if out.isEmpty then .ok else .partialDone
  let s := if out.isEmpty then s
    else { s with wdr := { s.wdr with partialSet := true, partialCount := s.wdr.partialCount + 1 } }
  s.publish gi g gseq c { k with st := .closed, status := st, result := data, missing := out, resultFmt := fmt }

/-- The words of a chunk's result: its sum, divided by D where DIVIDE asks for it (R306). -/
def Chunk.resultWords (k : Chunk) : List Word :=
  if !k.act && k.divide then k.sum.map fun w => (fdiv w (fp32Nat k.d)).1 else k.sum

/-- A chunk closes in FP32. -/
def State.closeFp32 (s : State) (gi : Nat) (g : WGroup) (gseq : Word) (c : Nat) (k : Chunk) : State :=
  s.closeAs gi g gseq c k 2 (encodeFp32 (chunkLen k.count g.count) k.resultWords)

/-- A chunk closes (R305, R306, R311): its result is formed and sent, or its encoding saturates and it escalates. -/
def State.closeChunk (s : State) (gi : Nat) (g : WGroup) (gseq : Word) (c : Nat) (k : Chunk) : State :=
  match k.act && k.fmt != 2 && !k.escalated, fmtOfCode k.fmt with
  | true, some f =>
    let enc := encodeAgreed f k.scale k.resultWords
    if enc.2 then
      let r := s.escalate gi g gseq c k
      if r.2.taken.length = g.count then r.1.closeFp32 gi g gseq c r.2 else r.1
    else s.closeAs gi g gseq c k k.fmt enc.1
  | _, _ => s.closeFp32 gi g gseq c k

/-- Table 11.4 applied to a chunk as it stands: it closes, fails, or stays. -/
def State.judgeChunk (s : State) (gi : Nat) (gseq : Word) (c : Nat) : State :=
  match s.wdr.groups.find gi with
  | none => s
  | some g => match g.chunks.find (chunkKey gseq c) with
    | none => s
    | some k =>
      let absent := (List.range g.count).filter fun i => !k.taken.contains i
      let gone := (List.range g.count).filter (s.contributorGone g)
      if !k.live then s
      else if (k.rankOrder || k.act || k.st == .escalating) && !gone.isEmpty then s.failChunk gi g gseq c k .peerLost
      else if absent.isEmpty then s.closeChunk gi g gseq c k
      else if k.rankOrder || k.act || k.st == .escalating then s
      else if absent.all gone.contains || (k.st == .short && g.quorum ≤ k.taken.length) then s.closeChunk gi g gseq c k
      else s

/-- CHUNK_DEADLINE (R304): key of the chunk in group `group`. -/
def execChunkDeadline (group key : Nat) (s : State) : Host.Outcome State Fault Refusal :=
  match s.wdr.groups.find group with
  | none => finish s
  | some g => match g.chunks.find key with
    | none => finish s
    | some k =>
      let gseq := BitVec.ofNat 32 (key / 1024)
      let c := key % 1024
      if k.st ≠ .opened ∨ k.act ∨ k.rankOrder ∨ s.elapsed k.openAt < g.deadline then finish s
      else if g.quorum ≤ k.taken.length then finish (s.closeChunk group g gseq c k)
      else finish ((s.putChunk group gseq c { k with st := .short }).judgeChunk group gseq c)

end Sys2Proof.Machine
end

