-- ==== Sys2Proof/Machine/WindrowOps.lean ====
section
/-!
DEFINITION. Machine/WindrowOps.lean: the Windrow ops (11, R289 to R300), the messages that reach the unit (R298, R299,
R305, R309, R312), what the transport and the role table tell it (R308 to R310), and the commands of range 0x04 (R315).
-/

namespace Sys2Proof.Machine

/-! ## The op (R289, R290, R293) -/

/-- Bytes of a source element (Table 11.1, SRC_KIND). -/
def Op.wSrcBytes (o : Op) : Nat := if o.wSrcKind = 0 then 2 else 4

/-- The spans that a contributor's op reads and writes before it sends (R293). -/
def WGroup.sourceSpans (g : WGroup) (o : Op) : List Span :=
  let acc := { base := o.addr 5, len := 4 * o.wCount }
  { base := o.addr 3, len := o.wSrcBytes * o.wCount } ::
    if g.reduceEvery = 1 then [] else [acc, { acc with write := true }]

/-- Whether the fields of a Windrow op are defined and in range (R290). -/
def Op.wFieldsOk (o : Op) : Bool :=
  let act := o.wAct
  fld (wordAt o.hdr 0) 23 16 == 3 && o.f 0 31 28 < 2 && (o.wFmt == 2 || (act && (o.wFmt == 3 || o.wFmt == 4))) &&
  o.wSrcKind < 3 && !(act && o.wSrcKind == 2) && (o.wResFmt == 0 || o.wResFmt == 2) && o.f 0 11 6 == 0 &&
  1 ≤ o.wCount && o.wCount ≤ 2 ^ 28 && o.f 9 31 14 == 0 && o.f 10 23 0 == 0 && o.wScale ≤ 0xFE &&
  (o.body.drop 11).all (· == 0)

/-- Whether a group's own needs of an op are met (R290): WEIGHT by the member's kind, the slots, the job, and the source
and accumulator tensors of a contributor. -/
def State.wGroupOk (s : State) (g : WGroup) (o : Op) : Bool :=
  (if g.ownIndex.isSome && !o.wAct then 1 ≤ o.wWeight else o.wWeight == 0) &&
  256 + 4 * chunkLen o.wCount g.count ≤ g.slotBytes && o.job == g.job &&
  (g.ownIndex.isNone || ((g.sourceSpans o).all (fun x => x.base % 32 == 0) && s.spansGranted o.lea (g.sourceSpans o)))

/-- Check 3 of R53 for a Windrow op (R290). -/
def State.wdrArgOk (s : State) (o : Op) : Bool :=
  let norms := (s.lea o.lea).quotas.norm
  o.wFieldsOk && o.addr 7 % 32 == 0 && s.granted o.lea (o.addr 7) (o.wResBytes * o.wCount) true &&
  (!bit (o.w 0) 12 || o.f 1 15 0 < norms) &&
  match s.wdr.groups.find o.wGroup with
  | none => true
  | some g => s.wGroupOk g o

/-- The state check of a Windrow op at admission (R290): its group is set and its STEP does not lie below BASE_STEP. -/
def State.wdrStateOk (s : State) (o : Op) : Bool :=
  match s.wdr.groups.find o.wGroup with
  | none => false
  | some g => !signedLess o.step g.baseStep

/-- The mode that an op runs in, as its group stands at its admission (R300, Table 11.8). -/
def State.wdrRank (s : State) (o : Op) : Bool :=
  bit (o.w 0) 14 || match s.wdr.groups.find o.wGroup with
    | none => false
    | some g => g.modeRank || signedLess o.step g.rankUntil

/-- Whether a step reduces (R293). -/
def WGroup.reduces (g : WGroup) (step : Word) : Bool := (step - g.baseStep).toNat % g.reduceEvery == g.reduceEvery - 1

/-- The exact value of source element `i` (R293). -/
def State.wSource (s : State) (o : Op) (i : Nat) : Val :=
  let a := o.addr 3 + o.wSrcBytes * i
  match o.wSrcKind with
  | 0 => decodeElem .bf16 (leToNat (s.read a 2))
  | 1 => fp32 (s.readWord a)
  | _ => pairVal (s.readWord a)

/-- Element `i` as the op contributes it (R293). -/
def State.wElement (s : State) (g : WGroup) (o : Op) (i : Nat) : Word :=
  if g.reduceEvery = 1 then
    if o.wSrcKind = 1 then s.readWord (o.addr 3 + 4 * i) else (toFp32 (s.wSource o i)).1
  else (toFp32 ((pairVal (s.readWord (o.addr 5 + 4 * i))).add (s.wSource o i))).1

/-- A contributor's op on a step that does not reduce: SRC is added into the pairs at ACC (R293). -/
def State.wAccumulate (s : State) (o : Op) : State :=
  let ws := (List.range o.wCount).map fun i => (pairAdd (s.readWord (o.addr 5 + 4 * i)) (s.wSource o i)).1
  s.writeWords (o.addr 5) ws

/-- The work of a Windrow op on its tensors: it waits for memory, or ends where an access fails. -/
def State.wdrAccess (s : State) (n : Nat) (o : Op) (spans : List Span) (k : State → State) : State :=
  match s.spansAccess spans with
  | .stall => s
  | .bad sec st => if st = .unitFault ∧ (s.recomputeTarget o sec).isSome then s else (s.lostRead sec).wdrEnd n st
  | .good => k s

/-! ## Sending (R296, R297, R312) -/

/-- Where an op stands against the group's send position (R297). -/
inductive SendTurn
  | before | now | later
  deriving DecidableEq, Repr

/-- The op's turn by its step and bucket (R297); before the first send, bucket 0 of any step is due. -/
def WGroup.turn (g : WGroup) (o : Op) : SendTurn :=
  match g.lastStep, g.sendStep with
  | some p, _ =>
    if signedLess p o.step then (if o.wBucket = 0 then .now else .later) else .before
  | none, none => if o.wBucket = 0 then .now else .later
  | none, some p =>
    if o.step = p then (if o.wBucket = g.sendBucket then .now else if o.wBucket < g.sendBucket then .before else .later)
    else if signedLess o.step p then .before else .later

/-- Whether the op of GSEQ − SLOT_SETS in the group, if any, has completed (R297). -/
def State.slotFree (s : State) (gi : Nat) (g : WGroup) : Bool := (s.runOf gi (g.gseq - BitVec.ofNat 32 g.slotSets)).isNone

/-- The table index of the member that owns chunk `c` of a bucket. -/
def WGroup.ownerMember (g : WGroup) (bucket c : Nat) : Nat := g.contributors.getD (ownerOf g.count bucket c) 0

/-- The CONTRIB of a run's chunk: its header and data (R295, R311, R312). -/
def WRun.contribution (r : WRun) (o : Op) (g : WGroup) (gseq : Word) (c : Nat) : WHeader × List Byte :=
  let sp := chunkSpan o.wCount g.count c
  let ws := (r.elems.drop sp.1).take sp.2
  let asked := r.fp32.contains c
  let enc := match asked || o.wFmt == 2, fmtOfCode o.wFmt with
    | false, some f => encodeAgreed f o.wScale ws
    | _, _ => (encodeFp32 (chunkLen o.wCount g.count) ws, false)
  let fmt := if asked then 2 else o.wFmt
  ({ type := 1, fmt := fmt, rank := r.rank, escalate := asked || enc.2, act := o.wAct, divide := bit (o.w 0) 13
     group := r.group, gseq := gseq, step := o.step, bucket := o.wBucket, chunk := c, count := o.wCount
     weight := o.wWeight, scale := if fmt = 2 then 0 else o.wScale }, enc.1)

/-! ## A contribution at the owner (R298, R301, R302, R305, R309, R312) -/

/-- Whether a CONTRIB differs from the first one of its chunk (R298); an ESCALATE resend may differ in WIRE_FMT. -/
def Chunk.differs (k : Chunk) (h : WHeader) : Bool :=
  k.step != h.step || k.bucket != h.bucket || k.count != h.count || k.act != h.act || k.divide != h.divide ||
  k.rankOrder != h.rank || (!h.escalate && (k.fmt == 2) != (h.fmt == 2))

/-- A chunk that the CONTRIB opens (Table 11.4). -/
def State.newChunk (s : State) (h : WHeader) : Chunk :=
  { step := h.step, bucket := h.bucket, count := h.count, act := h.act, divide := h.divide, fmt := h.fmt
    rankOrder := h.rank, scale := h.scale, openAt := s.now }

/-- The table without the chunks that are SENT and acknowledged and whose slot set is reused (Table 11.4). -/
def WGroup.sweep (g : WGroup) : WGroup :=
  { g with chunks := g.chunks.sel fun key k =>
      !(k.st == .sent && k.unacked.isEmpty && g.chunks.any fun e =>
        (e.1 / 1024) % g.slotSets == (key / 1024) % g.slotSets && signedLess (BitVec.ofNat 32 (key / 1024)) (BitVec.ofNat 32 (e.1 / 1024))) }

/-- Whether a GSEQ's chunk slot holds a newer chunk already. -/
def WGroup.slotNewer (g : WGroup) (gseq : Word) : Bool :=
  g.chunks.any fun e => (e.1 / 1024) % g.slotSets == gseq.toNat % g.slotSets &&
    signedLess gseq (BitVec.ofNat 32 (e.1 / 1024))

/-- Whether a contributor may have gone from the GSEQ expected of it straight to another: each one between was a bucket
whose chunk at this owner has no elements and so carries no traffic (R288). -/
def WGroup.skipped (g : WGroup) (h : WHeader) (from' : Word) : Bool :=
  let leavesEmpty := h.count ≤ (g.count - 1) * chunkLen h.count g.count
  let n := (h.gseq - from').toNat
  n ≤ 4096 && (List.range n).all fun k =>
    let q := from' + BitVec.ofNat 32 k
    g.empties.contains q || (!signedLess q g.gseq && leavesEmpty)

/-- A contribution reaches a chunk at its owner (R298, R301, R302, R305, R309, R312). -/
def State.intoChunk (s : State) (gi : Nat) (g : WGroup) (i : Nat) (h : WHeader) (data : List Byte) (k : Chunk) : State :=
  let n := (chunkSpan h.count g.count h.chunk).2
  let x : Contribution := { words := decodeChunk h.fmt n data, weight := h.weight }
  let put (s : State) (k : Chunk) : State := (s.putChunk gi h.gseq h.chunk k).judgeChunk gi h.gseq h.chunk
  if k.live && k.differs h then s.failSeq gi g h.gseq h.chunk k
  else match k.st with
    | .opened | .short =>
      if k.holds i then s
      else if !h.escalate then put s (k.take i x)
      else
        let r := s.escalate gi g h.gseq h.chunk k
        if h.fmt = 2 && !r.2.holds i then put r.1 (r.2.take i x) else put r.1 r.2
    | .escalating => if h.escalate && h.fmt == 2 && !k.holds i then put s (k.take i x) else s
    | _ =>
      let m := g.contributors.getD i 0
      let s := if s.memberThere g m then s.sendResult gi g h.gseq h.chunk k m else s
      if k.taken.contains i then s
      else
        let s := s.modGroup gi fun g => g.noteStep k.step fun x => { x with late := x.late + 1 }
        { s with wdr := { s.wdr with late := true, lateCount := s.wdr.lateCount + 1 } }

/-- A CONTRIB from contributor `i` (R298): its GSEQ is the expected one, a resend, or a mismatch. -/
def State.contrib (s : State) (gi i : Nat) (h : WHeader) (data : List Byte) : State :=
  match s.wdr.groups.find gi with
  | none => s
  | some g =>
    let due := g.expect.getD i g.expectBase
    let key := chunkKey h.gseq h.chunk
    if g.count ≤ i || (chunkSpan h.count g.count h.chunk).2 == 0 then s
    else if signedLess due h.gseq && !g.skipped h due then
      match g.chunks.find key with
      | some k => s.failSeq gi g h.gseq h.chunk k
      | none => s.failSeq gi g h.gseq h.chunk (s.newChunk h)
    else
      let s := if signedLess h.gseq due then s
        else s.modGroup gi fun g => { g with expect := g.expect.insert i (h.gseq + 1) }
      match g.chunks.find key with
      | some k => s.intoChunk gi g i h data k
      | none =>
        if g.slotNewer h.gseq then s
        else
          let s := (s.putChunk gi h.gseq h.chunk (s.newChunk h)).modGroup gi WGroup.sweep
          s.intoChunk gi g i h data (s.newChunk h)

/-- A run's chunk goes to its owner: to this device itself, over the fabric, or to nobody where the owner cannot be
reached (R296, R308). -/
def State.contribute (s : State) (n c : Nat) : State :=
  match s.wdr.runs.find n, s.op n with
  | some r, some o => match s.wdr.groups.find r.group, r.gseq with
    | some g, some q => match g.ownIndex with
      | none => s
      | some i =>
        let m := g.ownerMember o.wBucket c
        let msg := r.contribution o g q c
        if s.memberHere g m then
          (s.modRun n fun r => { r with unacked := r.unacked.filter (· != c) }).contrib r.group i msg.1 msg.2
        else if !s.memberThere g m then s.wdrAbort n c .peerLost
        else
          let s := s.modRun n fun r => { r with unacked := if r.unacked.contains c then r.unacked else r.unacked ++ [c] }
          s.wdrSend g m false i msg.1 msg.2 (.windrow n c)
    | _, _ => s
  | _, _ => s

/-- An ESCALATE_REQ or a RESULT that waits in the slot of a run's chunk is taken (R299, R312). -/
def State.takeEarly (s : State) (n c : Nat) (request : Bool) : State :=
  match s.wdr.runs.find n, s.op n with
  | some r, some o => match s.wdr.groups.find r.group, r.gseq with
    | some g, some q =>
      let key := chunkKey q (ownerOf g.count o.wBucket c)
      match g.early.find key with
      | none => s
      | some e =>
        let t := s.modGroup r.group fun g => { g with early := g.early.erase key }
        if e.request != request then s
        else if e.request then t.modRun n fun r => { r with fp32 := r.fp32 ++ [c] }
        else (t.takeResult n r o r.group g q c e).getD s
    | _, _ => s
  | _, _ => s

/-- The group after an op is sent under its GSEQ (R297). -/
def WGroup.sent (g : WGroup) (o : Op) : WGroup :=
  let empty := match g.ownIndex with
    | none => false
    | some i => (chunkSpan o.wCount g.count (ownedChunk g.count o.wBucket i)).2 == 0
  let q := g.gseq
  { g with gseq := q + 1, sendStep := some o.step, sendBucket := if o.wLast then 0 else o.wBucket + 1
           lastStep := if o.wLast then some o.step else none
           firsts := if o.wBucket = 0 then ((o.step, q) :: g.firsts).take 4096 else g.firsts
           lasts := if o.wLast then ((o.step, q + 1) :: g.lasts).take 8 else g.lasts
           empties := if empty then (q :: g.empties).take 4096 else g.empties }

/-- An op is sent (R293, R296, R297). -/
def State.wdrSendOp (s : State) (n : Nat) (o : Op) (g : WGroup) : State :=
  let q := g.gseq
  let mine := g.ownIndex.isSome
  let elems := if mine then (List.range o.wCount).map (s.wElement g o) else []
  let s := if mine && g.reduceEvery != 1 then
      (s.writeWords (o.addr 5) (List.replicate o.wCount 0)).noteWrite o.step (o.addr 5) (4 * o.wCount)
    else s
  let s := s.modGroup o.wGroup fun g => g.sent o
  let s := if o.wBucket = 0 then
      s.modGroup o.wGroup fun g => g.modStep o.step fun x => { x with firstGseq := some q }
    else s
  let s := s.modRun n fun r => { r with gseq := some q, elems := elems, waitSince := s.now }
  let cs := g.chunksOf o
  let s := cs.foldl (fun s c => s.takeEarly n c true) s
  let s := cs.foldl (fun s c => s.contribute n c) s
  (cs.foldl (fun s c => s.takeEarly n c false) s).wdrCheck n

/-- A started op of a reducing step: it is sent when its turn has come, held until then, or too late (R297); once sent,
results that waited in their slots are taken. -/
def State.wdrTry (s : State) (n : Nat) : State :=
  match s.wdr.runs.find n, s.op n with
  | some r, some o => match s.wdr.groups.find r.group, r.gseq with
    | some g, none => match g.turn o with
      | .before => s.seqError.wdrEnd n .seqMismatch
      | .later => s
      | .now =>
        if s.slotFree r.group g then
          s.wdrAccess n o (if g.ownIndex.isSome then g.sourceSpans o else []) fun s => s.wdrSendOp n o g
        else s
    | some g, some _ => ((g.chunksOf o).foldl (fun s c => s.takeEarly n c false) s).wdrCheck n
    | none, _ => s
  | _, _ => s

/-- A Windrow op begins (R289, R293): an op of a reducing step may be sent; any other adds its source into ACC and
ends. -/
def State.wdrBegin (s : State) (n : Nat) (o : Op) (g : WGroup) : State :=
  let s := if o.wBucket = 0 then
      s.modGroup o.wGroup fun g => { g with written := g.written.filter (· != o.step) }
    else s
  let put (s : State) (loc : Bool) : State :=
    { s with wdr := { s.wdr with runs := s.wdr.runs.insert n { group := o.wGroup, localOnly := loc, rank := o.rank } } }
  if g.reduces o.step then (put s false).wdrTry n
  else if g.ownIndex.isNone then
    (put s false).wdrEnd n .ok
  else (put s true).wdrAccess n o (g.sourceSpans o) fun s => (s.wAccumulate o).wdrEnd n .ok

/-- WINDROW_OP (R289): the op has started. -/
def execWindrowOp (n : Nat) (s : State) : Host.Outcome State Fault Refusal :=
  match s.runs n 4 with
  | none => finish s
  | some o => match s.wdr.groups.find o.wGroup with
    | none => finish (s.endOp n .stateMismatch)
    | some g => match s.wdr.runs.find n with
      | none => finish (s.wdrBegin n o g)
      | some r =>
        if r.localOnly then
          finish (s.wdrAccess n o (g.sourceSpans o) fun s => (s.wAccumulate o).wdrEnd n .ok)
        else finish s

/-- WINDROW_SEND (R297). -/
def execWindrowSend (n : Nat) (s : State) : Host.Outcome State Fault Refusal :=
  match s.runs n 4 with
  | none => finish s
  | some _ => finish (s.wdrTry n)

/-- RESULT_LIMIT_EXPIRY (R309): the contributions whose results have not come are sent again. -/
def execResultLimitExpiry (n : Nat) (s : State) : Host.Outcome State Fault Refusal :=
  match s.wdr.runs.find n, s.op n with
  | some r, some o => match s.wdr.groups.find r.group with
    | none => finish s
    | some g =>
      if r.gseq.isNone || !r.unacked.isEmpty || s.elapsed r.waitSince < g.resultLimit ||
        (g.chunksOf o).all (fun c => r.results.has c) then finish s
      else
        let cs := (g.chunksOf o).filter fun c => !r.results.has c && !s.memberHere g (g.ownerMember o.wBucket c)
        let s := cs.foldl (fun s c => s.contribute n c) s
        finish (s.modRun n fun r => { r with waitSince := s.now })
  | _, _ => finish s

/-! ## Messages (R294, R298, R299, R312) -/

/-- The group whose staging window a delivered message was placed in, with its number. -/
def State.groupAt (s : State) (d : Delivery) : Option (Nat × WGroup) :=
  s.wdr.groups.find? fun e => e.2.job == d.job && e.2.window == d.target

/-- The index of the slot that a message was placed in (R294). -/
def WGroup.slotIndex (g : WGroup) (offset : Nat) : Nat := offset / max g.slotBytes 1 % max g.count 1

/-- CONTRIB (R298, R301, R302, R305). -/
def execContrib (s : State) : Host.Outcome State Fault Refusal :=
  match s.front .contrib with
  | none => finish s
  | some (d, t) => match s.groupAt d with
    | none => finish t
    | some (gi, g) => finish (t.contrib gi (g.slotIndex d.offset) (.parse d.body) (d.body.drop 256))

/-- A RESULT as a member takes it. -/
def WHeader.toEarly (h : WHeader) (data : List Byte) : EarlyResult :=
  { fmt := h.fmt, status := (Status.ofCode h.status).getD .peerLost, d := h.weight, present := h.present
    missing := h.missing, digest := h.digest, data := data, escalated := h.escalate, scale := h.scale }

/-- RESULT (R299, R307, R310). -/
def execResult (s : State) : Host.Outcome State Fault Refusal :=
  match s.front .result with
  | none => finish s
  | some (d, t) => match s.groupAt d with
    | none => finish t
    | some (gi, g) =>
      let h := WHeader.parse d.body
      let m := h.toEarly (d.body.drop 256)
      match s.runOf gi h.gseq with
      | some (n, r) => match s.op n with
        | none => finish t
        | some o =>
          if (g.chunksOf o).contains h.chunk then finish ((t.takeResult n r o gi g h.gseq h.chunk m).getD s) else finish t
      | none => match g.digests.find (chunkKey h.gseq h.chunk) with
        | some old => finish (t.laterResult gi old.1 h.digest old.2)
        | none =>
          if signedLess h.gseq g.gseq then finish t
          else finish (t.keepEarly gi g h.gseq (g.slotIndex d.offset) m)

/-- ESCALATE_REQ (R312): a contribution already sent goes again in FP32; one not yet sent is to be sent in FP32. -/
def execEscalateReq (s : State) : Host.Outcome State Fault Refusal :=
  match s.front .escalateReq with
  | none => finish s
  | some (d, t) => match s.groupAt d with
    | none => finish t
    | some (gi, g) =>
      let h := WHeader.parse d.body
      match s.runOf gi h.gseq with
      | some (n, r) =>
        if r.fp32.contains h.chunk || r.results.has h.chunk then finish t
        else finish ((t.modRun n fun r => { r with fp32 := r.fp32 ++ [h.chunk] }).contribute n h.chunk)
      | none =>
        if signedLess h.gseq g.gseq then finish t
        else finish (t.keepEarly gi g h.gseq (g.slotIndex d.offset) { h.toEarly [] with request := true })

/-! ## What the transport and the role table tell the unit (R281, R308 to R310) -/

/-- A member's RESULT needs no acknowledgement any more: the chunk and the owner's op go on (R291). -/
def State.resultAcked (s : State) (gi gseq c m : Nat) : State :=
  let q := BitVec.ofNat 32 gseq
  let s := s.modGroup gi fun g =>
    { g with chunks := g.chunks.mapVals fun key k =>
        if key = chunkKey q c then { k with unacked := k.unacked.filter (· != m) } else k }
  let s := s.modGroup gi WGroup.sweep
  match s.runOf gi q with
  | none => s
  | some (n, _) => s.wdrCheck n

/-- A CONTRIB is acknowledged (R281, R291); with the last one, the wait of R309 starts. -/
def State.contribAcked (s : State) (n c : Nat) : State :=
  (s.modRun n fun r =>
    let u := r.unacked.filter (· != c)
    { r with unacked := u, waitSince := if u.isEmpty then s.now else r.waitSince }).wdrCheck n

/-- A Windrow message is acknowledged. -/
def State.wdrAcked (s : State) (w : MsgOwner) : State :=
  match w with
  | .windrow n c => s.contribAcked n c
  | .result gi gseq c m => s.resultAcked gi gseq c m
  | _ => s

/-- A Windrow message is refused with a NAK other than ROLE_MOVED and ST_NO_RESOURCE, or its peer is gone: the op ends
with the status (R308, R309). -/
def State.wdrRefused (s : State) (w : MsgOwner) (st : Status) : State :=
  let st := if st = .seqMismatch then st else .peerLost
  let opOf (gi gseq : Nat) (s : State) (c : Nat) : State :=
    match s.runOf gi (BitVec.ofNat 32 gseq) with
    | none => s
    | some (n, _) => s.wdrAbort n c st
  match w with
  | .windrow n c => s.wdrAbort n c st
  | .result gi gseq c m => opOf gi gseq (s.resultAcked gi gseq c m) c
  | .escalate gi gseq c _ => opOf gi gseq s c
  | _ => s

/-- A message of the unit to a peer that is LOST or QUARANTINED is awaited no more (R308). -/
def State.wdrDropped (s : State) (w : MsgOwner) : State :=
  match w with
  | .windrow n c => match s.wdr.runs.find n with
    | none => s
    | some r => if r.results.has c then s.contribAcked n c else s.wdrAbort n c .peerLost
  | .result gi gseq c m => s.resultAcked gi gseq c m
  | _ => s

/-- A CONTRIB to a role that this device itself now holds, in a message taken out of its channel: where the chunk's result
has not come, the chunk is contributed here (R310). -/
def State.contribHere (s : State) (n c : Nat) : State :=
  match s.wdr.runs.find n with
  | none => s
  | some r => if r.results.has c then s.contribAcked n c else s.contribute n c

/-- A wait of R324 ends a Windrow op as a whole. -/
def State.wdrRoleMoved (s : State) (w : MsgOwner) : State :=
  match w with
  | .windrow n _ => s.wdrEnd n .roleMoved
  | .result gi gseq c m => s.resultAcked gi gseq c m
  | _ => s

/-- The runs of a group, sent, with a chunk that waits for a role's holder: op and chunk. -/
def State.waitingOn (s : State) (gi : Nat) (p : WGroup → Nat → Bool) : List (Nat × Nat) :=
  match s.wdr.groups.find gi with
  | none => []
  | some g => (s.wdr.runs.sel fun _ r => r.group == gi && r.gseq.isSome).flatMap fun e => match s.op e.1 with
    | none => []
    | some o => ((g.chunksOf o).filter fun c => !e.2.results.has c && p g (g.ownerMember o.wBucket c)).map fun c => (e.1, c)

/-- Whether a role of a job is held by a rank. -/
def State.roleAtRank (s : State) (jh rank : Nat) (role : Nat × Nat) : Bool :=
  match s.jobs.find jh with
  | none => false
  | some j => match s.role j role.1 role.2 with
    | none => false
    | some r => r.rank == rank

/-- A job's peer has become LOST or QUARANTINED (R308): the owned chunks of a group are judged again, and its ops that
wait for a chunk of that peer end. -/
def State.groupPeerGone (s : State) (jh rank gi : Nat) : State :=
  let keys : List Nat := match s.wdr.groups.find gi with
    | none => []
    | some g => g.chunks.map (·.1)
  let s := keys.foldl (fun (s : State) k => s.judgeChunk gi (BitVec.ofNat 32 (k / 1024)) (k % 1024)) s
  (s.waitingOn gi fun g m => s.roleAtRank jh rank (g.memberRole m)).foldl
    (fun (s : State) w => s.wdrAbort w.1 w.2 .peerLost) s

@[inherit_doc State.groupPeerGone] def State.wdrPeerGone (s : State) (jh rank : Nat) : State :=
  ((s.wdr.groups.filter fun e => e.2.job == jh).map (·.1)).foldl (fun (s : State) gi => s.groupPeerGone jh rank gi) s

/-- Whether a role of a job is held by this device. -/
def State.roleHere (s : State) (jh : Nat) (role : Nat × Nat) : Bool :=
  match s.jobs.find jh with
  | none => false
  | some j => s.roleAtRank jh j.rank role

/-- The role table has changed the epoch of a role (R310): in a group, a former holder abandons its open chunks, and
every chunk of the role whose RESULT has not come is contributed to the new holder. -/
def State.groupMoved (s : State) (jh gi : Nat) (role : Nat × Nat) : State :=
  let hit (g : WGroup) (m : Nat) : Bool := g.memberRole m == role
  let s := if s.roleHere jh role then s
    else s.modGroup gi fun g =>
      { g with chunks := g.chunks.sel fun key k => !(k.live && hit g (g.ownerMember k.bucket (key % 1024))) }
  (s.waitingOn gi hit).foldl (fun (s : State) w => s.contribute w.1 w.2) s

@[inherit_doc State.groupMoved] def State.wdrMoved (s : State) (jh kind index : Nat) : State :=
  ((s.wdr.groups.filter fun e => e.2.job == jh && e.2.roleKind == kind).map (·.1)).foldl
    (fun (s : State) gi => s.groupMoved jh gi (kind, index)) s

/-- A group is removed with what the unit holds for it (R313, Table 11.8). -/
def State.clearGroup (s : State) (gi : Nat) : State :=
  { s with wdr := { s.wdr with groups := s.wdr.groups.erase gi, runs := s.wdr.runs.sel fun _ r => r.group != gi } }

/-! ## Commands (R315) -/

/-- Whether an op of a group is in flight. -/
def State.groupBusy (s : State) (gi : Nat) : Bool := s.hub.ops.any fun e => e.2.cls == 4 && e.2.wGroup == gi

/-- The group that WDR_GROUP_SET's arguments give, with its member table read. -/
def State.groupArgs (s : State) (a : List Word) : WGroup :=
  let members := s.readWords (argAddr a 2) (argN a 4)
  let r := (members.filter fun w => !bit w 31).length
  { job := argN a 1, memBase := argAddr a 2, members := members, own := argN a 5, roleKind := argN a 6
    channel := argN a 7, reduceEvery := argN a 8, baseStep := wordAt a 9, modeRank := argN a 10 == 1
    rankUntil := wordAt a 11, deadline := if argN a 12 = 0 then 500000 else argN a 12
    quorum := if argN a 13 = 0 then ceilDiv r 2 else argN a 13
    resultLimit := if argN a 14 = 0 then 10000000 else argN a 14, window := argN a 15, slotSets := argN a 16
    slotBytes := argN a 17, recBase := argAddr a 18, log2Rec := argN a 20, gseq0 := wordAt a 21, gseq := wordAt a 21
    expectBase := wordAt a 21 }

/-- Whether WDR_GROUP_SET's plain arguments are in range (Table 11.8). -/
def State.groupArgsOk (s : State) (l : Nat) (a : List Word) : Bool :=
  argN a 0 < 64 && argAddrOk a 2 && 1 ≤ argN a 4 && argN a 4 ≤ 1024 && argN a 5 < argN a 4 && 1 ≤ argN a 6 &&
  argN a 6 ≤ 4 && argN a 7 < 4096 && 1 ≤ argN a 8 && argN a 8 ≤ 64 && argN a 10 < 2 && argN a 15 < 256 &&
  2 ≤ argN a 16 && argN a 16 ≤ 8 && argAddrOk a 18 && 4 ≤ argN a 20 && argN a 20 ≤ 16 &&
  s.granted l (argAddr a 2) (4 * argN a 4) false && s.granted l (argAddr a 18) (256 * 2 ^ argN a 20) true

/-- A member table entry is in order (R287). -/
def memberOk (w : Word) : Bool := fld w 29 24 == 0 && (bit w 31 || !bit w 30)

/-- WDR_GROUP_SET: GROUP, JOB and the further arguments of Table 11.8 in its order. -/
def cmdWdrGroupSet : CmdDef := cmd 0x0401 22 .any fun s l a =>
  match s.jobOf l (argN a 1) with
  | none => .fail .badHandle
  | some j =>
    need (s.groupArgsOk l a) .badArgument <|
    needAccess (s.access (argAddr a 2) (4 * argN a 4)) s <|
    let g := s.groupArgs a
    need (g.members.all memberOk && 1 ≤ g.count) .badArgument <|
    match j.windows.find g.window with
    | none => .fail .stateMismatch
    | some w =>
      need (2 * g.slotSets * g.count * g.slotBytes ≤ w.len) .badArgument <|
      need (!s.wdr.groups.has (argN a 0) && w.data) .stateMismatch <|
      .ok { s with wdr := { s.wdr with groups := s.wdr.groups.insert (argN a 0) g } }

/-- A command on a set group of the job: JOB, GROUP and more. -/
def groupCmd (code words : Nat) (ok : List Word → Bool) (body : State → Nat → WGroup → List Word → Reply) : CmdDef :=
  jobCmd code words fun s _ jh _ a =>
    need (argN a 1 < 64 && ok a) .badArgument <|
    match s.wdr.groups.find (argN a 1) with
    | none => .fail .stateMismatch
    | some g => need (g.job = jh) .stateMismatch (body s (argN a 1) g a)

/-- WDR_GROUP_CLEAR: JOB, GROUP. -/
def cmdWdrGroupClear : CmdDef := groupCmd 0x0402 2 (fun _ => true) fun s gi _ _ =>
  need (!s.groupBusy gi) .stateMismatch <| .ok (s.clearGroup gi)

/-- WDR_MODE_SET: JOB, GROUP, MODE, RANK_UNTIL_STEP. -/
def cmdWdrModeSet : CmdDef := groupCmd 0x0403 4 (fun a => argN a 2 < 2) fun s gi _ a =>
  .ok (s.modGroup gi fun g => { g with modeRank := argN a 2 == 1, rankUntil := wordAt a 3 })

/-- WDR_SEQ_RESET: JOB, GROUP, GSEQ. The owner expectations are cleared: each contributor is expected at the new GSEQ. -/
def cmdWdrSeqReset : CmdDef := groupCmd 0x0404 3 (fun _ => true) fun s gi _ a =>
  need (!s.groupBusy gi) .stateMismatch <|
  .ok (s.modGroup gi fun g =>
    { g with gseq := wordAt a 2, expectBase := wordAt a 2, sendStep := none, sendBucket := 0, lastStep := none, expect := []
             chunks := [], early := [], digests := [], empties := [] })

/-- WDR_GROUP_READ: JOB, GROUP; answers the arguments of WDR_GROUP_SET, GSEQ, SEND_STEP, SEND_BUCKET and RECORDS
(Table 2.13). -/
def cmdWdrGroupRead : CmdDef := groupCmd 0x0405 2 (fun _ => true) fun s gi g _ =>
  let n (x : Nat) : Word := BitVec.ofNat 32 x
  .done s .ok ([n gi, n g.job] ++ words48 g.memBase ++ [n g.members.length, n g.own, n g.roleKind, n g.channel,
    n g.reduceEvery, g.baseStep, n (b2n g.modeRank), g.rankUntil, n g.deadline, n g.quorum, n g.resultLimit, n g.window,
    n g.slotSets, n g.slotBytes] ++ words48 g.recBase ++ [n g.log2Rec, g.gseq0, g.gseq, g.sendStep.getD 0,
    n g.sendBucket, g.records])

/-! ## The command rows -/

/-- WDR_GROUP_SET (R315). -/
def execWdrGroupSet (lea : Nat) (tag : Word) (args : List Word) (s : State) : Host.Outcome State Fault Refusal :=
  finish (s.issue cmdWdrGroupSet lea tag args)
/-- WDR_GROUP_CLEAR (R315). -/
def execWdrGroupClear (lea : Nat) (tag : Word) (args : List Word) (s : State) : Host.Outcome State Fault Refusal :=
  finish (s.issue cmdWdrGroupClear lea tag args)
/-- WDR_MODE_SET (R315). -/
def execWdrModeSet (lea : Nat) (tag : Word) (args : List Word) (s : State) : Host.Outcome State Fault Refusal :=
  finish (s.issue cmdWdrModeSet lea tag args)
/-- WDR_SEQ_RESET (R315). -/
def execWdrSeqReset (lea : Nat) (tag : Word) (args : List Word) (s : State) : Host.Outcome State Fault Refusal :=
  finish (s.issue cmdWdrSeqReset lea tag args)
/-- WDR_GROUP_READ (R315). -/
def execWdrGroupRead (lea : Nat) (tag : Word) (args : List Word) (s : State) : Host.Outcome State Fault Refusal :=
  finish (s.issue cmdWdrGroupRead lea tag args)

/-- The commands of this file. -/
def windrowCommands : List CmdDef :=
  [cmdWdrGroupSet, cmdWdrGroupClear, cmdWdrModeSet, cmdWdrSeqReset, cmdWdrGroupRead]

end Sys2Proof.Machine
end

