-- ==== Sys2Proof/Machine/Baler.lean ====
section
/-!
DEFINITION. Machine/Baler.lean: Baler's op, sets and checkpoint images (13, R353 to R373): SNAPSHOT, riding and sweeping of
weights, the loss record, sealing, abandoning and the far relay.
-/

namespace Sys2Proof.Machine

/-! ## The op (R362, Table 13.6) -/

/-- FUNC of a Baler op (Table 13.6). -/
def Op.bFunc (o : Op) : Nat := o.f 0 31 28
@[inherit_doc Op.bFunc] def Op.bSet (o : Op) : Nat := o.f 0 27 24
@[inherit_doc Op.bFunc] def Op.bKind (o : Op) : Nat := o.f 0 23 20
@[inherit_doc Op.bFunc] def Op.bOrdinal (o : Op) : Nat := o.f 0 19 16
@[inherit_doc Op.bFunc] def Op.bTarget (o : Op) : Nat := o.f 0 15 14
@[inherit_doc Op.bFunc] def Op.bSource (o : Op) : Nat := o.f 0 3 0
@[inherit_doc Op.bFunc] def Op.bRole (o : Op) : Nat × Nat := (o.f 3 31 24, o.f 3 23 0)

/-- A Baler op of a function, with its job and the job's Baler state, while it runs. -/
def State.balRun (s : State) (n func : Nat) : Option (Op × Job × Baler) :=
  match s.runs n 6 with
  | none => none
  | some o => match s.jobs.find o.job with
    | none => none
    | some j => match j.baler with
      | none => none
      | some b => if o.bFunc = func then some (o, j, b) else none

/-! ## Images (R355 to R357) -/

/-- Units of a span of bytes. -/
def unitsOf (len : Nat) : Nat := ceilDiv len 4096

/-- Unit `i` of a run of bytes, padded with zeros (R355). -/
def unitOf (data : List Byte) (i : Nat) : List Byte :=
  let d := (data.drop (4096 * i)).take 4096
  d ++ List.replicate (4096 - d.length) 0

/-- Bytes of a section's leaf table at its place in the image. -/
def Section.tableLen (x : Section) : Nat := roundUp (32 * unitsOf x.len) 4096

/-- Image offset of a section's leaf table (R355). -/
def Section.tableOffset (x : Section) : Nat := x.offset + 4096 * unitsOf x.len

/-- A section's leaf table: 32 bytes a unit. -/
def Section.leafTable (x : Section) : List Byte := (List.range (unitsOf x.len)).flatMap fun i => x.leaves.getD i []

/-- Whether every unit of a section is captured. -/
def Section.whole (x : Section) : Bool := (List.range (unitsOf x.len)).all fun i => x.leaves.has i

/-- Sections in table order, with their image offsets (R355): kind, ordinal, source, base and length of each. -/
def layoutSections : Nat → List (Nat × Nat × Nat × Nat × Nat) → List Section
  | _, [] => []
  | off, (kind, ordinal, source, base, len) :: rest =>
    let x : Section := { kind := kind, ordinal := ordinal, source := source, base := base, len := len, offset := off }
    x :: layoutSections (x.tableOffset + x.tableLen) rest

/-- The sections' copies placed in the snapshot area; WEIGHTS are not copied (R366). -/
def placeCopies : Nat → List Section → List Section × Nat
  | a, [] => ([], a)
  | a, x :: rest =>
    if x.kind = 1 then
      let r := placeCopies a rest
      (x :: r.1, r.2)
    else
      let r := placeCopies (a + roundUp x.len 4096) rest
      ({ x with area := a } :: r.1, r.2)

/-- The sections' leaf tables placed in the snapshot area (R366). -/
def placeTables : Nat → List Section → List Section × Nat
  | a, [] => ([], a)
  | a, x :: rest =>
    let r := placeTables (a + x.tableLen) rest
    ({ x with table := a } :: r.1, r.2)

/-- Bytes of the capture bitmap: one bit a WEIGHTS unit (R366). -/
def bitmapLen (l : List Section) : Nat :=
  roundUp (ceilDiv ((l.filter fun x => x.kind == 1).map fun x => unitsOf x.len).sum 8) 4096

/-- A section table entry (Table 13.3). -/
def Section.entry (x : Section) : List Byte :=
  wordsToBytes ([packFields [(x.kind, 24), (x.ordinal, 20), (x.source, 18)], BitVec.ofNat 32 x.base,
    packFields [(natField x.base 47 32, 0)]] ++ words64 x.len ++ words64 x.offset ++ [0]) ++ sha256 x.leafTable

/-- The nonce of a manifest's TAG (R357). -/
def manifestNonce (senderId : Nat) (jobId seq : Word) : List Byte :=
  natToBE 2 senderId ++ natToBE 4 (~~~jobId).toNat ++ [0, 0] ++ natToBE 4 seq.toNat

/-- The manifest of 1,152 bytes under a key slot (R356, R357), padded to its unit. -/
def Image.manifestBytes (m : Image) (j : Job) (k : KeySlot) : List Byte :=
  let table := m.sections.flatMap Section.entry
  let table := table ++ List.replicate (1024 - table.length) 0
  let head := wordsToBytes [packFields [(1, 24), (m.sections.length, 16), (1, 7), (b2n m.loss.isSome, 6), (b2n m.noRoom, 5)],
    j.jobId, packFields [(j.rank, 16), (j.ranks, 0)], m.ckptSeq, m.step, m.step + 1, wordAt k.tag 0,
    packFields [(k.senderId, 16), (m.windrow.length / 32, 0)]]
  let body := head ++ m.loss.getD (List.replicate 32 0) ++ sha256 table ++ List.replicate 16 0
  let tag := gcmTag k.key (manifestNonce k.senderId j.jobId m.ckptSeq) (body ++ List.replicate 16 0 ++ table) []
  body ++ tag ++ table ++ List.replicate 2944 0

/-! ## Sending the image (R359) -/

/-- One unit of an image goes to a target with PUT. -/
def State.putUnit (s : State) (jh : Nat) (j : Job) (far : Bool) (seq : Word) (off : Nat) (data : List Byte) : State :=
  s.sendStore jh far 1 1 j.jobId j.rank seq off data (.store jh (storeRank far) 1 off)

/-- A run of bytes goes out unit by unit from an image offset on. -/
def State.putUnits (s : State) (jh : Nat) (j : Job) (far : Bool) (seq : Word) (off : Nat) (data : List Byte) : State :=
  (List.range (unitsOf data.length)).foldl
    (fun (s : State) i => s.putUnit jh j far seq (off + 4096 * i) (unitOf data i)) s

/-- Whether a PUT of the job to a target is not acknowledged. -/
def Job.putsOut (j : Job) (far : Bool) (p : Nat → Bool) : Bool :=
  j.tx.any fun e => e.2.outstanding.any fun x => match x.owner with
    | .store _ t k off => t == storeRank far && k == 1 && p off
    | _ => false

/-- The open image of a job changed. -/
def State.modImage (s : State) (jh : Nat) (f : Image → Image) : State :=
  s.modBaler jh fun b => { b with image := b.image.map f }

/-! ## Admission (R362) -/

/-- The region of a set that an op names by KIND and ORDINAL: base and length; SCALE_HISTORY is implicit in set 0
(Table 13.1). -/
def Job.balRegion (j : Job) (b : Baler) (set kind ordinal : Nat) : Option (Nat × Nat) :=
  if kind = 8 then (if set = 0 && ordinal = 0 then some (j.scaleRegion, j.scaleLen) else none)
  else (b.regions.find? fun r => r.set == set && r.kind == kind && r.ordinal == ordinal).map fun r => (r.base, r.len)

/-- Whether the range of a DIGEST op lies in a region that digests take. -/
def State.digestArgOk (s : State) (o : Op) : Bool :=
  let units := (o.w 2).toNat
  1 ≤ units && units ≤ 2 ^ 20 && match s.jobs.find o.job with
    | none => true
    | some j => match j.baler with
      | none => true
      | some b => match j.balRegion b o.bSet o.bKind o.bOrdinal with
        | none => false
        | some r => (o.w 1).toNat + units ≤ unitsOf r.2

/-- Whether an op's role exists in its job's role table. -/
def State.opRoleOk (s : State) (o : Op) (role : Nat × Nat) : Bool :=
  match s.jobs.find o.job with
  | none => true
  | some j => (j.roleAddr role.1 role.2).isSome

/-- Check 3 of R53 for a Baler op (R362, Table 13.6). -/
def State.balArgOk (s : State) (o : Op) : Bool :=
  fld (wordAt o.hdr 0) 23 16 == 1 && o.f 0 13 4 == 0 && o.f 4 31 16 == 0 && (o.body.drop 5).all (· == 0) &&
  match o.bFunc with
  | 1 => true
  | 2 | 4 => o.addr 1 % 32 == 0 && o.f 2 31 16 == 0 && s.granted o.lea (o.addr 1) 32 false
  | 3 => (o.bTarget == 1 || o.bTarget == 2) && o.f 2 31 16 == 0
  | 5 | 7 => s.opRoleOk o o.bRole
  | 6 => s.opRoleOk o o.bRole && s.digestArgOk o
  | _ => false

/-- The state check of a Baler op: BAL_SET has been issued (R362). -/
def State.balStateOk (s : State) (o : Op) : Bool :=
  match s.jobs.find o.job with
  | none => false
  | some j => j.baler.isSome

/-! ## Capturing units (R365, R366, R369, R370) -/

/-- The open image of a job, with the job. -/
def State.openImage (s : State) (jh : Nat) : Option (Job × Baler × Image) :=
  match s.jobs.find jh with
  | none => none
  | some j => match j.baler with
    | none => none
    | some b => b.image.map fun m => (j, b, m)

/-- The number of unit `i` of section `si` among the WEIGHTS units of an image. -/
def Image.weightIndex (m : Image) (si i : Nat) : Nat :=
  (((m.sections.take si).filter fun x => x.kind == 1).map fun x => unitsOf x.len).sum + i

/-- A bit of the capture bitmap is set. -/
def State.markCaptured (s : State) (m : Image) (k : Nat) : State :=
  let a := m.bitmap + k / 8
  s.write a [readByte s.mem.hbm a ||| BitVec.ofNat 8 (2 ^ (k % 8))]

/-- One unit of a section is captured: its leaf is taken and it goes to the NEAR target; the leaf table follows the last
unit of its section (R355, R365, R369, R370). -/
def State.captureUnit (s : State) (jh si i : Nat) (data : List Byte) : State :=
  match s.openImage jh with
  | none => s
  | some (j, _, m) => match m.sections[si]? with
    | none => s
    | some x =>
      let leaf := sha256 data
      let y := { x with leaves := x.leaves.insert i leaf }
      let s := s.write (x.table + 32 * i) leaf
      let s := if x.kind = 1 then s.markCaptured m (m.weightIndex si i) else s
      let s := s.modImage jh fun m => { m with sections := m.sections.set si y }
      let s := s.putUnit jh j false m.ckptSeq (x.offset + 4096 * i) data
      if y.whole then s.putUnits jh j false m.ckptSeq x.tableOffset y.leafTable else s

/-- A section's units are captured one after another from its bytes. -/
def State.captureAll (s : State) (jh si : Nat) (data : List Byte) : State :=
  (List.range (unitsOf data.length)).foldl (fun (s : State) i => s.captureUnit jh si i (unitOf data i)) s

/-- The uncaptured WEIGHTS units of an image whose addresses pass a test: section, unit and address. -/
def Image.uncaptured (m : Image) (p : Nat → Bool) : List (Nat × Nat × Nat) :=
  (List.range m.sections.length).flatMap fun si => match m.sections[si]? with
    | none => []
    | some x =>
      if x.kind = 1 then
        ((List.range (unitsOf x.len)).filter fun i => !x.leaves.has i && p (x.base + 4096 * i)).map fun i =>
          (si, i, x.base + 4096 * i)
      else []

/-- Whether the NEAR channel has window to send at once (R369). -/
def State.nearOpen (s : State) (jh : Nat) : Bool :=
  match s.jobs.find jh with
  | none => false
  | some j => match j.baler with
    | none => false
    | some b =>
      let key := chanKey (storeRank false) b.channel
      let c := j.tx.getD key {}
      c.queued.isEmpty && (s.maySend j key c).isSome

/-- A copy op's source read carries WEIGHTS units (R369): each uncaptured unit that it covers whole is handed to Baler and
captured while the NEAR channel has window. -/
def State.ride (s : State) (jh src len : Nat) : State :=
  match s.openImage jh with
  | none => s
  | some (_, _, m) =>
    (m.uncaptured fun a => src ≤ a && a + 4096 ≤ src + len).foldl (fun (s : State) u =>
      if s.nearOpen jh then
        let s := s.captureUnit jh u.1 u.2.1 (s.read u.2.2 4096)
        { s with units := { s.units with rideUnits := s.units.rideUnits + 1 } }
      else s) s

/-! ## SNAPSHOT (R364 to R368) -/

/-- The Windrow groups of a job, by number. -/
def State.jobGroups (s : State) (jh : Nat) : Map WGroup := s.wdr.groups.sel fun _ g => g.job == jh

/-- A group keeps a snapshot of a step from being taken (R364): an op of it is held, its last sent op did not carry LAST of
the step, or it did not reduce on that step. -/
def State.groupBlocks (s : State) (gi : Nat) (g : WGroup) (step : Word) : Bool :=
  s.wdr.runs.any (fun e => e.2.group == gi && e.2.gseq.isNone && !e.2.localOnly) ||
  (g.sendStep.isSome && g.lastStep != some step) || (g.reduceEvery != 1 && !g.reduces step)

/-- A WINDROW_STATE record: GROUP and NEXT_GSEQ, the GSEQ that followed the group's LAST of a step. -/
def WGroup.stateRecord (gi : Nat) (g : WGroup) (step : Word) : List Byte :=
  let next := match g.lasts.find? fun e => e.1 == step with
    | none => g.gseq
    | some e => e.2
  wordsToBytes ([BitVec.ofNat 32 gi, next] ++ List.replicate 6 0)

/-- The WINDROW_STATE records of a job at a step. -/
def State.windrowState (s : State) (jh : Nat) (step : Word) : List Byte :=
  (s.jobGroups jh).flatMap fun e => WGroup.stateRecord e.1 e.2 step

/-- The sections of the image that a job would capture, placed in its snapshot area, the place of the capture bitmap, and
the area's end (R355, R366, R368). -/
def State.planSections (s : State) (jh : Nat) (j : Job) (b : Baler) (noRoom : Bool) : List Section × Nat × Nat :=
  let src := if noRoom then 2 else 1
  let regs := b.regions.filter fun r => r.set == 0 && 1 ≤ r.kind && r.kind ≤ 3
  let secs := layoutSections 4096 (regs.map (fun r => (r.kind, r.ordinal, if r.kind = 1 then 0 else src, r.base, r.len)) ++
    [(8, 0, src, j.scaleRegion, j.scaleLen), (9, 0, src, 0, 32 * (s.jobGroups jh).length)])
  let copied := if noRoom then (secs, b.area) else placeCopies b.area secs
  let tabled := placeTables copied.2 copied.1
  (tabled.1, tabled.2, tabled.2 + bitmapLen secs)

/-- Whether a plan's area lies within the snapshot area. -/
def Baler.holds (b : Baler) (plan : List Section × Nat × Nat) : Bool := plan.2.2 ≤ b.area + b.areaLen

/-- A SNAPSHOT op starts (R364, R365, R368): it is refused, or it holds its job. -/
def State.startSnapshot (s : State) (n : Nat) (o : Op) (j : Job) (b : Baler) : State :=
  let legal := (b.st == .idle || b.st == .unverified) && !j.replayPending && j.peerActive (storeRank false) &&
    (s.jobGroups o.job).all fun e => !s.groupBlocks e.1 e.2 o.step
  if !legal then s.endOp n .stateMismatch
  else if !b.holds (s.planSections o.job j b true) then s.endOp n .noResource
  else (s.takeHold o.job (some n)).modBaler o.job fun b => { b with st := .paused, snapshotOp := some n }

/-- A job's hold ends where the op `n` has it. -/
def State.dropHold (s : State) (jh : Nat) (n : Nat) : State :=
  s.modJob jh fun j => match j.hold with
    | none => j
    | some h => if h.op = some n then { j with hold := none } else j

/-- DETAIL of a Baler op that ends with ST_UNIT_FAULT or POISON (R363). -/
def balCause (st : Status) (cause : Nat) : Nat := if st = .unitFault ∨ st = .poison then cause else 0

/-- An op of Baler ends, and releases the job where it holds it. -/
def State.balEnd (s : State) (n : Nat) (st : Status) (cause : Nat := 0) : State :=
  match s.op n with
  | none => s
  | some o => (s.dropHold o.job n).endOp n st (balCause st cause)

/-- Messages of an image to the NEAR target: PUT and SEAL. -/
def MsgOwner.ofImage (far : Bool) : MsgOwner → Bool
  | .store _ t k _ => t == storeRank far && (k == 1 || k == 2)
  | _ => false

/-- The image that a job takes is abandoned (R372): Baler stops sending, the running SNAPSHOT or LOSS_RECORD completes, and
the job returns to IDLE. -/
def State.abandon (s : State) (jh : Nat) (st : Status) (cause : Nat := 0) : State :=
  match s.jobs.find jh with
  | none => s
  | some j => match j.baler with
    | none => s
    | some b =>
      if b.st ≠ .paused ∧ b.st ≠ .capturing then s
      else
        let s := s.modJob jh fun j => j.dropMessages (MsgOwner.ofImage false)
        let ops := b.snapshotOp.toList ++ (match b.image with
          | none => []
          | some m => m.op.toList)
        let s := ops.foldl (fun (s : State) n => s.balEnd n st cause) s
        let s := s.modBaler jh fun b => { b with st := .idle, image := none, snapshotOp := none }
        { s with units := { s.units with abandoned := true, abandonCount := s.units.abandonCount + 1 } }

/-- The regions that a snapshot reads during its pause. -/
def pauseSpans (l : List Section) : List Span :=
  (l.filter fun x => x.kind == 2 || x.kind == 3 || x.kind == 8).map fun x => { base := x.base, len := x.len }

/-- One section of a snapshot: its bytes are copied into the area, unless they go out from where they stand, and its units
are captured. -/
def State.snapSection (s : State) (jh si : Nat) (noRoom : Bool) : State :=
  match s.openImage jh with
  | none => s
  | some (_, _, m) => match m.sections[si]? with
    | none => s
    | some x =>
      if x.kind = 1 then s
      else
        let data := if x.kind = 9 then m.windrow else s.read x.base x.len
        (if noRoom then s else s.write x.area data).captureAll jh si data

/-- SNAPSHOT's hold ends (Table 13.8, step 4): the job is CAPTURING, and the op completes. -/
def State.endPause (s : State) (n jh : Nat) : State :=
  let pause := match s.jobs.find jh with
    | none => 0
    | some j => match j.hold with
      | none => 0
      | some h => match h.since with
        | none => 0
        | some t => satNat 32 (s.elapsed t)
  let s := { s with units := { s.units with lastPause := pause } }
  (s.modBaler jh fun b => { b with st := .capturing, snapshotOp := none }).balEnd n .ok

/-- The rank-order span of a job's groups is extended to STEP + 2 (R365). -/
def State.rankOrderUntil (s : State) (jh : Nat) (step : Word) : State :=
  (s.jobGroups jh).foldl (fun (s : State) e => s.modGroup e.1 fun g =>
    if signedLess g.rankUntil step then { g with rankUntil := step } else g) s

/-- The capture of a held job (R365 to R368). -/
def State.capture (s : State) (n : Nat) (o : Op) (j : Job) (b : Baler) : State :=
  let full := s.planSections o.job j b false
  let noRoom := !b.holds full
  let plan := if noRoom then s.planSections o.job j b true else full
  let bump (s : State) : State := s.modBaler o.job fun b => { b with ckptSeq := b.ckptSeq + 1 }
  match s.spansAccess (pauseSpans plan.1) with
  | .stall => s
  | .bad sec st => (bump (s.lostRead sec)).abandon o.job st 0x12
  | .good =>
    let m : Image := { ckptSeq := b.ckptSeq + 1, step := o.step, noRoom := noRoom, sections := plan.1
                       windrow := s.windrowState o.job o.step, bitmap := plan.2.1 }
    let s := (bump s).modBaler o.job fun b => { b with image := some m, imageStep := o.step }
    let s := s.write m.bitmap (List.replicate (bitmapLen m.sections) 0)
    let s := (List.range m.sections.length).foldl (fun (s : State) si => s.snapSection o.job si noRoom) s
    let s := s.rankOrderUntil o.job (o.step + 2)
    if noRoom then s else s.endPause n o.job

/-- SNAPSHOT_CAPTURE (R365): once the ops that it awaits have completed, Baler captures the job; in NO_ROOM mode the job is
released when the target has acknowledged the sections (R368). -/
def execSnapshotCapture (n : Nat) (s : State) : Host.Outcome State Fault Refusal :=
  match s.balRun n 1 with
  | none => finish s
  | some (o, j, b) => match j.hold with
    | none => finish s
    | some h =>
      if h.op ≠ some n ∨ !s.holdOver h then finish s
      else match b.image with
        | none => finish (s.capture n o j b)
        | some _ => if j.putsOut false (fun _ => true) then finish s else finish (s.endPause n o.job)

/-! ## The sweep (R370) -/

/-- Whether an op's writes meet a span. -/
def writesMeet (l : List Span) (base len : Nat) : Bool := l.any fun x => x.write && overlaps x.base x.len base len

/-- Whether an update op is held for Baler's sake (R370, R383): it would write a WEIGHTS unit that is not captured and
acknowledged, or a unit of a fill that is not acknowledged. -/
def State.balHolds (s : State) (o : Op) : Bool :=
  match s.jobs.find o.job with
  | none => false
  | some j => match j.baler with
    | none => false
    | some b =>
      let spans := o.updSpans
      (match b.image with
        | none => false
        | some m =>
          !(m.uncaptured fun a => writesMeet spans a 4096).isEmpty ||
          m.sections.any fun x => x.kind == 1 &&
            j.putsOut false fun off => x.offset ≤ off && off < x.tableOffset && writesMeet spans (x.base + (off - x.offset)) 4096) ||
      j.tx.any fun e => e.2.outstanding.any fun p => match p.owner with
        | .bal _ 4 _ a => writesMeet spans a 4096
        | _ => false

/-- Whether the sweep takes a unit: LOSS_RECORD has started it for all, or an update op of the job waits to write it. -/
def State.sweeps (s : State) (jh : Nat) (m : Image) (a : Nat) : Bool :=
  m.loss.isSome || s.hub.ops.any fun e => e.2.job == jh && e.2.cls == 7 && s.ready e.1 e.2 && writesMeet e.2.updSpans a 4096

/-- WEIGHTS_SWEEP (R370): the uncaptured units that are wanted are read and sent. A POISON read abandons the image
(R372). -/
def execWeightsSweep (job : Nat) (s : State) : Host.Outcome State Fault Refusal :=
  match s.openImage job with
  | none => finish s
  | some (_, b, m) =>
    let us := m.uncaptured (s.sweeps job m)
    if b.st ≠ .capturing then finish s
    else match s.spansAccess (us.map fun u => { base := u.2.2, len := 4096 }) with
      | .stall => finish s
      | .bad sec st => finish ((s.lostRead sec).abandon job st 0x12)
      | .good =>
        let s := us.foldl (fun (s : State) u => s.captureUnit job u.1 u.2.1 (s.read u.2.2 4096)) s
        finish { s with units := { s.units with sweepUnits := s.units.sweepUnits + BitVec.ofNat 64 us.length } }

/-! ## LOSS_RECORD and sealing (R371) -/

/-- A LOSS_RECORD op starts, or is refused. -/
def State.startLoss (s : State) (n : Nat) (o : Op) (b : Baler) : State :=
  match b.image with
  | none => s.endOp n .stateMismatch
  | some m =>
    if b.st = .capturing ∧ o.step = m.step + 1 ∧ m.op = none then
      s.modImage o.job fun m => { m with op := some n }
    else s.endOp n .stateMismatch

/-- LOSS_RECORD (R371): the loss record is read into LOSS, and the sweep may start. -/
def execLossRecord (n : Nat) (s : State) : Host.Outcome State Fault Refusal :=
  match s.balRun n 2 with
  | none => finish s
  | some (o, _, b) => match b.image with
    | none => finish s
    | some m =>
      if m.op ≠ some n ∨ m.loss.isSome then finish s
      else match s.access (o.addr 1) 32 with
        | .stall => finish s
        | .bad sec st => finish (((s.lostRead sec).modImage o.job fun m => { m with op := none }).balEnd n st 0x12)
        | .good => finish (s.modImage o.job fun m => { m with loss := some (s.read (o.addr 1) 32) })

/-- SEAL (R371): once every section and leaf table has been acknowledged, the manifest goes out. -/
def execSealImage (job : Nat) (s : State) : Host.Outcome State Fault Refusal :=
  match s.openImage job with
  | none => finish s
  | some (j, _, m) => match j.sendKey with
    | none => finish s
    | some (_, k) =>
      if m.loss.isNone || !m.manifest.isEmpty || !m.sections.all Section.whole || j.putsOut false (fun _ => true) then
        finish s
      else
        let b := m.manifestBytes j k
        let s := s.modImage job fun m => { m with manifest := b }
        finish (s.sendStore job false 2 0 j.jobId j.rank m.ckptSeq 0 b (.store job (storeRank false) 2 0))

/-! ## The far relay (R373) -/

/-- Sections of a manifest (R356). -/
def manifestSections (m : List Byte) : List SectEntry := (List.range (leAt m 2 1)).map (sectEntry m)

/-- The image offsets of the units of a span of the image. -/
def unitOffsets (off len : Nat) : List Nat := (List.range (unitsOf len)).map fun i => off + 4096 * i

/-- The image offsets of a section's leaf-table units. -/
def SectEntry.tableUnits (e : SectEntry) : List Nat := unitOffsets e.leafOffset (32 * e.units)

/-- The leaf table of a section from the units read of it. -/
def SectEntry.leafTable (e : SectEntry) (t : Map (List Byte)) : List Byte :=
  ((e.tableUnits.flatMap fun o => t.getD o [])).take (32 * e.units)

/-- The leaf of unit `i` of a section. -/
def SectEntry.leaf (e : SectEntry) (t : Map (List Byte)) (i : Nat) : List Byte := ((e.leafTable t).drop (32 * i)).take 32

/-- Whether every leaf-table unit of a section has been read. -/
def SectEntry.tableRead (e : SectEntry) (t : Map (List Byte)) : Bool := e.tableUnits.all t.has

/-- The section whose units hold an image offset. -/
def sectionAt (l : List SectEntry) (off : Nat) : Option SectEntry :=
  l.find? fun e => e.offset ≤ off && off < e.leafOffset

/-- The section whose leaf table holds an image offset. -/
def tableAt (l : List SectEntry) (off : Nat) : Option SectEntry := l.find? fun e => e.tableUnits.contains off

/-- GETs of one unit each go out to a target. -/
def State.sendGets (s : State) (jh : Nat) (g : Get) (offs : List Nat) : State :=
  offs.foldl (fun (s : State) off => s.sendGet jh { g with offset := off }) s

/-- The next GETs of a job's restore go out, at most four outstanding at its target (R360). -/
def State.pumpRestore (s : State) (jh : Nat) : State :=
  match s.jobs.find jh with
  | none => s
  | some j => match j.baler with
    | none => s
    | some b => match b.restore with
      | none => s
      | some r =>
        let k := 4 - b.outstanding r.far
        (s.modBaler jh fun b => { b with restore := b.restore.map fun r => { r with todo := r.todo.drop k } }).sendGets jh
          { far := r.far, jobId := j.jobId, rank := r.rank, ckptSeq := r.ckptSeq, offset := 0, units := 1, use := .restore }
          (r.todo.take k)

/-- The next GETs of a job's relay go out, at most four outstanding at the NEAR target (R360, R373). -/
def State.pumpRelay (s : State) (jh : Nat) : State :=
  match s.jobs.find jh with
  | none => s
  | some j => match j.baler with
    | none => s
    | some b => match b.relay with
      | none => s
      | some y =>
        let k := 4 - b.outstanding false
        (s.modBaler jh fun b => { b with relay := b.relay.map fun y => { y with todo := y.todo.drop k } }).sendGets jh
          { far := false, jobId := j.jobId, rank := j.rank, ckptSeq := y.ckptSeq, offset := 0, units := 1, use := .relay }
          (y.todo.take k)

/-- A relay ends without its image (R373, R372): what it had under way is dropped. -/
def State.dropRelay (s : State) (jh : Nat) : State :=
  let s := s.modJob jh fun j => j.dropMessages (MsgOwner.ofImage true)
  s.modBaler jh fun b => { b with relay := none, gets := b.gets.filter fun g => g.use != .relay }

/-- A leaf mismatch abandons the relay, with a fault event to the job's lea (R373). -/
def State.relayMismatch (s : State) (jh : Nat) : State :=
  match s.jobs.find jh with
  | none => s
  | some j => (s.dropRelay jh).queueEvent j.lea (faultEvent .unitFault 0x08 0x11 (job := jh))

/-- Once a relay's units are read and acknowledged at the FAR target, its manifest follows with SEAL (R373). -/
def State.sealRelay (s : State) (jh : Nat) : State :=
  match s.jobs.find jh with
  | none => s
  | some j => match j.baler with
    | none => s
    | some b => match b.relay with
      | none => s
      | some y =>
        if y.sealSent || !y.todo.isEmpty || b.gets.any (fun g => g.use == .relay) || j.putsOut true (fun _ => true) then s
        else
          (s.modBaler jh fun b => { b with relay := b.relay.map fun y => { y with sealSent := true } }).sendStore jh true 2 0
            j.jobId j.rank y.ckptSeq 0 y.manifest (.store jh (storeRank true) 2 0)

/-- A relay takes a unit that it has read (R373): a leaf table is checked against its DIGEST once whole, and any other unit
against its leaf; what is right goes to the FAR target. -/
def State.relayGot (s : State) (jh off : Nat) (data : List Byte) : State :=
  match s.jobs.find jh with
  | none => s
  | some j => match j.baler with
    | none => s
    | some b => match b.relay with
      | none => s
      | some y =>
        let secs := manifestSections y.manifest
        match tableAt secs off, sectionAt secs off with
        | some e, _ =>
          let t := y.tables.insert off data
          let s := s.modBaler jh fun b => { b with relay := some { y with tables := t } }
          if e.tableRead t && sha256 (e.leafTable t) != e.digest then s.relayMismatch jh
          else
            let s := if e.tableRead t then s.putUnits jh j true y.ckptSeq e.leafOffset (e.leafTable t) else s
            let s := if secs.all fun e => e.tableRead t then
                s.modBaler jh fun b => { b with relay := b.relay.map fun y =>
                  { y with todo := secs.flatMap fun e => unitOffsets e.offset e.len } }
              else s
            (s.pumpRelay jh).sealRelay jh
        | none, some e =>
          if sha256 data ≠ e.leaf y.tables ((off - e.offset) / 4096) then s.relayMismatch jh
          else ((s.putUnit jh j true y.ckptSeq off data).pumpRelay jh).sealRelay jh
        | none, none => s

/-- A sealed image is relayed where it is due (R373). -/
def State.startRelay (s : State) (jh : Nat) (m : Image) : State :=
  match s.jobs.find jh with
  | none => s
  | some j => match j.baler with
    | none => s
    | some b =>
      if b.farEvery = 0 ∨ m.ckptSeq.toNat % b.farEvery ≠ 0 then s
      else if b.relay.isSome then
        { s with units := { s.units with farSkipped := true, farCount := s.units.farCount + 1 } }
      else if !j.peerActive (storeRank true) then s
      else
        let secs := manifestSections m.manifest
        let y : Relay := { ckptSeq := m.ckptSeq, manifest := m.manifest
                           todo := secs.flatMap SectEntry.tableUnits }
        (s.modBaler jh fun b => { b with relay := some y }).pumpRelay jh

/-- The NEAR target has sealed the open image (R371). -/
def State.imageSealed (s : State) (jh : Nat) (m : Image) : State :=
  let s := m.op.toList.foldl (fun (s : State) n => s.balEnd n .ok) s
  let s := s.modBaler jh fun b => { b with st := .idle, image := none }
  let s := { s with units := { s.units with sealed := true, sealedCount := s.units.sealedCount + 1 } }
  s.startRelay jh m

/-- The FAR target has sealed a relayed image (R373). -/
def State.relaySealed (s : State) (jh : Nat) : State :=
  let s := s.modBaler jh fun b => { b with relay := none }
  { s with units := { s.units with farSealed := true, farCount := s.units.farCount + 1 } }

end Sys2Proof.Machine
end

