-- ==== Sys2Proof/Machine/BalerRestore.lean ====
section
/-!
DEFINITION. Machine/BalerRestore.lean: RESTORE and LOSS_CHECK (13, R374, R375), and the messages of store targets (R360,
R371 to R373).
-/

namespace Sys2Proof.Machine

/-! ## RESTORE (R374) -/

/-- A RESTORE op starts, or is refused. -/
def State.startRestore (s : State) (n : Nat) (o : Op) (b : Baler) : State :=
  if (s.jobOps o.job).all (fun e => e.1 == n || e.2.completed) && b.st != .paused && b.st != .capturing then s
  else s.endOp n .stateMismatch

/-- RESTORE (R374): its GETs go to the target; the units that come back do the rest. -/
def execRestore (n : Nat) (s : State) : Host.Outcome State Fault Refusal :=
  match s.balRun n 3 with
  | none => finish s
  | some (o, j, b) =>
    let far := o.bTarget == 2
    match b.restore with
    | some _ => finish (s.pumpRestore o.job)
    | none =>
      if !j.peerActive (storeRank far) then finish (s.balEnd n .peerLost)
      else
        let r : Restore := { op := n, set := o.bSet, far := far, rank := o.f 2 15 0, ckptSeq := o.w 1 }
        finish ((s.modBaler o.job fun b => { b with restore := some r }).pumpRestore o.job)

/-- A RESTORE that does not finish (R374, Table 13.7): the state is FAILED once a unit was written or a leaf was wrong. -/
def State.failRestore (s : State) (jh : Nat) (r : Restore) (st : Status) (cause : Nat := 0) : State :=
  let wrong := st == .unitFault && cause == 0x11
  let s := s.modBaler jh fun b =>
    { b with restore := none, gets := b.gets.filter fun g => g.use != .restore
             st := if wrong || r.wrote then .failed else b.st }
  let s := if wrong then
      { s with units := { s.units with restoreFailed := true, abandonCount := s.units.abandonCount + 1 } }
    else s
  s.balEnd r.op st cause

/-- Where a section of an image goes in a set (R374): base and length. -/
def Job.placeOf (j : Job) (b : Baler) (set : Nat) (e : SectEntry) : Option (Nat × Nat) :=
  if e.kind = 8 then
    (if set = 0 then some (j.scaleRegion, j.scaleLen)
     else (b.regions.find? fun r => r.set == set && r.kind == 5).map fun r => (r.base, r.len))
  else if e.kind = 9 then none
  else j.balRegion b set e.kind e.ordinal

/-- Whether a manifest is authentic (R357): its TAG verifies under a key. -/
def manifestOk (m key : List Byte) (jobId seq : Word) : Bool :=
  let aad := m.take 112 ++ List.replicate 16 0 ++ (m.drop 128).take 1024
  gcmTag key (manifestNonce (leAt m 30 2) jobId seq) aad [] == (m.drop 112).take 16

/-- The key of a loaded slot that carries a KEY_TAG (R374). -/
def Job.taggedKey (j : Job) (tag : Nat) : Option (List Byte) :=
  (j.keys.find? fun e => e.2.tag == [BitVec.ofNat 32 tag]).map fun e => e.2.key

/-- Whether each section of WEIGHTS, MOMENT, HOST or SCALE_COPY finds a region of the set of its kind, ordinal and length
(R374). -/
def Job.sectionsFit (j : Job) (b : Baler) (set : Nat) (l : List SectEntry) : Bool :=
  l.all fun e => e.kind == 8 || e.kind == 9 || match j.balRegion b set e.kind e.ordinal with
    | none => false
    | some r => r.2 == e.len

/-- The WINDROW_STATE records of an image, once its units are read. -/
def Restore.records (r : Restore) : List Byte :=
  (manifestSections r.manifest).flatMap fun e =>
    if e.kind = 9 then ((unitOffsets e.offset e.len).flatMap fun o => r.tables.getD o []).take e.len else []

/-- The group and NEXT_GSEQ of each of some WINDROW_STATE records. -/
def stateRecords (b : List Byte) : List (Nat × Word) :=
  (List.range (b.length / 32)).map fun i => (leAt b (32 * i) 1 % 64, BitVec.ofNat 32 (leAt b (32 * i + 4) 4))

/-- Whether what was read first agrees with the manifest: each leaf table with its DIGEST, each WINDROW_STATE unit with its
leaf. -/
def Restore.tablesOk (r : Restore) : Bool :=
  (manifestSections r.manifest).all fun e =>
    sha256 (e.leafTable r.tables) == e.digest &&
    (e.kind != 9 || r.set != 0 || (List.range e.units).all fun i =>
      sha256 (r.tables.getD (e.offset + 4096 * i) []) == e.leaf r.tables i)

/-- A WINDROW_STATE record is applied to its group (R374, R384): GSEQ, the send position after a step, and no owner
expectations. -/
def WGroup.restored (g : WGroup) (next step : Word) : WGroup :=
  { g with gseq := next, expectBase := next, sendStep := some step, sendBucket := 0, lastStep := some step, expect := [] }

/-- STAMPED of a gather directory entry cleared (R374). -/
def State.clearStamped (s : State) (a : Nat) : State :=
  if bit (s.readWord a) 31 then s.writeWords a [s.readWord a &&& 0x7FFFFFFF] else s

/-- The job's step state after a restore of set 0 (R374, item 3): PHASE is FORWARD, and no directory entry is VALID or
STAMPED. -/
def State.resetStep (s : State) (jh : Nat) (j : Job) : State :=
  let s := s.setPhase jh j false
  let s := s.modJob jh fun j => { j with logSince := some j.logNext }
  let s := (List.range (2 ^ j.log2Dir)).foldl (fun (s : State) i => s.clearDirValid j i) s
  (List.range (2 ^ j.log2Gather)).foldl (fun (s : State) i => s.clearStamped (j.gatherAddr i)) s

/-- The header of the scale history region is read again after Baler has written the region (R154). -/
def State.rereadScale (s : State) (jh : Nat) : State :=
  s.modJob jh fun j => { j with scaleHdr := s.readWords j.scaleRegion 8 }

/-- A restore reads the headers of the other two regions again (R173, R317, R320), where they follow their tables and fit. -/
def State.rereadHeaders (s : State) (jh : Nat) : State :=
  s.modJob jh fun j =>
    let k := { j with stepHdr := s.readWords j.stepRegion 8, mapHdr := s.readWords j.mapRegion 8 }
    if s.headersOk k then k else j

/-- The steps that end a RESTORE of set 0 (R374, items 1 to 4). -/
def State.restoreOwn (s : State) (jh : Nat) (j : Job) (r : Restore) : State :=
  let step := BitVec.ofNat 32 (leAt r.manifest 16 4)
  let history := leAt r.manifest 0 1 / 128 == 1
  let valid := leAt r.manifest 0 1 / 64 % 2 == 1
  let s := if history then s else s.emptyHistory j (step + 1)
  let s := (s.rereadScale jh).rereadHeaders jh
  let s := (stateRecords r.records).foldl (fun (s : State) e =>
    s.modGroup e.1 fun g => { g.restored e.2 step with rankUntil := step + 2 }) s
  let s := s.resetStep jh (s.jobs.getD jh j)
  s.modBaler jh fun b => { b with st := if history && valid then .verifying else .unverified, verifyStep := step + 1
                                  loss := (r.manifest.drop 32).take 32 }

/-- The spans of a set that a RESTORE writes. -/
def Baler.setSpans (b : Baler) (set : Nat) : List Span :=
  (b.regions.filter fun r => r.set == set).map fun r => { base := r.base, len := r.len, write := true }

/-- A RESTORE has written every section (R374). -/
def State.finishRestore (s : State) (jh : Nat) (r : Restore) : State :=
  match s.jobs.find jh with
  | none => s
  | some j => match j.baler with
    | none => s
    | some b =>
      let s := s.modBaler jh fun b => { b with restore := none }
      let s := if r.set = 0 then s.restoreOwn jh j r else s
      s.finishOp r.op (b.setSpans r.set)

/-- What a RESTORE reads last: every unit of the sections that it writes. -/
def Restore.dataUnits (r : Restore) (j : Job) (b : Baler) : List Nat :=
  let history := leAt r.manifest 0 1 / 128 == 1
  (manifestSections r.manifest).flatMap fun e =>
    if (e.kind != 8 || history) && (j.placeOf b r.set e).isSome then unitOffsets e.offset e.len else []

/-- A RESTORE goes on once every unit it has asked for has come. -/
def State.stepRestore (s : State) (jh : Nat) : State :=
  match s.jobs.find jh with
  | none => s
  | some j => match j.baler with
    | none => s
    | some b => match b.restore with
      | none => s
      | some r =>
        if !r.todo.isEmpty || b.gets.any (fun g => g.use == .restore) then s.pumpRestore jh
        else if r.placing then s.finishRestore jh r
        else if !r.tablesOk then s.failRestore jh r .unitFault 0x11
        else if r.set = 0 && !(stateRecords r.records).all (fun e => (s.jobGroups jh).has e.1) then
          s.failRestore jh r .stateMismatch
        else
          let data := r.dataUnits j b
          let s := s.modBaler jh fun b => { b with restore := some { r with todo := data, placing := true } }
          if data.isEmpty then s.finishRestore jh r else s.pumpRestore jh

/-- RESTORE takes the manifest: it is refused, or the leaf tables and Windrow records are read first. -/
def State.restoreManifest (s : State) (jh : Nat) (j : Job) (b : Baler) (r : Restore) (m : List Byte) : State :=
  let secs := manifestSections m
  match j.taggedKey (leAt m 24 4) with
  | none => s.failRestore jh r .stateMismatch
  | some key =>
    if !manifestOk m key j.jobId r.ckptSeq then s.failRestore jh r .authFail
    else if !j.sectionsFit b r.set secs then s.failRestore jh r .stateMismatch
    else
      let records := (secs.filter fun e => e.kind == 9 && r.set == 0).flatMap fun e => unitOffsets e.offset e.len
      let r := { r with manifest := m, todo := secs.flatMap SectEntry.tableUnits ++ records }
      (s.modBaler jh fun b => { b with restore := some r }).stepRestore jh

/-- RESTORE takes a unit that it has read (R374): it is checked against its leaf before it is written. -/
def State.restoreGot (s : State) (jh off : Nat) (data : List Byte) : State :=
  match s.jobs.find jh with
  | none => s
  | some j => match j.baler with
    | none => s
    | some b => match b.restore with
      | none => s
      | some r =>
        if r.manifest.isEmpty then s.restoreManifest jh j b r data
        else if !r.placing then
          let r := { r with tables := r.tables.insert off data }
          (s.modBaler jh fun b => { b with restore := some r }).stepRestore jh
        else match sectionAt (manifestSections r.manifest) off with
          | none => s
          | some e =>
            let i := (off - e.offset) / 4096
            if sha256 data ≠ e.leaf r.tables i then s.failRestore jh r .unitFault 0x11
            else match j.placeOf b r.set e with
              | none => s.stepRestore jh
              | some p =>
                let s := s.write (p.1 + 4096 * i) (data.take (min e.len p.2 - 4096 * i))
                (s.modBaler jh fun b => { b with restore := some { r with wrote := true } }).stepRestore jh

/-! ## LOSS_CHECK (R375) -/

/-- A LOSS_CHECK op starts, or is refused. -/
def State.startCheck (s : State) (n : Nat) (o : Op) (b : Baler) : State :=
  if b.st = .verifying ∧ o.step = b.verifyStep then s else s.endOp n .stateMismatch

/-- LOSS_CHECK (R375). -/
def execLossCheck (n : Nat) (s : State) : Host.Outcome State Fault Refusal :=
  match s.balRun n 4 with
  | none => finish s
  | some (o, j, b) => match s.access (o.addr 1) 32 with
    | .stall => finish s
    | .bad sec st => finish ((s.lostRead sec).balEnd n st 0x12)
    | .good =>
      if s.read (o.addr 1) 32 = b.loss then
        let s := s.modBaler o.job fun b => { b with st := .idle }
        finish ({ s with units := { s.units with verified := true, sealedCount := s.units.sealedCount + 1 } }.balEnd n .ok)
      else
        let s := s.queueEvent j.lea (faultEvent .replayMismatch 0x08 0 (job := o.job) (step := o.step))
        finish ({ s with units := { s.units with replayMismatch := true
                                                 mismatchCount := s.units.mismatchCount + 1 } }.balEnd n .replayMismatch)

/-! ## Messages of store targets (R360) -/

/-- A store message as its header gives it (Table 13.4). -/
structure StoreMsg where
  far : Bool
  jobId : Word
  rank : Nat
  units : Nat
  ckptSeq : Word
  offset : Nat
  status : Nat
  data : List Byte
  deriving DecidableEq, Repr

/-- The store message that a delivery holds. -/
def Delivery.storeMsg (d : Delivery) : StoreMsg :=
  let b := d.body
  { far := d.rank == storeRank true, jobId := BitVec.ofNat 32 (leAt b 4 4), rank := leAt b 10 2, units := leAt b 8 2
    ckptSeq := BitVec.ofNat 32 (leAt b 12 4), offset := leAt b 16 8, status := leAt b 26 2, data := b.drop 32 }

/-- Whether a store message names an image. -/
def StoreMsg.names (m : StoreMsg) (jobId : Word) (rank : Nat) (seq : Word) : Bool :=
  m.jobId == jobId && m.rank == rank && m.ckptSeq == seq

/-- Whether a store message answers an outstanding GET. -/
def StoreMsg.answers (m : StoreMsg) (g : Get) : Bool :=
  g.far == m.far && m.names g.jobId g.rank g.ckptSeq && g.offset == m.offset

/-- A store message that names nothing open is dropped and counted (R360). -/
def State.dropStore (s : State) : State :=
  { s with units := { s.units with fillsDropped := s.units.fillsDropped + 1 } }

/-- The job's Baler state of a delivery. -/
def State.deliveryBaler (s : State) (d : Delivery) : Option (Job × Baler) :=
  match s.jobs.find d.job with
  | none => none
  | some j => j.baler.map fun b => (j, b)

/-- GET_DATA (R360): the data of an outstanding GET goes to its use. -/
def execGetData (s : State) : Host.Outcome State Fault Refusal :=
  match s.front .getData with
  | none => finish s
  | some (d, t) =>
    let m := d.storeMsg
    match t.deliveryBaler d with
    | none => finish t.dropStore
    | some (_, b) => match b.gets.find? fun g => m.answers g && g.units == m.units && m.data.length == 4096 * g.units with
      | none => finish t.dropStore
      | some g =>
        let t := t.modBaler d.job fun b => { b with gets := b.gets.erase g }
        match g.use with
        | .restore => finish (t.restoreGot d.job m.offset m.data)
        | .relay => finish (t.relayGot d.job m.offset m.data)
        | .refill sec => finish (t.refillGot sec m.offset m.data)

/-- SEALED (R371, R373): the open image, or the relayed one, is durable. -/
def execSealed (s : State) : Host.Outcome State Fault Refusal :=
  match s.front .sealed with
  | none => finish s
  | some (d, t) =>
    let m := d.storeMsg
    match t.deliveryBaler d with
    | none => finish t.dropStore
    | some (j, b) =>
      if m.far then match b.relay with
        | some y => if y.sealSent && m.names j.jobId j.rank y.ckptSeq then finish (t.relaySealed d.job) else finish t.dropStore
        | none => finish t.dropStore
      else match b.image with
        | some i =>
          if !i.manifest.isEmpty && m.names j.jobId j.rank i.ckptSeq then finish (t.imageSealed d.job i) else finish t.dropStore
        | none => finish t.dropStore

/-- A refused GET ends what it was for (R363, R372, R373). -/
def State.getRefused (s : State) (jh : Nat) (g : Get) : State :=
  let s := s.modBaler jh fun b => { b with gets := b.gets.erase g }
  match g.use with
  | .refill sec => s.refillFail sec
  | .relay => s.dropRelay jh
  | .restore => match (s.jobs.find jh).bind fun j => j.baler.bind fun b => b.restore with
    | none => s
    | some r => s.failRestore jh r .unitFault 0x10

/-- REFUSED (R372, R363): a GET fails, or the image that it names is abandoned. -/
def execRefused (s : State) : Host.Outcome State Fault Refusal :=
  match s.front .refused with
  | none => finish s
  | some (d, t) =>
    let m := d.storeMsg
    match t.deliveryBaler d with
    | none => finish t.dropStore
    | some (j, b) => match b.gets.find? m.answers with
      | some g => finish (t.getRefused d.job g)
      | none =>
        if m.far then
          (if b.relay.any fun y => m.names j.jobId j.rank y.ckptSeq then finish (t.dropRelay d.job) else finish t.dropStore)
        else if b.image.any fun i => m.names j.jobId j.rank i.ckptSeq then finish (t.abandon d.job .unitFault 0x10)
        else finish t.dropStore

end Sys2Proof.Machine
end

