-- ==== Sys2Proof/Machine/Ports.lean ====
section
/-!
DEFINITION. Machine/Ports.lean: the optical ports, their link states, MACsec associations, ARP and Neighbor Discovery, and
the commands of range 0x03 (10, R254 to R271; 17, R485).
-/

namespace Sys2Proof.Machine

/-! ## Link states (R257, R258, R485) -/

/-- Whether a port is in a state in which its link is up or coming up. -/
def Port.active (p : Port) : Bool := p.st == .training || p.st == .hold || p.st == .up

/-- Whether frames reach the port. -/
def Port.linked (p : Port) : Bool := p.st == .hold || p.st == .up

/-- A link fault of a port at count `now` (R257, R258): the eighth within 2^30 counts makes it FAULTED. -/
def Port.failLink (p : Port) (now : BitVec 64) : Port :=
  if p.active then
    let fs := (p.faults.filter fun t => (now - t).toNat < 2 ^ 30) ++ [now]
    { p with linkFault := true, faultCount := p.faultCount + 1, faults := fs
             st := if 8 ≤ fs.length then .faulted else .training }
  else p

/-- PORT_LINK_FAULT (R258): FEC codewords that a port found uncorrectable and corrected in an interval, and whether it
met any of the other causes of a link fault. -/
def execPortLinkFault (port uncorrected corrected : Nat) (other : Bool) (s : State) : Host.Outcome State Fault Refusal :=
  if 16 ≤ port then finish s
  else
    let hit := s.fab.fecLimit < uncorrected
    finish (s.modPort port fun p =>
      if !p.active then p
      else
        let p := { p with fecUncorr := satNat 32 (p.fecUncorr + uncorrected), fecCorr := satNat 32 (p.fecCorr + corrected) }
        let p := if hit then { p with fecHit := true, faultCount := p.faultCount + 1 } else p
        if hit || other then p.failLink s.now else p)

/-- Whether the edge domains of a port are in service, and its lasers may be on (Table 10.3, Table 1.7). -/
def State.portDomains (s : State) (i : Nat) (p : Port) : Bool := s.edgeOn (8 + i) && s.edgeOn (24 + p.engine)

/-- PORT_BRINGUP_DONE (Table 10.3): bring-up needs the port's domains, its lasers and a latched connector. -/
def execPortBringupDone (port : Nat) (s : State) : Host.Outcome State Fault Refusal :=
  let p := s.port port
  if p.st = .training ∧ p.lasers ∧ s.portDomains port p ∧ !s.fab.detached.contains p.engine then
    finish (s.modPort port fun p => { p with st := .hold, holdSince := s.now })
  else finish s

/-- PORT_HOLD_EXPIRY (Table 10.2): a link clean for HOLD_COUNTS is UP, and channels may send on it. -/
def execPortHoldExpiry (port : Nat) (s : State) : Host.Outcome State Fault Refusal :=
  let p := s.port port
  if p.st = .hold ∧ s.fab.holdCounts ≤ s.elapsed p.holdSince then
    finish (s.modPort port fun p => { p with st := .up }).pumpAll
  else finish s

/-- The ports of an engine changed. -/
def State.modEngine (s : State) (e : Nat) (f : Port → Port) : State :=
  { s with fab := { s.fab with ports := s.fab.ports.mapVals fun _ p => if p.configured && p.engine == e then f p else p } }

/-- CONNECTOR_DETACH (R485): the engine's lasers go off, and its ports lose signal. -/
def execConnectorDetach (engine : Nat) (s : State) : Host.Outcome State Fault Refusal :=
  if 4 ≤ engine ∨ s.fab.detached.contains engine then finish s
  else
    let s := { s with fab := { s.fab with detached := s.fab.detached ++ [engine] } }
    finish (s.modEngine engine fun p => { p.failLink s.now with lasers := false })

/-- CONNECTOR_LATCH (R485): bring-up restarts with the lasers. -/
def execConnectorLatch (engine : Nat) (s : State) : Host.Outcome State Fault Refusal :=
  let s := { s with fab := { s.fab with detached := s.fab.detached.filter (· != engine) } }
  finish (s.modEngine engine fun p => if p.active && !s.edgeFenced 39 then { p with lasers := true } else p)

/-! ## PAUSE, ARP and Neighbor Discovery (R259, R261) -/

/-- PAUSE_FRAME (R261): counted, and not acted on. -/
def execPauseFrame (port : Nat) (s : State) : Host.Outcome State Fault Refusal :=
  if 16 ≤ port ∨ !(s.port port).linked then finish s
  else finish (s.modPort port fun p => { p with pauses := p.pauses + 1 })

/-- Whether a port may answer one more address request in this interval of 2^20 counts (R259). -/
def State.mayReply (s : State) (p : Port) : Bool := p.canSend && (p.replyInterval != s.interval || p.replies < 1024)

/-- An answer goes out on a port, and is counted (R259). -/
def State.sendReply (s : State) (port : Nat) (frame : List Byte) : State :=
  let s := s.modPort port fun p =>
    { p.sent with replies := if p.replyInterval = s.interval then p.replies + 1 else 1, replyInterval := s.interval }
  { s with fab := { s.fab with otherOut := s.fab.otherOut ++ [(port, frame)] } }

/-- The Ethernet header of a frame that a port sends, with its VLAN tag. -/
def Port.ethHeader (p : Port) (dst : List Byte) (etherType : Nat) : List Byte :=
  dst ++ p.mac ++ (if p.vlan = 0 then [] else natToBE 2 0x8100 ++ natToBE 2 p.vlan) ++ natToBE 2 etherType

/-- An ARP reply for the port's IPv4 address. -/
def Port.arpReply (p : Port) (srcMac srcIp : List Byte) : List Byte :=
  p.ethHeader srcMac 0x0806 ++ natToBE 2 1 ++ natToBE 2 0x0800 ++ [6, 4] ++ natToBE 2 2 ++ p.mac ++ p.ipv4 ++ srcMac ++ srcIp

/-- ARP_REQUEST (R259). -/
def execArpRequest (port : Nat) (srcMac srcIp target : List Byte) (s : State) : Host.Outcome State Fault Refusal :=
  let p := s.port port
  if p.ipv4 ≠ [] ∧ target = p.ipv4 ∧ s.mayReply p then finish (s.sendReply port (p.arpReply srcMac srcIp)) else finish s

/-- The sum of a list of bytes as 16-bit big-endian words. -/
def sum16 : List Byte → Nat
  | [] => 0
  | [a] => a.toNat * 256
  | a :: b :: rest => a.toNat * 256 + b.toNat + sum16 rest

/-- A sum folded to 16 bits with its carries brought round. -/
def fold16 : Nat → Nat → Nat
  | 0, n => n % 65536
  | k + 1, n => if n < 65536 then n else fold16 k (n % 65536 + n / 65536)

/-- The Internet checksum of a list of bytes. -/
def inetSum (l : List Byte) : Nat := 65535 - fold16 8 (sum16 l)

/-- A Neighbor Advertisement for the port's IPv6 address; one that answers an unspecified source goes to all nodes. -/
def Port.neighborAdvert (p : Port) (srcMac srcIp : List Byte) : List Byte :=
  let dad := srcIp.all (· == 0)
  let dstIp := if dad then natToBE 16 0xFF020000000000000000000000000001 else srcIp
  let dstMac := if dad then natToBE 6 0x333300000001 else srcMac
  let body := fun (c : Nat) => natToBE 1 136 ++ [0] ++ natToBE 2 c ++ natToBE 4 (if dad then 0x20000000 else 0x60000000) ++
    p.ipv6 ++ [2, 1] ++ p.mac
  let pseudo := p.ipv6 ++ dstIp ++ natToBE 4 32 ++ natToBE 4 58
  let ip := natToBE 4 (6 * 2 ^ 28 + (p.dscp * 4 + 2) * 2 ^ 20) ++ natToBE 2 32 ++ [58, 255] ++ p.ipv6 ++ dstIp
  p.ethHeader dstMac 0x86DD ++ ip ++ body (inetSum (pseudo ++ body 0))

/-- NEIGHBOR_SOLICITATION (R259). -/
def execNeighborSolicitation (port : Nat) (srcMac srcIp target : List Byte) (s : State) :
    Host.Outcome State Fault Refusal :=
  let p := s.port port
  if p.ipv6 ≠ [] ∧ target = p.ipv6 ∧ s.mayReply p then finish (s.sendReply port (p.neighborAdvert srcMac srcIp))
  else finish s

/-! ## Port commands (Table 10.11) -/

/-- Whether two ports share a lane (R255). -/
def Port.sharesLane (p q : Port) : Bool :=
  p.configured && q.configured && p.engine == q.engine && p.firstLane < q.firstLane + q.lanes &&
  q.firstLane < p.firstLane + p.lanes

/-- The port that FAB_PORT_CONFIG's arguments give. -/
def configPort (p : Port) (a : List Word) : Port :=
  { p with configured := true, engine := argN a 1, firstLane := argN a 2, lanes := argN a 3, rate100 := argN a 4 == 1
           frame := argN a 5, vlan := argN a 6, dscp := argN a 7, suite := argN a 8 }

/-- FAB_PORT_CONFIG: port, engine, first lane, lane count, lane rate, frame size, VLAN, DSCP, MACsec suite (R255, R262,
R263). -/
def cmdFabPortConfig : CmdDef := cmd 0x0301 9 .leaZero fun s _ a =>
  let q := configPort (s.port (argN a 0)) a
  need (argN a 0 < 16 && q.engine < 4 && [1, 2, 4, 8].contains q.lanes && q.firstLane % q.lanes == 0 &&
    q.firstLane + q.lanes ≤ 16 && argN a 4 < 2 && 1518 ≤ q.frame && q.frame ≤ 9216 && q.vlan ≤ 4094 && q.dscp < 64 &&
    q.suite < 3 && (q.suite != 1 || q.gbps ≤ 200) &&
    s.fab.ports.all fun e => e.1 == argN a 0 || !e.2.sharesLane q) .badArgument <|
  need ((s.port (argN a 0)).st = .disabled) .stateMismatch <|
  .ok (s.modPort (argN a 0) fun p => configPort p a)

/-- FAB_PORT_ENABLE: port; bring-up begins with the lasers (Table 10.3). -/
def cmdFabPortEnable : CmdDef := cmd 0x0302 1 .leaZero fun s _ a =>
  let p := s.port (argN a 0)
  need (argN a 0 < 16) .badArgument <|
  need ((p.st = .disabled || p.st = .faulted) && p.configured && s.portDomains (argN a 0) p) .stateMismatch <|
  .ok (s.modPort (argN a 0) fun p =>
    { p with st := .training, faults := [], lasers := !s.edgeFenced 39 && !s.fab.detached.contains p.engine })

/-- FAB_PORT_DISABLE: port; its lasers go off and its MACsec keys are erased (R264). -/
def cmdFabPortDisable : CmdDef := cmd 0x0303 1 .leaZero fun s _ a =>
  need (argN a 0 < 16) .badArgument <|
  need ((s.port (argN a 0)).st != .disabled) .stateMismatch <|
  .ok (s.modPort (argN a 0) fun p => { p with st := .disabled, lasers := false, txSa := [], rxSa := [], txAn := none })

/-- The address in `n` bytes from an argument word on; all zero gives none. -/
def argAddrBytes (a : List Word) (i n : Nat) : List Byte :=
  if (argBytes a i n).all (· == 0) then [] else argBytes a i n

/-- FAB_ADDR_SET: port, MAC, IPv4, IPv6, UDP port. -/
def cmdFabAddrSet : CmdDef := cmd 0x0304 9 .leaZero fun s _ a =>
  need (argN a 0 < 16 && argN a 2 < 65536 && argN a 8 < 65536) .badArgument <|
  need ((s.port (argN a 0)).st = .disabled) .stateMismatch <|
  .ok (s.modPort (argN a 0) fun p =>
    { p with mac := argMac a 1, ipv4 := argAddrBytes a 3 4, ipv6 := argAddrBytes a 4 16, udp := argN a 8 })

/-- FAB_MACSEC_KEY: port, direction (0 transmit, 1 receive), AN, key, and for XPN salt and SSCI (R263, R264). A new
transmit association sends from then on (R265). -/
def cmdFabMacsecKey : CmdDef := cmd 0x0305 11 .leaZero fun s _ a =>
  let p := s.port (argN a 0)
  need (argN a 0 < 16 && argN a 1 < 2 && argN a 2 < 4) .badArgument <|
  need (p.configured && p.suite != 0) .stateMismatch <|
  need (p.suite == 1 || 15 ≤ a.length) .badMessage <|
  let sa : MacsecSa := { an := argN a 2, key := argBytes a 3 32, salt := if p.suite = 2 then argBytes a 11 12 else [],
                         ssci := if p.suite = 2 then wordAt a 14 else 0 }
  .ok (s.modPort (argN a 0) fun p =>
    if argN a 1 = 0 then { p with txSa := p.txSa.insert (argN a 2) sa, txAn := some (argN a 2) }
    else { p with rxSa := p.rxSa.insert (argN a 2) sa }).pumpAll

/-! ## Hykan commands (Table 10.11) -/

/-- HYK_KEY_LOAD: JOB, slot, key, SENDER_ID (R267). The first slot loaded sends until a switch. -/
def cmdHykKeyLoad : CmdDef := jobCmd 0x0310 11 fun s _ h j a =>
  need (argN a 1 < 2 && argN a 10 < 65536) .badArgument <|
  need (j.sendSlot != some (argN a 1)) .stateMismatch <|
  let k : KeySlot := { key := argBytes a 2 32, senderId := argN a 10 }
  .ok ((s.modJob h fun j => { j with keys := j.keys.insert (argN a 1) k, sendSlot := j.sendSlot.or (some (argN a 1))
                                     hb := j.hb.erase (argN a 1) }).pumpJob h)

/-- HYK_KEY_SWITCH: JOB, slot (R267); sends held under R269 go on. -/
def cmdHykKeySwitch : CmdDef := jobCmd 0x0311 2 fun s _ h j a =>
  need (argN a 1 < 2) .badArgument <|
  need (j.keys.has (argN a 1)) .stateMismatch <|
  .ok ((s.modJob h fun j => { j with sendSlot := some (argN a 1) }).pumpJob h)

/-- The address that HYK_PEER_SET's words give: the IPv4 one, or the IPv6 one where that is zero. -/
def argIp (a : List Word) (i : Nat) : IpAddr :=
  if (argBytes a i 4).all (· == 0) then .v6 (argBytes a (i + 1) 16) else .v4 (argBytes a i 4)

/-- HYK_PEER_SET: JOB, rank, IPv4 and IPv6 address, next-hop MAC, port mask (R270). -/
def cmdHykPeerSet : CmdDef := jobCmd 0x0312 10 fun s _ h j a =>
  need (argN a 1 < 1024 && argN a 8 < 65536 && argN a 9 < 65536) .badArgument <|
  need (match j.peers.find (argN a 1) with
    | none => true
    | some p => p.st == .lost) .stateMismatch <|
  let p : Peer := { addr := argIp a 2, mac := argMac a 7, ports := argN a 9 }
  .ok ((s.modJob h fun j => { j with peers := j.peers.insert (argN a 1) p }).pumpJob h)

/-- The channel contexts of a rank discarded (R270). -/
def Job.resetPeer (j : Job) (rank : Nat) : Job :=
  { j with tx := j.tx.sel fun k _ => k / 4096 != rank, rx := j.rx.sel fun k _ => k / 4096 != rank }

/-- HYK_WINDOW_SET: JOB, window, base, length, permissions (R271). -/
def cmdHykWindowSet : CmdDef := jobCmd 0x0314 6 fun s l h j a =>
  let w : Window := { base := argAddr a 2, len := argN a 4, data := bit (wordAt a 5) 0, refill := bit (wordAt a 5) 1 }
  need (argN a 1 < 256 && argAddrOk a 2 && w.base % 32 == 0 && w.len % 32 == 0 && 0 < w.len && 1 ≤ argN a 5 &&
    argN a 5 ≤ 3 && s.mem.inUsable w.base w.len && s.granted l w.base w.len w.data) .badArgument <|
  need (!j.windows.has (argN a 1)) .stateMismatch <|
  .ok (s.modJob h fun j => { j with windows := j.windows.insert (argN a 1) w })

/-- Whether a message that has placed packets in a window is not yet delivered. -/
def Job.placing (j : Job) (w : Nat) : Bool := j.rx.any fun e => e.2.held.any fun p => !p.post && p.pl.target == w

/-- HYK_WINDOW_CLEAR: JOB, window. -/
def cmdHykWindowClear : CmdDef := jobCmd 0x0315 2 fun s _ h j a =>
  need (argN a 1 < 256) .badArgument <|
  need (j.windows.has (argN a 1) && !j.placing (argN a 1)) .stateMismatch <|
  .ok (s.modJob h fun j => { j with windows := j.windows.erase (argN a 1) })

/-- HYK_CFG: PKT_DATA, RTO_COUNTS, RETRY_LIMIT, FAULT_LIMIT, RATE_WINDOW, MIN_RATE, AI_STEP, HOLD_COUNTS, FEC_LIMIT; the
largest frame must fit every configured port (R262). -/
def cmdHykCfg : CmdDef := cmd 0x0316 9 .leaZero fun s _ a =>
  need ([1024, 2048, 4096, 8192].contains (argN a 0) && s.fab.ports.all fun e =>
    !e.2.configured || argN a 0 + 130 + (if e.2.vlan = 0 then 0 else 4) + (if e.2.suite = 0 then 0 else 32) ≤ e.2.frame)
    .badArgument <|
  need s.live .stateMismatch <|
  .ok { s with fab := { s.fab with
          pktData := argN a 0, rtoCounts := argN a 1, retryLimit := argN a 2, faultLimit := argN a 3
          rateWindow := argN a 4, minRate := argN a 5, aiStep := argN a 6, holdCounts := argN a 7, fecLimit := argN a 8 } }

/-- FAB_PORT_CONFIG (R255). -/
def execFabPortConfig (lea : Nat) (tag : Word) (args : List Word) (s : State) : Host.Outcome State Fault Refusal :=
  finish (s.issue cmdFabPortConfig lea tag args)
/-- FAB_PORT_ENABLE (R257). -/
def execFabPortEnable (lea : Nat) (tag : Word) (args : List Word) (s : State) : Host.Outcome State Fault Refusal :=
  finish (s.issue cmdFabPortEnable lea tag args)
/-- FAB_PORT_DISABLE (R257). -/
def execFabPortDisable (lea : Nat) (tag : Word) (args : List Word) (s : State) : Host.Outcome State Fault Refusal :=
  finish (s.issue cmdFabPortDisable lea tag args)
/-- FAB_ADDR_SET (R259). -/
def execFabAddrSet (lea : Nat) (tag : Word) (args : List Word) (s : State) : Host.Outcome State Fault Refusal :=
  finish (s.issue cmdFabAddrSet lea tag args)
/-- FAB_MACSEC_KEY (R264). -/
def execFabMacsecKey (lea : Nat) (tag : Word) (args : List Word) (s : State) : Host.Outcome State Fault Refusal :=
  finish (s.issue cmdFabMacsecKey lea tag args)
/-- HYK_KEY_LOAD (R267). -/
def execHykKeyLoad (lea : Nat) (tag : Word) (args : List Word) (s : State) : Host.Outcome State Fault Refusal :=
  finish (s.issue cmdHykKeyLoad lea tag args)
/-- HYK_KEY_SWITCH (R267). -/
def execHykKeySwitch (lea : Nat) (tag : Word) (args : List Word) (s : State) : Host.Outcome State Fault Refusal :=
  finish (s.issue cmdHykKeySwitch lea tag args)
/-- HYK_PEER_SET (R270). -/
def execHykPeerSet (lea : Nat) (tag : Word) (args : List Word) (s : State) : Host.Outcome State Fault Refusal :=
  finish (s.issue cmdHykPeerSet lea tag args)
/-- HYK_WINDOW_SET (R271). -/
def execHykWindowSet (lea : Nat) (tag : Word) (args : List Word) (s : State) : Host.Outcome State Fault Refusal :=
  finish (s.issue cmdHykWindowSet lea tag args)
/-- HYK_WINDOW_CLEAR (R285). -/
def execHykWindowClear (lea : Nat) (tag : Word) (args : List Word) (s : State) : Host.Outcome State Fault Refusal :=
  finish (s.issue cmdHykWindowClear lea tag args)
/-- HYK_CFG (R285). -/
def execHykCfg (lea : Nat) (tag : Word) (args : List Word) (s : State) : Host.Outcome State Fault Refusal :=
  finish (s.issue cmdHykCfg lea tag args)

/-- The commands of this file. -/
def portCommands : List CmdDef :=
  [cmdFabPortConfig, cmdFabPortEnable, cmdFabPortDisable, cmdFabAddrSet, cmdFabMacsecKey, cmdHykKeyLoad,
   cmdHykKeySwitch, cmdHykPeerSet, cmdHykWindowSet, cmdHykWindowClear, cmdHykCfg]

end Sys2Proof.Machine
end

