-- ==== Sys2Proof/Machine/BalerPeers.lean ====
section
/-!
DEFINITION. Machine/BalerPeers.lean: mirrors and fills (13, R377 to R387): HISTORY_SYNC, DIGEST and FILL, the messages between
Baler units, what a lost peer ends, and the commands of range 0x06.
-/

namespace Sys2Proof.Machine

/-! ## Messages between Baler units (R379, Table 13.9) -/

/-- The header of a Baler peer message (Table 13.9). -/
structure BalMsg where
  type : Nat
  kind : Nat := 0
  ordinal : Nat := 0
  step : Word := 0
  worker : Nat := 0
  offset : Nat := 0
  units : Nat := 0
  rangeId : Nat := 0
  status : Nat := 0
  digest : List Byte := List.replicate 32 0
  deriving DecidableEq, Repr

/-- The 64 bytes of the header (little-endian). -/
def BalMsg.bytes (m : BalMsg) : List Byte :=
  wordsToBytes [packFields [(1, 24), (m.type, 20), (m.kind, 16), (m.ordinal, 12)], m.step, BitVec.ofNat 32 m.worker,
    BitVec.ofNat 32 m.offset, BitVec.ofNat 32 m.units, packFields [(m.rangeId, 16), (m.status, 0)], 0, 0] ++ m.digest

/-- The header that 64 bytes hold. -/
def BalMsg.parse (b : List Byte) : BalMsg :=
  let w := bytesToWords 8 b
  { type := fld (wordAt w 0) 23 20, kind := fld (wordAt w 0) 19 16, ordinal := fld (wordAt w 0) 15 12, step := wordAt w 1
    worker := (wordAt w 2).toNat, offset := (wordAt w 3).toNat, units := (wordAt w 4).toNat
    rangeId := fld (wordAt w 5) 31 16, status := fld (wordAt w 5) 15 0, digest := (b.drop 32).take 32 }

/-- The set that a peer message's TARGET names (R379). -/
def Delivery.balSet (d : Delivery) : Nat := d.target - 0xFF00

/-- A Baler message to the holder of a role (R379). -/
def State.sendBalRole (s : State) (jh channel set : Nat) (role : Nat × Nat) (m : BalMsg) (body : List Byte)
    (owner : MsgOwner) : State :=
  s.sendRole jh role.1 role.2 { rank := 0, channel := channel, target := 0xFF00 + set, data := s.packBytes (m.bytes ++ body)
                                owner := owner, step := m.step }

/-- A Baler message to a rank (R379). -/
def State.sendBal (s : State) (jh channel rank set : Nat) (m : BalMsg) (body : List Byte) (owner : MsgOwner) : State :=
  s.send jh { rank := rank, channel := channel, target := 0xFF00 + set, data := s.packBytes (m.bytes ++ body)
              owner := owner, step := m.step }

/-- The WORKER index of the state that a set holds. -/
def State.setWorker (s : State) (j : Job) (b : Baler) (set : Nat) : Nat :=
  if set = 0 then (match s.pairRole j with
    | some (2, i) => i
    | _ => 0)
  else b.mirrors.getD set 0

/-- The rank that holds a role, where it is an ACTIVE peer. -/
def State.peerOfRole (s : State) (j : Job) (role : Nat × Nat) : Option Nat :=
  match s.role j role.1 role.2 with
  | none => none
  | some r => if r.rank != j.rank && j.peerActive r.rank then some r.rank else none

/-! ## HISTORY_SYNC (R378) -/

/-- HISTORY_SYNC (R378): once the ops that it awaits have completed, the scale history region is read and sent, and the job
is released; the op completes when the message is acknowledged. -/
def execHistorySync (n : Nat) (s : State) : Host.Outcome State Fault Refusal :=
  match s.balRun n 5 with
  | none => finish s
  | some (o, j, b) => match j.hold with
    | none => finish s
    | some h =>
      if h.op ≠ some n ∨ !s.holdOver h then finish s
      else match s.access j.scaleRegion j.scaleLen with
        | .stall => finish s
        | .bad sec st => finish ((s.lostRead sec).balEnd n st 0x12)
        | .good =>
          if (s.peerOfRole j o.bRole).isNone then finish (s.balEnd n .peerLost)
          else
            let data := s.read j.scaleRegion j.scaleLen
            let units := unitsOf j.scaleLen
            let body := (List.range units).flatMap (unitOf data)
            let m : BalMsg := { type := 2, kind := 8, step := o.step, worker := o.bRole.2, units := units }
            let s := (s.dropHold o.job n).modBaler o.job fun b => { b with historyOps := b.historyOps ++ [n] }
            finish (s.sendBalRole o.job b.channel 0 o.bRole m body (.bal o.job 2 n 0))

/-- HISTORY (R378): the region goes into the SCALE_COPY of the mirror set whose MIRRORS is the packet's ROLE_INDEX. -/
def execHistory (s : State) : Host.Outcome State Fault Refusal :=
  match s.front .history with
  | none => finish s
  | some (d, t) => match t.deliveryBaler d with
    | none => finish t
    | some (_, b) => match b.mirrors.find? fun e => e.2 == d.roleIndex with
      | none => finish t
      | some (set, _) => match b.regions.find? fun r => r.set == set && r.kind == 5 with
        | none => finish t
        | some r => match t.writeAccess r.base (min r.len (d.body.length - 64)) with
          | .stall => finish s
          | _ =>
            let data := (d.body.drop 64).take r.len
            finish ((t.write r.base data).noteWrite d.step r.base data.length)

/-! ## DIGEST (R380) -/

/-- A DIGEST op's region: its base and length. -/
def Op.digestRegion (o : Op) (j : Job) (b : Baler) : Nat × Nat := (j.balRegion b o.bSet o.bKind o.bOrdinal).getD (0, 0)

/-- The bytes that a DIGEST op reads: from its first unit to its last, or to the region's end. -/
def Op.digestSpan (o : Op) (j : Job) (b : Baler) : Span :=
  let r := o.digestRegion j b
  let off := 4096 * (o.w 1).toNat
  { base := r.1 + off, len := min (4096 * (o.w 2).toNat) (r.2 - off) }

/-- D: the SHA-256 of the concatenated leaves (R380). -/
def digestUnits (data : List Byte) : List Byte :=
  sha256 ((List.range (unitsOf data.length)).flatMap fun i => sha256 (unitOf data i))

/-- The header of a DIGEST op's message. -/
def State.digestMsg (s : State) (o : Op) (j : Job) (b : Baler) (d : List Byte) : BalMsg :=
  { type := 1, kind := o.bKind, ordinal := o.bOrdinal, step := o.step, worker := s.setWorker j b o.bSet
    offset := (o.w 1).toNat, units := (o.w 2).toNat, rangeId := o.f 4 15 0, digest := d }

/-- Whether a peer's message is the one that a DIGEST op waits for. -/
def Op.digestMatches (o : Op) (e : EarlyDigest) : Bool :=
  e.step == o.step && e.rangeId == o.f 4 15 0 && e.kind == o.bKind && e.ordinal == o.bOrdinal &&
  e.offset == (o.w 1).toNat && e.units == (o.w 2).toNat

/-- A DIGEST op has both values (R380). -/
def State.endDigest (s : State) (n : Nat) (o : Op) (mine theirs : List Byte) : State :=
  let s := s.modBaler o.job fun b => { b with digestRuns := b.digestRuns.filter fun r => r.op != n }
  if mine = theirs then s.balEnd n .ok
  else
    let s := s.queueEvent o.lea (faultEvent .digestMismatch 0x08 0 (job := o.job) (step := o.step))
    { s with units := { s.units with digestMismatch := true, mismatchCount := s.units.mismatchCount + 1 } }.balEnd n
      .digestMismatch

/-- DIGEST (R380): the range is hashed and the value sent; a message that came early ends the op. -/
def execDigest (n : Nat) (s : State) : Host.Outcome State Fault Refusal :=
  match s.balRun n 6 with
  | none => finish s
  | some (o, j, b) =>
    let x := o.digestSpan j b
    if b.digestRuns.any fun r => r.op == n then finish s
    else match s.access x.base x.len, s.peerOfRole j o.bRole with
      | .stall, _ => finish s
      | .bad sec st, _ => finish ((s.lostRead sec).balEnd n st 0x12)
      | .good, none => finish (s.balEnd n .peerLost)
      | .good, some rank =>
        let d := digestUnits (s.read x.base x.len)
        let early := b.digests.find? fun (e : EarlyDigest) => e.rank == rank && o.digestMatches e
        let s := s.modBaler o.job fun b => { b with digestRuns := b.digestRuns ++ [{ op := n, digest := d, since := s.now }]
                                                    digests := match early with
                                                      | none => b.digests
                                                      | some e => b.digests.erase e }
        let s := s.sendBalRole o.job b.channel o.bSet o.bRole (s.digestMsg o j b d) [] (.bal o.job 1 n 0)
        match early with
        | none => finish s
        | some e => finish (s.endDigest n o d e.digest)

/-- DIGEST_MSG (R380): a running DIGEST op takes the value, or it is kept for a later one; beyond 16 it is dropped. -/
def execDigestMsg (s : State) : Host.Outcome State Fault Refusal :=
  match s.front .digest with
  | none => finish s
  | some (d, t) => match t.deliveryBaler d with
    | none => finish t
    | some (j, b) =>
      let m := BalMsg.parse d.body
      let e : EarlyDigest := { rank := d.rank, step := m.step, rangeId := m.rangeId, kind := m.kind, ordinal := m.ordinal
                               offset := m.offset, units := m.units, digest := m.digest }
      let fits (r : DigestRun) : Bool := match t.op r.op with
        | none => false
        | some o => o.digestMatches e && (t.role j o.bRole.1 o.bRole.2).any fun h => h.rank == d.rank
      match b.digestRuns.find? fits with
      | some r => match t.op r.op with
        | none => finish t
        | some o => finish (t.endDigest r.op o r.digest m.digest)
      | none =>
        if b.digests.length < 16 then finish (t.modBaler d.job fun b => { b with digests := b.digests ++ [e] })
        else finish t.dropStore

/-- An op that waits for a peer's message ends without it. -/
def State.balGiveUp (s : State) (n : Nat) (st : Status) : State :=
  match s.op n with
  | none => s
  | some o =>
    (s.modBaler o.job fun b => { b with digestRuns := b.digestRuns.filter fun r => r.op != n
                                        historyOps := b.historyOps.filter (· != n), fills := b.fills.erase n }).balEnd n st

/-- DIGEST_LIMIT_EXPIRY (R380). -/
def execDigestLimitExpiry (n : Nat) (s : State) : Host.Outcome State Fault Refusal :=
  match s.balRun n 6 with
  | none => finish s
  | some (_, _, b) => match b.digestRuns.find? fun r => r.op == n with
    | none => finish s
    | some r => if s.elapsed r.since < b.digestLimit then finish s else finish (s.balGiveUp n .peerLost)

/-! ## FILL (R382 to R385) -/

/-- What a fill copies of a set (Table 13.1): kind, ordinal, base and length; the scale history stands last, as kind 8. -/
def Job.fillLayout (j : Job) (b : Baler) (set : Nat) : List (Nat × Nat × Nat × Nat) :=
  let regs := (b.regions.filter fun r => r.set == set && 1 ≤ r.kind && r.kind ≤ 3).map fun r =>
    (r.kind, r.ordinal, r.base, r.len)
  regs ++ if set = 0 then [(8, 0, j.scaleRegion, j.scaleLen)]
    else ((b.regions.find? fun r => r.set == set && r.kind == 5).map fun r => (8, 0, r.base, r.len)).toList

/-- The layout as FILL_REQ lists it: 16 bytes a region, its kind, ordinal and units. -/
def layoutBytes (l : List (Nat × Nat × Nat × Nat)) : List Byte :=
  l.flatMap fun e => wordsToBytes [packFields [(e.1, 24), (e.2.1, 20)], 0, BitVec.ofNat 32 (unitsOf e.2.2.2), 0]

/-- Whether two layouts list the same regions, in any order. -/
def sameLayout (a b : List Byte) : Bool :=
  let items (x : List Byte) : List (List Byte) := (List.range (x.length / 16)).map fun i => (x.drop (16 * i)).take 16
  a.length == b.length && (items a).all (items b).contains && (items b).all (items a).contains

/-- FILL (R382): FILL_REQ goes to the holder of the op's role. It names the destination set in ORDINAL. -/
def execFill (n : Nat) (s : State) : Host.Outcome State Fault Refusal :=
  match s.balRun n 7 with
  | none => finish s
  | some (o, j, b) =>
    if b.fills.has n then finish s
    else if (s.peerOfRole j o.bRole).isNone then finish (s.balEnd n .peerLost)
    else
      let m : BalMsg := { type := 3, ordinal := o.bSet, step := o.step, worker := o.bRole.2
                          units := (j.fillLayout b o.bSet).length }
      let s := s.modBaler o.job fun b => { b with fills := b.fills.insert n o.bSet }
      finish (s.sendBalRole o.job b.channel o.bSource o.bRole m (layoutBytes (j.fillLayout b o.bSet)) (.bal o.job 3 n 0))

/-- Whether a set exists: set 0, or a mirror set with a region. -/
def Baler.hasSet (b : Baler) (set : Nat) : Bool := set == 0 || b.regions.any fun r => r.set == set

/-- The units of a region go out as FILL_DATA (R383). -/
def State.sendRegion (s : State) (jh : Nat) (b : Baler) (v : Serve) (step : Word) (worker : Nat)
    (e : Nat × Nat × Nat × Nat) : State :=
  let data := s.read e.2.2.1 e.2.2.2
  (List.range (unitsOf e.2.2.2)).foldl (fun (s : State) i =>
    s.sendBal jh b.channel v.rank v.destSet
      { type := 4, kind := e.1, ordinal := e.2.1, step := step, worker := worker, offset := i, units := 1 } (unitOf data i)
      (.bal jh 4 v.rank (e.2.2.1 + 4096 * i))) s

/-- The scale history of a set and FILL_DONE go out (R383, items 3 and 4). -/
def State.finishServe (s : State) (jh : Nat) (v : Serve) : State :=
  match s.jobs.find jh with
  | none => s
  | some j => match j.baler with
    | none => s
    | some b =>
      let step := b.setSteps.getD v.set 0
      let s := ((j.fillLayout b v.set).filter fun e => e.1 == 8).foldl (fun (s : State) e =>
        s.sendRegion jh b v step (s.setWorker j b v.set) e) s
      let recs := s.windrowState jh step
      let s := s.sendBal jh b.channel v.rank v.destSet
        { type := 5, step := step, worker := s.setWorker j b v.set, units := recs.length / 32 } recs
        (.bal jh 5 v.rank v.destSet)
      s.modBaler jh fun b => { b with serves := b.serves.map fun x => if x = v then { x with doneSent := true } else x }

/-- The fills that a job serves go on: a mirror set's at once, set 0's under a hold of the job (R383). -/
def State.serveJob (s : State) (jh : Nat) : State :=
  match s.jobs.find jh with
  | none => s
  | some j => match j.baler with
    | none => s
    | some b =>
      let due := b.serves.filter fun v => v.set == 0 && !v.doneSent
      let s := (b.serves.filter fun v => v.set != 0 && !v.doneSent).foldl (fun (s : State) v => s.finishServe jh v) s
      if due.isEmpty then s
      else
        let s := if j.hold.isNone then s.takeHold jh none else s
        match (s.jobs.find jh).bind (·.hold) with
        | none => s
        | some h =>
          if h.op.isNone && s.holdOver h then
            (due.foldl (fun (s : State) v => s.finishServe jh v) s).modJob jh fun j => { j with hold := none }
          else s

/-- FILL_REQ (R382, R383): a serve starts and its units are queued, or FILL_ABORT answers. -/
def execFillReq (s : State) : Host.Outcome State Fault Refusal :=
  match s.front .fillReq with
  | none => finish s
  | some (d, t) => match t.deliveryBaler d with
    | none => finish t
    | some (j, b) =>
      let m := BalMsg.parse d.body
      let v : Serve := { set := d.balSet, rank := d.rank, destSet := m.ordinal }
      let layout := j.fillLayout b v.set
      let refuse (st : Status) : State :=
        t.sendBal d.job b.channel d.rank m.ordinal { type := 6, step := m.step, status := st.code } []
          (.bal d.job 6 d.rank m.ordinal)
      if !b.hasSet v.set then finish (refuse .badArgument)
      else if !sameLayout (layoutBytes layout) ((d.body.drop 64).take (16 * m.units)) then finish (refuse .stateMismatch)
      else if 4 ≤ (t.jobs.map fun e => (e.2.baler.map fun b => b.serves.length).getD 0).sum then finish (refuse .noResource)
      else match t.spansAccess (layout.map fun e => { base := e.2.2.1, len := e.2.2.2 }) with
        | .stall => finish s
        | .bad sec st => finish ((refuse st).lostRead sec)
        | .good =>
          let step := b.setSteps.getD v.set 0
          let t := t.modBaler d.job fun b => { b with serves := b.serves ++ [v] }
          let t := (layout.filter fun e => e.1 != 8).foldl (fun (s : State) e =>
            s.sendRegion d.job b v step (t.setWorker j b v.set) e) t
          finish (t.serveJob d.job)

/-- The FILL op whose destination is a set. -/
def Baler.fillOf (b : Baler) (set : Nat) : Option Nat := (b.fills.find? fun e => e.2 == set).map (·.1)

/-- FILL_DATA (R383): the units are written into the destination set; padding is not written back. -/
def execFillData (s : State) : Host.Outcome State Fault Refusal :=
  match s.front .fillData with
  | none => finish s
  | some (d, t) => match t.deliveryBaler d with
    | none => finish t
    | some (j, b) =>
      let m := BalMsg.parse d.body
      match b.fillOf d.balSet, (j.fillLayout b d.balSet).find? fun e => e.1 == m.kind && e.2.1 == m.ordinal with
      | some _, some e =>
        let data := (d.body.drop 64).take (min (4096 * m.units) (e.2.2.2 - 4096 * m.offset))
        let a := e.2.2.1 + 4096 * m.offset
        if t.writeAccess a data.length = .stall then finish s
        else finish ((t.write a data).noteWrite m.step a data.length)
      | _, _ => finish t

/-- FILL_DONE (R384): each WINDROW_STATE record goes to its group where that is set and has no op in flight, and FILL
completes. -/
def execFillDone (s : State) : Host.Outcome State Fault Refusal :=
  match s.front .fillDone with
  | none => finish s
  | some (d, t) => match t.deliveryBaler d with
    | none => finish t
    | some (_, b) => match b.fillOf d.balSet with
      | none => finish t
      | some n =>
        let m := BalMsg.parse d.body
        let t := (stateRecords ((d.body.drop 64).take (32 * m.units))).foldl (fun (s : State) e =>
          if (s.jobGroups d.job).has e.1 && !s.groupBusy e.1 then s.modGroup e.1 fun g => g.restored e.2 m.step else s) t
        let t := if d.balSet = 0 then t.rereadScale d.job else t
        let t := t.modBaler d.job fun b => { b with fills := b.fills.erase n, stateStep := m.step, received := b.received + 1 }
        finish ({ t with units := { t.units with fillCount := t.units.fillCount + 1 } }.balEnd n .ok)

/-- FILL_ABORT (R382): FILL completes with its status. -/
def execFillAbort (s : State) : Host.Outcome State Fault Refusal :=
  match s.front .fillAbort with
  | none => finish s
  | some (d, t) => match t.deliveryBaler d with
    | none => finish t
    | some (_, b) => match b.fillOf d.balSet with
      | none => finish t
      | some n => finish (t.balGiveUp n ((Status.ofCode (BalMsg.parse d.body).status).getD .unitFault))

/-! ## Acknowledgements and lost peers -/

/-- A serve ends (R385). -/
def State.endServe (s : State) (jh rank : Nat) (p : Serve → Bool) : State :=
  let s := s.modJob jh fun j => j.dropMessages fun w => match w with
    | .bal _ t r _ => (t == 4 || t == 5) && r == rank
    | _ => false
  s.modBaler jh fun b => { b with serves := b.serves.filter fun v => !(v.rank == rank && p v) }

/-- A message of Baler is acknowledged. -/
def State.balAcked (s : State) (w : MsgOwner) : State :=
  match w with
  | .store jh _ _ _ => s.sealRelay jh
  | .bal jh 2 n _ => match s.jobs.find jh with
    | none => s
    | some j =>
      if j.outstanding w then s
      else (s.modBaler jh fun b => { b with historyOps := b.historyOps.filter (· != n) }).balEnd n .ok
  | .bal jh 5 rank set =>
    let s := s.modBaler jh fun b => { b with served := b.served + 1
                                             serves := b.serves.filter fun v => !(v.rank == rank && v.destSet == set) }
    { s with units := { s.units with fillCount := s.units.fillCount + 1 } }
  | _ => s

/-- The op of a message that Baler sends for an op. -/
def MsgOwner.balOp : MsgOwner → Option Nat
  | .bal _ t n _ => if t = 1 ∨ t = 2 ∨ t = 3 then some n else none
  | _ => none

/-- A message of Baler is refused with a NAK other than ROLE_MOVED and ST_NO_RESOURCE. -/
def State.balRefused (s : State) (w : MsgOwner) (reason : Nat) : State :=
  match w with
  | .store jh t k off =>
    if k = 3 then (match (s.jobs.find jh).bind fun j => j.baler.bind fun b =>
        b.gets.find? fun g => storeRank g.far == t && g.offset == off with
      | none => s
      | some g => s.getRefused jh g)
    else if t = storeRank true then s.dropRelay jh
    else s.abandon jh .unitFault 0x10
  | .bal jh 4 rank _ | .bal jh 5 rank _ => s.endServe jh rank fun _ => true
  | _ => match w.balOp with
    | none => s
    | some n => s.balGiveUp n (if reason = Status.seqMismatch.code then .seqMismatch else .peerRefused)

/-- A wait of R324 ends an op of Baler (R379). -/
def State.balRoleMoved (s : State) (w : MsgOwner) : State :=
  match w.balOp with
  | none => s
  | some n => s.balGiveUp n .roleMoved

/-- A store target has become LOST or QUARANTINED (R372, R373). -/
def State.targetGone (s : State) (jh : Nat) (far : Bool) : State :=
  match s.jobs.find jh with
  | none => s
  | some j => match j.baler with
    | none => s
    | some b =>
      let s := if far then s else s.abandon jh .peerLost
      let s := if b.relay.isSome then s.dropRelay jh else s
      let s := match b.restore with
        | none => s
        | some r => if r.far = far then s.failRestore jh r .peerLost else s
      (b.gets.filter fun g => g.far == far).foldl (fun (s : State) g => match g.use with
        | .refill _ => s.getRefused jh g
        | _ => s) s

/-- A job's peer or store target has become LOST or QUARANTINED (R372, R380, R384, R385). -/
def State.balPeerGone (s : State) (jh rank : Nat) : State :=
  if rank = storeRank false then s.targetGone jh false
  else if rank = storeRank true then s.targetGone jh true
  else match s.jobs.find jh with
    | none => s
    | some j => match j.baler with
      | none => s
      | some b =>
        let waits := b.digestRuns.map (·.op) ++ b.historyOps ++ b.fills.map (·.1)
        let there (n : Nat) : Bool := match s.op n with
          | none => false
          | some o => (s.role j o.bRole.1 o.bRole.2).any fun r => r.rank == rank
        let s' := (waits.filter there).foldl (fun (s : State) n => s.balGiveUp n .peerLost) s
        s'.endServe jh rank fun _ => true

/-- An update op has completed on a set's WEIGHTS: STATE_STEP of the set becomes its STEP (R383). -/
def State.noteUpdate (s : State) (o : Op) : State :=
  s.modBaler o.job fun b =>
    let hit := (b.regions.filter fun r => writesMeet o.updSpans r.base r.len).map (·.set)
    { b with setSteps := hit.foldl (fun m set => m.insert set o.step) b.setSteps }

/-! ## Commands (R388, Table 13.11) -/

/-- BAL_SET: JOB, snapshot area base and length, CHANNEL, FAR_EVERY, FAR_RATE, DIGEST_LIMIT, CKPT_SEQ. -/
def cmdBalSet : CmdDef := jobCmd 0x0601 9 fun s l h j a =>
  need (argAddrOk a 1 && argAddr a 1 % 4096 == 0 && argN a 3 % 4096 == 0 && s.granted l (argAddr a 1) (argN a 3) true &&
    argN a 4 < 4096 && argN a 5 < 256 && 1 ≤ argN a 6 && argN a 6 ≤ 1600) .badArgument <|
  let b : Baler := { area := argAddr a 1, areaLen := argN a 3, channel := argN a 4, farEvery := argN a 5
                     farRate := argN a 6, digestLimit := if argN a 7 = 0 then 10000000 else argN a 7, ckptSeq := wordAt a 8 }
  match j.baler with
  | none => .ok (s.modJob h fun j => { j with baler := some b })
  | some x =>
    need (x.st = .idle) .stateMismatch <|
    .ok (s.modBaler h fun x => { x with area := b.area, areaLen := b.areaLen, channel := b.channel, farEvery := b.farEvery
                                        farRate := b.farRate, digestLimit := b.digestLimit, ckptSeq := b.ckptSeq })

/-- BAL_TARGET_SET: JOB, target (1 NEAR, 2 FAR), IPv4 and IPv6 address, next-hop MAC address, port mask (R358). -/
def cmdBalTargetSet : CmdDef := jobCmd 0x0602 10 fun s _ h j a =>
  need ((argN a 1 == 1 || argN a 1 == 2) && argN a 8 < 65536 && argN a 9 < 65536) .badArgument <|
  let far := argN a 1 == 2
  let p : Peer := { addr := argIp a 2, mac := argMac a 7, ports := argN a 9 }
  match j.baler with
  | none => .fail .stateMismatch
  | some b =>
    need (if far then b.relay.isNone else b.st != .paused && b.st != .capturing) .stateMismatch <|
    .ok ((s.modJob h fun j => j.resetPeer (storeRank far)).modBaler h fun b =>
      if far then { b with far := some p } else { b with near := some p })

/-- The legal state of BAL_REGION_SET and BAL_REGION_CLEAR: the set is not captured, filling or being filled. -/
def Baler.setFree (b : Baler) (set : Nat) : Bool :=
  (set != 0 || (b.st != .paused && b.st != .capturing)) && (b.fillOf set).isNone && b.serves.all fun v => v.set != set

/-- BAL_REGION_SET: JOB, SET, MIRRORS, KIND, ORDINAL, base, length (R354). -/
def cmdBalRegionSet : CmdDef := jobCmd 0x0603 8 fun s l h j a =>
  let r : BRegion := { set := argN a 1, kind := argN a 3, ordinal := argN a 4, base := argAddr a 5, len := argN a 7 }
  let regions := match j.baler with
    | none => []
    | some b => b.regions
  need (r.set < 16 && argN a 2 < 2 ^ 24 && 1 ≤ r.kind && r.kind ≤ (if r.set = 0 then 4 else 5) && r.ordinal ≤ 13 &&
    argAddrOk a 5 && r.base % 4096 == 0 && r.len % 4096 == 0 && 0 < r.len && s.mem.inCorrected r.base r.len &&
    s.granted l r.base r.len true && regions.all fun x => !overlaps x.base x.len r.base r.len) .badArgument <|
  match j.baler with
  | none => .fail .stateMismatch
  | some b =>
    need (b.setFree r.set && (j.balRegion b r.set r.kind r.ordinal).isNone) .stateMismatch <|
    need (r.set != 0 || r.kind == 4 || (b.regions.filter fun x => x.set == 0 && x.kind != 4).length < 14) .noResource <|
    .ok (s.modBaler h fun b => { b with regions := b.regions ++ [r]
                                        mirrors := if r.set = 0 then b.mirrors else b.mirrors.insert r.set (argN a 2) })

/-- BAL_REGION_CLEAR: JOB, SET, KIND, ORDINAL. -/
def cmdBalRegionClear : CmdDef := jobCmd 0x0604 4 fun s _ h j a =>
  need (argN a 1 < 16 && 1 ≤ argN a 2 && argN a 2 ≤ 5 && argN a 3 ≤ 13) .badArgument <|
  match j.baler with
  | none => .fail .stateMismatch
  | some b =>
    let hit (r : BRegion) : Bool := r.set == argN a 1 && r.kind == argN a 2 && r.ordinal == argN a 3
    need (b.setFree (argN a 1) && b.regions.any hit) .stateMismatch <|
    .ok (s.modBaler h fun b => { b with regions := b.regions.filter fun r => !hit r })

/-- BAL_KEY_TAG: JOB, key slot, KEY_TAG. -/
def cmdBalKeyTag : CmdDef := jobCmd 0x0605 3 fun s _ h j a =>
  need (argN a 1 < 2) .badArgument <|
  match j.keys.find (argN a 1) with
  | none => .fail .stateMismatch
  | some k => .ok (s.modJob h fun j => { j with keys := j.keys.insert (argN a 1) { k with tag := [wordAt a 2] } })

/-- BAL_OBJECT_SET: object, target (1 NEAR, 2 FAR), JOB_ID, RANK, CKPT_SEQ, section, base. -/
def cmdBalObjectSet : CmdDef := cmd 0x0606 8 .leaZero fun s _ a =>
  need (1 ≤ argN a 0 && argN a 0 < 256 && (argN a 1 == 1 || argN a 1 == 2) && argN a 3 < 65536 && argN a 5 < 16 &&
    argAddrOk a 6 && argAddr a 6 % 4096 == 0) .badArgument <|
  let o : StoreObject := { far := argN a 1 == 2, jobId := wordAt a 2, rank := argN a 3, ckptSeq := wordAt a 4
                           sect := argN a 5, base := argAddr a 6 }
  let taking := s.jobs.any fun e => match e.2.baler.bind fun b => b.image with
    | none => false
    | some m => e.2.jobId == o.jobId && e.2.rank == o.rank && m.ckptSeq == o.ckptSeq
  need (!taking) .stateMismatch <|
  .ok { s with units := { s.units with objects := s.units.objects.insert (argN a 0) o } }

/-- BAL_ABANDON: JOB (R372). -/
def cmdBalAbandon : CmdDef := jobCmd 0x0607 1 fun s _ h j _ =>
  match j.baler with
  | none => .fail .stateMismatch
  | some b => need (b.st = .paused || b.st = .capturing) .stateMismatch <| .ok (s.abandon h .cancelled)

/-- The code of a Baler state, in the order of Table 13.7. -/
def BalSt.code : BalSt → Nat
  | .idle => 0 | .paused => 1 | .capturing => 2 | .verifying => 3 | .unverified => 4 | .failed => 5

/-- BAL_STATE_READ: JOB; answers state, CKPT_SEQ, image STEP, STATE_STEP, fills served and received. -/
def cmdBalStateRead : CmdDef := jobCmd 0x0608 1 fun s _ _ j _ =>
  match j.baler with
  | none => .done s .ok (List.replicate 6 0)
  | some b => .done s .ok [BitVec.ofNat 32 b.st.code, b.ckptSeq, b.imageStep, b.stateStep, BitVec.ofNat 32 b.served,
      BitVec.ofNat 32 b.received]

/-! ## The command rows -/

/-- BAL_SET (R388). -/
def execBalSet (lea : Nat) (tag : Word) (args : List Word) (s : State) : Host.Outcome State Fault Refusal :=
  finish (s.issue cmdBalSet lea tag args)
/-- BAL_TARGET_SET (R358, R388). -/
def execBalTargetSet (lea : Nat) (tag : Word) (args : List Word) (s : State) : Host.Outcome State Fault Refusal :=
  finish (s.issue cmdBalTargetSet lea tag args)
/-- BAL_REGION_SET (R354, R388). -/
def execBalRegionSet (lea : Nat) (tag : Word) (args : List Word) (s : State) : Host.Outcome State Fault Refusal :=
  finish (s.issue cmdBalRegionSet lea tag args)
/-- BAL_REGION_CLEAR (R388). -/
def execBalRegionClear (lea : Nat) (tag : Word) (args : List Word) (s : State) : Host.Outcome State Fault Refusal :=
  finish (s.issue cmdBalRegionClear lea tag args)
/-- BAL_KEY_TAG (R388). -/
def execBalKeyTag (lea : Nat) (tag : Word) (args : List Word) (s : State) : Host.Outcome State Fault Refusal :=
  finish (s.issue cmdBalKeyTag lea tag args)
/-- BAL_OBJECT_SET (R388). -/
def execBalObjectSet (lea : Nat) (tag : Word) (args : List Word) (s : State) : Host.Outcome State Fault Refusal :=
  finish (s.issue cmdBalObjectSet lea tag args)
/-- BAL_ABANDON (R372, R388). -/
def execBalAbandon (lea : Nat) (tag : Word) (args : List Word) (s : State) : Host.Outcome State Fault Refusal :=
  finish (s.issue cmdBalAbandon lea tag args)
/-- BAL_STATE_READ (R388). -/
def execBalStateRead (lea : Nat) (tag : Word) (args : List Word) (s : State) : Host.Outcome State Fault Refusal :=
  finish (s.issue cmdBalStateRead lea tag args)

/-- The commands of this file. -/
def balerCommands : List CmdDef :=
  [cmdBalSet, cmdBalTargetSet, cmdBalRegionSet, cmdBalRegionClear, cmdBalKeyTag, cmdBalObjectSet, cmdBalAbandon,
   cmdBalStateRead]

end Sys2Proof.Machine
end

