-- ==== Sys2Proof/Machine/Hedgerow.lean ====
section
/-!
DEFINITION. Machine/Hedgerow.lean: the Hedgerow management port (15, R413 to R435).
-/

namespace Sys2Proof.Machine

/-! ## Sources (R420 to R422) -/

/-- The source table entry of a MAC address. -/
def Hedgerow.source (h : Hedgerow) (mac : List Byte) : Option (Nat × SrcEntry) := h.sources.find? fun e => e.2.mac == mac

/-- A source is BLOCKED (R422): its entry, or the first free one, takes the flag, and lea 0 gets an event. -/
def State.blockSource (s : State) (i : Nat) (e : SrcEntry) : State :=
  let h := { s.hdr with sources := s.hdr.sources.insert i { e with blocked := true }, srcBlocked := true
                        blockCount := s.hdr.blockCount + 1 }
  { s with hdr := h }.queueEvent 0 (faultEvent .denied 0x01 0x23 (index := i))

/-- The drops of an unlisted source in the running interval. -/
def Hedgerow.unlisted (h : Hedgerow) (mac : List Byte) : Nat :=
  match h.sharedDrops.find? fun e => e.1 == mac with
  | none => 0
  | some e => e.2

/-- A drop at check 3, 5, 7 or 8 counts against its source (R422). -/
def State.sourceDrop (s : State) (mac : List Byte) : State :=
  match s.hdr.source mac with
  | some (i, e) =>
    let e := { e with drops := e.drops + 1, recent := e.recent + 1 }
    if s.hdr.blockLimit < e.recent && !e.blocked then s.blockSource i e
    else { s with hdr := { s.hdr with sources := s.hdr.sources.insert i e } }
  | none =>
    let n := s.hdr.unlisted mac + 1
    let s := { s with hdr := { s.hdr with
      sharedDrops := (mac, n) :: s.hdr.sharedDrops.filter fun e => e.1 != mac } }
    if n ≤ s.hdr.blockLimit then s
    else match s.hdr.sources.freeFrom 0 16 with
      | none => s
      | some i => s.blockSource i { mac := mac, rate := 256, burst := 16, tokens := 0, drops := n, recent := n }

/-- A drop that counter `i` counts and that counts against its source. -/
def State.badFrame (s : State) (i : Nat) (mac : List Byte) : State := (s.hdrCount i).sourceDrop mac

/-- Whether the source's bucket holds a token (R421). -/
def Hedgerow.hasToken (h : Hedgerow) (mac : List Byte) : Bool :=
  match h.source mac with
  | some (_, e) => 0 < e.tokens
  | none => 0 < h.sharedTokens

/-- A token taken from the source's bucket. -/
def Hedgerow.takeToken (h : Hedgerow) (mac : List Byte) : Hedgerow :=
  match h.source mac with
  | some (i, e) => { h with sources := h.sources.insert i { e with tokens := e.tokens - 1 } }
  | none => { h with sharedTokens := h.sharedTokens - 1 }

/-- TOKEN_BUCKET_REFILL (R421, R422, R430): each interval of 2^20 counts adds RATE tokens to every bucket, and the
counts of drops and of health responses start anew. -/
def execTokenBucketRefill (s : State) : Host.Outcome State Fault Refusal :=
  let n := s.interval - s.hdr.interval
  if n = 0 then finish s
  else finish { s with hdr := { s.hdr with
    interval := s.interval, healthSent := 0, sharedDrops := [], sharedTokens := min 16 (s.hdr.sharedTokens + n * 256)
    sources := s.hdr.sources.mapVals fun _ e => { e with recent := 0, tokens := min e.burst (e.tokens + n * e.rate) } } }

/-! ## The receive ring (R428, R429) -/

/-- The header of a receive entry (Table 15.4); `flags` holds word 0 bits [5:0]. -/
def State.rxHeader (s : State) (r : HdrRing) (len flags : Nat) (mac : List Byte) : List Byte :=
  wordsToBytes ([packFields [(len, 16), (flags, 0)],
    packFields [(b2n ((r.index / 2 ^ r.log2) % 2 == 0), 31), (match s.hdr.source mac with
      | some (i, _) => i
      | none => 0xFF, 0)]] ++ words64 s.now.toNat ++ [0, 0, 0, 0])

/-- Whether the receive ring takes an entry: one entry stays free, as in a completion ring (R496). -/
def State.rxRoom (s : State) (r : HdrRing) : Bool :=
  (r.index + 1) % 2 ^ r.log2 != s.hdr.rxHead % 2 ^ r.log2 && (r.hbm || s.pcie.up)

/-- A frame is written to the receive ring, or counted in RX_NO_RING (R428). -/
def State.toRing (s : State) (bytes : List Byte) (flags : Nat) (mac : List Byte) : State :=
  match s.hdr.rxRing with
  | none => s.hdrCount 22
  | some r =>
    if !s.rxRoom r then s.hdrCount 22
    else
      let body := bytes.take 2016
      let data := s.rxHeader r body.length flags mac ++ body
      let a := r.base + r.index % 2 ^ r.log2 * 2048
      let s := { s with hdr := { s.hdr with rxRing := some { r with index := r.index + 1 } } }
      if r.hbm then s.write a data else { s with out := { s.out with host := s.out.host ++ [(a, data)] } }

/-! ## Heartbeats (R424 to R427) -/

/-- The EPOCH of this device's WORKER role; zero where it holds none. -/
def State.workerEpoch (s : State) (j : Job) : Word :=
  match (List.range j.workers).find? fun i => (s.role j 1 i).any fun r => r.rank == j.rank with
  | none => 0
  | some i => ((s.role j 1 i).map (·.epoch)).getD 0

/-- The nonce of a heartbeat's tag (R425). -/
def hbNonce (senderId : Nat) (jobId : Word) (seq : Nat) : List Byte :=
  natToBE 2 senderId ++ natToBE 4 (~~~ jobId).toNat ++ [0xFF, 0xFF] ++ natToBE 4 seq

/-- Bytes 0 to 27 of a HEARTBEAT body (Table 15.3). -/
def hbBody (j : Job) (rank slot : Nat) (k : KeySlot) (seq : Nat) (epoch : Word) : List Byte :=
  natToBE 4 j.jobId.toNat ++ natToBE 2 j.rank ++ natToBE 2 rank ++ natToBE 2 k.senderId ++ natToBE 1 (slot * 128) ++ [0] ++
  natToBE 4 seq ++ natToBE 4 (j.updateStep.getD 0).toNat ++ natToBE 4 j.lastBucket ++ natToBE 4 epoch.toNat

/-- Whether heartbeats leave the Hedgerow path (R426). -/
def State.diverted (s : State) : Bool := !s.edgeOn 30 || s.hdr.mediumStuck

/-- A heartbeat is queued on the segment (R424, R425). -/
def State.hbHedgerow (s : State) (e : HbEntry) : State :=
  match s.jobs.find e.job with
  | none => s
  | some j => match j.sendSlot with
    | none => s
    | some slot => match j.keys.find slot with
      | none => s
      | some k =>
        let hb := j.hb.getD slot {}
        let body := hbBody j e.rank slot k (hb.sent + 1) (s.workerEpoch j)
        let frame := s.hdrFrame e.mac 1 0 (body ++ List.replicate 16 0)
        let aad := frame.take 22 ++ body
        let tag := gcmTag k.key (hbNonce k.senderId j.jobId (hb.sent + 1)) aad []
        let s := s.modJob e.job fun j => { j with hb := j.hb.insert slot { hb with sent := hb.sent + 1 } }
        s.queueHdr 1 (aad ++ tag)

/-- A heartbeat goes out on the fabric (Table 10.5). -/
def State.hbFabric (s : State) (e : HbEntry) : State :=
  match s.jobs.find e.job with
  | none => s
  | some j => s.emitLoose e.job e.rank 0 5 id
      (natToBE 4 (j.updateStep.getD 0).toNat ++ natToBE 4 j.lastBucket ++ natToBE 4 (s.workerEpoch j).toNat ++ [0, 0, 0, 0])

/-- The heartbeats of one interval of an entry (R424, R426). -/
def State.sendHb (s : State) (e : HbEntry) : State :=
  let wire := e.path != .fabric && !s.diverted
  let air := e.path != .hedgerow || s.diverted
  let s := if wire then s.hbHedgerow e else s
  if air then s.hbFabric e else s

/-- An entry after a missed interval (R427). -/
def State.hbMiss (s : State) (h : Nat) (e : HbEntry) : State :=
  if e.heard || e.lost then s
  else
    let e' := { e with misses := satNat 8 (e.misses + 1), lost := e.missLimit ≤ e.misses + 1 }
    let s := { s with hdr := { s.hdr with hb := s.hdr.hb.insert h e' } }
    if !e'.lost then s
    else
      let s := { s with hdr := { s.hdr with hbLost := true, lostCount := s.hdr.lostCount + 1 } }
      match s.jobs.find e.job with
      | none => s
      | some j => s.queueEvent j.lea (faultEvent .peerLost 0x01 0x21 (index := h) (job := e.job))

/-- HB_INTERVAL (R424, R427): once INTERVAL counts have passed, a miss is judged and the next heartbeats go out. -/
def execHbInterval (h : Nat) (s : State) : Host.Outcome State Fault Refusal :=
  match s.hdr.hb.find h with
  | none => finish s
  | some e =>
    if s.elapsed e.since < e.interval then finish s
    else
      let s := s.hbMiss h e
      let e := s.hdr.hb.getD h e
      finish ({ s with hdr := { s.hdr with hb := s.hdr.hb.insert h { e with since := s.now, heard := false } } }.sendHb e)

/-- An entry after an accepted heartbeat (R427). -/
def HbEntry.hear (e : HbEntry) (fabric : Bool) (step : Word) : HbEntry :=
  { e with misses := 0, heard := true, lost := false, lastFabric := fabric, peerStep := step }

/-- The heartbeat entry of a job for a peer rank. -/
def Hedgerow.hbOf (h : Hedgerow) (job rank : Nat) : Option (Nat × HbEntry) :=
  h.hb.find? fun e => e.2.job == job && e.2.rank == rank

/-- A heartbeat accepted on the fabric for its entry (R424, R427). -/
def State.hearFabric (s : State) (job rank : Nat) (step : Word) : State :=
  match s.hdr.hbOf job rank with
  | none => s
  | some (i, e) => { s with hdr := { s.hdr with hb := s.hdr.hb.insert i (e.hear true step) } }

/-- A tag or replay failure of a heartbeat (R425). -/
def State.hbAuthFail (s : State) (src : List Byte) : State :=
  { s with hdr := { s.hdr with authFail := true, authCount := s.hdr.authCount + 1 } }.badFrame 21 src

/-- A received HEARTBEAT frame that passed checks 1 to 7 (R425). -/
def State.hdrHeartbeat (s : State) (b : List Byte) : State :=
  let src := slice b 6 6
  let body := b.drop 22
  let f := fun i n => beToNat (slice body i n)
  let slot := f 10 1 / 128
  let seq := f 12 4
  match s.jobs.find? fun e => e.2.jobId.toNat == f 0 4 with
  | none => s.badFrame 21 src
  | some (h, j) =>
    match s.hdr.hbOf h (f 4 2), j.keys.find slot with
    | some (i, e), some k =>
      if f 6 2 ≠ j.rank ∨ beToNat (slice b 16 2) < 44 then s.badFrame 21 src
      else if gcmTag k.key (hbNonce (f 8 2) j.jobId seq) (b.take 50) [] ≠ slice body 28 16 then s.hbAuthFail src
      else
        let hb := j.hb.getD slot {}
        if seq ≤ hb.accepted.getD e.rank 0 then s.hbAuthFail src
        else
          let s := s.modJob h fun j =>
            { j with hb := j.hb.insert slot { hb with accepted := hb.accepted.insert e.rank seq } }
          let s := { s with hdr := { s.hdr with
            hb := s.hdr.hb.insert i (e.hear false (BitVec.ofNat 32 (f 16 4))) } }
          s.hdrCount 31
    | _, _ => s.badFrame 21 src

/-! ## Health and staging (R430 to R432) -/

/-- An accepted HEALTH_REQ (R430, R457): held while Cihal does not answer, up to 16. -/
def State.hdrHealth (s : State) (b : List Byte) : State :=
  if !s.hdr.healthEn then s
  else if s.cihalServes then s.answerHealth b
  else if s.hdr.heldHealth.length < 16 then { s with hdr := { s.hdr with heldHealth := s.hdr.heldHealth ++ [b] } }
  else s.hdrCount 19

/-- STAGE_ACK (R432): ARM_ID, NEXT_OFFSET and STATUS. -/
def State.stageAck (s : State) (b : List Byte) (st : Status) : State :=
  match s.hdr.staging with
  | none => s
  | some g => s.queueHdr 2 (s.hdrFrame (slice b 6 6) 5 (beToNat (slice b 18 4))
      (natToBE 4 g.armId.toNat ++ natToBE 4 g.next ++ natToBE 2 st.code))

/-- A received STAGE frame (R432). -/
def State.hdrStage (s : State) (b : List Byte) : State :=
  let src := slice b 6 6
  let len := beToNat (slice b 16 2)
  let off := beToNat (slice b 26 4)
  let data := slice b 30 (len - 8)
  match s.hdr.staging with
  | none => s.badFrame 20 src
  | some g =>
    if g.mac ≠ src ∨ g.armId.toNat ≠ beToNat (slice b 22 4) ∨ len < 9 ∨ 1032 < len then s.badFrame 20 src
    else if !s.edgeOn 33 then s.stageAck b .edgeOffline
    else if off ≠ g.next ∨ g.len < g.next + data.length then s.stageAck b .stateMismatch
    else
      match s.fw.writable with
      | none => s.stageAck b .stateMismatch
      | some k =>
        let fw := { s.fw.putBank k off data with verified := none }
        let g := { g with next := g.next + data.length }
        let s := { s with fw := fw, hdr := { s.hdr with staging := some g } }
        let s := s.stageAck b .ok
        if g.len ≤ g.next then { s with hdr := { s.hdr with staging := none } } else s

/-! ## Receiving (Table 15.1) -/

/-- Whether an address is a group address. -/
def groupMac (mac : List Byte) : Bool := (mac.headD 0).getLsbD 0

/-- Whether the FCS of a frame is right. -/
def fcsOk (b : List Byte) : Bool :=
  4 ≤ b.length && leToNat (b.drop (b.length - 4)) == (crc32 (b.take (b.length - 4))).toNat

/-- The flags of a receive entry that check 1 gives (Table 15.4), and the counter of the first that applies. -/
def hdrFaults (f : HdrRx) : Nat × Option Nat :=
  let fcs := !fcsOk f.bytes
  let runt := decide (f.bytes.length < 64)
  let long := decide (1522 < f.bytes.length)
  (b2n f.odd * 16 + b2n long * 8 + b2n runt * 4 + b2n f.symbolErr * 2 + b2n fcs,
   if f.symbolErr then some 12 else if fcs then some 11 else if f.odd then some 15 else if runt then some 13
   else if long then some 14 else none)

/-- Check 2 of Table 15.1. -/
def Hedgerow.forUs (h : Hedgerow) (dst : List Byte) : Bool :=
  dst == h.mac || dst == List.replicate 6 0xFF || h.multicast.contains dst

/-- The counters of a frame that passes check 2, by kind and size (R419, Table 15.6). -/
def State.countFrame (s : State) (b : List Byte) : State :=
  let dst := b.take 6
  let n := b.length
  let s := (s.hdrCount 0).hdrCount 1 n
  let s := s.hdrCount (if dst = List.replicate 6 0xFF then 4 else if groupMac dst then 3 else 2)
  s.hdrCount (if n ≤ 64 then 5 else if n ≤ 127 then 6 else if n ≤ 255 then 7 else if n ≤ 511 then 8
    else if n ≤ 1023 then 9 else 10)

/-- A frame that failed check 1 or 7 is delivered with its flags under DELIVER_BAD (R429): past checks 2 to 5 where its
header can be read. -/
def State.deliverBad (s : State) (b : List Byte) (flags : Nat) : State :=
  let src := slice b 6 6
  if !s.hdr.deliverBad then s
  else if b.length < 12 then s.toRing b flags []
  else if !s.hdr.forUs (b.take 6) || src == s.hdr.mac || groupMac src ||
      ((s.hdr.source src).any fun e => e.2.blocked) || !s.hdr.hasToken src then s
  else { s with hdr := s.hdr.takeToken src }.toRing b flags src

/-- Check 7 of Table 15.1. -/
def hedgerowOk (b : List Byte) : Bool :=
  22 + 4 ≤ b.length && beToNat (slice b 14 1) / 16 == 1 && 1 ≤ beToNat (slice b 14 1) % 16 &&
  beToNat (slice b 14 1) % 16 ≤ 5 && 22 + beToNat (slice b 16 2) + 4 ≤ b.length

/-- The checks of Table 15.1 on a received frame, and what each type does. -/
def State.hdrReceive (s : State) (f : HdrRx) : State :=
  let b := f.bytes
  let src := slice b 6 6
  if !s.edgeOn 30 then s
  else match hdrFaults f with
    | (flags, some c) => (s.hdrCount c).deliverBad b flags
    | (_, none) =>
      if !s.hdr.forUs (b.take 6) then s.hdrCount 16
      else
        let s := s.countFrame b
        if src = s.hdr.mac ∨ groupMac src then s.badFrame 17 src
        else if (s.hdr.source src).any (fun e => e.2.blocked) then s.hdrCount 18
        else if !s.hdr.hasToken src then s.badFrame 19 src
        else
          let s := { s with hdr := s.hdr.takeToken src }
          if slice b 12 2 ≠ natToBE 2 0x88B5 then s.toRing b 0 src
          else if !hedgerowOk b then
            let s := s.badFrame 20 src
            if s.hdr.deliverBad then s.toRing b 32 src else s
          else match beToNat (slice b 14 1) % 16 with
            | 1 => s.hdrHeartbeat b
            | 2 => s.hdrHealth b
            | 4 => s.hdrStage b
            | _ => s

/-- HOST_FRAME (R419, R428): a received frame; the checks of Table 15.1 decide what it is. -/
def execHostFrame (f : HdrRx) (s : State) : Host.Outcome State Fault Refusal := finish (s.hdrReceive f)
/-- HDR_HEARTBEAT (R425). -/
def execHdrHeartbeat (f : HdrRx) (s : State) : Host.Outcome State Fault Refusal := finish (s.hdrReceive f)
/-- HEALTH_REQ (R430). -/
def execHealthReq (f : HdrRx) (s : State) : Host.Outcome State Fault Refusal := finish (s.hdrReceive f)
/-- STAGE (R432). -/
def execStage (f : HdrRx) (s : State) : Host.Outcome State Fault Refusal := finish (s.hdrReceive f)

/-! ## Transmitting (R415 to R418, R429) -/

/-- Bytes of host memory, as the host holds them at this read: free values. -/
def State.readHost (s : State) (a n : Nat) : List Byte := (range' a n).map (Config.hostByte s.hub.free)

/-- An entry of the transmit ring, and whether its length is in range (R429): 14 to 1,518 bytes, or 1,522 with a tag. -/
def State.txEntry (s : State) (r : HdrRing) : List Byte × Bool :=
  let a := r.base + r.index % 2 ^ r.log2 * 2048
  let e := if r.hbm then s.read a 2048 else s.readHost a 2048
  let len := leToNat (e.take 2)
  let body := slice e 32 len
  (body.take 6 ++ s.hdr.mac ++ body.drop 12,
   decide (14 ≤ len) && decide (len ≤ if slice body 12 2 = [0x81, 0x00] then 1522 else 1518))

/-- Whether the transmit ring holds an entry that can be read now. -/
def State.txWaiting (s : State) (r : HdrRing) : Bool :=
  r.index % 2 ^ r.log2 != s.hdr.txTail % 2 ^ r.log2 && (r.hbm || s.pcie.up)

/-- The head of the transmit ring moves past one entry. -/
def State.txAdvance (s : State) : State :=
  { s with hdr := { s.hdr with txRing := s.hdr.txRing.map fun r => { r with index := r.index + 1 } } }

/-- The next transmit-ring entry joins the queue as a tier 3 frame when none stands there; one of a length out of range
is discarded (R417, R429). -/
def State.pullTx (s : State) : State :=
  if s.hdr.queue.any fun f => f.tier == 3 then s
  else match s.hdr.txRing with
    | none => s
    | some r =>
      if !s.txWaiting r then s
      else
        let e := s.txEntry r
        let s := if r.hbm then s else { s with hub := { s.hub with free := s.hub.free + 1 } }
        if e.2 then s.queueHdr 3 e.1 else s.txAdvance.hdrCount 28

/-- The first frame of the highest tier that has one (R417). -/
def Hedgerow.nextFrame (h : Hedgerow) : Option HdrFrame :=
  match h.queue.find? fun f => f.tier == 1 with
  | some f => some f
  | none => match h.queue.find? fun f => f.tier == 2 with
    | some f => some f
    | none => h.queue.find? fun f => f.tier == 3

/-- The queue without the first frame equal to `f`. -/
def dropFrame (f : HdrFrame) : List HdrFrame → List HdrFrame
  | [] => []
  | g :: rest => if g = f then rest else g :: dropFrame f rest

/-- The queue with the first frame equal to `f` replaced. -/
def replaceFrame (f g : HdrFrame) : List HdrFrame → List HdrFrame
  | [] => []
  | x :: rest => if x = f then g :: rest else x :: replaceFrame f g rest

/-- A frame as it goes out: padded to 60 bytes, its FCS appended, ended at 1,600 bytes (R416, R429). -/
def wireFrame (b : List Byte) : List Byte :=
  let b := b ++ List.replicate (60 - b.length) 0
  (b ++ natToLE 4 (crc32 b).toNat).take 1600

/-- A frame leaves the queue, sent or discarded; a frame of the host ring moves its head (R429). -/
def State.frameGone (s : State) (f : HdrFrame) : State :=
  let s := { s with hdr := { s.hdr with queue := dropFrame f s.hdr.queue } }
  if f.tier = 3 then s.txAdvance else s

/-- HDR_TRANSMIT (R417, R418): the next frame goes out, unless it is in back-off, the medium is stuck or TX_EN is 0. -/
def execHdrTransmit (s : State) : Host.Outcome State Fault Refusal :=
  if !s.edgeOn 30 || !s.hdr.txEn then finish s
  else
    let s := s.pullTx
    match s.hdr.nextFrame with
    | none => finish s
    | some f =>
      if s.hdr.mediumStuck then finish (s.hdrCount 29)
      else if f.backoff.isSome then finish s
      else
        let w := wireFrame f.bytes
        let s := (s.frameGone f).hdrCount 23
        let s := s.hdrCount 24 w.length
        let s := if f.attempts = 1 then s.hdrCount 25 else if 1 < f.attempts then s.hdrCount 26 else s
        let s := if f.tier = 1 then s.hdrCount 30 else s
        finish { s with hdr := { s.hdr with sentOut := s.hdr.sentOut ++ [w] } }

/-- HDR_COLLISION (R415, R417): the frame on the segment collides; after 16 attempts it is discarded, else it waits r
slot times, r a free value below 2^min(n, 10). -/
def execHdrCollision (s : State) : Host.Outcome State Fault Refusal :=
  if !s.edgeOn 30 || !s.hdr.txEn || s.hdr.mediumStuck then finish s
  else
    let s := s.pullTx
    match s.hdr.nextFrame with
    | none => finish s
    | some f =>
      if f.backoff.isSome then finish s
      else
        let n := f.attempts + 1
        if 16 ≤ n then finish ((s.frameGone f).hdrCount 28)
        else
          let r := Config.backoffDraw s.hdr.seed s.hdr.gen % 2 ^ min n 10
          let h := { s.hdr with gen := s.hdr.gen + 1
                                queue := replaceFrame f { f with attempts := n, backoff := some r } s.hdr.queue }
          finish { s with hdr := h }

/-- HDR_BACKOFF_EXPIRY (R415): the frame in back-off is attempted again. -/
def execHdrBackoffExpiry (s : State) : Host.Outcome State Fault Refusal :=
  match s.hdr.queue.find? fun f => f.backoff.isSome with
  | none => finish s
  | some f =>
    finish { s with hdr := { s.hdr with queue := replaceFrame f { f with backoff := none } s.hdr.queue } }

/-- MEDIUM_STUCK (R418). -/
def execMediumStuck (s : State) : Host.Outcome State Fault Refusal :=
  if !s.edgeOn 30 || s.hdr.mediumStuck then finish s
  else finish ({ s with hdr := { s.hdr with
    mediumStuck := true, stuckEvent := true, stuckCount := s.hdr.stuckCount + 1 } }.queueEvent 0
      (faultEvent .unitFault 0x01 0x22))

/-- MEDIUM_IDLE (R418). -/
def execMediumIdle (s : State) : Host.Outcome State Fault Refusal :=
  finish { s with hdr := { s.hdr with mediumStuck := false } }

/-- A configuration register of the port written: MGT_CFG, MGT_STUCK_CFG or MGT_RING. -/
def Hedgerow.configure (h : Hedgerow) (off : Nat) (v : Word) : Hedgerow :=
  if off = 0x010 then
    { h with healthRate := fld v 31 24, blockLimit := fld v 23 16, halfEvent := bit v 3, deliverBad := bit v 2
             healthEn := bit v 1, txEn := bit v 0 }
  else if off = 0x018 then { h with stuckCounts := v }
  else if off = 0x028 then { h with txTail := fld v 31 16, rxHead := fld v 15 0 }
  else h

/-- A write to one of these registers: to the shadow copy while the domain is not online (R252). -/
def State.mgtWrite (s : State) (off : Nat) (v : Word) : State :=
  if s.edgeOn 30 then { s with hdr := s.hdr.configure off v }
  else { s with edge := { s.edge with shadow := s.edge.shadow ++ [(30, off, v)] } }

/-- The shadow copy is restored as the domain returns (Table 1.6, step 5). -/
def State.restoreShadow (s : State) (d : Nat) : State :=
  let hdr := (s.edge.shadow.filter fun w => w.1 == d).foldl (fun h w => h.configure w.2.1 w.2.2) s.hdr
  { s with hdr := hdr, edge := { s.edge with shadow := s.edge.shadow.filter fun w => w.1 != d } }

/-- MGT_RING_WRITE (R428): TX_TAIL and RX_HEAD. -/
def execMgtRingWrite (value : Word) (s : State) : Host.Outcome State Fault Refusal :=
  if s.reachable 0 then finish (s.mgtWrite 0x028 value) else finish s

/-! ## Commands of range 0x08 (R435) -/

/-- MGT_ADDR_SET: MAC address, four multicast addresses. -/
def cmdMgtAddrSet : CmdDef := cmd 0x0801 10 .leaZero fun s _ a =>
  need ([1, 3, 5, 7, 9].all fun i => argN a i < 2 ^ 16) .badArgument <|
  need s.live .stateMismatch <|
  .ok { s with hdr := { s.hdr with mac := argMac a 0, multicast := [2, 4, 6, 8].map (argMac a) } }

/-- MGT_SRC_SET: entry, MAC, RATE, BURST, BLOCKED; a MAC address of zero clears the entry (log 21). -/
def cmdMgtSrcSet : CmdDef := cmd 0x0802 6 .leaZero fun s _ a =>
  let clear := argN a 1 == 0 && argN a 2 == 0
  need (argN a 0 < 16 && argN a 2 < 2 ^ 16 && argN a 5 < 2 && (clear || (1 ≤ argN a 4 && argN a 4 ≤ 255))) .badArgument <|
  need s.live .stateMismatch <|
  let e : SrcEntry := { mac := argMac a 1, rate := argN a 3, burst := argN a 4, blocked := argN a 5 == 1, tokens := argN a 4 }
  .ok { s with hdr := { s.hdr with
    sources := if clear then s.hdr.sources.erase (argN a 0) else s.hdr.sources.insert (argN a 0) e } }

/-- MGT_SRC_READ: each entry's number, MAC, RATE, BURST, BLOCKED and drop count, as far as the response holds them
(log 21). -/
def cmdMgtSrcRead : CmdDef := cmd 0x0803 0 .leaZero fun s _ _ =>
  .done s .ok ((s.hdr.sources.flatMap fun e => [BitVec.ofNat 32 e.1] ++ bytesWords e.2.mac ++
    [BitVec.ofNat 32 e.2.rate, BitVec.ofNat 32 e.2.burst, BitVec.ofNat 32 (b2n e.2.blocked),
     BitVec.ofNat 32 e.2.drops]).take 61)

/-- MGT_RING_SET: ring, location, base, LOG2 (R428). -/
def cmdMgtRingSet : CmdDef := cmd 0x0804 5 .leaZero fun s _ a =>
  let tx := argN a 0 == 1
  let hbm := argN a 1 == 1
  let base := argAddr a 2
  let log2 := argN a 4
  need (argN a 0 < 2 && argN a 1 < 2 && argAddrOk a 2 && 4 ≤ log2 && log2 ≤ 12 &&
    (!hbm || (s.mem.inUsable base (2048 * 2 ^ log2) && s.granted 0 base (2048 * 2 ^ log2) (!tx)))) .badArgument <|
  need (if tx then s.hdr.txRing.isNone else s.hdr.rxRing.isNone) .stateMismatch <|
  let r : HdrRing := { hbm := hbm, base := base, log2 := log2 }
  .ok { s with hdr := if tx then { s.hdr with txRing := some r } else { s.hdr with rxRing := some r } }

/-- A Hedgerow ring closes; unsent transmit entries are discarded. -/
def Hedgerow.closeRing (h : Hedgerow) (tx : Bool) : Hedgerow :=
  if tx then { h with txRing := none, queue := h.queue.filter fun f => f.tier != 3 } else { h with rxRing := none }

/-- MGT_RING_CLEAR: ring. -/
def cmdMgtRingClear : CmdDef := cmd 0x0805 1 .leaZero fun s _ a =>
  let tx := argN a 0 == 1
  need (argN a 0 < 2) .badArgument <|
  need (if tx then s.hdr.txRing.isSome else s.hdr.rxRing.isSome) .stateMismatch <|
  .ok { s with hdr := s.hdr.closeRing tx }

/-- MGT_HB_SET: entry, JOB, peer's rank, peer's MAC, PATH (0 HEDGEROW, 1 FABRIC, 2 BOTH), INTERVAL, MISS_LIMIT (R424). -/
def cmdMgtHbSet : CmdDef := cmd 0x0810 8 .any fun s l a =>
  match s.jobOf l (argN a 1) with
  | none => .fail .badHandle
  | some j =>
    need (argN a 0 < 16 && argN a 2 < j.ranks && argN a 4 < 2 ^ 16 && argN a 5 < 3 && 10000 ≤ argN a 6 &&
      argN a 6 ≤ 2 ^ 31 && 2 ≤ argN a 7 && argN a 7 ≤ 255) .badArgument <|
    need (s.hdr.hb.length < 16) .noResource <|
    need (!s.hdr.hb.has (argN a 0) && !j.keys.isEmpty) .stateMismatch <|
    let e : HbEntry := { job := argN a 1, rank := argN a 2, mac := argMac a 3, since := s.now, interval := argN a 6
                         missLimit := argN a 7
                         path := if argN a 5 = 0 then .hedgerow else if argN a 5 = 1 then .fabric else .both }
    .ok { s with hdr := { s.hdr with hb := s.hdr.hb.insert (argN a 0) e } }

/-- MGT_HB_CLEAR: JOB, entry. -/
def cmdMgtHbClear : CmdDef := jobCmd 0x0811 2 fun s _ h _ a =>
  need (argN a 1 < 16) .badArgument <|
  need ((s.hdr.hb.find (argN a 1)).any fun e => e.job == h) .stateMismatch <|
  .ok { s with hdr := { s.hdr with hb := s.hdr.hb.erase (argN a 1) } }

/-- MGT_STAGE_ARM: ARM_ID, source MAC, LENGTH (R431); the writable bank is erased (R455). -/
def cmdMgtStageArm : CmdDef := cmd 0x0820 4 .leaZero fun s _ a =>
  need (argN a 2 < 2 ^ 16 && 1 ≤ argN a 3 && argN a 3 ≤ 0x02000000) .badArgument <|
  match s.fw.writable with
  | none => .fail .stateMismatch
  | some b =>
    need (!s.armed) .stateMismatch <| needDomain s 33 <|
    .ok { s with fw := s.fw.eraseBank b
                 hdr := { s.hdr with staging := some { armId := wordAt a 0, mac := argMac a 1, len := argN a 3 } } }

/-- MGT_STAGE_DISARM. -/
def cmdMgtStageDisarm : CmdDef := cmd 0x0821 0 .leaZero fun s _ _ =>
  need s.armed .stateMismatch <| .ok { s with hdr := { s.hdr with staging := none } }

/-! ## The command rows -/

/-- MGT_ADDR_SET (R435). -/
def execMgtAddrSet (lea : Nat) (tag : Word) (args : List Word) (s : State) : Host.Outcome State Fault Refusal :=
  finish (s.issue cmdMgtAddrSet lea tag args)
/-- MGT_SRC_SET (R420). -/
def execMgtSrcSet (lea : Nat) (tag : Word) (args : List Word) (s : State) : Host.Outcome State Fault Refusal :=
  finish (s.issue cmdMgtSrcSet lea tag args)
/-- MGT_SRC_READ (R435). -/
def execMgtSrcRead (lea : Nat) (tag : Word) (args : List Word) (s : State) : Host.Outcome State Fault Refusal :=
  finish (s.issue cmdMgtSrcRead lea tag args)
/-- MGT_RING_SET (R428). -/
def execMgtRingSet (lea : Nat) (tag : Word) (args : List Word) (s : State) : Host.Outcome State Fault Refusal :=
  finish (s.issue cmdMgtRingSet lea tag args)
/-- MGT_RING_CLEAR (R435). -/
def execMgtRingClear (lea : Nat) (tag : Word) (args : List Word) (s : State) : Host.Outcome State Fault Refusal :=
  finish (s.issue cmdMgtRingClear lea tag args)
/-- MGT_HB_SET (R424). -/
def execMgtHbSet (lea : Nat) (tag : Word) (args : List Word) (s : State) : Host.Outcome State Fault Refusal :=
  finish (s.issue cmdMgtHbSet lea tag args)
/-- MGT_HB_CLEAR (R435). -/
def execMgtHbClear (lea : Nat) (tag : Word) (args : List Word) (s : State) : Host.Outcome State Fault Refusal :=
  finish (s.issue cmdMgtHbClear lea tag args)
/-- MGT_STAGE_ARM (R431). -/
def execMgtStageArm (lea : Nat) (tag : Word) (args : List Word) (s : State) : Host.Outcome State Fault Refusal :=
  finish (s.issue cmdMgtStageArm lea tag args)
/-- MGT_STAGE_DISARM (R435). -/
def execMgtStageDisarm (lea : Nat) (tag : Word) (args : List Word) (s : State) : Host.Outcome State Fault Refusal :=
  finish (s.issue cmdMgtStageDisarm lea tag args)

/-- The commands of this file. -/
def hedgerowCommands : List CmdDef :=
  [cmdMgtAddrSet, cmdMgtSrcSet, cmdMgtSrcRead, cmdMgtRingSet, cmdMgtRingClear, cmdMgtHbSet, cmdMgtHbClear,
   cmdMgtStageArm, cmdMgtStageDisarm]

end Sys2Proof.Machine
end

