-- ==== Sys2Proof/Machine/EdgeDomains.lean ====
section
/-!
DEFINITION. Machine/EdgeDomains.lean: the clocked edge domains, their recovery and fencing, and the reference clock (01,
R15 to R26, R490 to R492). The return of the reference clock stands in StartUp.lean.
-/

namespace Sys2Proof.Machine

/-- A port loses its link without a link fault of its own: it trains again (R257, Table 1.7). -/
def Port.retrain (p : Port) : Port :=
  match p.st with
  | .up | .hold => { p with st := .training }
  | _ => p

/-- The ports that an edge domain carries: its own, or those of its optical engine. -/
def Port.inDomain (p : Port) (i d : Nat) : Bool := d == 8 + i || (p.configured && d == 24 + p.engine)

/-- A port whose domain is fenced is FAULTED (Table 10.2). -/
def Port.fencedBy (p : Port) (i d : Nat) : Port :=
  if p.inDomain i d && p.st != .disabled then { p with st := .faulted } else p

/-- What follows when a domain goes offline (Table 1.7): its ports retrain, and the PCIe link is down. -/
def State.offlineEffects (s : State) (d : Nat) : State :=
  let s := { s with fab := { s.fab with ports := s.fab.ports.mapVals fun i p => if p.inDomain i d then p.retrain else p } }
  if d = 28 ∨ d = 29 then s.linkDown else s

/-- A domain's bit in HUB_EDGE_ONLINE. -/
def State.setOnline (s : State) (d : Nat) (b : Bool) : State :=
  let m := 1#40 <<< d
  { s with edge := { s.edge with online := if b then s.edge.online ||| m else s.edge.online &&& ~~~ m } }

/-- A domain goes offline through a loss (Table 1.6, step 2): LOST and LOSS_COUNT. -/
def State.goOffline (s : State) (d : Nat) : State :=
  let s := s.setOnline d false
  { s with edge := { s.edge with lost := s.edge.lost ||| (1#40 <<< d), lossCount := s.edge.lossCount + 1 } }.offlineEffects d

/-- Whether domain 31 or 32 runs on the oscillator. -/
def State.onOsc (s : State) (d : Nat) : Bool := (d == 31 && s.edge.cihOsc) || (d == 32 && s.edge.pmOsc)

/-- A recovery begins (Table 1.6 step 3): the domain is offline while it runs (R490); one that runs on the oscillator
unfenced stays there until its PLL is back (R26). -/
def State.startRecovery (s : State) (d : Nat) : State :=
  let s := if s.onOsc d && !s.edgeFenced d then s else s.setOnline d false
  { s with edge := { s.edge with recovery := some { dom := d, retry := s.edgeFenced d, failed := 0, since := s.now } } }

/-- An EDGE_RETRY of the domain that lea 0 waits for is answered. -/
def State.answerRetry (s : State) (d : Nat) (st : Status) : State :=
  if (s.lea 0).mbx.deferral = some (.edgeRetry d) then s.respond 0 st else s

/-- The domains 31 and 32 on the internal oscillator or on their PLL (R20). -/
def State.setOsc (s : State) (d : Nat) (b : Bool) : State :=
  if d = 31 then { s with edge := { s.edge with cihOsc := b } }
  else if d = 32 then { s with edge := { s.edge with pmOsc := b } } else s

/-- A domain is in service again (Table 1.6, steps 5 and 6), its fence cleared if it had one (R490). -/
def State.domainBack (s : State) (d : Nat) : State :=
  let s := ((s.setOnline d true).setOsc d false).restoreShadow d
  let e := s.edge
  let e := { e with fenced := e.fenced &&& ~~~ (1#40 <<< d)
                    recovery := if e.recovery.any fun r => r.dom == d then none else e.recovery }
  let s := { s with edge := e }
  let s := if d = 31 then s.flushHealth else s
  s.answerRetry d .ok

/-- What follows when a domain is fenced (Table 1.7, R20, R213, R492). -/
def State.fenceEffects (s : State) (d : Nat) : State :=
  if d < 8 then s.loseStack d
  else if d < 28 then
    { s with fab := { s.fab with ports := s.fab.ports.mapVals fun i p => p.fencedBy i d } }
  else if d = 28 ∨ d = 29 then s.ibi 6
  else if d = 31 then ((s.setOnline 31 true).setOsc 31 true).flushHealth
  else if d = 32 then (s.setOnline 32 true).setOsc 32 true
  else if d = 36 then s.queueEvent 0 (faultEvent .unitFault 0x01 0x34 (index := 36))
  else if d = 39 then
    { s with fab := { s.fab with ports := s.fab.ports.mapVals fun _ p => { p.retrain with lasers := false } } }
  else s

/-- A domain is fenced (R19, R21). -/
def State.fenceDomain (s : State) (d : Nat) : State :=
  let e := s.edge
  let e := { e with fenced := e.fenced ||| (1#40 <<< d), fenceCount := e.fenceCount + 1
                    recovery := if e.recovery.any fun r => r.dom == d then none else e.recovery }
  ({ s with edge := e }.setOnline d false).fenceEffects d

/-- A retry has failed: the domain stays fenced, 31 and 32 on the oscillator (R490). -/
def State.retryFailed (s : State) (d : Nat) : State :=
  let s := { s with edge := { s.edge with recovery := none } }
  let s := if d = 31 ∨ d = 32 then (s.setOnline d true).setOsc d true else s
  s.answerRetry d .edgeOffline

/-- The recovery of the domain has failed for good. -/
def State.recoveryFailed (s : State) (r : Recovery) : State :=
  if r.retry then s.retryFailed r.dom else s.fenceDomain r.dom

/-- Whether a domain's clock is monitored (R16, R17). -/
def monitored (d : Nat) : Bool := d < 40 && d != 34 && d != 35 && d != 38

/-- A handover that meets the loss of the Cihal clock is abandoned: Cihal ROM loads the winner after the recovery
(Table 16.10). -/
def State.abandonHandover (s : State) : State :=
  match s.fw.handover with
  | none => s
  | some _ =>
    let h : Handover := { bank := s.fw.winner.getD s.fw.running, since := s.now, reverting := true }
    { s with fw := { s.fw with handover := some h } }

/-- The next recovery that waits begins: first those that a returned reference clock started, in index order, then the
queued ones (R21, R26). -/
def State.nextRecovery (s : State) : State :=
  match s.edge.returning, s.edge.queued with
  | d :: rest, _ => { s with edge := { s.edge with returning := rest } }.startRecovery d
  | [], d :: rest => { s with edge := { s.edge with queued := rest } }.startRecovery d
  | [], [] => s

/-- Whether domain `d`, 31 or 32, has lost its clock while the other waits for its recovery or runs it after a loss
(R20). -/
def State.bothLost (s : State) (d : Nat) : Bool :=
  let other := if d = 31 then 32 else 31
  (d == 31 || d == 32) && !s.edgeOn other && !s.edgeFenced other

/-- Domains 31 and 32 have lost their clocks together: both run on the internal oscillator, and each is then recovered
from the other in its turn, in index order (R20, R21, R24). -/
def State.bothOnOsc (s : State) : State :=
  let s := (((s.setOnline 31 true).setOsc 31 true).setOnline 32 true).setOsc 32 true
  let e := s.edge
  let e := { e with
    recovery := if e.recovery.any fun r => r.dom == 31 || r.dom == 32 then none else e.recovery
    queued := (e.queued.filter fun d => d != 31 && d != 32) ++ [31, 32] }
  let s := { s with edge := e }.flushHealth
  if s.edge.recovery.isNone && s.edge.returning.isEmpty then s.nextRecovery else s

/-- EDGE_CLOCK_LOSS (R19, R21, R490). -/
def execEdgeClockLoss (dom : Nat) (s : State) : Host.Outcome State Fault Refusal :=
  if !monitored dom then finish s
  else if s.edge.recovery.any fun r => r.dom == dom then
    match s.edge.recovery with
    | none => finish s
    | some r => finish (s.recoveryFailed r)
  else if !s.edgeOn dom || s.edgeFenced dom || !s.edge.refPresent then finish s
  else
    let s := s.goOffline dom
    let s := if dom = 31 then s.abandonHandover else s
    if s.bothLost dom then finish s.bothOnOsc
    else if s.edge.recovery.isNone && s.edge.returning.isEmpty then finish (s.startRecovery dom)
    else finish { s with edge := { s.edge with queued := s.edge.queued ++ [dom] } }

/-- EDGE_PLL_RELOCK (R19, R20): within the limit; a handover makes step 5 wait (Table 16.10). -/
def execEdgePllRelock (dom : Nat) (s : State) : Host.Outcome State Fault Refusal :=
  match s.edge.recovery with
  | none => finish s
  | some r =>
    if r.dom ≠ dom ∨ !s.edge.refPresent ∨ (dom ≠ 31 ∧ (20000 < s.elapsed r.since ∨ s.fw.handover.isSome)) then finish s
    else finish (s.domainBack dom)

/-- EDGE_RELOCK_TIMEOUT (R19, R20): an attempt has failed; the power manager counts the limit of domain 31. -/
def execEdgeRelockTimeout (dom : Nat) (s : State) : Host.Outcome State Fault Refusal :=
  match s.edge.recovery with
  | none => finish s
  | some r =>
    if r.dom ≠ dom ∨ (dom ≠ 31 ∧ s.elapsed r.since < 20000) then finish s
    else if 3 ≤ r.failed + 1 then finish (s.recoveryFailed r)
    else finish { s with edge := { s.edge with recovery := some { r with failed := r.failed + 1, since := s.now } } }

/-- QUEUED_EDGE_RECOVERY (R21): once no window is open. -/
def execQueuedEdgeRecovery (s : State) : Host.Outcome State Fault Refusal :=
  if s.edge.recovery.isSome || !s.edge.refPresent then finish s else finish s.nextRecovery

/-- The domains that take their clock from the reference clock, besides 31 and 32 (R24). -/
def refDomains : List Nat := List.range 31 ++ [33, 36, 37, 39]

/-- REFCLK_LOSS (R24, R25, R26): 31 and 32 run on the oscillator; the others that are online go offline; running and
queued recoveries end. -/
def execRefclkLoss (s : State) : Host.Outcome State Fault Refusal :=
  if !s.edge.refPresent then finish s
  else
    let s := match s.edge.recovery with
      | some r => if r.retry then s.retryFailed r.dom else s
      | none => s
    let s := (s.edge.queued.filter s.edgeFenced).foldl State.retryFailed s
    let s := { s with edge := { s.edge with
      refPresent := false, refLossCount := s.edge.refLossCount + 1, refLostAt := some s.now, absentReported := false
      recovery := none, queued := [], returning := [] } }
    let s := ((s.setOnline 31 true).setOsc 31 true)
    let s := ((s.setOnline 32 true).setOsc 32 true)
    finish ((refDomains.foldl (fun s d => if s.edgeOn d then s.goOffline d else s) s).ibi 1)

/-- REFCLK_ABSENT_TIMEOUT (R26). -/
def execRefclkAbsentTimeout (s : State) : Host.Outcome State Fault Refusal :=
  match s.edge.refLostAt with
  | none => finish s
  | some t =>
    if 10000000 ≤ s.elapsed t ∧ !s.edge.absentReported ∧ !s.edge.refPresent then
      finish ({ s with edge := { s.edge with absentReported := true } }.ibi 2)
    else finish s

/-- OSCILLATOR_FAILURE (R491): with the reference clock present the other domain recovers the failed one on its PLL, or
reports a device fault and halts; with both on the oscillator the behaviour is undefined. -/
def execOscillatorFailure (dom : Nat) (recovered : Bool) (s : State) : Host.Outcome State Fault Refusal :=
  if !s.onOsc dom then finish s
  else if !s.edge.refPresent then .fault .oscillatorFailed
  else if recovered then finish ((s.setOnline dom true).setOsc dom false)
  else finish ((s.setOnline dom false).ibi 2 |>.setDev .halted)

/-- EDGE_RETRY: domain (R22, R490). -/
def cmdEdgeRetry : CmdDef := cmd 0x0040 1 .leaZero fun s _ a =>
  let d := argN a 0
  need (d < 40) .badArgument <|
  need (s.live && s.edgeFenced d) .stateMismatch <|
  if d = 34 ∨ d = 35 then .ok (s.domainBack d)
  else if s.edge.recovery.isNone && s.edge.returning.isEmpty then .defer (s.startRecovery d) (.edgeRetry d)
  else .defer { s with edge := { s.edge with queued := s.edge.queued ++ [d] } } (.edgeRetry d)

/-! ## The command rows -/

/-- EDGE_RETRY (R490). -/
def execEdgeRetry (lea : Nat) (tag : Word) (args : List Word) (s : State) : Host.Outcome State Fault Refusal :=
  finish (s.issue cmdEdgeRetry lea tag args)

/-- The commands of this file. -/
def edgeCommands : List CmdDef :=
  [cmdEdgeRetry]

end Sys2Proof.Machine
end

