-- ==== Sys2Proof/Machine/Power.lean ====
section
/-!
DEFINITION. Machine/Power.lean: the power manager, thermal limits, the I3C target and boundary scan (16, R465 to R472,
R492; 17, R478, R482).
-/

namespace Sys2Proof.Machine

/-- Whether the power manager acts: its domain is online, or runs on the oscillator, and no handover holds it (R457). -/
def State.pmActs (s : State) : Bool := (s.edgeOn 32 || s.edge.pmOsc) && s.fw.handover.isNone && !s.pwr.coreOff

/-- The voltage applied: the lower of what the cap rule and the thermal rule allow, and never above TARGET (R465). -/
def Power.apply (p : Power) : Power := { p with actual := min p.target (min p.vCap p.vTherm) }

/-- The cap rule at the end of a window of average power `w` (R466). -/
def Power.capRule (p : Power) (w : Nat) : Power :=
  if p.cap < w then
    let v := max (p.vCap - 5 * min (ceilDiv (w - p.cap) p.gain) 8) 580
    { p with vCap := v, limitCap := p.limitCap || v == 580 }
  else if w + p.hyst < p.cap then
    { p with limitCap := false, vCap := if p.vCap < p.target then p.vCap + 5 else p.vCap }
  else p

/-- The thermal rule at the end of a window (Table 16.11): 5 mV lower while Tj has not fallen below THROTTLE − 3 °C. -/
def Power.thermRule (p : Power) : Power := if p.throttling then { p with vTherm := max (p.vTherm - 5) 580 } else p

/-- A rail out of tolerance (R478). -/
def State.railFault (s : State) (r : Nat) : State :=
  if r = 0 then s else (s.queueEvent 0 (faultEvent .unitFault 0x01 0x33 (index := r))).ibi 7

/-- POWER_WINDOW_END (R466, R467, R468, R469, R478): the average power of the window and the rails out of tolerance. -/
def execPowerWindowEnd (watts : Nat) (badRails : List Nat) (s : State) : Host.Outcome State Fault Refusal :=
  if !s.pmActs then finish s
  else
    let p0 := { s.pwr with windowW := watts, peakW := max s.pwr.peakW watts, limitOc := false }
    let p1 := p0.capRule watts
    let low := p1.vCap < p0.vCap
    let first := low && !p0.lowered
    let p1 := if low then { p1 with lowered := true, capThrottle := true, capCount := p1.capCount + 1 } else p1
    let p2 := p1.thermRule
    let firstT := p2.vTherm < p1.vTherm && !p1.loweredTherm
    let p2 := if p2.vTherm < p1.vTherm then { p2 with loweredTherm := true } else p2
    let s := { s with pwr := p2.apply }
    let s := if first then s.queueEvent 0 (faultEvent .ok 0x01 0x30) else s
    let s := if firstT then s.queueEvent 0 (faultEvent .ok 0x01 0x31) else s
    finish (badRails.foldl State.railFault s)

/-- OVER_CURRENT_WARNING (R467). -/
def execOverCurrentWarning (s : State) : Host.Outcome State Fault Refusal :=
  finish { s with pwr := { s.pwr with limitOc := true, ocEvent := true, ocCount := s.pwr.ocCount + 1 } }

/-- A thermal trip (R470). -/
def State.trip (s : State) : State :=
  let s := { s with fab := { s.fab with ports := s.fab.ports.mapVals fun _ p => { p with lasers := false } } }
  let s := { s with pwr := { s.pwr with coreOff := true, actual := 0, tripped := true } }
  let s := s.setDev .halted
  (s.writeRecord fun r => r.logFault ((List.range 8).map (Config.fatalWord 0))).ibi 4

/-- THERMAL_SAMPLE (R468, R469, R470): Tj, and the sensor that gave it. -/
def execThermalSample (sensor : Nat) (tj : Int) (s : State) : Host.Outcome State Fault Refusal :=
  if !s.edgeOn 36 then finish s
  else
    let p := { s.pwr with tj := tj, hotSensor := sensor }
    let p := if 16 * (p.throttle : Int) ≤ tj then
        { p with throttling := true, thermThrottle := true
                 thermCount := if p.throttling then p.thermCount else p.thermCount + 1 }
      else if tj < 16 * ((p.throttle : Int) - 3) then { p with throttling := false, vTherm := p.target } else p
    let crit := decide (1680 ≤ tj) && !p.limitCrit
    let p := if 1680 ≤ tj then { p with limitCrit := true } else if tj < 1600 then { p with limitCrit := false } else p
    let p := if crit then { p with thermCrit := true, critCount := p.critCount + 1 } else p
    let s := { s with pwr := if p.coreOff then p else p.apply }
    let s := if crit then (s.queueEvent 0 (faultEvent .ok 0x01 0x32)).ibi 3 else s
    finish (if 1840 ≤ tj ∧ !s.pwr.tripped then s.trip else s)

/-- PWR_SET: TARGET, CAP, GAIN, HYST (R465, R466). -/
def cmdPwrSet : CmdDef := cmd 0x0920 4 .leaZero fun s _ a =>
  let t := argN a 0
  need (580 ≤ t && t ≤ 850 && t % 5 == 0 && 500 ≤ argN a 1 && argN a 1 ≤ 1200 && 1 ≤ argN a 2 && argN a 2 ≤ 255 &&
    5 ≤ argN a 3 && argN a 3 ≤ 255) .badArgument <|
  need s.live .stateMismatch <|
  let p := s.pwr
  let v := if p.vCap = p.target then t else min p.vCap t
  let u := if p.throttling then min p.vTherm t else t
  let p := { p with target := t, cap := argN a 1, gain := argN a 2, hyst := argN a 3, lowered := false }
  .ok { s with pwr := { p with vCap := v, vTherm := u }.apply }

/-- PWR_THERMAL_SET: THROTTLE (R468). -/
def cmdPwrThermalSet : CmdDef := cmd 0x0921 1 .leaZero fun s _ a =>
  need (80 ≤ argN a 0 && argN a 0 ≤ 100) .badArgument <|
  need s.live .stateMismatch <|
  .ok { s with pwr := { s.pwr with throttle := argN a 0, loweredTherm := false } }

/-! ## I3C and boundary scan -/

/-- I3C_DYNAMIC_ADDRESS (R472). -/
def execI3cDynamicAddress (a : BitVec 7) (s : State) : Host.Outcome State Fault Refusal :=
  if s.edgeFenced 35 then finish s else finish { s with board := { s.board with i3cAddr := some a } }

/-- I3C_PRIVATE_READ (R472): 64 bytes of health data go to the BMC; nothing else changes. -/
def execI3cPrivateRead (s : State) : Host.Outcome State Fault Refusal :=
  if s.edgeFenced 35 || s.board.i3cAddr.isNone then finish s
  else finish { s with board := { s.board with lastI3c := s.health } }

/-- A boundary-scan instruction is loaded (R482). -/
def State.loadJtag (s : State) (i : JtagInstr) : State :=
  if s.edgeFenced 34 then s else { s with board := { s.board with jtag := i } }

/-- The instruction that acts: EXTEST and CLAMP act as BYPASS outside BOOT and HALTED (R482). -/
def State.jtagActs (s : State) : JtagInstr :=
  if (s.board.jtag = .extest ∨ s.board.jtag = .clamp) ∧ s.live then .bypass else s.board.jtag

/-- JTAG_BYPASS (R482). -/
def execJtagBypass (s : State) : Host.Outcome State Fault Refusal := finish (s.loadJtag .bypass)
/-- JTAG_IDCODE (R482). -/
def execJtagIdcode (s : State) : Host.Outcome State Fault Refusal := finish (s.loadJtag .idcode)
/-- JTAG_SAMPLE_PRELOAD (R482). -/
def execJtagSamplePreload (s : State) : Host.Outcome State Fault Refusal := finish (s.loadJtag .samplePreload)
/-- JTAG_EXTEST (R482). -/
def execJtagExtest (s : State) : Host.Outcome State Fault Refusal := finish (s.loadJtag .extest)
/-- JTAG_CLAMP (R482). -/
def execJtagClamp (s : State) : Host.Outcome State Fault Refusal := finish (s.loadJtag .clamp)

/-! ## The command rows -/

/-- PWR_SET (R465, R466). -/
def execPwrSet (lea : Nat) (tag : Word) (args : List Word) (s : State) : Host.Outcome State Fault Refusal :=
  finish (s.issue cmdPwrSet lea tag args)
/-- PWR_THERMAL_SET (R468). -/
def execPwrThermalSet (lea : Nat) (tag : Word) (args : List Word) (s : State) : Host.Outcome State Fault Refusal :=
  finish (s.issue cmdPwrThermalSet lea tag args)

/-- The commands of this file. -/
def powerCommands : List CmdDef :=
  [cmdPwrSet, cmdPwrThermalSet]

end Sys2Proof.Machine
end

