-- ==== Sys2Proof/Machine/Copy.lean ====
section
/-!
DEFINITION. Machine/Copy.lean: copy ops (10, R281, R282): LOCAL, PEER and POST.
-/

namespace Sys2Proof.Machine

/-- KIND of a copy op (Table 10.8). -/
def Op.cKind (o : Op) : Nat := o.f 0 31 30
@[inherit_doc Op.cKind] def Op.cChannel (o : Op) : Nat := o.f 0 15 0
@[inherit_doc Op.cKind] def Op.cLen (o : Op) : Nat := (o.w 1).toNat
@[inherit_doc Op.cKind] def Op.cRank (o : Op) : Nat := o.f 4 15 0
/-- The source span of a copy op. -/
def Op.cSrc (o : Op) : Span := { base := o.addr 2, len := o.cLen }
/-- The destination span of a LOCAL copy. -/
def Op.cDst (o : Op) : Span := { base := o.f 4 31 16 * 2 ^ 32 + (o.w 5).toNat, len := o.cLen, write := true }

/-- The spans of a copy op in its lea's grant. -/
def Op.cSpans (o : Op) : List Span := if o.cKind = 0 then [o.cSrc, o.cDst] else [o.cSrc]

/-- Check 3 of R53 for a copy op (R282, Table 10.8). -/
def State.copyArgOk (s : State) (o : Op) : Bool :=
  fld (wordAt o.hdr 0) 23 16 == 2 && o.cKind != 3 && o.f 0 29 16 == 0 && o.f 3 31 16 == 0 && o.f 8 30 28 == 0 &&
  o.f 8 15 8 == 0 && (o.body.drop 9).all (· == 0) && 1 ≤ o.cLen && o.cLen ≤ 2 ^ 31 &&
  (o.cKind == 0 || (o.cChannel < 4096 && o.f 6 31 24 ≤ 4)) && (o.cKind != 1 || (o.w 5).toNat % 32 == 0) &&
  (o.cKind != 2 || o.cLen == 128) && s.spansGranted o.lea o.cSpans

/-- A copy op of a kind, while it runs. -/
def State.copyRun (s : State) (n kind : Nat) : Option Op :=
  match s.runs n 3 with
  | none => none
  | some o => if o.cKind = kind then some o else none

/-- COPY_LOCAL (R282): the source is read, then written to the destination. Baler sees the read (R369). -/
def execCopyLocal (n : Nat) (s : State) : Host.Outcome State Fault Refusal :=
  match s.copyRun n 0 with
  | none => finish s
  | some o => finish (s.withAccess n o.cSpans fun s =>
      ((s.ride o.job o.cSrc.base o.cLen).write o.cDst.base (s.read o.cSrc.base o.cLen)).finishOp n [o.cDst])

/-- What keeps a PEER or POST copy from sending (R282). -/
def State.copyRefusal (s : State) (o : Op) (j : Job) : Option Status :=
  if j.keys.isEmpty then some .stateMismatch
  else match j.peers.find o.cRank with
    | none => some .stateMismatch
    | some p =>
      if p.st != .active then some .peerLost
      else if s.contextFree j (chanKey o.cRank o.cChannel) then none else some .noResource

/-- The message of a PEER or POST copy (Table 10.8). -/
def State.copyMessage (s : State) (n : Nat) (o : Op) : Message :=
  { rank := o.cRank, channel := o.cChannel, target := o.f 4 31 16, offset := if o.cKind = 2 then 0 else (o.w 5).toNat
    data := if o.cKind = 2 then [.mem (o.addr 2) 128] else s.packMem (o.addr 2) o.cLen
    owner := if o.cKind = 2 then .post n else .copy n, step := o.step, post := o.cKind == 2, useSignal := bit (o.w 8) 31
    signalIdx := o.f 8 27 16, signalInc := o.f 8 7 0, roleKind := o.f 6 31 24, roleIndex := o.f 6 23 0, roleEpoch := o.w 7 }

/-- A PEER or POST copy is sent once; it ends when its last packet is acknowledged (R281). -/
def State.copySend (s : State) (n : Nat) (o : Op) : State :=
  match s.jobs.find o.job with
  | none => s.endOp n .stateMismatch
  | some j =>
    let m := s.copyMessage n o
    if j.outstanding m.owner then s
    else match s.copyRefusal o j with
      | some st => s.endOp n st
      | none => s.withAccess n [o.cSrc] fun s =>
          (if o.cKind = 1 then s.ride o.job o.cSrc.base o.cLen else s).send o.job m

/-- COPY_PEER (R282). -/
def execCopyPeer (n : Nat) (s : State) : Host.Outcome State Fault Refusal :=
  match s.copyRun n 1 with
  | none => finish s
  | some o => finish (s.copySend n o)

/-- COPY_POST (R282). -/
def execCopyPost (n : Nat) (s : State) : Host.Outcome State Fault Refusal :=
  match s.copyRun n 2 with
  | none => finish s
  | some o => finish (s.copySend n o)

/-- The op of a copy's message. -/
def MsgOwner.copyOp : MsgOwner → Option Nat
  | .copy n => some n
  | .post n => some n
  | _ => none

/-- A copy's message is acknowledged whole (R281). -/
def State.copyAcked (s : State) (w : MsgOwner) : State :=
  match w.copyOp with
  | none => s
  | some n => s.endOp n .ok

/-- A NAK ends a copy (R282). -/
def State.copyRefused (s : State) (w : MsgOwner) (reason : Nat) : State :=
  match w.copyOp with
  | none => s
  | some n =>
    if reason = Status.roleMoved.code then s.endOp n .roleMoved
    else if reason = Status.seqMismatch.code then s.endOp n .seqMismatch
    else s.endOp n .peerRefused reason

/-- The peer of a copy is LOST or QUARANTINED (R273, R280). -/
def State.copyDropped (s : State) (w : MsgOwner) : State :=
  match w.copyOp with
  | none => s
  | some n => s.endOp n .peerLost

end Sys2Proof.Machine
end

