-- ==== Sys2Proof/Machine/Tedder.lean ====
section
/-!
DEFINITION. Machine/Tedder.lean: Tedder (12, R334 to R342): routes, DISPATCH, RETURN and COMBINE, and the messages that
reach it.
-/

namespace Sys2Proof.Machine

/-! ## The op (R336) -/

/-- FUNC of a Tedder op (Table 12.9). -/
def Op.tFunc (o : Op) : Nat := o.f 0 31 28
@[inherit_doc Op.tFunc] def Op.tInFmt (o : Op) : Nat := o.f 0 27 24
@[inherit_doc Op.tFunc] def Op.tOutFmt (o : Op) : Nat := o.f 0 23 20
@[inherit_doc Op.tFunc] def Op.tHome (o : Op) : Nat := o.f 0 5 0
@[inherit_doc Op.tFunc] def Op.tTokens (o : Op) : Nat := (o.w 1).toNat
/-- The bank of a Tedder op: MICROBATCH mod 2. -/
def Op.tBank (o : Op) : Nat := o.microbatch % 2

/-- IN of a DISPATCH or RETURN op, as a tensor of `rows` rows of D elements. -/
def Op.tIn (o : Op) (t : Tedder) (rows : Nat) : Tensor :=
  { fmt := (fmtOfCode o.tInFmt).getD .bf16, base := o.addr 4, scaleBase := o.addr 6, pitch := (o.w 8).toNat, rows := rows,
    extent := t.d }

/-- OUT of a COMBINE op. -/
def Op.tOut (o : Op) (t : Tedder) : Tensor :=
  { fmt := if o.tOutFmt = 0 then .bf16 else .fp32, base := o.addr 9, scaleBase := 0, pitch := (o.w 11).toNat,
    rows := o.tTokens, extent := t.d }

/-- The span of the route table (R335). -/
def Op.tRoute (o : Op) (t : Tedder) : Span := { base := o.addr 2, len := 8 * t.topK * o.tTokens }

/-- A tensor's spans as an op reads or writes them. -/
def Tensor.opSpans (t : Tensor) (write : Bool) : List Span :=
  t.spans.map fun x => { base := x.1, len := x.2, write := write }

/-- The spans that a Tedder op addresses in its lea's grant (R336). -/
def Op.tSpans (o : Op) (t : Tedder) : List Span :=
  match o.tFunc with
  | 1 => o.tRoute t :: (o.tIn t o.tTokens).opSpans false
  | 2 => (o.tIn t (t.sources * t.cap)).opSpans false
  | _ => o.tRoute t :: (o.tOut t).opSpans true

/-- Check 3 of R53 for a Tedder op (R336). -/
def State.tedArgOk (s : State) (o : Op) : Bool :=
  fld (wordAt o.hdr 0) 23 16 == 2 && 1 ≤ o.tFunc && o.tFunc ≤ 3 && o.f 0 17 6 == 0 && (o.body.drop 12).all (· == 0) &&
  (o.tFunc == 2 || (1 ≤ o.tTokens && o.tTokens ≤ 1048576)) &&
  match s.jobs.find o.job with
  | none => true
  | some j => match j.tedder with
    | none => true
    | some t =>
      s.spansGranted o.lea (o.tSpans t) &&
      match o.tFunc with
      | 1 => (o.tInFmt < 3 || o.tInFmt == t.fmt) && o.tTokens * t.topK ≤ t.retRows && (o.tIn t o.tTokens).aligned
      | 2 => o.tInFmt == t.fmt && t.homes.has o.tHome && (o.tIn t (t.sources * t.cap)).aligned
      | _ => (o.tOutFmt == 0 || o.tOutFmt == 2) && o.tTokens * t.topK ≤ t.retRows && (o.tOut t).aligned

/-- The state check of a Tedder op: TED_SET has been issued (R336). -/
def State.tedStateOk (s : State) (o : Op) : Bool :=
  match s.jobs.find o.job with
  | none => false
  | some j => j.tedder.isSome

/-- A Tedder op's job and configuration, while the op runs. -/
def State.tedRun (s : State) (n func : Nat) : Option (Op × Job × Tedder) :=
  match s.runs n 5 with
  | none => none
  | some o => match s.jobs.find o.job with
    | none => none
    | some j => match j.tedder with
      | none => none
      | some t => if o.tFunc = func then some (o, j, t) else none

/-- The job's Tedder state changed. -/
def State.modTed (s : State) (jh : Nat) (f : Tedder → Tedder) : State :=
  s.modJob jh fun j => { j with tedder := j.tedder.map f }

/-! ## Routes (R335) -/

/-- A route entry: token, k, expert and gate weight. -/
structure Route where
  t : Nat
  k : Nat
  expert : Nat
  gate : Word
  deriving DecidableEq, Repr

/-- The pairs of a route table that name an expert of the job, in increasing t and, within t, in increasing k. -/
def State.routes (s : State) (o : Op) (t : Tedder) (experts : Nat) : List Route :=
  let all : List Route := (List.range (o.tTokens * t.topK)).map fun i =>
    let a := o.addr 2 + 8 * i
    { t := i / t.topK, k := i % t.topK, expert := fld (s.readWord a) 15 0, gate := s.readWord (a + 4) }
  all.filter fun r => r.expert < experts

/-- The pairs that name expert `e`. -/
def pairsOf (rs : List Route) (e : Nat) : List Route := rs.filter fun r => r.expert == e

/-- The kept pairs of expert `e`, in row order. -/
def keptOf (rs : List Route) (cap e : Nat) : List Route := (pairsOf rs e).take cap

/-- RETURN_ROW of expert `e`. -/
def returnRow (rs : List Route) (cap e : Nat) : Nat := ((List.range e).map fun x => (keptOf rs cap x).length).sum

/-- The pairs dropped. -/
def droppedPairs (rs : List Route) (cap experts : Nat) : Nat :=
  ((List.range experts).map fun e => (pairsOf rs e).length - cap).sum

/-! ## Messages to role holders -/

/-- Bytes placed in a window of this device's own job. -/
def State.placeOwn (s : State) (j : Job) (win offset : Nat) (b : List Byte) (step : Word) : State :=
  match j.windows.find win with
  | none => s
  | some w => if offset + b.length ≤ w.len then (s.write (w.base + offset) b).noteWrite step (w.base + offset) b.length else s

/-- Whether a role's holder can be reached: it is this device or an ACTIVE peer. -/
def State.holderOk (s : State) (j : Job) (kind index : Nat) : Bool :=
  match s.role j kind index with
  | none => false
  | some r => r.rank == j.rank || j.peerActive r.rank

/-- A message that Tedder sends to a role's holder; for a role that this device holds, it is placed here. -/
def State.tedSend (s : State) (jh : Nat) (j : Job) (t : Tedder) (kind index win offset : Nat) (b : List Byte)
    (owner : MsgOwner) (step : Word) (here : State → State) : State :=
  match s.role j kind index with
  | none => s
  | some r =>
    if r.rank = j.rank then here (s.placeOwn j win offset b step)
    else s.sendRole jh kind index
      { rank := 0, channel := t.channel, target := win, offset := offset, data := s.packBytes b, owner := owner
        step := step }

/-! ## DISPATCH (R337) -/

/-- This device's source index: the least i whose WORKER role it holds (R334). -/
def State.sourceIndex (s : State) (j : Job) (t : Tedder) : Option Nat :=
  (List.range t.sources).find? fun i => match s.role j 1 (t.firstWorker + i) with
    | none => false
    | some r => r.rank == j.rank

/-- One row of a TOKENS message: element codes, scale bytes, and the encoding's flags. -/
structure TokRow where
  codes : List Byte
  scales : List Byte
  sat : Bool := false
  nan : Bool := false
  under : Nat := 0
  elems : Nat := 0
  deriving DecidableEq, Repr

/-- The row of a kept pair (R337): codes and scales passed through, or the row encoded into FMT. -/
def State.tokenRow (s : State) (o : Op) (t : Tedder) (r : Route) : TokRow :=
  let x := o.tIn t o.tTokens
  let rd := readByte s.mem.hbm
  if o.tInFmt = t.fmt && !bit (o.w 0) 19 then
    { codes := s.read (x.blockAddr r.t 0) t.d, scales := s.read (x.scaleAddr r.t 0) (t.d / 32) }
  else
    let f := (fmtOfCode t.fmt).getD .e4m3
    let vals := if bit (o.w 0) 19 then (x.row rd r.t).map fun v => fp32 (fmul (toFp32 v).1 r.gate).1 else x.row rd r.t
    let bs := (chunks32 (t.d / 32 + 1) vals).map (encodeBlock f none)
    { codes := bs.flatMap fun b => packBlock f b.2.1, scales := bs.map fun b => BitVec.ofNat 8 b.1
      sat := bs.any fun b => b.2.2.1, nan := bs.any fun b => b.2.2.2.1, under := (bs.map fun b => b.2.2.2.2).sum
      elems := t.d }

/-- The header of a TOKENS message (Table 12.10). -/
def tokensHeader (o : Op) (t : Tedder) (i e row count : Nat) : List Byte :=
  wordsToBytes ([packFields [(1, 24), (1, 20), (t.fmt, 16), (e, 0)], o.step,
    packFields [(o.segment, 16), (o.microbatch, 0)], packFields [(i, 16)], BitVec.ofNat 32 row, BitVec.ofNat 32 t.d,
    BitVec.ofNat 32 count] ++ List.replicate 9 0)

/-- A TOKENS message's all-zero rows and the table entry it leaves at its home (R338). -/
def State.takeTokens (s : State) (lea : Nat) (t : Tedder) (h : TedHome) (bank i count row : Nat) (step : Word)
    (data : List Byte) : State :=
  let base := if bank = 0 then h.data0 else h.data1
  let sbase := if bank = 0 then h.scale0 else h.scale1
  let sc := t.d / 32
  let a := base + i * t.cap * t.d
  let b := sbase + i * t.cap * sc
  let codes := data.take (count * t.d) ++ List.replicate ((t.cap - count) * t.d) 0
  let scales := (data.drop (count * t.d)).take (count * sc) ++ List.replicate ((t.cap - count) * sc) 0
  let s := (s.write a codes).noteWrite step a codes.length
  let s := (s.write b scales).noteWrite step b scales.length
  let s := s.writeWords (h.returns + (bank * t.sources + i) * 8) [BitVec.ofNat 32 count, BitVec.ofNat 32 row]
  s.signal lea (h.counter + bank) 1

/-- Where a message in the staging window belongs: bank, home slot and source (R337). -/
def Tedder.stagingSlot (t : Tedder) (offset : Nat) : Nat × Nat × Nat :=
  let k := offset / max t.slotBytes 1
  (k / max (t.homeSlots * t.sources) 1, k / max t.sources 1 % max t.homeSlots 1, k % max t.sources 1)

/-- A TOKENS message is delivered (R338): it is checked, then copied into the expert input area, or BAD_MESSAGE is set. -/
def State.tokensIn (s : State) (jh offset : Nat) (body : List Byte) : State :=
  match s.jobs.find jh with
  | none => s
  | some j => match j.tedder with
    | none => s
    | some t =>
      let w := bytesToWords 16 body
      let (bank, hs, i) := t.stagingSlot offset
      let bad := { s with units := { s.units with tedBadMessage := true, tedBadCount := s.units.tedBadCount + 1 } }
      match t.homes.find hs with
      | none => bad
      | some h =>
        if fld (wordAt w 0) 31 20 == 0x011 && fld (wordAt w 0) 15 0 == h.expert && fld (wordAt w 3) 31 16 == i &&
           fld (wordAt w 2) 15 0 % 2 == bank && (wordAt w 5).toNat == t.d && (wordAt w 6).toNat ≤ t.cap then
          s.takeTokens j.lea t h bank i (wordAt w 6).toNat (wordAt w 4).toNat (wordAt w 1) (body.drop 64)
        else bad

/-- Whether the expert input area that a message fills waits for memory. -/
def State.tokensStall (s : State) (jh offset : Nat) : Bool :=
  match s.jobs.find jh with
  | none => false
  | some j => match j.tedder with
    | none => false
    | some t =>
      let (bank, hs, i) := t.stagingSlot offset
      match t.homes.find hs with
      | none => false
      | some h =>
        let base := if bank = 0 then h.data0 else h.data1
        let sbase := if bank = 0 then h.scale0 else h.scale1
        s.spansAccess [⟨base + i * t.cap * t.d, t.cap * t.d, true⟩, ⟨sbase + i * t.cap * (t.d / 32), t.cap * (t.d / 32), true⟩,
          ⟨h.returns + (bank * t.sources + i) * 8, 8, true⟩] == .stall

/-- The message of expert `e` goes to its home's holder; the state with the flags its rows raised. -/
def State.sendTokens (s : State) (n : Nat) (o : Op) (j : Job) (t : Tedder) (i : Nat) (rs : List Route) (e : Nat) : State :=
  match s.role j 4 e with
  | none => s
  | some r =>
    let kept := keptOf rs t.cap e
    let rows := kept.map (s.tokenRow o t)
    let offset := ((o.tBank * t.homeSlots + r.aux) * t.sources + i) * t.slotBytes
    let b := tokensHeader o t i e (returnRow rs t.cap e) kept.length ++ rows.flatMap (·.codes) ++ rows.flatMap (·.scales)
    let s := { s with units := { s.units with tedRows := s.units.tedRows + BitVec.ofNat 64 kept.length } }
    s.tedSend o.job j t 4 e t.staging offset b (.tokens n e) o.step fun s => s.tokensIn o.job offset b

/-- DETAIL of a Tedder op (R342). -/
def tedDetail (sat nan : Bool) (dropped : Nat) : Nat := b2n sat * 2 ^ 15 + b2n nan * 2 ^ 14 + satNat 12 dropped

/-- A Tedder op completes with ST_PEER_LOST (R342). -/
def State.tedLost (s : State) (n : Nat) (detail : Nat := 0) : State :=
  let u := { s.units with tedPeerLost := true, tedLostCount := s.units.tedLostCount + 1, tedRuns := s.units.tedRuns.erase n }
  { s with units := u }.endOp n .peerLost detail

/-- Whether a message of a Tedder op is not acknowledged. -/
def State.tedOutstanding (s : State) (n : Nat) (o : Op) : Bool :=
  match s.jobs.find o.job with
  | none => false
  | some j =>
    (j.tx.any fun e => e.2.outstanding.any fun p => match p.owner with
      | .tokens k _ => k == n
      | .back k _ => k == n
      | _ => false) ||
    j.waits.any fun w => match w.owner with
      | .tokens k _ => k == n
      | .back k _ => k == n
      | _ => false

/-- A Tedder op whose messages are sent ends when the last is acknowledged (R281). -/
def State.tedCheck (s : State) (n : Nat) : State :=
  match s.op n, s.units.tedRuns.find n with
  | some o, some d =>
    if s.tedOutstanding n o then s
    else { s with units := { s.units with tedRuns := s.units.tedRuns.erase n } }.endOp n .ok d
  | _, _ => s

/-- DISPATCH's work (R337): a message for each expert, the expected return count, the report and the flags. -/
def State.dispatch (s : State) (n : Nat) (o : Op) (j : Job) (t : Tedder) (i : Nat) : State :=
  let rs := s.routes o t j.experts
  let es := List.range j.experts
  let rows := es.flatMap fun e => (keptOf rs t.cap e).map (s.tokenRow o t)
  let dropped := droppedPairs rs t.cap j.experts
  let detail := tedDetail (rows.any (·.sat)) (rows.any (·.nan)) dropped
  let expect := (es.filter fun e => !(keptOf rs t.cap e).isEmpty).length
  if !es.all (fun e => s.holderOk j 4 e) then s.tedLost n detail
  else
    let s := s.modTed o.job fun t => { t with expected := t.expected.insert o.tBank expect }
    let s := s.report o { underflow := (rows.map (·.under)).sum, elements := (rows.map (·.elems)).sum }
    let u := { s.units with tedDropped := s.units.tedDropped || dropped != 0
                            tedDropCount := s.units.tedDropCount + BitVec.ofNat 32 dropped
                            tedRuns := s.units.tedRuns.insert n detail }
    (es.foldl (fun (s : State) e => s.sendTokens n o j t i rs e) { s with units := u }).tedCheck n

/-- DISPATCH (R337). -/
def execDispatch (n : Nat) (s : State) : Host.Outcome State Fault Refusal :=
  match s.tedRun n 1 with
  | none => finish s
  | some (o, j, t) =>
    if s.units.tedRuns.has n then finish s
    else match s.sourceIndex j t with
      | none => finish (s.endOp n .stateMismatch)
      | some i => finish (s.withAccess n (o.tSpans t) fun s => s.dispatch n o j t i)

/-! ## RETURN (R339) -/

/-- The return table entry of a source in a bank: COUNT and RETURN_ROW (R338). -/
def State.returnEntry (s : State) (t : Tedder) (h : TedHome) (bank i : Nat) : Nat × Nat :=
  let a := h.returns + (bank * t.sources + i) * 8
  ((s.readWord a).toNat, (s.readWord (a + 4)).toNat)

/-- `count` return records from row `first` of IN on (R334, R339). -/
def State.returnRecords (s : State) (o : Op) (t : Tedder) (first count : Nat) : List Byte :=
  let x := o.tIn t (t.sources * t.cap)
  (range' first count).flatMap fun r =>
    s.read (x.blockAddr r 0) t.d ++ s.read (x.scaleAddr r 0) (t.d / 32) ++ List.replicate (t.recBytes - (t.d + t.d / 32)) 0

/-- A message delivered into the return window adds 1 to its bank's return count (R339). -/
def State.returnIn (s : State) (jh offset : Nat) : State :=
  s.modTed jh fun t =>
    let bank := offset / max (t.retRows * t.recBytes) 1
    { t with returned := t.returned.insert bank (t.returned.getD bank 0 + 1) }

/-- RETURN's work (R339). -/
def State.returns (s : State) (n : Nat) (o : Op) (j : Job) (t : Tedder) (h : TedHome) : State :=
  let go := (List.range t.sources).filter fun i => 0 < (s.returnEntry t h o.tBank i).1
  if !go.all (fun i => s.holderOk j 1 (t.firstWorker + i)) then s.tedLost n
  else
    let count := (go.map fun i => (s.returnEntry t h o.tBank i).1).sum
    let u := { s.units with tedRows := s.units.tedRows + BitVec.ofNat 64 count, tedRuns := s.units.tedRuns.insert n 0 }
    (go.foldl (fun (s : State) i =>
      let e := s.returnEntry t h o.tBank i
      let offset := (o.tBank * t.retRows + e.2) * t.recBytes
      s.tedSend o.job j t 1 (t.firstWorker + i) t.returnWin offset (s.returnRecords o t (i * t.cap) e.1) (.back n i)
        o.step fun s => s.returnIn o.job offset) { s with units := u }).tedCheck n

/-- RETURN (R339). -/
def execReturnRows (n : Nat) (s : State) : Host.Outcome State Fault Refusal :=
  match s.tedRun n 2 with
  | none => finish s
  | some (o, j, t) => match t.homes.find o.tHome with
    | none => finish (s.endOp n .badArgument)
    | some h =>
      if s.units.tedRuns.has n then finish s
      else finish (s.withAccess n ({ base := h.returns + o.tBank * t.sources * 8, len := t.sources * 8 } :: o.tSpans t)
        fun s => s.returns n o j t h)

/-! ## COMBINE (R340) -/

/-- The value of element `c` of a returned row (R334). -/
def State.returnedElem (s : State) (t : Tedder) (base row c : Nat) : Val :=
  let a := base + row * t.recBytes
  decodeMx ((fmtOfCode t.fmt).getD .e4m3) (readByte s.mem.hbm (a + c)).toNat (readByte s.mem.hbm (a + t.d + c / 32)).toNat

/-- The kept pairs of a token, in increasing k: return row and gate weight. -/
def keptPairs (rs : List Route) (cap token : Nat) (unit : Bool) : List (Nat × Word) :=
  (rs.filter fun r => r.t == token).filterMap fun r =>
    match (keptOf rs cap r.expert).findIdx? (fun x => x.t == r.t && x.k == r.k) with
    | none => none
    | some p => some (returnRow rs cap r.expert + p, if unit then f32One else r.gate)

/-- One token's row of COMBINE's output (R340). -/
def State.combineRow (s : State) (t : Tedder) (base : Nat) (ps : List (Nat × Word)) : List Val :=
  (List.range t.d).map fun c =>
    fp32 (ps.foldl (fun acc p => (fma p.2 (toFp32 (s.returnedElem t base p.1 c)).1 acc).1) 0)

/-- COMBINE's work (R340). -/
def State.combine (s : State) (n : Nat) (o : Op) (j : Job) (t : Tedder) (w : Window) : State :=
  let rs := s.routes o t j.experts
  let base := w.base + o.tBank * t.retRows * t.recBytes
  let out := o.tOut t
  let encs := (List.range o.tTokens).map fun k =>
    out.encodeSeg none k 0 (s.combineRow t base (keptPairs rs t.cap k (bit (o.w 0) 18)))
  let s := encs.foldl (fun (s : State) e => e.writes.foldl (fun (s : State) x => s.write x.1 x.2) s) s
  let s := s.modTed o.job fun t => { t with expected := t.expected.erase o.tBank, returned := t.returned.erase o.tBank }
  s.finishOp n (out.opSpans true) .ok
    (tedDetail (encs.any (·.overflow)) (encs.any (·.nanOut)) (droppedPairs rs t.cap j.experts))

/-- COMBINE (R340). -/
def execCombine (n : Nat) (s : State) : Host.Outcome State Fault Refusal :=
  match s.tedRun n 3 with
  | none => finish s
  | some (o, j, t) => match t.expected.find o.tBank, j.windows.find t.returnWin with
    | none, _ => finish (s.endOp n .stateMismatch)
    | _, none => finish (s.endOp n .stateMismatch)
    | some e, some w =>
      if t.returned.getD o.tBank 0 ≠ e then finish s
      else
        let win : Span := { base := w.base + o.tBank * t.retRows * t.recBytes, len := t.retRows * t.recBytes }
        finish (s.withAccess n (win :: o.tSpans t) fun s => s.combine n o j t w)

/-! ## Messages and peers -/

/-- TOKENS (R338). -/
def execTokens (s : State) : Host.Outcome State Fault Refusal :=
  match s.front .tokens with
  | none => finish s
  | some (d, t) => if s.tokensStall d.job d.offset then finish s else finish (t.tokensIn d.job d.offset d.body)

/-- RETURN_RECORDS (R339). -/
def execReturnRecords (s : State) : Host.Outcome State Fault Refusal :=
  match s.front .returnRecords with
  | none => finish s
  | some (d, t) => finish (t.returnIn d.job d.offset)

/-- The op of a Tedder message. -/
def MsgOwner.tedOp : MsgOwner → Option Nat
  | .tokens n _ => some n
  | .back n _ => some n
  | _ => none

/-- A Tedder message is acknowledged. -/
def State.tedAcked (s : State) (w : MsgOwner) : State :=
  match w.tedOp with
  | none => s
  | some n => s.tedCheck n

/-- A Tedder message is refused with a NAK other than ROLE_MOVED and ST_NO_RESOURCE, which no rule covers: the op ends as
a copy op would (R282). -/
def State.tedRefused (s : State) (w : MsgOwner) (reason : Nat) : State :=
  match w.tedOp with
  | none => s
  | some n =>
    let s := { s with units := { s.units with tedRuns := s.units.tedRuns.erase n } }
    if reason = Status.seqMismatch.code then s.endOp n .seqMismatch else s.endOp n .peerRefused reason

/-- A wait of R324 ends a Tedder op. -/
def State.tedRoleMoved (s : State) (w : MsgOwner) : State :=
  match w.tedOp with
  | none => s
  | some n => { s with units := { s.units with tedRuns := s.units.tedRuns.erase n } }.endOp n .roleMoved

/-- A message of a Tedder op is to a peer that is LOST or QUARANTINED (R342). -/
def State.tedDropped (s : State) (w : MsgOwner) : State :=
  match w.tedOp with
  | none => s
  | some n => if s.units.tedRuns.has n then s.tedLost n else s

/-- Whether a running COMBINE awaits rows from a rank: an expert with a kept pair is homed there (R342). -/
def State.combineAwaits (s : State) (o : Op) (j : Job) (t : Tedder) (rank : Nat) : Bool :=
  let rs := s.routes o t j.experts
  (match t.expected.find o.tBank with
    | none => false
    | some e => t.returned.getD o.tBank 0 != e) &&
  (List.range j.experts).any fun e => !(keptOf rs t.cap e).isEmpty && match s.role j 4 e with
    | none => false
    | some r => r.rank == rank

/-- A job's peer has become LOST or QUARANTINED: every COMBINE that awaits it ends (R342). -/
def State.tedPeerGone (s : State) (jh rank : Nat) : State :=
  match s.jobs.find jh with
  | none => s
  | some j => match j.tedder with
    | none => s
    | some t =>
      let ns := ((s.jobOps jh).filter fun e => e.2.running && e.2.cls == 5 && e.2.tFunc == 3 &&
        s.combineAwaits e.2 j t rank).map (·.1)
      ns.foldl (fun (s : State) n => s.tedLost n) s

end Sys2Proof.Machine
end

