-- ==== Sys2Proof/Machine/Roles.lean ====
section
/-!
DEFINITION. Machine/Roles.lean: what becomes of a message (R281, R282, R324): it is acknowledged, refused, dropped with its
peer, or refused with ROLE_MOVED and resolved again; and ROLE_WRITE (R323).
-/

namespace Sys2Proof.Machine

/-! ## What a message's end means to its unit -/

/-- A message is acknowledged whole. -/
def State.msgAcked (s : State) (jh : Nat) (w : MsgOwner) : State :=
  let s := s.modJob jh fun j => { j with waits := j.waits.filter fun x => x.owner != w }
  (((s.copyAcked w).wdrAcked w).tedAcked w).balAcked w

/-- A message is refused with a NAK other than ROLE_MOVED and ST_NO_RESOURCE; a credit message has no op that it could
end. -/
def State.msgRefused (s : State) (w : MsgOwner) (reason : Nat) : State :=
  (((s.copyRefused w reason).wdrRefused w ((Status.ofCode reason).getD .peerRefused)).tedRefused w reason).balRefused w reason

/-- A message is to a peer that is LOST or QUARANTINED (R273, R280, Table 12.11). -/
def State.msgDropped (s : State) (w : MsgOwner) : State :=
  match w with
  | .credit jh i => s.failLink jh i
  | _ => ((s.copyDropped w).wdrDropped w).tedDropped w

/-- A message's role was not resolved in time (R324, R347, R379). -/
def State.msgUnresolved (s : State) (w : MsgOwner) : State :=
  match w with
  | .credit jh i => s.failLink jh i
  | _ => ((s.wdrRoleMoved w).tedRoleMoved w).balRoleMoved w

/-! ## Taking a message out of its channel, and sending it again -/

/-- The packets of a message that a channel holds, acknowledged ones of an unfinished message included. -/
def TxChan.ownedBy (c : TxChan) (w : MsgOwner) : List TxPacket :=
  (c.acked ++ c.outstanding).filter fun p => p.owner == w

/-- The channel without a message's packets; their PSNs stay unused. -/
def TxChan.without (c : TxChan) (w : MsgOwner) : TxChan :=
  let out (l : List TxPacket) := l.filter fun p => p.owner != w
  { c with acked := out c.acked, unacked := out c.unacked, queued := out c.queued }

/-- A message leaves its channel. -/
def State.takeOut (s : State) (jh key : Nat) (w : MsgOwner) : State :=
  s.modJob jh fun j => match j.tx.find key with
    | none => j
    | some c => { j with tx := j.tx.insert key (c.without w) }

/-- A packet goes out again with RETX set, where its channel has a port (R268, R278). -/
def State.retransmit (s : State) (jh key : Nat) (p : TxPacket) : State :=
  match s.jobs.find jh with
  | none => s
  | some j => match j.tx.find key, j.peer (key / 4096) with
    | some c, some peer => match j.sendKey, s.choosePort peer.ports key c with
      | some _, some port =>
        if (s.port port).canSend then
          let moved := match c.port with
            | some q => q != port
            | none => false
          let c := { c with port := some port, repath := if moved then c.repath + 1 else c.repath }
          let s := s.modJob jh fun j => { j with tx := j.tx.insert key c }
          let s := { s with fab := { s.fab with retxPackets := s.fab.retxPackets + 1 } }
          s.emitData jh key c port p true
        else s
      | _, _ => s
    | _, _ => s

/-- A wait's record changed. -/
def State.setWait (s : State) (jh : Nat) (w : RoleWait) : State :=
  s.modJob jh fun j => { j with waits := j.waits.filter (fun x => x.owner != w.owner) ++ [w] }

/-- A wait ends. -/
def State.dropWait (s : State) (jh : Nat) (o : MsgOwner) : State :=
  s.modJob jh fun j => { j with waits := j.waits.filter fun x => x.owner != o }

/-- A waiting message goes again to the rank it was sent to, at an epoch, under its PSNs. -/
def State.resendHere (s : State) (jh : Nat) (w : RoleWait) (epoch : Word) : State :=
  let s := s.setWait jh { w with resendAt := none, sent := true, epoch := epoch }
  let renew (l : List TxPacket) := l.map fun p => if p.owner = w.owner then { p with roleEpoch := epoch } else p
  let s := s.modJob jh fun j => match j.tx.find w.key with
    | none => j
    | some c => { j with tx := j.tx.insert w.key { c with acked := renew c.acked, unacked := renew c.unacked
                                                          queued := renew c.queued } }
  match s.jobs.find jh with
  | none => s
  | some j => match j.tx.find w.key with
    | none => s
    | some c =>
      let s := (c.unacked.filter fun p => p.owner == w.owner).foldl (fun (s : State) p => s.retransmit jh w.key p) s
      s.pump jh w.key c.queued.length

/-- A waiting message goes whole to another rank, at an epoch (R284). -/
def State.resendTo (s : State) (jh : Nat) (w : RoleWait) (rank : Nat) (epoch : Word) (ps : List TxPacket) : State :=
  let s := s.takeOut jh w.key w.owner
  let key := chanKey rank (w.key % 4096)
  let s := s.setWait jh { w with resendAt := none, sent := true, epoch := epoch, key := key }
  let ps := ps.map fun p => { p with psn := 0, roleEpoch := epoch, sacked := false, retxAt := none }
  let s := s.modJob jh fun j =>
    let c := j.tx.getD key {}
    { j with tx := j.tx.insert key { c with queued := c.queued ++ ps } }
  s.pump jh key ps.length

/-- A message whose role this device itself now holds: a chunk's contribution is taken here (R310), and any other message
ends. -/
def State.msgHere (s : State) (w : MsgOwner) : State :=
  match w with
  | .windrow n c => s.contribHere n c
  | _ => s.msgUnresolved w

/-- A waiting message is resolved again: it goes to the holder that the role table now names (R324), which may be this
device; it ends where that is a peer that is LOST or QUARANTINED. -/
def State.resolveWait (s : State) (jh : Nat) (w : RoleWait) : State :=
  match s.jobs.find jh with
  | none => s
  | some j => match j.tx.find w.key with
    | none => s
    | some c =>
      let ps := c.ownedBy w.owner
      match ps with
      | [] => s.dropWait jh w.owner
      | p :: _ => match s.role j p.roleKind p.roleIndex with
        | none => s
        | some r =>
          if r.rank = w.key / 4096 then s.resendHere jh w r.epoch
          else if r.rank = j.rank then ((s.takeOut jh w.key w.owner).dropWait jh w.owner).msgHere w.owner
          else if j.peerGone r.rank then ((s.takeOut jh w.key w.owner).dropWait jh w.owner).msgDropped w.owner
          else s.resendTo jh w r.rank r.epoch ps

/-- A ROLE_MOVED NAK of a packet (R282, R324): a copy ends, and any other unit resolves the role again. A message that its
unit has sent elsewhere since is not sent twice (R310). -/
def State.roleNak (s : State) (jh key : Nat) (p : TxPacket) (cur : Word) : State :=
  match s.jobs.find jh with
  | none => s
  | some j =>
    let elsewhere := j.tx.any fun e => e.1 != key && e.2.outstanding.any fun x => x.owner == p.owner
    if p.owner.copyOp.isSome then (s.takeOut jh key p.owner).copyRefused p.owner Status.roleMoved.code
    else if elsewhere then s.takeOut jh key p.owner
    else
      let first := match j.waits.find? fun x => x.owner == p.owner with
        | none => s.now
        | some x => x.firstNak
      let w : RoleWait := { owner := p.owner, key := key, firstNak := first, epoch := p.roleEpoch }
      match s.role j p.roleKind p.roleIndex with
      | none => s.setWait jh w
      | some r =>
        if signedLess p.roleEpoch r.epoch then (s.setWait jh w).resolveWait jh w
        else if signedLess cur p.roleEpoch then s.setWait jh { w with resendAt := some s.now }
        else s.setWait jh w

/-- ROLE_RESEND_TIMER (R324): where the receiver's table lagged, the message goes again at the same epoch. -/
def execRoleResendTimer (job index : Nat) (s : State) : Host.Outcome State Fault Refusal :=
  match s.jobs.find job with
  | none => finish s
  | some j => match j.waits[index]? with
    | none => finish s
    | some w => match w.resendAt with
      | none => finish s
      | some t => if s.elapsed t < s.fab.rtoCounts then finish s else finish (s.resendHere job w w.epoch)

/-- ROLE_RESOLVE_TIMEOUT (R324): the message has not been accepted within RESOLVE_COUNTS of its first NAK; its unit gives
up. -/
def execRoleResolveTimeout (job index : Nat) (s : State) : Host.Outcome State Fault Refusal :=
  match s.jobs.find job with
  | none => finish s
  | some j => match j.waits[index]? with
    | none => finish s
    | some w =>
      if s.elapsed w.firstNak < j.resolveCounts then finish s
      else
        let s := { s with units := { s.units with resolveFailed := true, resolveCount := s.units.resolveCount + 1 } }
        finish (((s.takeOut job w.key w.owner).dropWait job w.owner).msgUnresolved w.owner)

/-! ## ROLE_WRITE (R323) -/

/-- The message of a wait carries a role. -/
def Job.waitNames (j : Job) (w : RoleWait) (kind index : Nat) : Bool :=
  match j.tx.find w.key with
  | none => false
  | some c => (c.ownedBy w.owner).any fun p => p.roleKind == kind && p.roleIndex == index

/-- A role table entry has changed: messages that wait for it are resolved, and Windrow follows (R310, R324). A CONTRIB that
waits for another rank's sake is left to Windrow, which sends the chunk again. -/
def State.roleMoved (s : State) (jh kind index : Nat) : State :=
  match s.jobs.find jh with
  | none => s
  | some j =>
    let rank := (s.role j kind index).map (·.rank)
    let ws := j.waits.filter fun w => !w.sent && j.waitNames w kind index
    let s := ws.foldl (fun (s : State) w => match w.owner with
      | .windrow _ _ =>
        if rank = some (w.key / 4096) then s.resolveWait jh w else (s.takeOut jh w.key w.owner).dropWait jh w.owner
      | _ => s.resolveWait jh w) s
    s.wdrMoved jh kind index

/-- ROLE_WRITE: JOB, KIND, FIRST, COUNT, two words an entry; every new EPOCH is later than the present one. -/
def cmdRoleWrite : CmdDef := jobCmdV 0x0504 (fun a => 4 + 2 * argN a 3) fun s _ h j a =>
  need (j.rolesOk a) .badArgument <|
  needAccess (s.access (j.roleBase a) (8 * argN a 3)) s <|
  need ((List.range (argN a 3)).all fun i => signedLess (s.readWord (j.roleBase a + 8 * i + 4)) (wordAt a (5 + 2 * i)))
    .stateMismatch <|
  let s := s.writeWords (j.roleBase a) ((a.drop 4).take (2 * argN a 3))
  .ok ((range' (argN a 2) (argN a 3)).foldl (fun (s : State) i => s.roleMoved h (argN a 1) i) s)

/-- ROLE_WRITE (R323). -/
def execRoleWrite (lea : Nat) (tag : Word) (args : List Word) (s : State) : Host.Outcome State Fault Refusal :=
  finish (s.issue cmdRoleWrite lea tag args)

/-- The commands of this file. -/
def roleCommands : List CmdDef :=
  [cmdRoleWrite]

end Sys2Proof.Machine
end

