-- ==== Sys2Proof/Machine/Receive.lean ====
section
/-!
DEFINITION. Machine/Receive.lean: the receiving side of the Hykan transport (10): the check order of Table 10.7, placement and
delivery (R275), acknowledgement and retransmission (R277, R278), peers that are lost or quarantined (R273, R280) and rate
control (R283).
-/

namespace Sys2Proof.Machine

/-! ## Drops (R272) -/

/-- A frame that fails check 1 or 2 is dropped and counted; a MACsec failure is noted (R265). -/
def Port.dropFrame (p : Port) (f : RxFrame) : Port :=
  if !f.fcsOk then { p with fcsDrops := p.fcsDrops + 1 }
  else if p.suite != 0 && !f.macsecOk then
    { p with otherDrops := p.otherDrops + 1, macsecFail := true, macsecCount := p.macsecCount + 1 }
  else { p with otherDrops := p.otherDrops + 1 }

/-- An event of a cause is raised for a port, at most one in each interval of 2^20 counts (R272). -/
def State.portEvent (s : State) (port cause lea : Nat) (job : Nat) : State :=
  if (s.port port).eventAt.find cause = some s.interval then s
  else (s.modPort port fun p => { p with eventAt := p.eventAt.insert cause s.interval }).queueEvent lea
    (faultEvent .authFail 0x05 0 (index := port) (job := job))

/-- The port's address of an address's kind. -/
def Port.hasIp (p : Port) : IpAddr → Bool
  | .v4 b => p.ipv4 == b && !b.isEmpty
  | .v6 b => p.ipv6 == b && !b.isEmpty

/-- Checks 1 and 2 of Table 10.7 (R259, R260, R265). -/
def Port.takes (p : Port) (f : RxFrame) : Bool :=
  f.fcsOk && f.dstMac == p.mac && f.vlan.getD 0 == p.vlan && (p.suite == 0 || f.macsecOk) && f.udp && f.ipPlain &&
  f.udpSumOk && f.udpPort == p.udp && p.hasIp f.dst

/-- The lengths of a packet's encrypted content that check 3 allows (Table 10.5, R276). -/
def contentOk (type len : Nat) : Bool :=
  match type with
  | 1 => 12 < len && len ≤ 12 + 8192
  | 2 => len == 140
  | 3 | 5 | 6 => len == 16
  | 4 => len == 12
  | 7 => len == 16 || len == 48
  | _ => false

/-- Check 3 of Table 10.7. -/
def wellFormedPacket (b : List Byte) : Bool :=
  52 ≤ b.length && beToNat (b.take 1) / 16 == 1 && contentOk (parseHeader b).type (b.length - 52)

/-- A received packet that passed checks 1 to 7: the job's handle and entry, the header, and the decrypted content. -/
structure Packet where
  jh : Nat
  j : Job
  h : HykHeader
  plain : List Byte
  ce : Bool

/-- The job that a header names, where this device has its rank (check 4). -/
def State.packetJob (s : State) (h : HykHeader) : Option (Nat × Job) :=
  s.jobs.find? fun e => e.2.jobId == h.jobId && e.2.rank == h.dst

/-- Checks 1 to 7 of Table 10.7 on a frame; the packet goes on where its TYPE is one of those given. -/
def State.receive (s : State) (f : RxFrame) (types : List Nat) (k : State → Packet → State) : State :=
  let p := s.port f.port
  if !p.linked then s
  else if !p.takes f then
    let s := if f.fcsOk && p.suite != 0 && !f.macsecOk then s.portEvent f.port 1 0 0xFFFF else s
    s.modPort f.port fun p => p.dropFrame f
  else if !wellFormedPacket f.payload then { s with fab := { s.fab with malformed := s.fab.malformed + 1 } }
  else
    let h := parseHeader f.payload
    if !types.contains h.type then s
    else match s.packetJob h with
      | none => { s with fab := { s.fab with unknownJob := s.fab.unknownJob + 1 } }
      | some (jh, j) =>
        if !(j.peer h.src).any fun x => x.st == .active && x.addr == f.src then
          { s with fab := { s.fab with unknownPeer := s.fab.unknownPeer + 1 } }
        else match j.keys.find h.slot with
          | none => { s with fab := { s.fab with authDrops := s.fab.authDrops + 1 } }
          | some key =>
            let aad := f.payload.take 36
            let ct := (f.payload.drop 36).take (f.payload.length - 52)
            if gcmTag key.key h.nonce aad ct ≠ f.payload.drop (f.payload.length - 16) then
              ({ s with fab := { s.fab with authDrops := s.fab.authDrops + 1, authFail := true
                                            authCount := s.fab.authCount + 1 } }).portEvent f.port 7 j.lea jh
            else
              let s := if f.ce then s.modJob jh fun j => j.modPeer h.src fun x => { x with ceRx := x.ceRx + 1 } else s
              k s { jh := jh, j := j, h := h, plain := gcmCrypt key.key h.nonce ct, ce := f.ce }

/-! ## Peers that are lost or quarantined (R273, R280) -/

/-- What a job sends to a rank ends (R273, R280): its messages are dropped, and every unit learns of it. -/
def State.endPeer (s : State) (jh rank : Nat) : State :=
  match s.jobs.find jh with
  | none => s
  | some j =>
    let mine := j.tx.filter fun e => e.1 / 4096 == rank
    let owners := ((mine.flatMap fun e => e.2.acked ++ e.2.outstanding).map (·.owner)).eraseDups
    let s := s.modJob jh fun j =>
      { j with tx := j.tx.mapVals fun k c => if k / 4096 = rank then { c with acked := [], unacked := [], queued := [] } else c
               waits := j.waits.filter fun w => w.key / 4096 != rank }
    let s := owners.foldl (fun (s : State) w => s.msgDropped w) s
    let s := ((s.wdrPeerGone jh rank).tedPeerGone jh rank).balPeerGone jh rank
    let late := s.mem.refills.filter fun e => match e.2.wait, s.mem.descs.find e.2.desc with
      | .partner _ _ _ _, some d => d.job == jh && (s.refillPartner d).isNone
      | _, _ => false
    late.foldl (fun (s : State) e => s.refillNext e.1) s

/-- A peer is set to LOST or QUARANTINED, with a fault event to the job's lea (R273, R280). -/
def State.losePeer (s : State) (jh rank : Nat) (st : PeerSt) : State :=
  match s.jobs.find jh with
  | none => s
  | some j =>
    let s := s.modJob jh fun j => j.modPeer rank fun p => { p with st := st }
    let f := s.fab
    let f := if st = .lost then { f with peerLost := true, lostCount := f.lostCount + 1 }
      else { f with peerQuarantined := true, quarantineCount := f.quarantineCount + 1 }
    let s := { s with fab := f }.queueEvent j.lea (faultEvent .peerLost 0x05 0 (index := rank) (job := jh))
    s.endPeer jh rank

/-- A peer fault (R273): more than FAULT_LIMIT within 2^20 counts quarantine the peer. -/
def State.peerFault (s : State) (jh rank : Nat) : State :=
  let keep (p : Peer) : List (BitVec 64) := (p.faults.filter fun t => s.elapsed t < 2 ^ 20) ++ [s.now]
  let n := match (s.jobs.find jh).bind fun j => j.peer rank with
    | none => 0
    | some p => (keep p).length
  let s := s.modJob jh fun j => j.modPeer rank fun p => { p with faults := keep p }
  if s.fab.faultLimit < n then s.losePeer jh rank .quarantined else s

/-- HYK_PEER_RESET: JOB, rank; the store targets' entries are named by theirs (R270, R358). What is in flight to the rank
ends as it would with a lost peer. -/
def cmdHykPeerReset : CmdDef := jobCmd 0x0313 2 fun s _ h j a =>
  need (argN a 1 < 1024 || argN a 1 == 0xFFFE || argN a 1 == 0xFFFD) .badArgument <|
  need (j.peer (argN a 1)).isSome .stateMismatch <|
  .ok ((s.endPeer h (argN a 1)).modJob h fun j =>
    (j.modPeer (argN a 1) fun p => { p with st := .active, faults := [] }).resetPeer (argN a 1))

/-! ## ACK and NAK (R277) -/

/-- A receiving channel context changed. -/
def State.modRx (s : State) (jh key : Nat) (f : RxChan → RxChan) : State :=
  s.modJob jh fun j => { j with rx := j.rx.insert key (f (j.rx.getD key {})) }

/-- SACK (R277): bit i stands for PSN CUM_PSN + 1 + i. -/
def RxChan.sack (c : RxChan) : Nat :=
  (List.range 64).foldl (fun n i => if c.above.contains (c.cum + 1 + BitVec.ofNat 32 i) then n + 2 ^ i else n) 0

/-- An ACK of a channel goes out (R277). -/
def State.sendAck (s : State) (jh key : Nat) : State :=
  match s.jobs.find jh with
  | none => s
  | some j =>
    let c := j.rx.getD key {}
    let ce := match j.peer (key / 4096) with
      | none => 0
      | some p => satNat 16 p.ceRx
    let rwnd := min 1024 (Config.advertisedWindow s.hub.free).toNat
    let s := { s with hub := { s.hub with free := s.hub.free + 1 } }
    let s := s.modRx jh key fun c => { c with unackedCount := 0, oldest := none }
    let s := s.modJob jh fun j => j.modPeer (key / 4096) fun p => { p with ceRx := 0 }
    s.emitLoose jh (key / 4096) (key % 4096) 3 (fun h => { h with channel := key % 4096 })
      (natToBE 4 c.cum.toNat ++ natToBE 8 c.sack ++ natToBE 2 rwnd ++ natToBE 2 ce)

/-- A NAK of a packet goes out (Table 10.5). -/
def State.sendNak (s : State) (jh rank channel : Nat) (psn : Word) (st : Status) (epoch : Word := 0) : State :=
  s.emitLoose jh rank channel 4 (fun h => { h with channel := channel }) (natToBE 4 psn.toNat ++ natToBE 2 st.code ++ natToBE 4 epoch.toNat ++ [0, 0])

/-- The EPOCH of a role as this device's table holds it. -/
def State.roleEpochNow (s : State) (j : Job) (h : HykHeader) : Word :=
  match s.role j h.roleKind h.roleIndex with
  | none => 0
  | some r => r.epoch

/-! ## Delivery (R275) -/

/-- The placement record that 12 bytes hold (Table 10.6), and its LENGTH. -/
def parsePlacement (b : List Byte) : Placement × Nat :=
  let f := fun i n => beToNat ((b.drop i).take n)
  ({ target := f 0 2, offset := f 4 4, useSignal := natField (f 8 2) 15 15 == 1, signalIdx := natField (f 8 2) 11 0
     signalInc := f 10 1 }, f 2 2)

/-- The job's Windrow group whose window is a message's target. -/
def State.groupWindow (s : State) (jh target : Nat) : Bool := s.wdr.groups.any fun e => e.2.job == jh && e.2.window == target

/-- The unit that a message goes to, by its target and, within Windrow and Baler, by its TYPE (R275, R338, R339, R360,
R379). -/
def State.msgKind (s : State) (jh : Nat) (j : Job) (rank target : Nat) (body : List Byte) : Option MsgKind :=
  let type := natField (leAt body 2 1) 7 4
  if (rank = storeRank false ∨ rank = storeRank true) ∧ target = 0 then
    (if body.length < 32 then none
     else match type with
       | 4 => some .getData
       | 5 => some .sealed
       | 6 => some .refused
       | _ => none)
  else if 0xFF00 ≤ target then
    (if body.length < 64 then none
     else match type with
       | 1 => some .digest
       | 2 => some .history
       | 3 => some .fillReq
       | 4 => some .fillData
       | 5 => some .fillDone
       | 6 => some .fillAbort
       | _ => none)
  else if s.groupWindow jh target then
    (if body.length < 256 then none
     else match type with
       | 1 => some .contrib
       | 2 => some .result
       | 3 => some .escalateReq
       | _ => none)
  else match j.tedder with
    | none => none
    | some t => if t.staging = target then some .tokens else if t.returnWin = target then some .returnRecords else none

/-- The span of memory that a message has filled, where its target is a window. -/
def Job.msgSpans (j : Job) (rank : Nat) (first : RxPacket) (len : Nat) : List Span :=
  if (rank = storeRank false ∨ rank = storeRank true) ∧ first.pl.target = 0 then []
  else match j.windows.find first.pl.target with
    | none => []
    | some w => [{ base := w.base + first.pl.offset, len := len, write := true }]

/-- A POST's slot is written at its queue's tail, and admitted to the ring (R45). -/
def State.putPost (s : State) (lea q : Nat) (slot : List Byte) : State :=
  match (s.lea lea).queues.find q with
  | none => s
  | some k =>
    let tail := (s.lea lea).qdb.getD q 0
    (s.write (k.base + 128 * tail) slot).modLea lea fun x => { x with qdb := x.qdb.insert q ((tail + 1) % 2 ^ k.log2) }

/-- A message is delivered (R275): writes are noted in shard headers (R326), the body goes to its unit, and the signal is
applied. -/
def State.deliver (s : State) (jh key : Nat) (ps : List RxPacket) : State :=
  match s.jobs.find jh, ps with
  | some j, first :: _ =>
    let rank := key / 4096
    let body := ps.flatMap (·.body)
    let s := if first.post then ps.foldl (fun (s : State) p => s.putPost j.lea p.pl.target p.body) s
      else
        let spans := j.msgSpans rank first body.length
        let s := spans.foldl (fun (s : State) x => s.noteWrite first.step x.base x.len) s
        let r := s.noteShards first.step spans
        let s := match r.2 with
          | none => r.1
          | some (i, sec, st) =>
            r.1.queueEvent j.lea (faultEvent st 0x05 0x40 (index := i) (job := jh) (step := first.step) (addr := sec * 32))
        match s.msgKind jh j rank first.pl.target body with
        | none => s
        | some k =>
          let d : Delivery := { kind := k, job := jh, rank := rank, channel := key % 4096, target := first.pl.target
                                offset := first.pl.offset, body := body, roleKind := first.roleKind
                                roleIndex := first.roleIndex, step := first.step }
          { s with delivered := s.delivered ++ [d] }
    match ps.getLast? with
    | none => s
    | some p => if p.pl.useSignal then s.signal j.lea p.pl.signalIdx p.pl.signalInc else s
  | _, _ => s

/-- The packets of the first message of a channel, and those behind them. -/
def splitRx : List RxPacket → List RxPacket × List RxPacket
  | [] => ([], [])
  | p :: rest => if p.last then ([p], rest) else ((p :: (splitRx rest).1), (splitRx rest).2)

/-- Every message of a channel whose packets, and those of every earlier message, are accepted is delivered (R275). -/
def State.deliverReady (s : State) (jh key : Nat) : Nat → State
  | 0 => s
  | n + 1 => match (s.jobs.find jh).bind fun j => j.rx.find key with
    | none => s
    | some c =>
      let m := splitRx c.held
      match m.1.getLast? with
      | none => s
      | some p =>
        if p.last && m.1.head?.any (fun x => x.psn == c.delivered) && signedLess p.psn c.cum then
          let s := s.modRx jh key fun c => { c with held := m.2, delivered := p.psn + 1 }
          (s.deliver jh key m.1).deliverReady jh key n
        else s

/-- CUM_PSN moves past every PSN accepted in a row. -/
def RxChan.advance (c : RxChan) : Nat → RxChan
  | 0 => c
  | n + 1 =>
    if c.above.contains c.cum then
      RxChan.advance { c with above := c.above.filter (· != c.cum), cum := c.cum + 1 } n
    else c

/-- A packet accepted by its channel. -/
def RxChan.accept (c : RxChan) (p : RxPacket) (now : BitVec 64) : RxChan :=
  let before := c.held.filter fun x => signedLess x.psn p.psn
  let after := c.held.filter fun x => !signedLess x.psn p.psn
  { c with above := c.above ++ [p.psn], held := before ++ [p] ++ after, unackedCount := c.unackedCount + 1
           oldest := some (c.oldest.getD now) }.advance (c.above.length + 1)

/-! ## DATA and POST -/

/-- Check 11 of Table 10.7 for DATA: the window of a range, none where the target is Baler's (R360, R379). -/
def State.dataPlace (s : State) (j : Job) (rank : Nat) (pl : Placement) (len bodyLen : Nat) : Option (Option Window) :=
  let signalOk := !pl.useSignal || pl.signalIdx < (s.lea j.lea).quotas.counters
  if len ≠ bodyLen ∨ !signalOk then none
  else if (rank = storeRank false ∨ rank = storeRank true) ∧ pl.target = 0 then some none
  else if 0xFF00 ≤ pl.target ∧ pl.target < 0xFF10 ∧ j.baler.isSome then some none
  else match j.windows.find pl.target with
    | none => none
    | some w => if w.data && pl.offset % 32 == 0 && pl.offset + len ≤ w.len then some (some w) else none

/-- Check 12 of Table 10.7: what refuses a POST, if anything; a slot is free past those that accepted posts will take. -/
def State.postRefusal (s : State) (jh : Nat) (j : Job) (q : Nat) : Option Status :=
  match (s.lea j.lea).queues.find q with
  | none => some .stateMismatch
  | some k =>
    if k.stopped || !k.fabPost || !k.hbm || k.job != jh then some .stateMismatch
    else
      let held := (j.rx.map fun e => (e.2.held.filter fun p => p.post && p.pl.target == q).length).sum
      let used := ((s.lea j.lea).qdb.getD q 0 + 2 ^ k.log2 - k.head) % 2 ^ k.log2
      if used + held + 1 < 2 ^ k.log2 then none else some .noResource

/-- An accepted packet: its channel takes it, messages are delivered, and an ACK goes out where R277 asks for one. -/
def State.acceptPacket (s : State) (x : Packet) (pl : Placement) (body : List Byte) : State :=
  let key := chanKey x.h.src x.h.channel
  let p : RxPacket := { psn := x.h.psn, last := x.h.last, post := x.h.type == 2, pl := pl, body := body, step := x.h.step
                        roleKind := x.h.roleKind, roleIndex := x.h.roleIndex }
  let s := s.modRx x.jh key fun c => c.accept p s.now
  let c := match s.jobs.find x.jh with
    | none => ({} : RxChan)
    | some j => j.rx.getD key {}
  let s := s.deliverReady x.jh key (c.held.length + 1)
  if 16 ≤ c.unackedCount || !c.above.isEmpty || x.ce || x.h.ackReq then s.sendAck x.jh key else s

/-- Checks 8 to 10 of Table 10.7 on a DATA or POST packet. -/
def State.sequence (s : State) (x : Packet) (k : State → State) : State :=
  let key := chanKey x.h.src x.h.channel
  let c := x.j.rx.getD key {}
  if signedLess x.h.psn c.cum || c.above.contains x.h.psn then
    { s with fab := { s.fab with duplicates := s.fab.duplicates + 1 } }.sendAck x.jh key
  else if 1024 ≤ (x.h.psn - c.cum).toNat then
    (s.sendNak x.jh x.h.src x.h.channel x.h.psn .seqMismatch).peerFault x.jh x.h.src
  else if x.h.roleKind ≠ 0 ∧ !s.holdsRole x.j x.h.roleKind x.h.roleIndex x.h.roleEpoch then
    s.sendNak x.jh x.h.src x.h.channel x.h.psn .roleMoved (s.roleEpochNow x.j x.h)
  else k s

/-- A DATA packet past check 10. A packet whose placement would write into a sector that waits for its refill is not taken
yet (R208). -/
def State.takeData (s : State) (x : Packet) : State :=
  let (pl, len) := parsePlacement x.plain
  let body := x.plain.drop 12
  match s.dataPlace x.j x.h.src pl len body.length with
  | none => (s.sendNak x.jh x.h.src x.h.channel x.h.psn .badArgument).peerFault x.jh x.h.src
  | some none => s.acceptPacket x pl body
  | some (some w) =>
    if s.writeAccess (w.base + pl.offset) len = .stall then s
    else (s.write (w.base + pl.offset) body).acceptPacket x pl body

/-- A POST packet past check 10. -/
def State.takePost (s : State) (x : Packet) : State :=
  let (pl, len) := parsePlacement x.plain
  let signalOk := !pl.useSignal || pl.signalIdx < (s.lea x.j.lea).quotas.counters
  if 4096 ≤ pl.target ∨ len ≠ 128 ∨ pl.offset ≠ 0 ∨ !signalOk then
    (s.sendNak x.jh x.h.src x.h.channel x.h.psn .badArgument).peerFault x.jh x.h.src
  else match s.postRefusal x.jh x.j pl.target with
    | some .noResource => s.sendNak x.jh x.h.src x.h.channel x.h.psn .noResource
    | some st => (s.sendNak x.jh x.h.src x.h.channel x.h.psn st).peerFault x.jh x.h.src
    | none => s.acceptPacket x pl (x.plain.drop 12)

/-- DATA (R272, R275). -/
def execData (f : RxFrame) (s : State) : Host.Outcome State Fault Refusal :=
  finish (s.receive f [1] fun s x => s.sequence x fun s => s.takeData x)

/-- POST (R45, R272). -/
def execPost (f : RxFrame) (s : State) : Host.Outcome State Fault Refusal :=
  finish (s.receive f [2] fun s x => s.sequence x fun s => s.takePost x)

/-- ACK_DELAY_EXPIRY (R277). -/
def execAckDelayExpiry (job chan : Nat) (s : State) : Host.Outcome State Fault Refusal :=
  match (s.jobs.find job).bind fun j => j.rx.find chan with
  | none => finish s
  | some c => match c.oldest with
    | none => finish s
    | some t => if s.elapsed t < 2000 then finish s else finish (s.sendAck job chan)

/-! ## ACK, NAK and the timeout at the sender (R278, R280, R282) -/

/-- A sending channel context changed. -/
def State.modTx (s : State) (jh key : Nat) (f : TxChan → TxChan) : State :=
  s.modJob jh fun j => match j.tx.find key with
    | none => j
    | some c => { j with tx := j.tx.insert key (f c) }

/-- The timeout of a channel in counts (R278). -/
def State.rto (s : State) (c : TxChan) : Nat := s.fab.rtoCounts * 2 ^ min c.backoff 6

/-- The packets of an unfinished message at the end of some packets. -/
def openTail (l : List TxPacket) : List TxPacket := (l.reverse.takeWhile fun p => !p.last).reverse

/-- A channel after an ACK (R277, R278). -/
def TxChan.acknowledge (c : TxChan) (cum : Word) (sack rwnd : Nat) (now : BitVec 64) : TxChan :=
  let gone := c.unacked.filter fun p => signedLess p.psn cum
  let rest := (c.unacked.filter fun p => !signedLess p.psn cum).map fun p =>
    { p with sacked := p.sacked || ((p.psn - cum - 1).toNat < 64 && sack.testBit (p.psn - cum - 1).toNat) }
  let c := { c with unacked := rest, acked := openTail (c.acked ++ gone), rwnd := rwnd }
  if gone.isEmpty then (if rwnd = 0 then { c with expiries := 0, since := now } else c)
  else { c with backoff := 0, expiries := 0, since := now }

/-- The packets that SACK shows lost (R278): at least three higher PSNs accepted, and not sent again in this timeout. -/
def State.fastPackets (s : State) (c : TxChan) : List TxPacket :=
  c.unacked.filter fun p => !p.sacked && 3 ≤ (c.unacked.filter fun q => q.sacked && signedLess p.psn q.psn).length &&
    match p.retxAt with
    | none => true
    | some t => s.rto c ≤ s.elapsed t

/-- An ACK with CE marks lowers the peer's rate, at most once in a rate window (R283). -/
def State.cutRate (s : State) (jh rank : Nat) : State :=
  s.modJob jh fun j => j.modPeer rank fun p => match p.rate with
    | none => p
    | some r =>
      if p.cutAt = some s.rateWindowNow then { p with ceSeen := true }
      else
        let a := p.alpha + (1 - p.alpha) / 16
        { p with ceSeen := true, alpha := a, cutAt := some s.rateWindowNow
                 rate := some (max (r * (1 - a / 2)) (s.fab.minRate : Rat)) }

/-- ACK (R278, R283): the channel's messages that are accepted whole are acknowledged to their units. -/
def State.takeAck (s : State) (x : Packet) : State :=
  let key := chanKey x.h.src x.h.channel
  let f := fun i n => beToNat ((x.plain.drop i).take n)
  let s := if 0 < f 14 2 then s.cutRate x.jh x.h.src else s
  match x.j.tx.find key with
  | none => s
  | some c =>
    let cum := BitVec.ofNat 32 (f 0 4)
    let done := ((c.unacked.filter fun p => signedLess p.psn cum && p.last).map (·.owner))
    let c' := c.acknowledge cum (f 4 8) (f 12 2) s.now
    let fast := s.fastPackets c'
    let s := s.modTx x.jh key fun _ =>
      { c' with unacked := c'.unacked.map fun p => if fast.contains p then { p with retxAt := some s.now } else p }
    let s := fast.foldl (fun (s : State) p => s.retransmit x.jh key p) s
    let s := done.foldl (fun (s : State) w => s.msgAcked x.jh w) s
    s.pump x.jh key (c'.queued.length + 1)

/-- ACK (R278). -/
def execAck (f : RxFrame) (s : State) : Host.Outcome State Fault Refusal := finish (s.receive f [3] State.takeAck)

/-- A ROLE_MOVED answer to refill requests sent to a rank (R210, R324): each waits until its role's epoch has changed, or is
sent again where the receiver's table lags. -/
def State.refillMoved (s : State) (jh rank : Nat) (cur : Word) : State :=
  let mine := s.mem.refills.filter fun e => match e.2.wait, s.mem.descs.find e.2.desc with
    | .partner ep _ _ _, some d => d.job == jh && !signedLess cur (BitVec.ofNat 32 ep) &&
        (s.refillPartner d).any fun r => r.2.2.rank == rank
    | _, _ => false
  mine.foldl (fun (s : State) e => match e.2.wait with
    | .partner ep _ _ _ =>
      { s with mem := { s.mem with refills := s.mem.refills.insert e.1 { e.2 with wait := .resolve ep s.now } } }
    | _ => s) s

/-- NAK (R282, R324). -/
def State.takeNak (s : State) (x : Packet) : State :=
  let key := chanKey x.h.src x.h.channel
  let f := fun i n => beToNat ((x.plain.drop i).take n)
  let psn := BitVec.ofNat 32 (f 0 4)
  let reason := f 4 2
  let packet := (x.j.tx.find key).bind fun c => c.unacked.find? fun p => p.psn == psn
  match packet with
  | none =>
    if reason = Status.roleMoved.code && x.h.channel == 0 && psn == 0 then s.refillMoved x.jh x.h.src (BitVec.ofNat 32 (f 6 4))
    else s
  | some p =>
    if reason = Status.noResource.code then s.modTx x.jh key fun c => { c with expiries := 0 }
    else if reason = Status.roleMoved.code then
      (s.roleNak x.jh key p (BitVec.ofNat 32 (f 6 4))).pumpJob x.jh
    else (((s.takeOut x.jh key p.owner).dropWait x.jh p.owner).msgRefused p.owner reason).pumpJob x.jh

/-- NAK (R282). -/
def execNak (f : RxFrame) (s : State) : Host.Outcome State Fault Refusal := finish (s.receive f [4] State.takeNak)

/-- A channel moves to another UP port of its peer's mask (R274). -/
def State.repathChan (s : State) (jh key : Nat) : State :=
  match s.jobs.find jh with
  | none => s
  | some j => match j.tx.find key, j.peer (key / 4096) with
    | some c, some p =>
      let ups := (s.upPorts p.ports).filter fun q => c.port != some q
      if ups = [] then s
      else s.modTx jh key fun c =>
        { c with repath := c.repath + 1, port := ups[Config.portHash key (c.repath + 1) ups.length % ups.length]? }
    | _, _ => s

/-- RETX_TIMEOUT (R274, R278, R280). A channel all of whose packets wait under R324 has no timeout. -/
def execRetxTimeout (job chan : Nat) (s : State) : Host.Outcome State Fault Refusal :=
  match s.jobs.find job with
  | none => finish s
  | some j => match j.tx.find chan with
    | none => finish s
    | some c =>
      let due := c.unacked.filter fun p => !p.sacked && !j.waitsFor p.owner
      if due.isEmpty || s.elapsed c.since < s.rto c then finish s
      else
        let s := { s with fab := { s.fab with timeouts := s.fab.timeouts + 1 } }
        let n := c.expiries + 1
        let s := s.modTx job chan fun c => { c with expiries := n, backoff := c.backoff + 1, since := s.now }
        if s.fab.retryLimit ≤ n then finish (s.losePeer job (chan / 4096) .lost)
        else
          let s := if n % 2 = 0 then s.repathChan job chan else s
          finish (due.foldl (fun (s : State) p => s.retransmit job chan p) s)

/-! ## Rate control (R283) -/

/-- The rate of the port that a peer's traffic uses: that of its first channel with a port, else of its first UP port. -/
def State.peerPortRate (s : State) (j : Job) (rank : Nat) (p : Peer) : Option Nat :=
  let used := (j.tx.filter fun e => e.1 / 4096 == rank).filterMap fun e => e.2.port
  (used ++ s.upPorts p.ports).head?.map fun q => (s.port q).gbps

/-- RATE_WINDOW_END (R283): a rate window has ended; without CE the rate rises and α decays. -/
def execRateWindowEnd (job rank : Nat) (s : State) : Host.Outcome State Fault Refusal :=
  match s.jobs.find job with
  | none => finish s
  | some j => match j.peer rank with
    | none => finish s
    | some p => match p.rate with
      | none => finish s
      | some r =>
        if s.rateWindowNow ≤ p.rateAt then finish s
        else
          let p' := if p.ceSeen then { p with ceSeen := false, rateAt := p.rateAt + 1 }
            else { p with rateAt := p.rateAt + 1, alpha := p.alpha * 15 / 16
                          rate := match s.peerPortRate j rank p with
                            | none => some (r + (s.fab.aiStep : Rat))
                            | some q => some (min (r + (s.fab.aiStep : Rat)) (q : Rat)) }
          finish (s.modJob job fun j => j.modPeer rank fun _ => p')

/-! ## Heartbeats and refills on the fabric, and frames that are dropped -/

/-- HEARTBEAT (R424): an authenticated heartbeat of a peer. -/
def execHeartbeat (f : RxFrame) (s : State) : Host.Outcome State Fault Refusal :=
  finish (s.receive f [5] fun s x => s.hearFabric x.jh x.h.src (BitVec.ofNat 32 (beToNat (x.plain.take 4))))

/-- Whether a refill-source window of a job covers a sector (R271). -/
def Job.refillSource (j : Job) (sec : Nat) : Bool :=
  j.windows.any fun e => e.2.refill && e.2.base ≤ sec * 32 && sec * 32 + 32 ≤ e.2.base + e.2.len

/-- A REFILL_REQ past check 7 (R210, R279): checks 10 and 11 apply. -/
def State.takeRefillReq (s : State) (x : Packet) : State :=
  let sec := beToNat (x.plain.take 8) / 32
  if x.h.roleKind ≠ 0 ∧ !s.holdsRole x.j x.h.roleKind x.h.roleIndex x.h.roleEpoch then
    s.sendNak x.jh x.h.src 0 0 .roleMoved (s.roleEpochNow x.j x.h)
  else if !x.j.refillSource sec then (s.sendNak x.jh x.h.src 0 0 .badArgument).peerFault x.jh x.h.src
  else s.refillRequest x.jh x.h.src sec (BitVec.ofNat 32 (beToNat ((x.plain.drop 8).take 4)))

/-- REFILL_REQ (R210, R279). -/
def execRefillReq (f : RxFrame) (s : State) : Host.Outcome State Fault Refusal := finish (s.receive f [6] State.takeRefillReq)

/-- A REFILL_REPLY past check 7 (R210, Table 10.7). -/
def State.takeRefillReply (s : State) (x : Packet) : State :=
  let result := beToNat ((x.plain.drop 8).take 1)
  let sec := beToNat (x.plain.take 8) / 32
  if (x.plain.length == 48) != (result == 0) then { s with mem := { s.mem with refDropped := s.mem.refDropped + 1 } }
  else s.refillReply x.jh sec result (x.plain.drop 16)

/-- REFILL_REPLY (R210, R279). -/
def execRefillReply (f : RxFrame) (s : State) : Host.Outcome State Fault Refusal :=
  finish (s.receive f [7] State.takeRefillReply)

/-- RECEIVED_FRAME (R260, R272): a frame that fails a check 1 to 3 is dropped and counted. -/
def execReceivedFrame (f : RxFrame) (s : State) : Host.Outcome State Fault Refusal := finish (s.receive f [] fun s _ => s)

/-! ## The command row -/

/-- HYK_PEER_RESET (R270). -/
def execHykPeerReset (lea : Nat) (tag : Word) (args : List Word) (s : State) : Host.Outcome State Fault Refusal :=
  finish (s.issue cmdHykPeerReset lea tag args)

/-- The commands of this file. -/
def receiveCommands : List CmdDef :=
  [cmdHykPeerReset]

end Sys2Proof.Machine
end

