-- ==== Sys2Proof/Machine/Elementwise.lean ====
section
/-!
DEFINITION. Machine/Elementwise.lean: element-wise ops (05, R114 to R122, R138 to R142, R190): their body and checks, how
rows reach clusters and end there, and what a row that fails does to its op.
-/

namespace Sys2Proof.Machine

/-! ## The op's body (Table 5.1) -/

/-- ENTRY of an element-wise op; 0 is a user program (Table 5.1). -/
def Op.entry (o : Op) : Nat := o.f 1 31 16
@[inherit_doc Op.entry] def Op.prog (o : Op) : Nat := o.addr 0
@[inherit_doc Op.entry] def Op.rowLen (o : Op) : Nat := (o.w 3).toNat
@[inherit_doc Op.entry] def Op.clusters (o : Op) : Nat := if o.f 4 31 23 = 0 then 256 else o.f 4 31 23
@[inherit_doc Op.entry] def Op.privOp (o : Op) : Bool := bit (o.w 4) 22
@[inherit_doc Op.entry] def Op.eltNorm (o : Op) : Bool := bit (o.w 4) 21
@[inherit_doc Op.entry] def Op.eltNormIdx (o : Op) : Nat := o.f 4 15 0
@[inherit_doc Op.entry] def Op.argBase (o : Op) : Nat := o.addr 5
@[inherit_doc Op.entry] def Op.instrLimit (o : Op) : Nat := (o.w 7).toNat

/-- The library entries of Table 5.6. -/
def libraryEntries : List Nat := [0x0001, 0x0002, 0x0010, 0x0011, 0x0020, 0x0021]

/-- Check 3 of R53 for an element-wise op (R119, R120). -/
def State.eltArgOk (s : State) (o : Op) : Bool :=
  let bl := fld (wordAt o.hdr 0) 23 16
  1 ≤ bl && bl ≤ 3 && o.f 4 19 16 == 0 && o.f 6 31 16 == 0 &&
  1 ≤ o.rows && o.rows ≤ 2 ^ 24 && 1 ≤ o.rowLen && o.rowLen ≤ 2 ^ 22 && o.f 4 31 23 ≤ 256 &&
  (if o.entry = 0 then 1 ≤ o.instrLimit && o.prog % 128 == 0 && s.granted o.lea o.prog 128 false
   else libraryEntries.contains o.entry) &&
  o.argBase % 32 == 0 && s.granted o.lea o.argBase 128 false &&
  (!o.eltNorm || o.eltNormIdx < (s.lea o.lea).quotas.norm)

/-! ## Clusters (R115, R140, R141) -/

/-- Cluster `c`. -/
def State.cluster (s : State) (c : Nat) : Cluster := s.scalar.clusters.getD c {}

/-- The state with cluster `c` replaced. -/
def State.putCluster (s : State) (c : Nat) (x : Cluster) : State :=
  { s with scalar := { s.scalar with clusters := s.scalar.clusters.insert c x } }

/-- The state with `f` applied to cluster `c`. -/
def State.modCluster (s : State) (c : Nat) (f : Cluster → Cluster) : State := s.putCluster c (f (s.cluster c))

/-- The registers of the scalar cores of die `d`. -/
def State.scalarDie (s : State) (d : Nat) : ScalarDie := s.scalar.dies.getD d {}

/-- Whether cluster `c` is in service (WX_CLUSTER_AVAIL): its die is. -/
def State.clusterOn (s : State) (c : Nat) : Bool := c < 256 && s.array.inService.getLsbD (c / 64)

/-- Whether cluster `c` is privileged: as at its last row boundary while it runs a row, by its bit otherwise (R140). -/
def State.clusterPriv (s : State) (c : Nat) : Bool :=
  if (s.cluster c).op.isSome then (s.cluster c).priv else (s.scalarDie (c / 64)).privReg.getLsbD (c % 64)

/-- An element-wise op may be admitted: one with PRIV set needs a privileged cluster in service (R142). -/
def State.eltStateOk (s : State) (o : Op) : Bool :=
  !o.privOp || (List.range 256).any fun c => s.clusterOn c && s.clusterPriv c

/-- An element-wise op starts: its rows are ready (R115). -/
def State.startElt (s : State) (n : Nat) : State :=
  { s with scalar := { s.scalar with runs := s.scalar.runs.insert n { op := n } } }

/-- The clusters that run a row of op `n`. -/
def State.rowsOf (s : State) (n : Nat) : List Nat := (s.scalar.clusters.filter fun c => c.2.op == some n).map (·.1)

/-- The ops whose rows cluster `c` may take (R115, R141). -/
def State.rowPool (s : State) (c : Nat) : Map Op :=
  let can := s.hub.ops.filter fun e => e.2.running && (s.lea e.2.lea).st != .resetting && s.rowsReady e.1 e.2 &&
    (s.rowsOf e.1).length < e.2.clusters
  let priv := can.filter fun e => e.2.privOp
  if s.clusterPriv c && !priv.isEmpty then priv else can.filter fun e => !e.2.privOp

/-- The next row of an op, with its run: a row that is to run again before a new one. -/
def EltRun.take (r : EltRun) : Nat × EltRun :=
  match r.rerun with
  | x :: rest => (x, { r with rerun := rest })
  | [] => (r.nextRow, { r with nextRow := r.nextRow + 1 })

/-- Cluster `c` starts a row of op `n` (R116, R118, Table 5.1): u0 to u15 hold the op's words, the cluster store is zero,
and its privilege is its bit's (R140). -/
def State.startRow (s : State) (c n : Nat) (o : Op) : State :=
  match s.scalar.runs.find n with
  | none => s
  | some r =>
    let x := r.take
    let ch := Config.rowCharge o.entry o.rowLen
    let s := { s with scalar := { s.scalar with runs := s.scalar.runs.insert n x.2 } }
    let s := s.putCluster c
      { priv := s.clusterPriv c, op := some n, row := x.1, u := (List.range 16).map fun i => (i, o.w (8 + i))
        len := min 64 Config.rowLength, rowStart := true, pc := o.prog, charge := ch }
    s.modLea o.lea fun a => { a with vCluster := a.vCluster + (ch : Rat) / weightOf a.wCluster
                                     clusterEvents := a.clusterEvents + BitVec.ofNat 64 ch }

/-- ROW_DISPATCH (R115, R141, R399 to R401): a free cluster takes a row. -/
def execRowDispatch (c : Nat) (s : State) : Host.Outcome State Fault Refusal :=
  if !s.clusterOn c || (s.cluster c).op.isSome then finish s
  else
    let pool := s.rowPool c
    match pickLea ((s.leas.filter fun x => pool.any fun e => e.2.lea == x.1).map fun x => (x.1, x.2.wCluster, x.2.vCluster)) with
    | none => finish s
    | some l => match s.firstByPrio (pool.filter fun e => e.2.lea == l) with
      | none => finish s
      | some n => match s.op n with
        | none => finish s
        | some o => finish (s.startRow c n o)

/-! ## What a row does to memory and to its op -/

/-- The data of the registered shards that a span touches (R326). -/
def State.shardHits (s : State) (base len : Nat) : List (Nat × Nat) :=
  s.jobs.flatMap fun e =>
    (e.2.shards.filter fun h => base < h.2.1 + 32 + h.2.2 && h.2.1 + 32 < base + len).map fun h => (h.2.1 + 32, h.2.2)

/-- A row writes bytes: refill descriptors and the row note it (R210, R326). -/
def State.rowWrite (s : State) (o : Op) (k : Cluster) (base : Nat) (b : List Byte) : State × Cluster :=
  let hits := s.shardHits base b.length
  ((s.write base b).noteWrite o.step base b.length,
   if hits.isEmpty then k else { k with hits := k.hits ++ hits.filter fun h => !k.hits.contains h })

/-- What a row's work comes to, with the state and the cluster as it leaves them. -/
inductive RowOutcome
  | waits (s : State) (k : Cluster)                                  -- a sector waits for a refill or its PHY domain
  | bad (s : State) (k : Cluster) (sec : Nat) (st : Status) (stash : Bool) -- an access fails; of a stash record
  | stop (s : State) (k : Cluster) (st : Status) (cause : Nat)        -- the row stops (R122)
  | go (s : State) (k : Cluster)
  deriving DecidableEq, Repr

/-- The row on cluster `c` stops, and its op fails: it issues no more rows and will complete with the status and CAUSE
(R122). FAULT and STASH_ERR are the die's (R137). -/
def State.stopRow (s : State) (c : Nat) (st : Status) (cause : Nat) (stash : Bool := false) : State :=
  match (s.cluster c).op with
  | none => s
  | some n =>
    let s := s.modCluster c fun k => { k with st := .stopped cause }
    let s := { s with scalar := { s.scalar with runs := s.scalar.runs.modify n { op := n } fun r =>
      { r with fail := some (r.fail.getD (st, cause)) } } }
    let s := if st = .unitFault then s.dieFlag (c / 64) 1 fun x => { x with fault := true } else s
    if stash then s.dieFlag (c / 64) 1 fun x => { x with stashErr := true } else s

/-- An access of the row on cluster `c` fails at a sector: poison ends the op with POISON (R211); a detected error is left
to DETECTED_READ_ERROR where a recompute can mend it (R137, R182), and is CAUSE 0x05 otherwise (R207). -/
def State.rowBad (s : State) (c : Nat) (o : Op) (sec : Nat) (st : Status) (stash : Bool := false) : State :=
  if st = .unitFault then
    if (s.recomputeTarget o sec).isSome then s else s.stopRow c .unitFault 5 stash
  else (s.lostRead sec).stopRow c st 0

/-- A row's outcome on cluster `c`. -/
def State.rowOut (c : Nat) (o : Op) : RowOutcome → State
  | .waits s k => s.putCluster c k
  | .bad s k sec st stash => (s.putCluster c k).rowBad c o sec st stash
  | .stop s k st cause => (s.putCluster c k).stopRow c st cause
  | .go s k => s.putCluster c k

/-- The row that runs on cluster `c`: its op's number and the op, while the row is neither ended nor stopped. -/
def State.rowOn (s : State) (c : Nat) : Option (Nat × Op) :=
  match (s.cluster c).op with
  | none => none
  | some n => match s.op n with
    | none => none
    | some o =>
      if (s.cluster c).st = .running ∧ s.clusterOn c ∧ (s.lea o.lea).st ≠ .resetting then some (n, o) else none

/-! ## The stash header (R135) -/

/-- Where an op writes a stash record, as its rows leave it: base, FMT, fixed scale, KIND, LAYER, elements per row. -/
structure StashOut where
  base : Nat
  fmt : Fmt
  fixed : Option Nat
  kind : Nat
  layer : Nat
  rowLen : Nat
  deriving DecidableEq, Repr

/-- The data pitch of a stash record (Table 5.11). -/
def stashPitch (f : Fmt) (rowLen : Nat) : Nat := roundUp (ceilDiv rowLen 32 * fmtUnitBytes f) 32

/-- The tensor of a stash record that is written: its planes follow the header. -/
def StashOut.tensor (x : StashOut) (rows : Nat) : Tensor :=
  let p := stashPitch x.fmt x.rowLen
  { fmt := x.fmt, base := x.base + 32, scaleBase := x.base + 32 + rows * p, pitch := p, rows := rows, extent := x.rowLen }

/-- The header words (Table 5.11). -/
def StashOut.header (x : StashOut) (o : Op) : List Word :=
  [packFields [(fmtCode x.fmt, 28), (x.kind, 24), (1, 16), (x.layer, 0)], o.step,
   packFields [(o.segment, 16), (o.microbatch, 0)], BitVec.ofNat 32 o.rows, BitVec.ofNat 32 x.rowLen, 32,
   BitVec.ofNat 32 (32 + o.rows * stashPitch x.fmt x.rowLen),
   match x.fixed with
   | some c => packFields [(1, 8), (c, 0)]
   | none => 0]

/-- The argument record of an op (R119). -/
def State.argRecord (s : State) (o : Op) : List Word := s.readWords o.argBase 32

/-- The stash record that an op writes, from its argument record (Table 5.7, Table 5.9, Table 5.10). -/
def stashOutOf (entry : Nat) (rec : List Word) (rowLen : Nat) : Option StashOut :=
  let func := fld (wordAt rec 0) 23 20
  let mk (base f kind layer len : Nat) : StashOut :=
    let fix := bit (wordAt rec f) 27
    { base := base, fmt := (fmtOfCode (fld (wordAt rec f) 31 28)).getD .e4m3
      fixed := if fix then some (fld (wordAt rec f) 7 0) else none, kind := kind, layer := layer, rowLen := len }
  let act (kind : Nat) := mk (addr48 (wordAt rec 10) (wordAt rec 11)) 12 kind (fld (wordAt rec 13) 15 0)
    (if kind = 2 then 2 * rowLen else rowLen)
  match entry with
  | 0x0001 => if bit (wordAt rec 0) 17 then
      some (mk (addr48 (wordAt rec 20) (wordAt rec 21)) 22 0 (fld (wordAt rec 23) 15 0) rowLen) else none
  | 0x0010 => if bit (wordAt rec 0) 19 then some (act (if func ≤ 4 then 0 else if func ≤ 7 then 1 else 2)) else none
  | 0x0020 => some (act func)
  | _ => none

/-! ## The end of a row (R190) -/

/-- A row's flags in its op's DETAIL. -/
def EltRun.flags (r : EltRun) (k : Cluster) : EltRun :=
  { r with saturated := r.saturated || k.saturated, nanOut := r.nanOut || k.nanOut, normSat := r.normSat || k.normSat
           nanRow := r.nanRow || k.flags.testBit 0, infRow := r.infRow || k.flags.testBit 1
           maskedRow := r.maskedRow || k.flags.testBit 2 }

/-- The die's flags for a row that has ended or stopped (WX_SCALAR_STATUS). -/
def State.rowFlags (s : State) (d : Nat) (k : Cluster) : State :=
  let n := b2n k.saturated + b2n (k.flags.testBit 0) + b2n (k.flags.testBit 1)
  if n = 0 then s
  else s.dieFlag d n fun x => { x with saturated := x.saturated || k.saturated, nanRow := x.nanRow || k.flags.testBit 0
                                       infRow := x.infRow || k.flags.testBit 1 }

/-- A row's events reach its lea's share (R399). -/
def State.chargeRow (s : State) (o : Op) (k : Cluster) : State :=
  s.modLea o.lea fun a =>
    { a with vCluster := a.vCluster + ((k.events : Rat) - (k.charge : Rat)) / weightOf a.wCluster
             clusterEvents := a.clusterEvents + BitVec.ofNat 64 k.events - BitVec.ofNat 64 k.charge }

/-- The op's last row has ended: the header of the stash record that it writes follows the planes (R135). -/
def State.putStashHeader (s : State) (o : Op) (k : Cluster) (doneRows : Nat) : State × Cluster :=
  if doneRows < o.rows then (s, k)
  else match stashOutOf o.entry (s.argRecord o) o.rowLen with
    | none => (s, k)
    | some x => s.rowWrite o k x.base (wordsToBytes (x.header o))

/-- Shard data that a row has written into, joined to what the op's rows had. -/
def joinHits (a b : List (Nat × Nat)) : List (Nat × Nat) := a ++ b.filter fun h => !a.contains h

/-- The row on cluster `c` is over: what it adds when it has ended (R190), its flags and events, and the cluster is
free. -/
def State.endRow (s : State) (c n : Nat) (o : Op) : State :=
  let k := s.cluster c
  let r := s.scalar.runs.getD n { op := n }
  let ended := k.st = .ended
  let r := r.flags k
  let r := if ended then { r with doneRows := r.doneRows + 1 } else r
  let s := if ended then
      let s := s.addNorm o.lea o.eltNormIdx k.norm
      let s := s.report o { underflow := k.underflow, elements := k.mxElems }
      let d := s.scalarDie (c / 64)
      { s with scalar := { s.scalar with dies := s.scalar.dies.insert (c / 64) { d with rows := d.rows + 1 } } }
    else s
  let s := (s.rowFlags (c / 64) k).chargeRow o k
  let x := if ended then s.putStashHeader o k r.doneRows else (s, k)
  let s := { x.1 with scalar := { x.1.scalar with runs := x.1.scalar.runs.insert n { r with hits := joinHits r.hits x.2.hits } } }
  (s.putCluster c { priv := k.priv }).eltSettle n

/-- ROW_END (R190): the row on a cluster has ended, or has stopped (R122). -/
def execRowEnd (c : Nat) (s : State) : Host.Outcome State Fault Refusal :=
  match (s.cluster c).op with
  | none => finish s
  | some n => match s.op n with
    | none => finish s
    | some o => if (s.cluster c).st = .running then finish s else finish (s.endRow c n o)

end Sys2Proof.Machine
end

