-- ==== Sys2Proof/Machine/Native.lean ====
section
/-!
DEFINITION. Machine/Native.lean: the native functions exp2, log2, tanh, erf and sigm, correctly rounded (R125).
Each is enclosed between two fixed-point numbers; where both round to one FP32 code, that code is the answer,
because rounding is monotonic. The precision grows until they do; a free value stands where no precision tried
decides (none is known).
-/

namespace Sys2Proof.Machine

/-- Σ over i of r^i / i!, in fixed point with `p` fraction bits, from term `t` at index `i`, each step rounded down. -/
def expTerms (p r : Nat) : Nat → Nat → Nat → Nat
  | 0, _, _ => 0
  | n + 1, i, t => t + expTerms p r n (i + 1) ((t * r) >>> p / (i + 1))

/-- e^(r / 2^p) in fixed point with `p` fraction bits, for r below 2^p; at most 2^10 below the true value. -/
def expFix (p r : Nat) : Nat := expTerms p r (p / 2) 0 (2 ^ p)

/-- Σ over odd j of z^j / j in fixed point, from the power `t` of z at j = 2i + 1. -/
def atanhTerms (p z2 : Nat) : Nat → Nat → Nat → Nat
  | 0, _, _ => 0
  | n + 1, i, t => t / (2 * i + 1) + atanhTerms p z2 n (i + 1) ((t * z2) >>> p)

/-- ln((1 + z) / (1 − z)) in fixed point, for z at most 1/3; at most 2^10 below the true value. -/
def lnRatio (p z : Nat) : Nat := 2 * atanhTerms p ((z * z) >>> p) (p / 2) 0 z

/-- ln 2 in fixed point. -/
def ln2Fix (p : Nat) : Nat := lnRatio p (2 ^ p / 3)

/-- Σ over i of (−1)^i z^(2i+1) / (2i+1) in fixed point: arctan. -/
def atanTerms (p z2 : Nat) : Nat → Nat → Nat → Int
  | 0, _, _ => 0
  | n + 1, i, t => ((t / (2 * i + 1) : Nat) : Int) - atanTerms p z2 n (i + 1) ((t * z2) >>> p)

/-- π in fixed point, by 16 arctan(1/5) − 4 arctan(1/239). -/
def piFix (p : Nat) : Nat :=
  let at' (k : Nat) : Int := atanTerms p (2 ^ p / (k * k)) (p / 2) 0 (2 ^ p / k)
  (16 * at' 5 - 4 * at' 239).toNat

/-- The one FP32 answer of an enclosure lo × 2^e to hi × 2^e, where both ends round to it. -/
def agree (neg : Bool) (lo hi : Nat) (e : Int) : Option (Word × Bool) :=
  let a := toFp32 (.fin neg lo e)
  if a = toFp32 (.fin neg hi e) then some a else none

/-- The width in units of the last place that every enclosure leaves for its truncations. -/
def slack : Nat := 2 ^ 16

/-- The fraction bits of a finite value's fractional part, in fixed point, and its floor. -/
def splitFloor (p : Nat) (neg : Bool) (m : Nat) (e : Int) : Int × Nat :=
  if 0 ≤ e then (Val.intAt (.fin neg m e) 0, 0)
  else
    let d := 2 ^ e.natAbs
    let z : Int := if neg then -(m : Int) else m
    (z / (d : Nat), ((z % (d : Nat)).toNat <<< p) / d)

/-- 2^x for a finite x that is not an integer, at precision `p`. -/
def exp2At (p : Nat) (neg : Bool) (m : Nat) (e : Int) : Option (Word × Bool) :=
  let (n, f) := splitFloor p neg m e
  let a := expFix p ((f * ln2Fix p) >>> p)
  agree false (a - slack) (a + slack) (n - p)

/-- log2(m × 2^e) where m is not a power of two, at precision `p`. -/
def log2At (p m : Nat) (e : Int) : Option (Word × Bool) :=
  let l := m.log2
  let z := ((m - 2 ^ l) <<< p) / (m + 2 ^ l)
  let s := lnRatio p z
  let d := ln2Fix p
  let lo : Int := ((l : Int) + e) * (2 ^ p : Nat) + ((s <<< p) / (d + slack) : Nat)
  let hi : Int := ((l : Int) + e) * (2 ^ p : Nat) + (((s + slack) <<< p) / d + 1 : Nat)
  if 0 ≤ lo then agree false lo.toNat hi.toNat (-(p : Int))
  else if hi ≤ 0 then agree true hi.natAbs lo.natAbs (-(p : Int))
  else none

/-- e^(−y) = w × 2^(−p−k) for y = m × 2^e not negative: w between 2^p and 2^(p+1), and k. -/
def expNeg (p m : Nat) (e : Int) : Nat × Nat :=
  let y := if 0 ≤ e then m <<< (e.toNat + p) else (m <<< p) >>> e.natAbs
  let l := ln2Fix p
  let k := y / l + 1
  (expFix p (k * l - y), k)

/-- tanh of a magnitude m × 2^e from 2^−13 up to 16, at precision `p`. -/
def tanhAt (p : Nat) (neg : Bool) (m : Nat) (e : Int) : Option (Word × Bool) :=
  let (w, k) := expNeg p m (e + 1)
  let u := w >>> k
  let one := 2 ^ p
  agree neg (((one - u - slack) <<< p) / (one + u + slack)) (((one - u + slack) <<< p) / (one + u - slack) + 1) (-(p : Int))

/-- The logistic function at ±(m × 2^e), at precision `p`. -/
def sigmAt (p : Nat) (neg : Bool) (m : Nat) (e : Int) : Option (Word × Bool) :=
  let (w, k) := expNeg p m e
  let u := w >>> k
  let one := 2 ^ p
  if neg then agree false (((w - slack) <<< p) / (one + u + slack)) (((w + slack) <<< p) / (one + u - slack) + 1) (-(p : Int) - k)
  else agree false ((one <<< p) / (one + u + slack)) ((one <<< p) / (one + u - slack) + 1) (-(p : Int))

/-- Σ over i of (−1)^i x^(2i) / (i! (2i+1)) in fixed point, from the term t = x^(2i) / i!. -/
def erfTerms (p x2 : Nat) : Nat → Nat → Nat → Int
  | 0, _, _ => 0
  | n + 1, i, t => ((t / (2 * i + 1) : Nat) : Int) - erfTerms p x2 n (i + 1) ((t * x2) >>> p / (i + 1))

/-- erf of a magnitude m × 2^e below 4, at precision `p`: 2/√π × x × Σ. -/
def erfAt (p : Nat) (neg : Bool) (m : Nat) (e : Int) : Option (Word × Bool) :=
  let x2 := if 0 ≤ e then (m * m) <<< (2 * e.toNat + p) else ((m * m) <<< p) >>> (2 * e.natAbs)
  let s := (erfTerms p x2 p 0 (2 ^ p)).toNat
  let c := isqrt ((4 <<< (3 * p)) / piFix p)
  let err := 2 ^ 48
  agree neg ((c - err) * (s - err) * m) ((c + err) * (s + err) * m) (e - 2 * p)

/-- The precisions that are tried, in order. -/
def precisions : List Nat := [128, 224, 384]

/-- The first precision at which the enclosure decides; a free value where none does (R125 fixes the answer, so no
such input is known). -/
def decideAt (name : Nat) (x : Word) (f : Nat → Option (Word × Bool)) : Word × Bool :=
  match precisions.findSome? f with
  | some r => r
  | none => (Config.nativeUndecided name x, false)

/-- exp2 (R125). -/
def fexp2 (x : Word) : Word × Bool :=
  match fp32 x with
  | .nan => (f32Nan, false)
  | .inf n => (if n then 0 else f32Inf, false)
  | .fin n m e =>
    if m = 0 then (f32One, false)
    else if (Val.fin n m e).magGe 8 then (if n then (0, false) else toFp32 (.fin false 1 256))
    else if 0 ≤ e || m % 2 ^ e.natAbs = 0 then
      toFp32 (.fin false 1 (splitFloor 0 n m e).1)
    else decideAt 0 x fun p => exp2At p n m e

/-- log2 (R125): −∞ at ±0, NaN for a negative value. -/
def flog2 (x : Word) : Word × Bool :=
  match fp32 x with
  | .nan => (f32Nan, false)
  | .inf n => (if n then f32Nan else f32Inf, false)
  | .fin n m e =>
    if m = 0 then (f32NegInf, false)
    else if n then (f32Nan, false)
    else if m = 2 ^ m.log2 then toFp32 (Val.ofInt ((m.log2 : Int) + e) 0)
    else decideAt 1 x fun p => log2At p m e

/-- tanh (R125): ±1 at ±∞. Below 2^−13 the exact value rounds to x, and from 16 on to ±1. -/
def ftanh (x : Word) : Word × Bool :=
  match fp32 x with
  | .nan => (f32Nan, false)
  | .inf n => (if n then fneg f32One else f32One, false)
  | .fin n m e =>
    let v := Val.fin n m e
    if m = 0 || !v.magGe (-13) then (x, false)
    else if v.magGe 4 then (if n then fneg f32One else f32One, false)
    else decideAt 2 x fun p => tanhAt p n m e

/-- erf (R125): ±1 at ±∞. From 4 on the exact value rounds to ±1. -/
def ferf (x : Word) : Word × Bool :=
  match fp32 x with
  | .nan => (f32Nan, false)
  | .inf n => (if n then fneg f32One else f32One, false)
  | .fin n m e =>
    if m = 0 then (x, false)
    else if (Val.fin n m e).magGe 2 then (if n then fneg f32One else f32One, false)
    else decideAt 3 x fun p => erfAt p n m e

/-- sigm, the logistic function (R125): 1 at +∞ and +0 at −∞. -/
def fsigm (x : Word) : Word × Bool :=
  match fp32 x with
  | .nan => (f32Nan, false)
  | .inf n => (if n then 0 else f32One, false)
  | .fin n m e =>
    if m = 0 then toFp32 (.fin false 1 (-1))
    else if (Val.fin n m e).magGe 8 then (if n then 0 else f32One, false)
    else decideAt 4 x fun p => sigmAt p n m e

end Sys2Proof.Machine
end

