-- ==== Sys2Proof/Machine/Library.lean ====
section
/-!
DEFINITION. Machine/Library.lean: the library functions (05, R120, R131 to R138, R500): softmax, activations, the
activation stash and conversion. Each formula is evaluated as the manual writes it, with one FP32 operation per operator.
-/

namespace Sys2Proof.Machine

/-! ## FP32 values that remember saturation (R124) -/

/-- An FP32 word, and whether an operation that led to it saturated. -/
abbrev FV := Word × Bool

/-- A constant. -/
def fvc (w : Word) : FV := (w, false)
/-- A one-operand operation. -/
def fv1 (f : Word → Word × Bool) (a : FV) : FV := ((f a.1).1, a.2 || (f a.1).2)
/-- A two-operand operation. -/
def fv2 (f : Word → Word → Word × Bool) (a b : FV) : FV := ((f a.1 b.1).1, a.2 || b.2 || (f a.1 b.1).2)
@[inherit_doc fv2]
def vadd (a b : FV) : FV := fv2 fadd a b
@[inherit_doc fv2]
def vsub (a b : FV) : FV := fv2 fsub a b
@[inherit_doc fv2]
def vmul (a b : FV) : FV := fv2 fmul a b
@[inherit_doc fv2]
def vdiv (a b : FV) : FV := fv2 fdiv a b
@[inherit_doc fv2]
def vfma (a b c : FV) : FV := ((fma a.1 b.1 c.1).1, a.2 || b.2 || c.2 || (fma a.1 b.1 c.1).2)
@[inherit_doc fv1]
def vexp2 (a : FV) : FV := fv1 fexp2 a
@[inherit_doc fv1]
def vlog2 (a : FV) : FV := fv1 flog2 a
@[inherit_doc fv1]
def vsigm (a : FV) : FV := fv1 fsigm a
@[inherit_doc fv1]
def vtanh (a : FV) : FV := fv1 ftanh a
@[inherit_doc fv1]
def verf (a : FV) : FV := fv1 ferf a
@[inherit_doc fv1]
def vneg (a : FV) : FV := (fneg a.1, a.2)
/-- A value decoded into FP32 (R66). -/
def fvOf (v : Val) : FV := toFp32 v
/-- Whether it is a NaN. -/
def FV.nan (a : FV) : Bool := (fp32 a.1).isNan
/-- Whether it is above zero. -/
def FV.pos (a : FV) : Bool := (Val.zero false).lt (fp32 a.1)

/-- LOG2E and LN2. -/
def vLog2e : FV := fvc 0x3FB8AA3B
@[inherit_doc vLog2e]
def vLn2 : FV := fvc 0x3F317218
/-- 1 and 0.5. -/
def vOne : FV := fvc 0x3F800000
@[inherit_doc vOne]
def vHalf : FV := fvc 0x3F000000

/-! ## Sums over lanes (R127, R131) -/

/-- Neighbours combined by fadd: one level of the tree (R127). -/
def pairUp : List FV → List FV
  | a :: b :: rest => vadd a b :: pairUp rest
  | l => l

/-- The tree of six levels over 64 lanes (R127). -/
def laneTree (l : List FV) : FV := (pairUp (pairUp (pairUp (pairUp (pairUp (pairUp l)))))).headD (fvc 0)

/-- One strip of values added to the lane sums; a position without a value adds nothing. -/
def addLanes : List FV → List (Option FV) → List FV
  | [], _ => []
  | l, [] => l
  | a :: l, none :: xs => a :: addLanes l xs
  | a :: l, some x :: xs => vadd a x :: addLanes l xs

/-- The strips of a row added in order. -/
def addStrips : Nat → List FV → List (Option FV) → List FV
  | 0, acc, _ => acc
  | n + 1, acc, l => if l.isEmpty then acc else addStrips n (addLanes acc (l.take 64)) (l.drop 64)

/-- The sum of a row in the order of R131. -/
def rowSum (l : List (Option FV)) : FV := laneTree (addStrips (l.length / 64 + 1) (List.replicate 64 (fvc 0)) l)

/-! ## The argument record (Table 5.7, Table 5.9) -/

/-- The shape of a library op: entry, record, rows and row length. -/
structure LibArgs where
  entry : Nat
  words : List Word
  rows : Nat
  len : Nat
  deriving DecidableEq, Repr

/-- Whether the op is a softmax (Table 5.7). -/
def LibArgs.softmax (a : LibArgs) : Bool := a.entry == 0x0001 || a.entry == 0x0002
/-- Whether it reads a stash record (R136). -/
def LibArgs.readsStash (a : LibArgs) : Bool := a.entry == 0x0002 || a.entry == 0x0011
/-- Bits [hi:lo] of record word `i`. -/
def LibArgs.f (a : LibArgs) (i hi lo : Nat) : Nat := fld (wordAt a.words i) hi lo
/-- Bit `b` of record word 0. -/
def LibArgs.flag (a : LibArgs) (b : Nat) : Bool := bit (wordAt a.words 0) b
/-- FUNC (Table 5.9). -/
def LibArgs.func (a : LibArgs) : Nat := a.f 0 23 20
/-- The address in record words `i` and `i + 1`. -/
def LibArgs.addr (a : LibArgs) (i : Nat) : Nat := addr48 (wordAt a.words i) (wordAt a.words (i + 1))
/-- Whether an activation is gated (Table 5.10). -/
def LibArgs.gated (a : LibArgs) : Bool := 8 ≤ a.func
/-- STASH_BASE. -/
def LibArgs.stashBase (a : LibArgs) : Nat := if a.softmax then a.addr 20 else a.addr 10
/-- LAYER. -/
def LibArgs.layer (a : LibArgs) : Nat := if a.softmax then a.f 23 15 0 else a.f 13 15 0
/-- The KIND that an activation stashes (Table 5.10). -/
def actKind (func : Nat) : Nat := if func ≤ 4 then 0 else if func ≤ 7 then 1 else 2
/-- The KIND of the record that the function reads (R136). -/
def LibArgs.readKind (a : LibArgs) : Nat := if a.entry = 0x0002 then 0 else actKind a.func

/-- The row lengths of IN and of OUT (R134, Table 5.6). -/
def LibArgs.inLen (a : LibArgs) : Nat :=
  if (a.entry = 0x0010 ∧ a.gated) ∨ (a.entry = 0x0020 ∧ a.func = 2) then 2 * a.len else a.len
@[inherit_doc LibArgs.inLen] def LibArgs.outLen (a : LibArgs) : Nat :=
  if a.entry = 0x0011 ∧ a.gated then 2 * a.len else a.len

/-- IN and OUT. -/
def LibArgs.inT (a : LibArgs) : Tensor :=
  tensorAt a.words (if a.softmax then 3 else 2) ((fmtOfCode (a.f 0 31 28)).getD .bf16) a.rows a.inLen
@[inherit_doc LibArgs.inT] def LibArgs.outT (a : LibArgs) : Tensor :=
  tensorAt a.words (if a.softmax then 7 else 6) ((fmtOfCode (a.f 0 27 24)).getD .bf16) a.rows a.outLen

/-- The stash record that the function writes. -/
def LibArgs.stashOut (a : LibArgs) : Option StashOut := stashOutOf a.entry a.words a.len

/-- The reserved fields are zero (R120). -/
def LibArgs.reservedOk (a : LibArgs) : Bool :=
  if a.softmax then
    a.f 0 16 0 == 0 && [12, 15, 17, 19, 21, 23].all (fun i => a.f i 31 16 == 0) && a.f 22 26 8 == 0 &&
    (a.words.drop 24).all (· == 0)
  else
    a.f 0 18 0 == 0 && [11, 13].all (fun i => a.f i 31 16 == 0) && a.f 12 26 8 == 0 && (a.words.drop 14).all (· == 0)

/-- The fields of the stash that is written are in range (Table 5.7, Table 5.9). -/
def LibArgs.stashFieldsOk (a : LibArgs) : Bool :=
  let w := if a.softmax then 22 else 12
  a.stashOut.isNone ||
  (3 ≤ a.f w 31 28 && a.f w 31 28 ≤ 7 && (!bit (wordAt a.words w) 27 || a.f w 7 0 != 0xFF))

/-- FUNC, SCALE and ALPHA are in range where the function uses them (R120). -/
def LibArgs.fieldsOk (a : LibArgs) : Bool :=
  let v := fp32 (wordAt a.words 1)
  let positive := (Val.zero false).lt v
  a.f 0 31 28 ≤ 8 && (a.entry == 0x0020 || a.f 0 27 24 ≤ 8) &&
  (match a.entry with
   | 0x0001 => positive && !v.isInf && (!a.flag 23 || (wordAt a.words 13).toNat % 32 == 0)
   | 0x0010 | 0x0011 => a.func ≤ 0xA && (a.func != 1 || (positive && v.lt Val.one))
   | 0x0020 => a.func ≤ 2
   | _ => true)

/-- The areas beside the tensors, each a multiple of 32 bytes: what the function reads or writes there (R120). -/
def LibArgs.areas (a : LibArgs) : List Span :=
  let sm := a.entry == 0x0001
  (if sm && a.flag 23 then
     [{ base := a.addr 11, len := (a.rows - 1) * (wordAt a.words 13).toNat + ceilDiv a.len 8 }] else []) ++
  (if sm && a.flag 19 then [{ base := a.addr 14, len := 4 * a.rows, write := true }] else []) ++
  (if sm && a.flag 21 then [{ base := a.addr 16, len := 8 * a.rows }] else []) ++
  (if sm && a.flag 20 then [{ base := a.addr 18, len := 8 * a.rows, write := true }] else []) ++
  (if a.readsStash then [{ base := a.stashBase, len := 32 }] else [])

/-- The planes and header of the stash record that is written. -/
def LibArgs.stashSpans (a : LibArgs) : List Span :=
  match a.stashOut with
  | none => []
  | some x => { base := x.base, len := 32, write := true } :: (x.tensor a.rows).accessSpans true

/-- Whether a record is in order (R120). -/
def State.recordOk (s : State) (lea : Nat) (a : LibArgs) : Bool :=
  let tensors := if a.entry = 0x0020 then [(a.inT, false)] else [(a.inT, false), (a.outT, true)]
  a.reservedOk && a.fieldsOk && a.stashFieldsOk && tensors.all (fun t => t.1.aligned) &&
  a.areas.all (fun x => x.base % 32 == 0) && (a.stashOut.isNone || a.stashBase % 32 == 0) &&
  s.spansGranted lea (tensors.flatMap (fun t => t.1.accessSpans t.2) ++ a.areas ++ a.stashSpans)

/-! ## Reading a stash record (R136, R137) -/

/-- The tensor that a stash header places (Table 5.11). -/
def headerTensor (base : Nat) (h : List Word) : Tensor :=
  let f := (fmtOfCode (fld (wordAt h 0) 31 28)).getD .e4m3
  { fmt := f, base := base + (wordAt h 5).toNat, scaleBase := base + (wordAt h 6).toNat
    pitch := stashPitch f (wordAt h 4).toNat, rows := (wordAt h 3).toNat, extent := (wordAt h 4).toNat }

/-- The header that the function expects (R136). -/
def LibArgs.headerOk (a : LibArgs) (o : Op) (h : List Word) : Bool :=
  let doff := (wordAt h 5).toNat
  fld (wordAt h 0) 23 16 == 1 && fld (wordAt h 0) 15 0 == a.layer && wordAt h 1 == o.step &&
  fld (wordAt h 2) 31 16 == o.segment && fld (wordAt h 2) 15 0 == o.microbatch && (wordAt h 3).toNat == a.rows &&
  fld (wordAt h 0) 27 24 == a.readKind &&
  (wordAt h 4).toNat == (if a.readKind = 2 then 2 * a.len else a.len) &&
  3 ≤ fld (wordAt h 0) 31 28 && fld (wordAt h 0) 31 28 ≤ 7 && doff % 32 == 0 && 32 ≤ doff && (wordAt h 6).toNat % 32 == 0

/-! ## Softmax (R131 to R133) -/

/-- What a row gives: the values for OUT and for the stash, the LSE, the row state, and its flags. -/
structure RowVals where
  out : List Val := []
  stash : List Val := []
  lse : Option Word := none
  state : Option (Word × Word) := none
  sat : Bool := false
  nanOut : Bool := false
  flags : Nat := 0 -- bit 0 NAN_ROW, 1 INF_ROW, 2 MASKED_ROW
  deriving DecidableEq, Repr

/-- e[j] = exp2(fmul(fsub(t, m), log2e)). -/
def smExp (t m : FV) : FV := vexp2 (vmul (vsub t m) vLog2e)

/-- The positions of a row that take part, as t; the others are masked (R132). -/
def smT (a : LibArgs) (row : Nat) (mask : List Bool) (xs : List FV) : List (Option FV) :=
  let scale := fvc (wordAt a.words 1)
  let off := toSigned 32 (wordAt a.words 2).toNat
  xs.zipIdx.map fun x =>
    let causal := a.flag 22 && decide ((row : Int) + off < (x.2 : Int))
    if mask.getD x.2 false || causal then none
    else
      let t := vmul x.1 scale
      if fp32 t.1 = .inf true then none else some t

/-- Whether t is +∞. -/
def isPosInf (t : Option FV) : Bool := t.any fun x => fp32 x.1 == .inf false

/-- The row's own record (R132, R133). -/
def smLocal (xs : List FV) (t : List (Option FV)) : FV × FV :=
  let live := t.filterMap id
  let k := (t.filter isPosInf).length
  if xs.any FV.nan then (fvc f32Nan, fvc f32Nan)
  else if k ≠ 0 then (fvc f32Inf, (toFp32 (.fin false k 0)))
  else match live with
    | [] => (fvc f32NegInf, fvc 0)
    | x :: rest =>
      let m := rest.foldl (fun m y => (fmax m.1 y.1, m.2 || y.2)) x
      (m, rowSum (t.map fun e => e.map fun e => smExp e m))

/-- One record's term in a combined sum (R133). -/
def smTerm (r : FV × FV) (m : FV) : FV := if fp32 r.1.1 = .inf true then fvc 0 else vmul r.2 (smExp r.1 m)

/-- Two records combined (R133): the one read first. -/
def smCombine (a b : FV × FV) : FV × FV :=
  let inf (r : FV × FV) := fp32 r.1.1 == .inf false
  if a.1.nan || a.2.nan || b.1.nan || b.2.nan then (fvc f32Nan, fvc f32Nan)
  else if inf a && inf b then (a.1, vadd a.2 b.2)
  else if inf a then a
  else if inf b then b
  else
    let m : FV := (fmax a.1.1 b.1.1, a.1.2 || b.1.2)
    (m, vadd (smTerm a m) (smTerm b m))

/-- 1/k for a count held in FP32, exactly enough to be rounded once into any format (Table 5.8). -/
def recipVal (k : Word) : Val :=
  match fp32 k with
  | .fin false m e => if m = 0 then fp32 (fdiv f32One k).1 else
      let r := divMag 1 0 m e
      .fin false (2 * r.1 + b2n r.2.2) (r.2.1 - 1)
  | _ => fp32 (fdiv f32One k).1

/-- A softmax row from its inputs, its mask bits and the record that STATE_IN reads (R131 to R133, Table 5.8). -/
def softmaxRow (a : LibArgs) (row : Nat) (mask : List Bool) (prev : Option (Word × Word)) (xs : List FV) : RowVals :=
  let t := smT a row mask xs
  let own := smLocal xs t
  let r := match prev with
    | none => own
    | some p => smCombine (fvc p.1, fvc p.2) own
  let base : RowVals := { state := some (r.1.1, r.2.1), sat := xs.any (·.2) || t.any (fun e => e.any (·.2)) || r.1.2 || r.2.2 }
  let fill (l : List Val) (x : RowVals) : RowVals := { x with out := l, stash := l }
  if r.1.nan || r.2.nan then fill (xs.map fun _ => Val.nan) { base with lse := some f32Nan, nanOut := true, flags := 1 }
  else if fp32 r.1.1 = .inf false then
    fill (t.map fun e => if isPosInf e then recipVal r.2.1 else Val.zero false) { base with lse := some f32Inf, flags := 2 }
  else if fp32 r.1.1 = .inf true then
    fill (t.map fun _ => Val.zero false) { base with lse := some f32NegInf, flags := 4 }
  else
    let y := t.map fun e => e.map fun e => if a.flag 18 then vdiv (smExp e r.1) r.2 else smExp e r.1
    let lse := vadd r.1 (vmul (vlog2 r.2) vLn2)
    fill (y.map fun e => (e.map fun e => fp32 e.1).getD (Val.zero false))
      { base with lse := some lse.1, sat := base.sat || y.any (fun e => e.any (·.2)) || (a.flag 19 && lse.2) }

/-- A row of SOFTMAX_BWD from dy and y. -/
def softmaxBack (dy y : List FV) : RowVals :=
  if dy.any FV.nan || y.any FV.nan then { out := dy.map fun _ => Val.nan, sat := (dy ++ y).any (·.2) }
  else
    let c := rowSum ((dy.zip y).map fun p => some (vmul p.1 p.2))
    let dx := (dy.zip y).map fun p => vmul p.2 (vsub p.1 c)
    { out := dx.map fun e => fp32 e.1, sat := dx.any (·.2) || c.2 }

/-! ## Activations (R134, R500, Table 5.10) -/

/-- gelu and its derivative. -/
def geluCdf (x : FV) : FV := vmul vHalf (vadd vOne (verf (vmul x (fvc 0x3F3504F3))))
@[inherit_doc geluCdf]
def gelu (x : FV) : FV := vmul (vmul x vHalf) (vadd vOne (verf (vmul x (fvc 0x3F3504F3))))
@[inherit_doc geluCdf]
def geluPdf (x : FV) : FV :=
  vmul (fvc 0x3ECC422A) (vexp2 (vmul (vmul (vmul x x) (vneg vHalf)) vLog2e))
@[inherit_doc geluCdf]
def gelu' (x : FV) : FV := vadd (geluCdf x) (vmul x (geluPdf x))

/-- The tanh form of gelu: u, u′ and the derivative. -/
def geluU (x : FV) : FV := vmul (fvc 0x3F4C422A) (vfma (vmul (fvc 0x3D372713) x) (vmul x x) x)
@[inherit_doc geluU]
def geluU' (x : FV) : FV := vmul (fvc 0x3F4C422A) (vfma (vmul (fvc 0x3E094B23) x) x vOne)
@[inherit_doc geluU]
def geluTanh (x : FV) : FV := vmul (vmul vHalf x) (vadd vOne (vtanh (geluU x)))
@[inherit_doc geluU]
def geluTanh' (x : FV) : FV :=
  let h := vtanh (geluU x)
  vadd (vmul vHalf (vadd vOne h)) (vmul (vmul (vmul vHalf x) (vfma (vneg h) h vOne)) (geluU' x))

/-- silu and its derivative. -/
def silu (x : FV) : FV := vmul x (vsigm x)
@[inherit_doc silu]
def silu' (x : FV) : FV :=
  let g := vsigm x
  vmul g (vfma x (vsub vOne g) vOne)

/-- The derivative of the logistic function. -/
def sigm' (x : FV) : FV :=
  let g := vsigm x
  vmul g (vsub vOne g)

/-- The forward functions of one input (Table 5.10). -/
def actFwd (func : Nat) (alpha x : FV) : FV :=
  match func with
  | 0 => (fmax x.1 0, x.2)
  | 1 => if x.pos then x else vmul alpha x
  | 2 => vsigm x
  | 3 => vtanh x
  | 4 => vexp2 (vmul x vLog2e)
  | 5 => gelu x
  | 6 => geluTanh x
  | _ => silu x

/-- The backward functions of one stored value (Table 5.10). -/
def actBwd (func : Nat) (alpha dy y : FV) : FV :=
  match func with
  | 0 => if y.pos then dy else (0, dy.2 || y.2)
  | 1 => if y.pos then dy else vmul alpha dy
  | 2 => vmul dy (vmul y (vsub vOne y))
  | 3 => vmul dy (vfma (vneg y) y vOne)
  | 4 => vmul dy y
  | 5 => vmul dy (gelu' y)
  | 6 => vmul dy (geluTanh' y)
  | _ => vmul dy (silu' y)

/-- The gate of a gated function, and its derivative. -/
def gate (func : Nat) (b : FV) : FV := if func = 8 then vsigm b else if func = 9 then silu b else gelu b
@[inherit_doc gate]
def gate' (func : Nat) (b : FV) : FV := if func = 8 then sigm' b else if func = 9 then silu' b else gelu' b

/-- A NaN among an element's inputs makes its outputs NaN (R500). -/
def nanOr (l : List FV) (x : FV) : FV := if l.any FV.nan then (f32Nan, l.any (·.2)) else x

/-- A row of ACT_FWD. -/
def actFwdRow (a : LibArgs) (xs : List FV) : RowVals :=
  let alpha := fvc (wordAt a.words 1)
  let y := if a.gated then ((xs.take a.len).zip (xs.drop a.len)).map fun p =>
      nanOr [p.1, p.2] (vmul p.1 (gate a.func p.2))
    else xs.map fun x => nanOr [x] (actFwd a.func alpha x)
  { out := y.map fun e => fp32 e.1
    stash := if actKind a.func = 0 then y.map fun e => fp32 e.1 else xs.map fun e => fp32 e.1
    sat := y.any (·.2) || xs.any (·.2) }

/-- A row of ACT_BWD from dy and the stored values. -/
def actBwdRow (a : LibArgs) (dy st : List FV) : RowVals :=
  let alpha := fvc (wordAt a.words 1)
  let out := if a.gated then
      let z := (dy.zip ((st.take a.len).zip (st.drop a.len)))
      (z.map fun p => nanOr [p.1, p.2.1, p.2.2] (vmul p.1 (gate a.func p.2.2))) ++
      z.map fun p => nanOr [p.1, p.2.1, p.2.2] (vmul (vmul p.1 p.2.1) (gate' a.func p.2.2))
    else (dy.zip st).map fun p => nanOr [p.1, p.2] (actBwd a.func alpha p.1 p.2)
  { out := out.map fun e => fp32 e.1, sat := out.any (·.2) || dy.any (·.2) || st.any (·.2) }

/-- A row that is copied: STASH_WRITE and CONVERT (Table 5.6). -/
def copyRow (xs : List FV) : RowVals :=
  { out := xs.map fun e => fp32 e.1, stash := xs.map fun e => fp32 e.1, sat := xs.any (·.2) }

/-! ## A row -/

/-- What a row of the library reads, its stash record apart. -/
def LibArgs.rowReads (a : LibArgs) (row : Nat) : List Span :=
  let sm := a.entry == 0x0001
  a.inT.segReads (row, 1, 0, a.inLen) ++
  (if sm && a.flag 23 then
     [{ base := a.addr 11 + row * (wordAt a.words 13).toNat, len := ceilDiv a.len 8 }] else []) ++
  (if sm && a.flag 21 then [{ base := a.addr 16 + 8 * row, len := 8 }] else [])

/-- The FP32 values of a row of a tensor. -/
def State.rowValues (s : State) (t : Tensor) (row : Nat) : List FV := (t.row (readByte s.mem.hbm) row).map fvOf

/-- The mask bits of a row (Table 5.7). -/
def State.maskBits (s : State) (a : LibArgs) (row : Nat) : List Bool :=
  if a.flag 23 then (List.range a.len).map fun j =>
    (readByte s.mem.hbm (a.addr 11 + row * (wordAt a.words 13).toNat + j / 8)).getLsbD (j % 8) else []

/-- The row state that STATE_IN reads. -/
def State.stateIn (s : State) (a : LibArgs) (row : Nat) : Option (Word × Word) :=
  if a.flag 21 then some (s.readWord (a.addr 16 + 8 * row), s.readWord (a.addr 16 + 8 * row + 4)) else none

/-- A row of the function that ENTRY names, from memory. -/
def State.libValues (s : State) (a : LibArgs) (row : Nat) : RowVals :=
  let xs := s.rowValues a.inT row
  let st := s.rowValues (headerTensor a.stashBase (s.readWords a.stashBase 8)) row
  match a.entry with
  | 0x0001 => softmaxRow a row (s.maskBits a row) (s.stateIn a row) xs
  | 0x0002 => softmaxBack xs st
  | 0x0010 => actFwdRow a xs
  | 0x0011 => actBwdRow a xs st
  | _ => copyRow xs

/-- What a row writes: OUT, the stash planes, LSE and row state, each with its bytes. -/
structure RowWrites where
  out : EncOut
  stash : EncOut
  extra : List (Nat × List Byte)
  deriving DecidableEq, Repr

/-- Nothing encoded. -/
def EncOut.none : EncOut :=
  { writes := [], overflow := false, nanBlock := false, nanOut := false, underflow := 0, mxElems := 0, vals := [] }

/-- The writes of a row (R135, R138). -/
def LibArgs.writes (a : LibArgs) (row : Nat) (v : RowVals) : RowWrites :=
  { out := if a.entry = 0x0020 then EncOut.none else a.outT.encodeSeg none row 0 v.out
    stash := match a.stashOut with
      | none => EncOut.none
      | some x => (x.tensor a.rows).encodeSeg x.fixed row 0 v.stash
    extra := if a.entry = 0x0001 then
        (if a.flag 19 then [(a.addr 14 + 4 * row, wordsToBytes [v.lse.getD 0])] else []) ++
        (if a.flag 20 then
          match v.state with
          | some x => [(a.addr 18 + 8 * row, wordsToBytes [x.1, x.2])]
          | none => [] else [])
      else [] }

/-- Every write of a row. -/
def RowWrites.all (w : RowWrites) : List (Nat × List Byte) := w.out.writes ++ w.stash.writes ++ w.extra

/-- A row whose checks have all passed is written, and what it adds at its end is kept with the cluster (R138, R190). -/
def State.libWrite (s : State) (o : Op) (k : Cluster) (a : LibArgs) (v : RowVals) : RowOutcome :=
  let w := a.writes k.row v
  match s.spansAccess (w.all.map fun x => { base := x.1, len := x.2.length, write := true }) with
  | .stall => .waits s k
  | .bad sec st => .bad s k sec st false
  | .good =>
    let y := w.all.foldl (fun (y : State × Cluster) x => y.1.rowWrite o y.2 x.1 x.2) (s, k)
    let norm := if o.eltNorm then Norm.captureAll {} w.out.vals else ({}, false)
    .go y.1 { y.2 with
      st := .ended, norm := norm.1, normSat := norm.2
      underflow := w.out.underflow + w.stash.underflow, mxElems := w.out.mxElems + w.stash.mxElems
      saturated := v.sat || w.out.overflow || w.stash.overflow
      nanOut := v.nanOut || w.out.nanOut || w.stash.nanOut, flags := v.flags
      events := Config.libraryEvents o.entry a.func o.rowLen }

/-- The stash record that a function reads, checked before its first write (R136), and then the row. -/
def State.libStash (s : State) (o : Op) (k : Cluster) (a : LibArgs) : RowOutcome :=
  match s.access a.stashBase 32 with
  | .stall => .waits s k
  | .bad sec st => .bad s k sec st true
  | .good =>
    let h := s.readWords a.stashBase 8
    let t := headerTensor a.stashBase h
    if !a.headerOk o h then .stop s k .stateMismatch 0
    else if !s.spansGranted o.lea (t.accessSpans false) then .stop s k .badArgument 0
    else match s.spansAccess (t.segReads (k.row, 1, 0, t.extent)) with
      | .stall => .waits s k
      | .bad sec st => .bad s k sec st true
      | .good => s.libWrite o k a (s.libValues a k.row)

/-- A row of a library op: its argument record is checked before its first write (R120). -/
def State.libRow (s : State) (o : Op) (k : Cluster) : RowOutcome :=
  match s.access o.argBase 128 with
  | .stall => .waits s k
  | .bad sec st => .bad s k sec st false
  | .good =>
    let a : LibArgs := { entry := o.entry, words := s.argRecord o, rows := o.rows, len := o.rowLen }
    if !s.recordOk o.lea a then .stop s k .badArgument 0
    else match s.spansAccess (a.rowReads k.row) with
      | .stall => .waits s k
      | .bad sec st => .bad s k sec st false
      | .good => if a.readsStash then s.libStash o k a else s.libWrite o k a (s.libValues a k.row)

/-- The row of a library op on cluster `c` is computed, where the op's ENTRY is the one named. -/
def State.library (s : State) (c entry : Nat) : State :=
  match s.rowOn c with
  | none => s
  | some (_, o) => if o.entry = entry then State.rowOut c o (s.libRow o (s.cluster c)) else s

/-- SOFTMAX_FWD (R131 to R133). -/
def execSoftmaxFwd (c : Nat) (s : State) : Host.Outcome State Fault Refusal := finish (s.library c 0x0001)

/-- SOFTMAX_BWD (R133). -/
def execSoftmaxBwd (c : Nat) (s : State) : Host.Outcome State Fault Refusal := finish (s.library c 0x0002)

/-- ACT_FWD (R134). -/
def execActFwd (c : Nat) (s : State) : Host.Outcome State Fault Refusal := finish (s.library c 0x0010)

/-- ACT_BWD (R134). -/
def execActBwd (c : Nat) (s : State) : Host.Outcome State Fault Refusal := finish (s.library c 0x0011)

/-- STASH_WRITE (R135). -/
def execStashWrite (c : Nat) (s : State) : Host.Outcome State Fault Refusal := finish (s.library c 0x0020)

/-- CONVERT (R72 to R79). -/
def execConvert (c : Nat) (s : State) : Host.Outcome State Fault Refusal := finish (s.library c 0x0021)

end Sys2Proof.Machine
end

