-- ==== Sys2Proof/Machine/ScalarIsa.lean ====
section
/-!
DEFINITION. Machine/ScalarIsa.lean: the instructions of a vector cluster (05, R114 to R130, Table 5.4; R220 to R222), and
the user programs made of them (R119, R122). An instruction command executes that instruction on a cluster that runs a row
of a user program; ELEMENTWISE_OP fetches and executes the row's program.
-/

namespace Sys2Proof.Machine

/-! ## Registers (R123, Table 5.3) -/

/-- Lane register `r` of lane `l`. -/
def Cluster.lane (k : Cluster) (r l : Nat) : Word :=
  match k.d.find (64 * r + l) with
  | some w => w
  | none => if k.rowStart then Config.rowLane r l else 0

/-- Predicate `p` of lane `l`; p0 always reads 1. -/
def Cluster.predicate (k : Cluster) (p l : Nat) : Bool :=
  if p = 0 then true
  else match k.p.find (64 * p + l) with
    | some b => b
    | none => k.rowStart && Config.rowPred p l

/-- Address register `i`. -/
def Cluster.addrReg (k : Cluster) (i : Nat) : Nat :=
  match k.a.find i with
  | some a => a
  | none => if k.rowStart then (Config.rowAddr i).toNat else 0

/-- The uniform register with index `i` (Table 5.3). -/
def Cluster.uniform (k : Cluster) (i : Nat) : Nat :=
  if i < 16 then (k.u.getD i 0).toNat
  else if i < 24 then k.addrReg (i - 16)
  else if i = 24 then k.len
  else if i = 25 then k.row
  else (Config.noUniform i).toNat

/-- A uniform register written; ROW and LANE are read-only. -/
def Cluster.setUniform (k : Cluster) (i v : Nat) : Cluster :=
  if i < 16 then { k with u := k.u.insert i (BitVec.ofNat 32 v) }
  else if i < 24 then { k with a := k.a.insert (i - 16) (v % 2 ^ 48) }
  else if i = 24 then { k with len := if v ≤ 64 then v else min 64 (Config.overLength v), paired := false, oddTail := false }
  else k

/-- The second source of a uniform instruction: the immediate, or the uniform register named. -/
def Cluster.uniform2 (k : Cluster) (f : IFields) : Nat :=
  match f.imm with
  | some w => w.toNat
  | none => k.uniform f.s2.toNat

/-- The second source of a lane instruction. -/
def Cluster.lane2 (k : Cluster) (f : IFields) (l : Nat) : Word :=
  match f.imm with
  | some w => w
  | none => k.lane f.s2.toNat l

/-- The format code of a load, store, conversion or addmx: bits [7:4]. -/
def iFmtCode (f : IFields) : Nat := f.s3.toNat % 16

/-- Whether lane `l` takes part: it is active (R128) and its predicate is 1. -/
def Cluster.takes (k : Cluster) (f : IFields) (l : Nat) : Bool := l < k.len && k.predicate f.pred.toNat l

/-- The lanes that take part, in order. -/
def Cluster.lanes (k : Cluster) (f : IFields) : List Nat := (List.range 64).filter (k.takes f)

/-- Each lane that takes part writes the destination register with what it computes, and its flag (R124). -/
def Cluster.setLanes (k : Cluster) (f : IFields) (g : Nat → Word × Bool) : Cluster :=
  (k.lanes f).foldl (fun x l => { x with d := x.d.insert (64 * f.dst.toNat + l) (g l).1, saturated := x.saturated || (g l).2 }) k

/-- Each lane that takes part writes the destination predicate; p0 is not written. -/
def Cluster.setPreds (k : Cluster) (f : IFields) (g : Nat → Bool) : Cluster :=
  if f.dst.toNat = 0 ∨ 3 < f.dst.toNat then k
  else (k.lanes f).foldl (fun x l => { x with p := x.p.insert (64 * f.dst.toNat + l) (g l) }) k

/-! ## How an instruction runs -/

/-- What an instruction does: the cluster's pc is already past it. -/
abbrev CInstr := State → Op → Cluster → RowOutcome

/-- The bytes of an instruction: a second word holds the immediate. -/
def iBytes (f : IFields) : Nat := if f.imm.isSome then 8 else 4

/-- An instruction of `cost` events is executed (Table 5.4): the pc passes it, it counts, and a row that has executed
INSTR_LIMIT instructions and goes on stops with CAUSE 0x02 (R122). -/
def retire (cost : Nat) (f : IFields) (body : CInstr) : CInstr := fun s o k =>
  match body s o { k with pc := (k.pc + iBytes f) % 2 ^ 48 } with
  | .go s k =>
    let k := { k with instrs := k.instrs + 1, events := k.events + cost }
    if k.st = .running ∧ o.instrLimit ≤ k.instrs then .stop s k .unitFault 2 else .go s k
  | .waits t _ => .waits t k
  | .bad t _ sec st b => .bad t k sec st b
  | .stop t x st cause => .stop t { x with pc := k.pc } st cause

/-- An instruction that changes the cluster only. -/
def pureInstr (g : Cluster → Cluster) : CInstr := fun s _ k => .go s (g k)

/-- An undefined instruction (R122). -/
def undefinedInstr : CInstr := fun s _ k => .stop s k .unitFault 3

/-- An instruction is executed on cluster `c`, while that runs a row of a user program. -/
def State.instr (s : State) (c : Nat) (i : CInstr) : State :=
  match s.rowOn c with
  | none => s
  | some (_, o) => if o.entry = 0 then State.rowOut c o (i s o (s.cluster c)) else s

/-! ## Control and uniform instructions -/

/-- nop. -/
def iNop (f : IFields) : CInstr := retire 1 f (pureInstr id)
def execNop (cl : Nat) (f : IFields) (s : State) : Host.Outcome State Fault Refusal := finish (s.instr cl (iNop f))

/-- halt ends the row. -/
def iHalt (f : IFields) : CInstr := retire 1 f (pureInstr fun k => { k with st := .ended })
def execHalt (cl : Nat) (f : IFields) (s : State) : Host.Outcome State Fault Refusal := finish (s.instr cl (iHalt f))

/-- setvl u: LEN = min(u, 64) (Table 5.4). -/
def iSetvl (f : IFields) : CInstr := retire 1 f (pureInstr fun k =>
  { k with len := min (k.uniform f.s1.toNat) 64, paired := false, oddTail := false })
def execSetvl (cl : Nat) (f : IFields) (s : State) : Host.Outcome State Fault Refusal := finish (s.instr cl (iSetvl f))

/-- setvl.p u: LEN = min(⌈u / 2⌉, 64); for odd u the upper half of the last active lane is inactive (Table 5.4). -/
def iSetvlP (f : IFields) : CInstr := retire 1 f (pureInstr fun k =>
  let u := k.uniform f.s1.toNat
  { k with len := min (ceilDiv u 2) 64, paired := true, oddTail := u % 2 = 1 ∧ ceilDiv u 2 ≤ 64 })
def execSetvlP (cl : Nat) (f : IFields) (s : State) : Host.Outcome State Fault Refusal := finish (s.instr cl (iSetvlP f))

/-- The address that a branch goes to: its offset is a signed number of words. -/
def Cluster.branch (k : Cluster) (f : IFields) : Nat :=
  let from' := if Config.branchFromNext then (k.pc : Int) else (k.pc : Int) - (iBytes f : Nat)
  ((from' + 4 * toSigned 32 (k.uniform2 f % 2 ^ 32)) % (2 ^ 48 : Nat)).toNat

/-- bnz u, off. -/
def iBnz (f : IFields) : CInstr := retire 1 f (pureInstr fun k =>
  if k.uniform f.s1.toNat = 0 then k else { k with pc := k.branch f })
def execBnz (cl : Nat) (f : IFields) (s : State) : Host.Outcome State Fault Refusal := finish (s.instr cl (iBnz f))

/-- jmp off. -/
def iJmp (f : IFields) : CInstr := retire 1 f (pureInstr fun k => { k with pc := k.branch f })
def execJmp (cl : Nat) (f : IFields) (s : State) : Host.Outcome State Fault Refusal := finish (s.instr cl (iJmp f))

/-- The elements that LEN covers: twice as many when paired, one fewer for an odd tail (Table 5.4). -/
def Cluster.covered (k : Cluster) : Nat := if k.paired then 2 * k.len - b2n k.oddTail else k.len

/-- sublen u: u = u − LEN. -/
def iSublen (f : IFields) : CInstr := retire 1 f (pureInstr fun k =>
  k.setUniform f.dst.toNat (k.uniform f.dst.toNat + 2 ^ 48 - k.covered))
def execSublen (cl : Nat) (f : IFields) (s : State) : Host.Outcome State Fault Refusal := finish (s.instr cl (iSublen f))

/-- addlen a, n: a = a + LEN × n. -/
def iAddlen (f : IFields) : CInstr := retire 1 f (pureInstr fun k =>
  k.setUniform f.dst.toNat (k.uniform f.dst.toNat + k.len * k.uniform2 f))
def execAddlen (cl : Nat) (f : IFields) (s : State) : Host.Outcome State Fault Refusal := finish (s.instr cl (iAddlen f))

/-- mov: a uniform register moves to another. -/
def iMov (f : IFields) : CInstr := retire 1 f (pureInstr fun k => k.setUniform f.dst.toNat (k.uniform2 f))
def execMov (cl : Nat) (f : IFields) (s : State) : Host.Outcome State Fault Refusal := finish (s.instr cl (iMov f))

/-- movi: the immediate moves to a uniform register. -/
def iMovi (f : IFields) : CInstr := retire 1 f (pureInstr fun k => k.setUniform f.dst.toNat (f.imm.getD 0).toNat)
def execMovi (cl : Nat) (f : IFields) (s : State) : Host.Outcome State Fault Refusal := finish (s.instr cl (iMovi f))

/-- uadd. -/
def iUadd (f : IFields) : CInstr := retire 1 f (pureInstr fun k =>
  k.setUniform f.dst.toNat (k.uniform f.s1.toNat + k.uniform2 f))
def execUadd (cl : Nat) (f : IFields) (s : State) : Host.Outcome State Fault Refusal := finish (s.instr cl (iUadd f))

/-- usub. -/
def iUsub (f : IFields) : CInstr := retire 1 f (pureInstr fun k =>
  k.setUniform f.dst.toNat (k.uniform f.s1.toNat + 2 ^ 48 - k.uniform2 f))
def execUsub (cl : Nat) (f : IFields) (s : State) : Host.Outcome State Fault Refusal := finish (s.instr cl (iUsub f))

/-- The MX address pair that an index names: a0, a2, a4 or a6 (R130). -/
def mxPair (i : Nat) : Option Nat := if i = 16 ∨ i = 18 ∨ i = 20 ∨ i = 22 then some (i - 16) else none

/-- A block format of the instruction's code. -/
def iBlockFmt (f : IFields) : Option Fmt := (fmtOfCode (iFmtCode f)).filter fmtBlock
/-- A format of the instruction's code that is not block-scaled. -/
def iPlainFmt (f : IFields) : Option Fmt := (fmtOfCode (iFmtCode f)).filter fun x => !fmtBlock x

/-- addmx a(2k), fmt (R130). -/
def iAddmx (f : IFields) : CInstr :=
  match mxPair f.dst.toNat, iBlockFmt f with
  | some i, some x => retire 1 f (pureInstr fun k =>
      let n := ceilDiv k.len 32
      let data := (k.addrReg i + n * fmtUnitBytes x) % 2 ^ 48
      let scale := (k.addrReg (i + 1) + n) % 2 ^ 48
      { k with a := (k.a.insert i data).insert (i + 1) scale })
  | _, _ => undefinedInstr
def execAddmx (cl : Nat) (f : IFields) (s : State) : Host.Outcome State Fault Refusal := finish (s.instr cl (iAddmx f))

/-! ## FP32 per lane (R124) -/

/-- An instruction of each lane that takes part. -/
def laneInstr (cost : Nat) (f : IFields) (g : Cluster → Nat → Word × Bool) : CInstr :=
  retire cost f (pureInstr fun k => k.setLanes f (g k))

/-- A lane instruction of two sources. -/
def lane2Instr (cost : Nat) (f : IFields) (g : Word → Word → Word × Bool) : CInstr :=
  laneInstr cost f fun k l => g (k.lane f.s1.toNat l) (k.lane2 f l)

/-- A lane instruction of one source. -/
def lane1Instr (cost : Nat) (f : IFields) (g : Word → Word × Bool) : CInstr :=
  laneInstr cost f fun k l => g (k.lane f.s1.toNat l)

def iFadd (f : IFields) : CInstr := lane2Instr 1 f Machine.fadd
@[inherit_doc lane2Instr]
def execFadd (cl : Nat) (f : IFields) (s : State) : Host.Outcome State Fault Refusal :=
  finish (s.instr cl (iFadd f))
def iFsub (f : IFields) : CInstr := lane2Instr 1 f Machine.fsub
@[inherit_doc lane2Instr]
def execFsub (cl : Nat) (f : IFields) (s : State) : Host.Outcome State Fault Refusal :=
  finish (s.instr cl (iFsub f))
def iFmul (f : IFields) : CInstr := lane2Instr 1 f Machine.fmul
@[inherit_doc lane2Instr]
def execFmul (cl : Nat) (f : IFields) (s : State) : Host.Outcome State Fault Refusal :=
  finish (s.instr cl (iFmul f))
/-- fma: s1 × s2 + s3, rounded once (R124). -/
def iFma (f : IFields) : CInstr := laneInstr 1 f fun k l =>
  Machine.fma (k.lane f.s1.toNat l) (k.lane2 f l) (k.lane f.s3.toNat l)
@[inherit_doc iFma]
def execFma (cl : Nat) (f : IFields) (s : State) : Host.Outcome State Fault Refusal :=
  finish (s.instr cl (iFma f))
def iFmin (f : IFields) : CInstr := lane2Instr 1 f fun a b => (Machine.fmin a b, false)
@[inherit_doc lane2Instr]
def execFmin (cl : Nat) (f : IFields) (s : State) : Host.Outcome State Fault Refusal :=
  finish (s.instr cl (iFmin f))
def iFmax (f : IFields) : CInstr := lane2Instr 1 f fun a b => (Machine.fmax a b, false)
@[inherit_doc lane2Instr]
def execFmax (cl : Nat) (f : IFields) (s : State) : Host.Outcome State Fault Refusal :=
  finish (s.instr cl (iFmax f))
def iFabs (f : IFields) : CInstr := lane1Instr 1 f fun a => (Machine.fabs a, false)
@[inherit_doc lane1Instr]
def execFabs (cl : Nat) (f : IFields) (s : State) : Host.Outcome State Fault Refusal :=
  finish (s.instr cl (iFabs f))
def iFneg (f : IFields) : CInstr := lane1Instr 1 f fun a => (Machine.fneg a, false)
@[inherit_doc lane1Instr]
def execFneg (cl : Nat) (f : IFields) (s : State) : Host.Outcome State Fault Refusal :=
  finish (s.instr cl (iFneg f))

/-- fcmp: a comparison into p1 to p3. -/
def iFcmp (f : IFields) : CInstr := retire 1 f (pureInstr fun k => k.setPreds f fun l =>
  let a := fp32 (k.lane f.s1.toNat l)
  let b := fp32 (k.lane2 f l)
  Config.fcmpHolds f.s3 (a.lt b) (a.numEq b) (b.lt a))
def execFcmp (cl : Nat) (f : IFields) (s : State) : Host.Outcome State Fault Refusal := finish (s.instr cl (iFcmp f))

/-- fsel: d = p ? s1 : s2, on every active lane. -/
def iFsel (f : IFields) : CInstr := retire 1 f (pureInstr fun k =>
  k.setLanes { f with pred := 0 } fun l =>
    (if k.predicate f.pred.toNat l then k.lane f.s1.toNat l else k.lane2 f l, false))
def execFsel (cl : Nat) (f : IFields) (s : State) : Host.Outcome State Fault Refusal := finish (s.instr cl (iFsel f))

/-! ## Paired BF16 (R126) -/

/-- Lane `l`'s result of a paired operation: the inactive upper half of an odd tail keeps what it held and raises no flag
(R128). -/
def Cluster.pairLane (k : Cluster) (f : IFields) (l : Nat) (lo hi : Val) : Word × Bool :=
  let r := pairOp lo hi
  if k.oddTail && l + 1 == k.len then
    (pairWord (fld (k.lane f.dst.toNat l) 31 16) (fld r.1 15 0), r.2.1)
  else (r.1, r.2.1 || r.2.2)

/-- A paired instruction, half by half. -/
def pairInstr (f : IFields) (g : Val → Val → Val → Val) : CInstr :=
  laneInstr 1 f fun k l =>
    let a := k.lane f.s1.toNat l
    let b := k.lane2 f l
    let c := k.lane f.s3.toNat l
    k.pairLane f l (g (bf16Lo a) (bf16Lo b) (bf16Lo c)) (g (bf16Hi a) (bf16Hi b) (bf16Hi c))

def iPadd (f : IFields) : CInstr := pairInstr f fun a b _ => a.add b
@[inherit_doc pairInstr]
def execPadd (cl : Nat) (f : IFields) (s : State) : Host.Outcome State Fault Refusal :=
  finish (s.instr cl (iPadd f))
def iPmul (f : IFields) : CInstr := pairInstr f fun a b _ => a.mul b
@[inherit_doc pairInstr]
def execPmul (cl : Nat) (f : IFields) (s : State) : Host.Outcome State Fault Refusal :=
  finish (s.instr cl (iPmul f))
def iPfma (f : IFields) : CInstr := pairInstr f fun a b c => (a.mul b).add c
@[inherit_doc pairInstr]
def execPfma (cl : Nat) (f : IFields) (s : State) : Host.Outcome State Fault Refusal :=
  finish (s.instr cl (iPfma f))

/-! ## Native functions (R125) -/

def iExp2 (f : IFields) : CInstr := lane1Instr 4 f fexp2
@[inherit_doc lane1Instr]
def execExp2 (cl : Nat) (f : IFields) (s : State) : Host.Outcome State Fault Refusal :=
  finish (s.instr cl (iExp2 f))
def iLog2 (f : IFields) : CInstr := lane1Instr 4 f flog2
@[inherit_doc lane1Instr]
def execLog2 (cl : Nat) (f : IFields) (s : State) : Host.Outcome State Fault Refusal :=
  finish (s.instr cl (iLog2 f))
def iRcp (f : IFields) : CInstr := lane1Instr 4 f Machine.rcp
@[inherit_doc lane1Instr]
def execRcp (cl : Nat) (f : IFields) (s : State) : Host.Outcome State Fault Refusal :=
  finish (s.instr cl (iRcp f))
def iRsqrt (f : IFields) : CInstr := lane1Instr 4 f frsqrt
@[inherit_doc lane1Instr]
def execRsqrt (cl : Nat) (f : IFields) (s : State) : Host.Outcome State Fault Refusal :=
  finish (s.instr cl (iRsqrt f))
def iTanh (f : IFields) : CInstr := lane1Instr 4 f ftanh
@[inherit_doc lane1Instr]
def execTanh (cl : Nat) (f : IFields) (s : State) : Host.Outcome State Fault Refusal :=
  finish (s.instr cl (iTanh f))
def iErf (f : IFields) : CInstr := lane1Instr 4 f ferf
@[inherit_doc lane1Instr]
def execErf (cl : Nat) (f : IFields) (s : State) : Host.Outcome State Fault Refusal :=
  finish (s.instr cl (iErf f))
def iSigm (f : IFields) : CInstr := lane1Instr 4 f fsigm
@[inherit_doc lane1Instr]
def execSigm (cl : Nat) (f : IFields) (s : State) : Host.Outcome State Fault Refusal :=
  finish (s.instr cl (iSigm f))
def iFdiv (f : IFields) : CInstr := lane2Instr 8 f Machine.fdiv
@[inherit_doc lane2Instr]
def execFdiv (cl : Nat) (f : IFields) (s : State) : Host.Outcome State Fault Refusal :=
  finish (s.instr cl (iFdiv f))

/-! ## Integers per lane -/

/-- A lane instruction on integers. -/
def intInstr (f : IFields) (g : Word → Word → Word) : CInstr := lane2Instr 1 f fun a b => (g a b, false)

def iIadd (f : IFields) : CInstr := intInstr f fun a b => a + b
@[inherit_doc intInstr]
def execIadd (cl : Nat) (f : IFields) (s : State) : Host.Outcome State Fault Refusal :=
  finish (s.instr cl (iIadd f))
def iIsub (f : IFields) : CInstr := intInstr f fun a b => a - b
@[inherit_doc intInstr]
def execIsub (cl : Nat) (f : IFields) (s : State) : Host.Outcome State Fault Refusal :=
  finish (s.instr cl (iIsub f))
def iImul (f : IFields) : CInstr := intInstr f fun a b => a * b
@[inherit_doc intInstr]
def execImul (cl : Nat) (f : IFields) (s : State) : Host.Outcome State Fault Refusal :=
  finish (s.instr cl (iImul f))
def iAnd (f : IFields) : CInstr := intInstr f fun a b => a &&& b
@[inherit_doc intInstr]
def execAnd (cl : Nat) (f : IFields) (s : State) : Host.Outcome State Fault Refusal :=
  finish (s.instr cl (iAnd f))
def iOr (f : IFields) : CInstr := intInstr f fun a b => a ||| b
@[inherit_doc intInstr]
def execOr (cl : Nat) (f : IFields) (s : State) : Host.Outcome State Fault Refusal :=
  finish (s.instr cl (iOr f))
def iXor (f : IFields) : CInstr := intInstr f fun a b => a ^^^ b
@[inherit_doc intInstr]
def execXor (cl : Nat) (f : IFields) (s : State) : Host.Outcome State Fault Refusal :=
  finish (s.instr cl (iXor f))
/-- shl; by 32 or more its result is not stated. -/
def iShl (f : IFields) : CInstr := intInstr f fun a b => if b.toNat < 32 then a <<< b else Config.shiftOver true a b
def execShl (cl : Nat) (f : IFields) (s : State) : Host.Outcome State Fault Refusal := finish (s.instr cl (iShl f))
/-- shr; by 32 or more its result is not stated. -/
def iShr (f : IFields) : CInstr := intInstr f fun a b =>
  if 32 ≤ b.toNat then Config.shiftOver false a b else if Config.shrSigned then a.sshiftRight b.toNat else a >>> b
def execShr (cl : Nat) (f : IFields) (s : State) : Host.Outcome State Fault Refusal := finish (s.instr cl (iShr f))
/-- icmp: a comparison into p1 to p3. -/
def iIcmp (f : IFields) : CInstr := retire 1 f (pureInstr fun k => k.setPreds f fun l =>
  let a := k.lane f.s1.toNat l
  let b := k.lane2 f l
  Config.icmpHolds f.s3 (a.slt b) (a.ult b) (a == b))
def execIcmp (cl : Nat) (f : IFields) (s : State) : Host.Outcome State Fault Refusal := finish (s.instr cl (iIcmp f))

/-! ## Across lanes (R127) -/

/-- redsum: the fixed tree over the lanes; one that does not take part contributes +0. -/
def iRedsum (f : IFields) : CInstr := retire 6 f (pureInstr fun k =>
  let x := laneTree ((List.range 64).map fun l => if k.takes f l then fvc (k.lane f.s1.toNat l) else fvc 0)
  k.setLanes f fun _ => x)
def execRedsum (cl : Nat) (f : IFields) (s : State) : Host.Outcome State Fault Refusal := finish (s.instr cl (iRedsum f))

/-- The values of the lanes that take part, combined. -/
def Cluster.foldLanes (k : Cluster) (f : IFields) (g : Word → Word → Word) : Word :=
  match (k.lanes f).map (k.lane f.s1.toNat) with
  | [] => 0
  | x :: rest => rest.foldl g x

def iRedmax (f : IFields) : CInstr := retire 6 f (pureInstr fun k =>
  k.setLanes f fun _ => (k.foldLanes f Machine.fmax, false))
/-- redmax is exact (R127). -/
def execRedmax (cl : Nat) (f : IFields) (s : State) : Host.Outcome State Fault Refusal := finish (s.instr cl (iRedmax f))
def iRedmin (f : IFields) : CInstr := retire 6 f (pureInstr fun k =>
  k.setLanes f fun _ => (k.foldLanes f Machine.fmin, false))
/-- redmin is exact (R127). -/
def execRedmin (cl : Nat) (f : IFields) (s : State) : Host.Outcome State Fault Refusal := finish (s.instr cl (iRedmin f))

/-- The value of lane `i` of register `r`. -/
def Cluster.laneAt (k : Cluster) (r i : Nat) : Word := if i < 64 then k.lane r i else Config.noLane i

/-- bcast: the value of lane s2 to every lane. -/
def iBcast (f : IFields) : CInstr := laneInstr 1 f fun k _ => (k.laneAt f.s1.toNat (k.uniform2 f), false)
def execBcast (cl : Nat) (f : IFields) (s : State) : Host.Outcome State Fault Refusal := finish (s.instr cl (iBcast f))

/-- perm: each lane takes the lane that its index register names. -/
def iPerm (f : IFields) : CInstr := laneInstr 2 f fun k l => (k.laneAt f.s1.toNat (k.lane2 f l).toNat, false)
def execPerm (cl : Nat) (f : IFields) (s : State) : Host.Outcome State Fault Refusal := finish (s.instr cl (iPerm f))

/-! ## Loads and stores -/

/-- What a row's accesses meet: CAUSE 0x01 outside the grant (R122), and otherwise what memory holds there. -/
def State.rowAccess (s : State) (o : Op) (k : Cluster) (spans : List Span) (go : RowOutcome) : RowOutcome :=
  if !s.spansGranted o.lea spans then .stop s k .unitFault 1
  else match s.spansAccess spans with
    | .stall => .waits s k
    | .bad sec st => .bad s k sec st false
    | .good => go

/-- Writes of a row, neighbours joined. -/
def State.rowStores (s : State) (o : Op) (k : Cluster) (l : List (Nat × List Byte)) : RowOutcome :=
  let l := joinRuns l
  s.rowAccess o k (l.map fun x => { base := x.1, len := x.2.length, write := true })
    (let y := l.foldl (fun (y : State × Cluster) x => y.1.rowWrite o y.2 x.1 x.2) (s, k)
     .go y.1 y.2)

/-- Values written by an op with NORM_EN reach the row's norm contributions (R138). -/
def Cluster.captured (k : Cluster) (o : Op) (vals : List Val) : Cluster :=
  if o.eltNorm then
    let n := k.norm.captureAll vals
    { k with norm := n.1, normSat := k.normSat || n.2 }
  else k

/-- The base address that the first source names. -/
def Cluster.base (k : Cluster) (f : IFields) : Nat := k.uniform f.s1.toNat % 2 ^ 48

/-- ld.f: one element per lane, widened to FP32 (R66). -/
def iLdF (f : IFields) : CInstr :=
  match iPlainFmt f with
  | none => undefinedInstr
  | some x => retire 1 f fun s o k =>
    let n := fmtUnitBytes x
    s.rowAccess o k ((k.lanes f).map fun l => { base := k.base f + l * n, len := n })
      (.go s (k.setLanes f fun l => toFp32 (decodeElem x (rdNat (readByte s.mem.hbm) (k.base f + l * n) n))))
def execLdF (cl : Nat) (f : IFields) (s : State) : Host.Outcome State Fault Refusal := finish (s.instr cl (iLdF f))

/-- st.f: each lane encodes FP32 into a non-block format and stores it (R67, R69 to R71). -/
def iStF (f : IFields) : CInstr :=
  match iPlainFmt f with
  | none => undefinedInstr
  | some x => retire 1 f fun s o k =>
    let n := fmtUnitBytes x
    let enc := (k.lanes f).map fun l => (l, encodeVal x (fp32 (k.lane2 f l)))
    let k' := { k with saturated := k.saturated || enc.any (fun (e : Nat × Nat × Bool) => e.2.2)
                       nanOut := k.nanOut || (k.lanes f).any fun l => (fp32 (k.lane2 f l)).isNan }
    s.rowStores o (k'.captured o (enc.map fun e => decodeElem x e.2.1))
      (enc.map fun e => (k.base f + e.1 * n, natToLE n e.2.1))
def execStF (cl : Nat) (f : IFields) (s : State) : Host.Outcome State Fault Refusal := finish (s.instr cl (iStF f))

/-- The planes of a strip of MX blocks: data and scales (R130). -/
def Cluster.strip (k : Cluster) (i : Nat) (x : Fmt) (write : Bool) : List Span :=
  let n := ceilDiv k.len 32
  if n = 0 then [] else [{ base := k.addrReg i, len := n * fmtUnitBytes x, write := write },
                         { base := k.addrReg (i + 1), len := n, write := write }]

/-- ldmx: MX blocks decoded to FP32 (R65, R66, R129). -/
def iLdmx (f : IFields) : CInstr :=
  match mxPair f.s1.toNat, iBlockFmt f with
  | some i, some x => retire 1 f fun s o k =>
    let rd := readByte s.mem.hbm
    s.rowAccess o k (k.strip i x false) (.go s (k.setLanes f fun l =>
      toFp32 (decodeMx x (blockCode rd x (k.addrReg i + l / 32 * fmtUnitBytes x) (l % 32))
        (rd (k.addrReg (i + 1) + l / 32)).toNat)))
  | _, _ => undefinedInstr
def execLdmx (cl : Nat) (f : IFields) (s : State) : Host.Outcome State Fault Refusal := finish (s.instr cl (iLdmx f))

/-- The codes of a block under a supplied scale of 0xFF, which no rule gives. -/
def underNan (x : Fmt) (xs : List Val) (fixed : Option Nat) (codes : List Nat) : List Nat :=
  if fixed = some 0xFF then xs.map fun v => Config.nanScaleCode (fmtCode x) (toFp32 v).1 else codes

/-- One block that is stored: scale code, element codes, overflow, NaN block and underflow count. -/
def storedBlock (x : Fmt) (fixed : Option Nat) (xs : List Val) : Nat × List Nat × Bool × Bool × Nat :=
  let b := encodeBlock x fixed xs
  (b.1, underNan x xs fixed b.2.1, b.2.2.1, b.2.2.2.1, b.2.2.2.2)

/-- The values that stmx stores: those of active lanes, +0 where the predicate leaves a lane out. -/
def Cluster.stored (k : Cluster) (f : IFields) : List Val :=
  (List.range k.len).map fun l => if k.takes f l then fp32 (k.lane2 f l) else Val.zero false

/-- A strip of lanes encoded into MX blocks and stored, with its flags, counts and norm contributions (R72 to R78, R129,
R138). -/
def State.storeStrip (s : State) (o : Op) (k : Cluster) (f : IFields) (i : Nat) (x : Fmt) (fixed : Option Nat) : RowOutcome :=
  let blks : List (Nat × List Nat × Bool × Bool × Nat) := (chunks32 3 (k.stored f)).map (storedBlock x fixed)
  let at' := blks.zipIdx
  let data := at'.map fun b => (k.addrReg i + b.2 * fmtUnitBytes x, packBlock x b.1.2.1)
  let scales := at'.map fun b => (k.addrReg (i + 1) + b.2, [BitVec.ofNat 8 b.1.1])
  let nan := blks.any fun b => b.2.2.2.1
  let sat := blks.any fun b => b.2.2.1
  let under := (blks.map fun b => b.2.2.2.2).sum
  let k' := { k with saturated := k.saturated || sat, nanOut := k.nanOut || nan
                     underflow := k.underflow + under, mxElems := k.mxElems + k.len }
  s.rowStores o (k'.captured o (blks.flatMap fun b => b.2.1.map fun c => decodeMx x c b.1)) (data ++ scales)

/-- stmx: 64 lanes into two MX blocks, choosing each scale (R72 to R78). -/
def iStmx (f : IFields) : CInstr :=
  match mxPair f.s1.toNat, iBlockFmt f with
  | some i, some x => retire 2 f fun s o k => s.storeStrip o k f i x none
  | _, _ => undefinedInstr
def execStmx (cl : Nat) (f : IFields) (s : State) : Host.Outcome State Fault Refusal := finish (s.instr cl (iStmx f))

/-- stmx.s: as stmx, under the scale that the uniform register in the destination field holds (R77). -/
def iStmxS (f : IFields) : CInstr :=
  match mxPair f.s1.toNat, iBlockFmt f with
  | some i, some x => retire 2 f fun s o k => s.storeStrip o k f i x (some (k.uniform f.dst.toNat % 256))
  | _, _ => undefinedInstr
def execStmxS (cl : Nat) (f : IFields) (s : State) : Host.Outcome State Fault Refusal := finish (s.instr cl (iStmxS f))

/-- ldm: mask bits, one per lane, into a predicate. -/
def iLdm (f : IFields) : CInstr := retire 1 f fun s o k =>
  let n := ceilDiv k.len 8
  s.rowAccess o k (if n = 0 then [] else [{ base := k.base f, len := n }])
    (.go s (k.setPreds f fun l => (readByte s.mem.hbm (k.base f + l / 8)).getLsbD (l % 8)))
def execLdm (cl : Nat) (f : IFields) (s : State) : Host.Outcome State Fault Refusal := finish (s.instr cl (iLdm f))

/-- The word at an offset of the cluster store (R118). -/
def Cluster.storeWord (k : Cluster) (a : Nat) : Word :=
  if a + 4 ≤ 131072 then BitVec.ofNat 32 (leToNat (readCells k.store a 4)) else Config.outsideStore a

/-- lds: each lane loads the word at its offset in the cluster store. -/
def iLds (f : IFields) : CInstr := laneInstr 1 f fun k l => (k.storeWord (k.lane f.s1.toNat l).toNat, false)
def execLds (cl : Nat) (f : IFields) (s : State) : Host.Outcome State Fault Refusal := finish (s.instr cl (iLds f))

/-- sts: each lane stores a word at its offset in the cluster store, in lane order. -/
def iSts (f : IFields) : CInstr := retire 1 f (pureInstr fun k =>
  (k.lanes f).foldl (fun (x : Cluster) l =>
    let a := (k.lane f.s1.toNat l).toNat
    if a + 4 ≤ 131072 then { x with store := writeCells x.store a (natToLE 4 (k.lane2 f l).toNat) } else x) k)
def execSts (cl : Nat) (f : IFields) (s : State) : Host.Outcome State Fault Refusal := finish (s.instr cl (iSts f))

/-! ## Atomics (R220 to R222, Table 8.5) -/

/-- Bytes of an atomic operation's target. -/
def amoBytes (op : Nat) : Nat := if op = 1 then 8 else 4

/-- The new value of a 32-bit atomic (Table 8.5), and whether it saturated. -/
def amoNew (op : Nat) (old x cmp : Word) : Word × Bool :=
  match op with
  | 0x0 => (old + x, false)
  | 0x2 => (if old.slt x then old else x, false)
  | 0x3 => (if x.slt old then old else x, false)
  | 0x4 => (if old.ult x then old else x, false)
  | 0x5 => (if x.ult old then old else x, false)
  | 0x6 => (old &&& x, false)
  | 0x7 => (old ||| x, false)
  | 0x8 => (old ^^^ x, false)
  | 0x9 => (x, false)
  | 0xA => (if old = cmp then x else old, false)
  | 0xB => Machine.fadd old x
  | 0xC => (Machine.fmax old x, false)
  | _ => (Machine.fmin old x, false)

/-- One lane's atomic on the cache (R220). -/
def State.amoLane (s : State) (o : Op) (k0 k : Cluster) (f : IFields) (w : Word) (l : Nat) : State × Cluster :=
  let op := fld w 3 0
  let a := k0.base f + (k0.lane f.s2.toNat l).toNat
  let d := f.dst.toNat
  if op = 1 then
    let old := leToNat (s.read a 8)
    let x := (k0.lane f.s3.toNat l).toNat + 2 ^ 32 * (k0.lane ((f.s3.toNat + 1) % 32) l).toNat
    let y := s.rowWrite o k a (natToLE 8 ((old + x) % 2 ^ 64))
    let low := y.2.d.insert (64 * d + l) (BitVec.ofNat 32 old)
    (y.1, { y.2 with d := low.insert (64 * ((d + 1) % 32) + l) (BitVec.ofNat 32 (old / 2 ^ 32)) })
  else
    let old := s.readWord a
    let r := amoNew op old (k0.lane f.s3.toNat l) (k0.lane (fld w 8 4) l)
    let y := s.rowWrite o k a (natToLE 4 r.1.toNat)
    (y.1, { y.2 with d := y.2.d.insert (64 * d + l) old, saturated := y.2.saturated || r.2 })

/-- amo (R221): an op without AMO, a reserved OP, a misaligned target and a form without its second word stop the row with
CAUSE 0x03, and a target outside the grant with CAUSE 0x01. -/
def iAmo (f : IFields) : CInstr :=
  match f.imm with
  | none => undefinedInstr
  | some w => retire 1 f fun s o k =>
    let op := fld w 3 0
    let n := amoBytes op
    let addr (l : Nat) := k.base f + (k.lane f.s2.toNat l).toNat
    if !o.amo || 0xE ≤ op || f.s1.toNat < 16 || 23 < f.s1.toNat || (k.lanes f).any (fun l => addr l % n != 0) then
      .stop s k .unitFault 3
    else
      let spans := (k.lanes f).map fun l => { base := addr l, len := n : Span }
      if !s.spansGranted o.lea (spans.map fun x => { x with write := true }) then .stop s k .unitFault 1
      else match s.spansAccess spans with
        | .stall => .waits s k
        | .bad sec st => .bad s k sec st false
        | .good =>
          let y := (k.lanes f).foldl (fun (y : State × Cluster) l => y.1.amoLane o k y.2 f w l) (s, k)
          .go y.1 y.2
def execAmo (cl : Nat) (f : IFields) (s : State) : Host.Outcome State Fault Refusal := finish (s.instr cl (iAmo f))

/-! ## cvt (R79) -/

/-- The values that a register holds as a kind: 0 FP32, 1 BF16, 2 FP16, 3 a pair of BF16. -/
def cvtRead (kind : Nat) (w : Word) : Val × Val :=
  match kind with
  | 0 => (fp32 w, fp32 w)
  | 1 => (bf16Lo w, bf16Lo w)
  | 2 => (decodeElem .fp16 (fld w 15 0), decodeElem .fp16 (fld w 15 0))
  | _ => (bf16Lo w, bf16Hi w)

/-- A value written as a kind; a pair takes its upper half from a second value. -/
def cvtWrite (kind : Nat) (lo hi : Val) : Word × Bool :=
  match kind with
  | 0 => toFp32 lo
  | 1 =>
    let r := encodeVal .bf16 lo
    (pairWord (Config.cvtUpper (BitVec.ofNat 32 r.1)).toNat r.1, r.2)
  | 2 =>
    let r := encodeVal .fp16 lo
    (pairWord (Config.cvtUpper (BitVec.ofNat 32 r.1)).toNat r.1, r.2)
  | _ =>
    let r := pairOp lo hi
    (r.1, r.2.1 || r.2.2)

/-- cvt: between FP32, BF16, FP16 and a pair of BF16, each value rounded once (R79). A pair is made of both halves of a
pair, and of the two sources otherwise. -/
def iCvt (f : IFields) : CInstr := laneInstr 1 f fun k l =>
  let code := BitVec.ofNat 4 (iFmtCode f)
  let src := (Config.cvtFrom code).toNat
  let a := cvtRead src (k.lane f.s1.toNat l)
  let b := cvtRead src (k.lane2 f l)
  cvtWrite (Config.cvtTo code).toNat a.1 (if src = 3 then a.2 else b.1)
def execCvt (cl : Nat) (f : IFields) (s : State) : Host.Outcome State Fault Refusal := finish (s.instr cl (iCvt f))

/-! ## User programs (R119, R122) -/

/-- The fields of an instruction word. -/
def iFieldsOf (w : Word) (imm : Option Word) : IFields :=
  { dst := BitVec.ofNat 5 (fld w 23 19), s1 := BitVec.ofNat 5 (fld w 18 14), s2 := BitVec.ofNat 5 (fld w 13 9)
    s3 := BitVec.ofNat 5 (fld w 8 4), pred := BitVec.ofNat 2 (fld w 3 2), imm := imm }

/-- The instruction of an opcode and SEL (Table 5.4); none is undefined. -/
def instrOf (opcode : Nat) (sel imm : Bool) : Option (IFields → CInstr) :=
  match opcode, sel with
  | 0x00, false => some iNop | 0x01, false => some iHalt | 0x02, false => some iSetvl | 0x03, false => some iSetvlP
  | 0x04, false => some iBnz | 0x05, false => some iJmp | 0x06, false => some iSublen | 0x07, false => some iAddlen
  | 0x08, false => some (if imm then iMovi else iMov)
  | 0x09, false => some iUadd | 0x09, true => some iUsub | 0x0A, false => some iAddmx
  | 0x10, false => some iFadd | 0x11, false => some iFsub | 0x12, false => some iFmul | 0x13, false => some iFma
  | 0x14, false => some iFmin | 0x15, false => some iFmax | 0x16, false => some iFabs | 0x16, true => some iFneg
  | 0x17, false => some iFcmp | 0x18, false => some iFsel
  | 0x20, false => some iPadd | 0x21, false => some iPmul | 0x22, false => some iPfma
  | 0x30, false => some iExp2 | 0x31, false => some iLog2 | 0x32, false => some iRcp | 0x33, false => some iRsqrt
  | 0x34, false => some iTanh | 0x35, false => some iErf | 0x36, false => some iSigm | 0x37, false => some iFdiv
  | 0x40, false => some iIadd | 0x41, false => some iIsub | 0x42, false => some iImul | 0x43, false => some iAnd
  | 0x44, false => some iOr | 0x45, false => some iXor | 0x46, false => some iShl | 0x47, false => some iShr
  | 0x48, false => some iIcmp
  | 0x50, false => some iRedsum | 0x51, false => some iRedmax | 0x52, false => some iRedmin | 0x53, false => some iBcast
  | 0x54, false => some iPerm
  | 0x60, false => some iLdF | 0x61, false => some iStF | 0x62, false => some iLdmx | 0x63, false => some iStmx
  | 0x64, false => some iStmxS | 0x65, false => some iLdm | 0x66, false => some iLds | 0x66, true => some iSts
  | 0x67, false => some iAmo | 0x70, false => some iCvt
  | _, _ => none

/-- The instruction at the cluster's pc is fetched and executed; a fetch outside the grant stops the row with CAUSE 0x03
(R120, R122). -/
def State.fetchRun (s : State) (o : Op) (k : Cluster) : RowOutcome :=
  let fetch (a : Nat) (go : Word → RowOutcome) : RowOutcome :=
    if !s.granted o.lea a 4 false then .stop s k .unitFault 3
    else match s.access a 4 with
      | .stall => .waits s k
      | .bad sec st => .bad s k sec st false
      | .good => go (s.readWord a)
  let run (w : Word) (imm : Option Word) : RowOutcome :=
    match instrOf (fld w 31 24) (bit w 0) imm.isSome with
    | none => .stop s k .unitFault 3
    | some i => i (iFieldsOf w imm) s o k
  fetch k.pc fun w => if bit w 1 then fetch (k.pc + 4) fun x => run w (some x) else run w none

/-- A row's program runs for at most `n` instructions, as far as memory lets it. -/
def State.runProgram (s : State) (o : Op) (k : Cluster) : Nat → RowOutcome
  | 0 => .go s k
  | n + 1 => match s.fetchRun o k with
    | .go s k => if k.st = .running then s.runProgram o k n else .go s k
    | x => x

/-- ELEMENTWISE_OP (R119): the row of a user program on a cluster runs to its end. -/
def execElementwiseOp (c : Nat) (s : State) : Host.Outcome State Fault Refusal :=
  match s.rowOn c with
  | none => finish s
  | some (_, o) =>
    if o.entry = 0 then
      finish (State.rowOut c o (s.runProgram o (s.cluster c) (o.instrLimit - (s.cluster c).instrs)))
    else finish s

end Sys2Proof.Machine
end

