-- ==== Sys2Proof/Machine/Recompute.lean ====
section
/-!
DEFINITION. Machine/Recompute.lean: recompute after a detected stash error (07, R182 to R188; R137, R207): the chain, the
replay of logged ops, and what ends a recompute.
-/

namespace Sys2Proof.Machine

/-- What the replay of ops comes to. -/
inductive Replayed
  | waits                                          -- a sector waits for a refill or its HBM PHY domain
  | bad (s : State) (sec : Nat) (st : Status)      -- an access fails
  | fails (s : State)                              -- an op cannot be replayed, or a row stops
  | done (s : State)
  deriving DecidableEq, Repr

/-! ## Replayed ops (R184, R185) -/

/-- A replayed matrix op, with the events charged to its lea's share (R185). -/
def State.replayArray (s : State) (o : Op) : Replayed :=
  match s.replayMatrix o with
  | .waits => .waits
  | .failed s _ sec st => .bad s sec st
  | .done s r => .done (s.modLea o.lea fun x =>
      { x with vArray := x.vArray + ((r.events + 1726 : Nat) : Rat) / weightOf x.wArray
               arrayEvents := x.arrayEvents + BitVec.ofNat 64 (r.events + 1726) })

/-- A cluster as it starts a replayed row. -/
def replayCluster (o : Op) (row : Nat) : Cluster :=
  { row := row, u := (List.range 16).map fun i => (i, o.w (8 + i)), len := min 64 Config.rowLength, rowStart := true
    pc := o.prog }

/-- A replayed row: it adds no norm contributions and no counts (R184). -/
def State.replayRow (s : State) (o : Op) (row : Nat) : RowOutcome :=
  let k := replayCluster o row
  if o.entry = 0 then s.runProgram o k o.instrLimit else s.libRow o k

/-- The rows of a replayed element-wise op, `n` of them from `row` on. -/
def State.replayRows (s : State) (o : Op) : Nat → Nat → Replayed
  | 0, _ => .done (s.putStashHeader o {} o.rows).1
  | n + 1, row => match s.replayRow o row with
    | .waits _ _ => .waits
    | .bad s _ sec st _ => .bad s sec st
    | .stop s _ _ _ => .fails s
    | .go s k => if k.st = .ended then (s.chargeRow o k).replayRows o n (row + 1) else .fails s

/-- A replayed LOCAL copy. -/
def State.replayCopy (s : State) (o : Op) : Replayed :=
  match s.spansAccess o.cSpans with
  | .stall => .waits
  | .bad sec st => .bad s sec st
  | .good => .done ((s.write o.cDst.base (s.read o.cSrc.base o.cLen)).noteWrite o.step o.cDst.base o.cLen)

/-- A logged op is replayed, and counted (R185). -/
def State.replayOp (s : State) (o : Op) : Replayed :=
  let s := { s with train := { s.train with replayed := s.train.replayed + 1 } }
  if o.unreplayable then .fails s
  else match o.cls with
    | 1 => s.replayArray o
    | 2 => s.replayRows o o.rows 0
    | 3 => s.replayCopy o
    | _ => .fails s

/-- Logged ops replayed in order. -/
def State.replayOps (s : State) : List Op → Replayed
  | [] => .done s
  | o :: rest => match s.replayOp o with
    | .done s => s.replayOps rest
    | x => x

/-! ## The chain (R181, R183, R187) -/

/-- The chain of entries that ends in entry `i`, first entry first; none where it does not end (R181). -/
def State.chainTo (s : State) (j : Job) : Nat → Nat → List Nat → Option (List Nat)
  | 0, _, _ => none
  | n + 1, i, acc =>
    if !j.dirOk i || acc.contains i then none
    else
      let e := s.dirEntry j i
      if e.prev = 0xFFFF then some (i :: acc) else s.chainTo j n e.prev (i :: acc)

/-- The logged ops of an entry (R181). -/
def State.entryOps (s : State) (j : Job) (e : DirEntry) : List Op :=
  ((List.range (min (e.last - e.first + 1).toNat (2 ^ j.log2Log))).map fun k => s.logSlot j (e.first + BitVec.ofNat 32 k)).filter
    fun o => o.microbatch == e.microbatch && o.segment == e.segment

/-- Whether an entry can be replayed: it is VALID, NOREPLAY is not set, and the log still holds its ops (R187). -/
def Job.entryOk (j : Job) (e : DirEntry) : Bool :=
  e.valid && !e.noReplay && !signedLess (BitVec.ofNat 32 (2 ^ j.log2Log)) (j.logNext - e.first)

/-- What the log and directory of a chain's entries read from. -/
def State.chainSpans (j : Job) (l : List Nat) (es : List DirEntry) : List Span :=
  (l.map fun i => { base := j.dirAddr i, len := 32 : Span }) ++
  es.flatMap fun e => (List.range (min (e.last - e.first + 1).toNat (2 ^ j.log2Log))).map fun k =>
    { base := j.logAddr (e.first + BitVec.ofNat 32 k), len := 128 : Span }

/-- How the replay of a stretch of the chain ends. -/
inductive ChainEnd
  | waits
  | fails (s : State)
  | back (s : State) (at' : Nat) (rewritten : List Nat)   -- a detected error in the region of the entry at this place
  | done (s : State)
  deriving DecidableEq, Repr

/-- The entries of a stretch replayed one after another; `all` is the whole chain, with each entry's region. -/
def State.replayEntries (s : State) (j : Job) (all : List (Nat × DirEntry)) (rewritten : List Nat) :
    List (Nat × DirEntry) → ChainEnd
  | [] => .done s
  | e :: rest =>
    if !j.entryOk e.2 then .fails s
    else match s.replayOps (s.entryOps j e.2) with
      | .waits => .waits
      | .fails s => .fails s
      | .done s => s.replayEntries j all (rewritten ++ [e.1]) rest
      | .bad s sec st =>
        if st ≠ .unitFault then .fails (s.lostRead sec)
        else match all.zipIdx.find? fun x => overlaps x.1.2.base x.1.2.len (sec * 32) 32 with
          | none => .fails s
          | some x => if rewritten.contains x.1.1 then .fails s else .back s x.2 rewritten

/-- The replay of a chain from the entry at place `base` on, moving back where a detected error asks for it (R183); an
error that does not move it back fails. -/
def State.replayChain (s : State) (j : Job) (all : List (Nat × DirEntry)) (rewritten : List Nat) : Nat → Nat → ChainEnd
  | 0, _ => .fails s
  | n + 1, base => match s.replayEntries j all rewritten (all.drop base) with
    | .back s at' rw => if at' < base then s.replayChain j all rw n at' else .fails s
    | x => x

/-! ## The end of a recompute -/

/-- A stopped op completes with ST_UNIT_FAULT (R187, R207); an element-wise op with CAUSE 0x05, its die's flags set. -/
def State.faultOp (s : State) (n : Nat) (stash : Bool) : State :=
  match s.op n with
  | none => s
  | some o => match o.cls with
    | 1 => match s.array.run with
      | some r => if r.op = n then s.endMatrix o r .unitFault else s.endOp n .unitFault
      | none => s.endOp n .unitFault
    | 2 => match s.rowsOf n with
      | [] => { s with scalar := { s.scalar with runs := s.scalar.runs.modify n { op := n } fun r =>
          { r with fail := some (r.fail.getD (.unitFault, 5)) } } }.eltSettle n
      | c :: _ => s.stopRow c .unitFault 5 stash
    | _ => s.endOp n .unitFault

/-- The recompute of op `n` fails (R187). -/
def State.failRecompute (s : State) (n : Nat) : State :=
  let t := s.train
  let s := { s with train := { t with recomputeFailed := true, failCount := t.failCount + 1
                                      recomputes := t.recomputes.filter fun r => r.op != n } }
  s.faultOp n true

/-- The rows of a stopped op stop, and are to run again (R183). -/
def State.stopRows (s : State) (n : Nat) : State :=
  let rows := s.rowsOf n
  let again := rows.map fun c => (s.cluster c).row
  let s := rows.foldl (fun (s : State) c => s.putCluster c { priv := (s.cluster c).priv }) s
  if again = [] then s
  else { s with scalar := { s.scalar with runs := s.scalar.runs.modify n { op := n } fun r => { r with rerun := again ++ r.rerun } } }

/-- The recompute of an op and target is begun, and goes on where it waited (R183 to R188): the replay ends, and the op
resumes; or it waits, and the job's other ops are held (R185); or it fails. -/
def State.runRecompute (s : State) (n : Nat) (o : Op) (j : Job) (target : Nat) : State :=
  let mark (s : State) (resumed : Bool) : State :=
    let rest := s.train.recomputes.filter fun r => r.op != n
    { s with train := { s.train with recomputes := rest ++
      [{ job := o.job, op := n, target := target, resumed := resumed }] } }
  match s.chainTo j (2 ^ j.log2Dir + 1) target [] with
  | none => s.failRecompute n
  | some l =>
    let es := l.map (s.dirEntry j)
    match s.spansAccess (State.chainSpans j l es) with
    | .stall => mark s false
    | .bad sec _ => (s.lostRead sec).failRecompute n
    | .good => match s.replayChain j (l.zip es) [] (l.length + 1) (l.length - 1) with
      | .waits => mark s false
      | .done s => mark (s.stopRows n) true
      | .fails s => s.failRecompute n
      | .back s _ _ => s.failRecompute n

/-- A detected error that an op's read meets (R182, R187, R188, R207). -/
def State.detectedError (s : State) (n sec : Nat) : State :=
  match s.op n with
  | none => s
  | some o =>
    if !o.running || (s.lea o.lea).st == .resetting || s.sectorAccess sec != .bad sec .unitFault then s
    else match s.recomputeTarget o sec with
      | none => s.faultOp n false
      | some (j, t) =>
        if s.train.recomputes.any fun r => r.op == n && r.resumed && r.target == t then s.failRecompute n
        else if s.train.recomputes.any fun r => r.job == o.job && r.op != n && !r.resumed then s
        else s.runRecompute n o j t

/-- DETECTED_READ_ERROR (R207, R137): op `n` meets a detected error at a sector. -/
def execDetectedReadError (n sector : Nat) (s : State) : Host.Outcome State Fault Refusal :=
  finish (s.detectedError n sector)

/-- Whether a resumed op has completed; one that is no longer in flight has, with a status of class 0x00. -/
def State.resumedDone (s : State) (n : Nat) : Option Bool :=
  match s.op n with
  | none => some true
  | some o => match o.phase with
    | .done st _ | .entryHeld st _ => some st.good
    | _ => none

/-- A recompute whose op has completed is counted and reported (R186). -/
def State.reportRecompute (s : State) (r : Recompute) : State :=
  match s.jobs.find r.job with
  | none => s
  | some j =>
    let a := j.stepRegion + 12
    let n := satNat 16 (j.recomputes + 1)
    let s := (s.writeWords a [packFields [(n, 16), (r.target, 0)]]).modJob r.job fun j => { j with recomputes := n }
    let t := s.train
    let s := { s with train := { t with recomputed := true, recomputeCount := t.recomputeCount + 1 } }
    s.queueEvent j.lea (faultEvent .recomputed 0x01 0 (index := r.target) (job := r.job)
      (step := (s.dirEntry j r.target).step))

/-- RECOMPUTE_FINISH (R186): the first resumed op of the job whose work has ended; one that ended otherwise than well
leaves nothing to report. -/
def execRecomputeFinish (job : Nat) (s : State) : Host.Outcome State Fault Refusal :=
  match s.train.recomputes.find? fun r => r.job == job && r.resumed && (s.resumedDone r.op).isSome with
  | none => finish s
  | some r =>
    let t := { s with train := { s.train with recomputes := s.train.recomputes.filter (· != r) } }
    finish (if s.resumedDone r.op = some true then t.reportRecompute r else t)

end Sys2Proof.Machine
end

