-- ==== Sys2Proof/Machine/Start.lean ====
section
/-!
DEFINITION. Machine/Start.lean: the life of an op in the hub (02, R43 to R54, R495 to R497): fetching its slot, the checks
of its header, its start, its completion and its completion entry; and the return of the PCIe link (R48).
-/

namespace Sys2Proof.Machine

/-! ## Completion entries (R47 to R49, R496) -/

/-- Whether a completion ring is full (R496). -/
def State.ringFull (s : State) (l r : Nat) (k : CRing) : Bool :=
  (k.write + 1) % 2 ^ k.log2 == (s.lea l).cdb.getD r 0

/-- The completion ring of an op's queue, with its index. -/
def State.opRing (s : State) (o : Op) : Option (Nat × CRing) :=
  match (s.lea o.lea).queues.find o.queue with
  | none => none
  | some q => ((s.lea o.lea).rings.find q.cring).map fun k => (q.cring, k)

/-- The words of a completion entry (R49). -/
def Op.entryWords (o : Op) (k : CRing) (st : Status) (detail : Nat) : List Word :=
  [wordAt o.hdr 1, packFields [(st.code, 16), (o.queue, 0)], o.step, packFields [(b2n k.phase, 31), (natField detail 15 0, 0)]]

/-- The ring's write index past one more entry; PHASE inverts at each wrap (R49). -/
def CRing.advance (k : CRing) : CRing :=
  let w := (k.write + 1) % 2 ^ k.log2
  { k with write := w, phase := if w = 0 then !k.phase else k.phase }

/-- The address of the ring's next entry. -/
def CRing.entryAddr (k : CRing) : Nat := k.base + 16 * k.write

/-- The ring with an entry written; an entry in HBM that cannot be written is lost (R497, Table 8.7). -/
def State.putEntry (s : State) (o : Op) (r : Nat) (k : CRing) (st : Status) (detail : Nat) : State :=
  let ws := o.entryWords k st detail
  let a := k.entryAddr
  let s := s.modLea o.lea fun x => { x with rings := x.rings.insert r k.advance }
  if !k.hbm then { s with out := { s.out with host := s.out.host ++ [(a, wordsToBytes ws)] } }
  else match s.writeAccess a 16 with
    | .bad sec e => s.queueEvent o.lea (faultEvent e 0x01 0x40 (index := r) (addr := sec * 32))
    | _ => s.writeWords a ws

/-- Whether an entry for the ring waits: the ring is full (R47), its host's link is down (R48), or its sector waits for a
refill or an HBM PHY domain. -/
def State.entryWaits (s : State) (l r : Nat) (k : CRing) : Bool :=
  s.ringFull l r k || (!k.hbm && !s.pcie.up) || (k.hbm && s.writeAccess k.entryAddr 16 == .stall)

/-- Op `n` leaves flight. -/
def State.leaveFlight (s : State) (n : Nat) : State := { s with hub := { s.hub with ops := s.hub.ops.erase n } }

/-- An op whose effects are made leaves flight when its entry is written, or at once where it writes none (R48, R49); its
ring's MSI-X vector is signalled if it asks for that (R404). -/
def State.tryEntry (s : State) (n : Nat) : State :=
  match s.op n with
  | none => s
  | some o => match o.phase with
    | .entryHeld st detail =>
      if bit (wordAt o.hdr 0) 10 && st == .ok then s.leaveFlight n
      else match s.opRing o with
        | none => s.leaveFlight n
        | some (r, k) =>
          if s.entryWaits o.lea r k then s
          else
            let s := (s.putEntry o r k st detail).leaveFlight n
            if bit (wordAt o.hdr 0) 9 then s.interrupt o.lea (1 + r % 63) else s
    | _ => s

/-- COMPLETION_RING_ROOM (R47): a held entry is written, if it can be; a reset of the lea has taken it over. -/
def execCompletionRingRoom (n : Nat) (s : State) : Host.Outcome State Fault Refusal :=
  match s.op n with
  | none => finish s
  | some o => if (s.lea o.lea).st = .resetting then finish s else finish (s.tryEntry n)

/-! ## Completion (R48, R51, R54) -/

/-- The outputs in HBM of an op of a class of which Table 14.6 does not say what a stop leaves of them. -/
def State.openOutputs (s : State) (o : Op) : List Span :=
  match o.cls with
  | 3 => if o.cKind = 0 then [o.cDst] else []
  | 4 => o.wSpans false
  | 5 => match (s.jobs.find o.job).bind (·.tedder) with
    | some t => if o.tFunc = 3 then (o.tOut t).opSpans true else []
    | none => []
  | _ => []

/-- Bytes of HBM that become undefined hold free values; nothing else about them changes. -/
def State.freeBytes (s : State) (x : Span) : State :=
  { s with mem := s.mem.storeBytes x.base ((range' x.base x.len).map (Config.outputByte s.hub.free)) }

/-- The outputs of an op that has started and ends with a status of class 0x02 are undefined (R54). -/
def State.freeOutputs (s : State) (o : Op) (st : Status) : State :=
  if o.stepped && st.code / 256 == 2 then
    let s := (s.openOutputs o).foldl State.freeBytes s
    { s with hub := { s.hub with free := s.hub.free + 1 } }
  else s

/-- The counter that an op signals rises, or is FAILED (R51). -/
def State.signalOp (s : State) (o : Op) (st : Status) : State :=
  let i := fld (wordAt o.hdr 5) 19 8
  if !bit (wordAt o.hdr 0) 12 then s
  else if st.good then s.signal o.lea i (fld (wordAt o.hdr 5) 7 0) else s.failCounter o.lea i

/-- Rejected ops are counted (LEA_QUEUE_EVENT_COUNT.REJECT_COUNT). -/
def Lea.countReject (x : Lea) (st : Status) : Lea :=
  if st.rejected then { x with rejectCount := x.rejectCount + 1 } else x

/-- What units keep of an op that has ended is dropped. -/
def State.forgetOp (s : State) (n : Nat) (st : Status) : State :=
  let keep := s.train.recomputes.filter fun r => r.op != n || st.good
  { s with scalar := { s.scalar with runs := s.scalar.runs.erase n }, wdr := { s.wdr with runs := s.wdr.runs.erase n }
           units := { s.units with tedRuns := s.units.tedRuns.erase n }, train := { s.train with recomputes := keep } }

/-- An op whose work has ended completes: its counter is signalled, its job's holds and fills see it, and its entry is
written or waits (R48 to R51). -/
def State.completeOp (s : State) (n : Nat) : State :=
  match s.op n with
  | none => s
  | some o => match o.phase with
    | .done st detail =>
      let s := ((s.freeOutputs o st).signalOp o st).forgetOp n st
      let s := s.modLea o.lea fun x => x.countReject st
      let s := if o.cls = 7 ∧ st = .ok then s.noteUpdate o else s
      let s := s.modOp n fun x => { x with phase := .entryHeld st detail }
      ((s.noteHold o.job).serveJob o.job).tryEntry n
    | _ => s

/-- OP_COMPLETION (R48, R49, R51); the entries of a lea that is RESETTING are written by its reset (R408). -/
def execOpCompletion (n : Nat) (s : State) : Host.Outcome State Fault Refusal :=
  match s.op n with
  | none => finish s
  | some o => if (s.lea o.lea).st = .resetting then finish s else finish (s.completeOp n)

/-- Op `n` completes with a status without running. -/
def State.refuseOp (s : State) (n : Nat) (st : Status) : State := (s.endOp n st).completeOp n

/-! ## Admission (R43, R46, R53, R391, R495) -/

/-- The op that a slot holds; body words past BODY_LEN are zero. -/
def Op.ofSlot (lea q slot : Nat) (b : List Byte) : Op :=
  let w := bytesToWords 32 b
  let n := 8 * min 3 (fld (wordAt w 0) 23 16)
  { lea := lea, queue := q, slot := slot, hdr := w.take 8, body := (w.drop 8).take n ++ List.replicate (24 - n) 0 }

/-- Check 3 of R53 for the header: BODY_LEN, reserved bits, and the indices of the counters that it uses. -/
def State.headerOk (s : State) (o : Op) : Bool :=
  let w := wordAt o.hdr 0
  let q := (s.lea o.lea).quotas.counters
  fld w 23 16 ≤ 3 && fld w 15 14 == 0 && fld (wordAt o.hdr 2) 31 16 == 0 &&
  (!bit w 11 || fld (wordAt o.hdr 5) 31 20 < q) && (!bit w 12 || fld (wordAt o.hdr 5) 19 8 < q)

/-- SEGMENT × SEG_LIMIT of an op of a job lies below 4,194,304 (R349). -/
def State.segmentOk (s : State) (o : Op) : Bool :=
  match s.jobOf o.lea o.job with
  | none => true
  | some j => o.segment * j.segLimit < 4194304

/-- Check 3 of R53 for the body, by class. -/
def State.bodyOk (s : State) (o : Op) : Bool :=
  match o.cls with
  | 1 => s.matArgOk o
  | 2 => s.eltArgOk o
  | 3 => s.copyArgOk o
  | 4 => s.wdrArgOk o
  | 5 => s.tedArgOk o
  | 6 => s.balArgOk o
  | 7 => s.updArgOk o
  | _ => s.syncArgOk o

/-- Check 4 of R53: JOB is bound to the lea, or 0xFFFF for a copy or sync op (Table 2.9). -/
def State.handleOk (s : State) (o : Op) : Bool :=
  (s.jobOf o.lea o.job).isSome || (o.job == 0xFFFF && (o.cls == 3 || o.cls == 8))

/-- Check 5 of R53: the lea, and the addressed unit (R142, R149, R290, R336, R362). -/
def State.stateOk (s : State) (o : Op) : Bool :=
  (s.lea o.lea).st == .enabled && !s.belowPending o &&
  match o.cls with
  | 2 => s.eltStateOk o
  | 4 => s.wdrStateOk o
  | 5 => s.tedStateOk o
  | 6 => s.balStateOk o
  | _ => true

/-- The first failing check of R53. -/
def State.headerStatus (s : State) (o : Op) : Option Status :=
  if fld (wordAt o.hdr 0) 7 0 ≠ 1 then some .badVersion
  else if o.cls < 1 ∨ 8 < o.cls then some .badOpclass
  else if !(s.headerOk o && s.segmentOk o && s.bodyOk o) then some .badArgument
  else if !s.handleOk o then some .badHandle
  else if !s.stateOk o then some .stateMismatch
  else none

/-- An op enters flight under the next number. -/
def State.enterFlight (s : State) (o : Op) : State :=
  { s with hub := { s.hub with ops := s.hub.ops.insert s.hub.nextOp o, nextOp := s.hub.nextOp + 1 } }

/-- The head of a queue moves past the slot. -/
def Lea.passSlot (x : Lea) (q : Nat) : Lea := x.modQueue q fun k => { k with head := (k.head + 1) % 2 ^ k.log2 }

/-- A slot that has been read is checked: its op is admitted (R53, R145, R300), or completes at once. -/
def State.admitSlot (s : State) (l q slot : Nat) (b : List Byte) : State :=
  let o := Op.ofSlot l q slot b
  let n := s.hub.nextOp
  let s := s.modLea l fun x => x.passSlot q
  match s.headerStatus o with
  | some st => (s.enterFlight { o with phase := .done st 0 }).completeOp n
  | none => (s.claimSlot o).enterFlight { o with rank := o.cls == 4 && s.wdrRank o }

/-- A slot whose header cannot be read (R495): an entry with TAG 0 and STEP 0, a fault event, and the queue STOPPED. -/
def State.badSlot (s : State) (l q slot addr : Nat) (st : Status) : State :=
  let n := s.hub.nextOp
  let o : Op := { lea := l, queue := q, slot := slot, hdr := [0, 0, 0xFFFF, 0, 0, 0, 0, 0], body := List.replicate 24 0
                  phase := .entryHeld st slot }
  let s := s.modLea l fun x => x.modQueue q fun k => { k with stopped := true }
  ((s.enterFlight o).queueEvent l (faultEvent st 0x01 0x41 (index := q) (addr := addr))).tryEntry n

/-- Whether the hub fetches the queue's next slot now (R32, R43, R46, R391, Table 14.5). -/
def State.mayFetch (s : State) (l q : Nat) (k : Queue) : Bool :=
  s.live && (s.lea l).st == .enabled && !k.stopped && k.head != (s.lea l).qdb.getD q 0 && (k.hbm || s.pcie.up) &&
  s.hub.ops.length < 1024 && (s.leaOps l).length < (s.lea l).quotas.inflight

/-- SLOT_FETCH (R43, R53, R495): the next slot of queue `q` of lea `l`. `slot` is what host memory returns for a queue in
host memory, and anything but 128 bytes is a PCIe completion with an error status. -/
def execSlotFetch (l q : Nat) (slot : List Byte) (s : State) : Host.Outcome State Fault Refusal :=
  match (s.lea l).queues.find q with
  | none => finish s
  | some k =>
    let a := k.base + 128 * k.head
    if !s.mayFetch l q k then finish s
    else if !k.hbm then
      if slot.length = 128 then finish (s.admitSlot l q k.head slot) else finish (s.badSlot l q k.head 0 .unitFault)
    else match s.access a 128 with
      | .stall => finish s
      | .bad sec st => finish ((s.lostRead sec).badSlot l q k.head (sec * 32) st)
      | .good => finish (s.admitSlot l q k.head (s.read a 128))

/-! ## Start (R50, R53, R175, R176, R180, R331) -/

/-- Whether the unit of an op can take it now: the array takes the op that is picked (R343), and the update engine one op
at a time, none that Baler holds (R370, R383). -/
def State.unitFree (s : State) (n : Nat) (o : Op) : Bool :=
  match o.cls with
  | 1 => s.hub.picked == some n && s.array.run.isNone
  | 7 => !s.balHolds o && s.hub.ops.all fun e => !(e.2.cls == 7 && e.2.running)
  | _ => true

/-- Whether the job's phase keeps an op from running (R176). -/
def State.phaseRefuses (s : State) (o : Op) : Bool :=
  match s.jobs.find o.job with
  | none => false
  | some j =>
    let back := j.backward
    if o.cls = 7 then !back
    else if o.cls = 8 then
      match o.func with
      | 1 => o.toBackward == back
      | 2 => back
      | 4 => !back
      | _ => false
    else false

/-- Whether an update op meets REPLAY_PENDING (R331) or a job state of Baler (Table 13.7) that refuses it. -/
def State.updateRefused (s : State) (o : Op) : Bool :=
  o.cls == 7 && match s.jobs.find o.job with
    | none => false
    | some j => j.replayPending || j.baler.any fun b => b.st == .verifying || b.st == .failed

/-- An update op's STEP is noted as it starts (R332, JOB_READ). -/
def Job.noteStep (j : Job) (st : Word) : Job :=
  { j with updateStep := some st, updateSteps := if j.updateSteps.contains st then j.updateSteps else st :: j.updateSteps }

/-- What the start of a Baler op does (R364, R371, R374, R375, R378). -/
def State.startBaler (s : State) (n : Nat) (o : Op) : State :=
  match s.jobs.find o.job with
  | none => s
  | some j => match j.baler with
    | none => s.endOp n .stateMismatch
    | some b => match o.bFunc with
      | 1 => s.startSnapshot n o j b
      | 2 => s.startLoss n o b
      | 3 => s.startRestore n o b
      | 4 => s.startCheck n o b
      | 5 => s.takeHold o.job (some n)
      | _ => s

/-- What the start of an op does in its unit. -/
def State.startUnit (s : State) (n : Nat) (o : Op) : State :=
  match o.cls with
  | 1 => s.startMatrix n o
  | 2 => s.startElt n
  | 6 => s.startBaler n o
  | 7 => s.modJob o.job fun j => j.noteStep o.step
  | 8 => if o.func = 1 then s.startPhase n o else if o.func = 2 then s.startMark n o else s
  | _ => s

/-- Whether an op has ended without running any part of its work. -/
def State.startRefused (s : State) (n : Nat) : Bool :=
  match s.op n with
  | none => true
  | some o => match o.phase with
    | .done st _ => st.rejected
    | _ => false

/-- An op starts: it runs in its unit, and is copied into the forward log (R180); one that its unit refuses completes. -/
def State.beginOp (s : State) (n : Nat) (o : Op) : State :=
  let s := (s.modOp n fun x => { x with phase := .running, stepped := true }).startUnit n o
  if s.startRefused n then s.completeOp n else s.logForward o

/-- Op `n` starts, if it may: it completes with ST_DEP_FAILED or STATE_MISMATCH in place of running where R50, R176, R331
and Table 13.7 say so. -/
def State.startOp (s : State) (n : Nat) (o : Op) : State :=
  if !s.live || !s.mayStart n o then s
  else if s.depFailed o then s.refuseOp n .depFailed
  else if !s.waitMet o || !s.unitFree n o then s
  else if s.phaseRefuses o || s.updateRefused o then s.refuseOp n .stateMismatch
  else s.beginOp n o

/-- OP_START (R50). -/
def execOpStart (n : Nat) (s : State) : Host.Outcome State Fault Refusal :=
  match s.op n with
  | none => finish s
  | some o => finish (s.startOp n o)

/-- PHASE (R175): a PHASE op starts, and holds its job until the ops in flight have completed. -/
def execPhase (n : Nat) (s : State) : Host.Outcome State Fault Refusal :=
  match s.op n with
  | none => finish s
  | some o => if o.cls = 8 ∧ o.func = 1 then finish (s.startOp n o) else finish s

/-- MARK (R181): a MARK op starts, writes its directory entry and ends. -/
def execMark (n : Nat) (s : State) : Host.Outcome State Fault Refusal :=
  match s.op n with
  | none => finish s
  | some o => if o.cls = 8 ∧ o.func = 2 then finish (s.startOp n o) else finish s

/-- SNAPSHOT (R364, R365): a SNAPSHOT op starts, and holds its job for the capture. -/
def execSnapshot (n : Nat) (s : State) : Host.Outcome State Fault Refusal :=
  match s.op n with
  | none => finish s
  | some o => if o.cls = 6 ∧ o.bFunc = 1 then finish (s.startOp n o) else finish s

/-! ## The PCIe link returns (R30, R48) -/

/-- Every entry that waits is tried again, in the order of admission. -/
def State.tryEntries (s : State) : State :=
  (s.hub.ops.map (·.1)).foldl (fun (s : State) n => match s.op n with
    | none => s
    | some o => if (s.lea o.lea).st = .resetting then s else s.tryEntry n) s

/-- The MSI-X messages that waited for the link are sent (R48). -/
def State.flushMsix (s : State) : State :=
  { s with out := { s.out with msix := s.out.msix ++ s.out.msixHeld, msixHeld := [] } }

/-- The link is up with a width and generation (R30); each training after the first is a retrain. -/
def Pcie.linkUp (p : Pcie) (width gen : Nat) : Pcie :=
  { p with up := true, width := width, gen := gen, trained := true, retrains := if p.trained then p.retrains + 1 else p.retrains }

/-- PCIE_LINK_UP (R30, R48). -/
def execPcieLinkUp (width gen : Nat) (s : State) : Host.Outcome State Fault Refusal :=
  if s.pcie.up || !s.edgeOn 28 || !s.edgeOn 29 || gen < 3 || 6 < gen || !(width == 1 || width == 2 || width == 4) then finish s
  else finish ({ s with pcie := s.pcie.linkUp width gen }.tryEntries.flushMsix)

end Sys2Proof.Machine
end

