-- ==== Sys2Proof/Machine/LeaReset.lean ====
section
/-!
DEFINITION. Machine/LeaReset.lean: lea resets (14, R407 to R411; R38, R39), DEVICE_HALT and the SR-IOV events that end in
them. Steps 1 and 2 of Table 14.5 stand in Mailbox.lean.
-/

namespace Sys2Proof.Machine

/-! ## Stopping ops (Table 14.6) -/

/-- The array stops after the passes in progress, where the op in it is one of those named; a pass that waits or fails
ends there. -/
def State.stopArray (s : State) (p : Op → Bool) : State :=
  match s.inArray with
  | none => s
  | some (o, r) =>
    if !p o then s
    else
      let s := { s with array := { s.array with run := some { r with cancelled := true } } }.runMatrix 3
      match s.inArray with
      | some (o, r) => if p o then s.endMatrix o r .cancelled else s
      | none => s

/-- A cluster drops the row that it runs, of an op named; its writes remain. -/
def State.stopCluster (s : State) (p : Op → Bool) (c : Nat) : State :=
  match (s.cluster c).op with
  | none => s
  | some n => match s.op n with
    | none => s
    | some o => if p o then (s.chargeRow o (s.cluster c)).putCluster c { priv := (s.cluster c).priv } else s

/-- An op whose work has not ended is cancelled. -/
def Op.cancel (o : Op) : Op := if o.live then { o with phase := .done .cancelled 0 } else o

/-- The ops named stop, and are cancelled (Table 14.6). -/
def State.stopOps (s : State) (p : Op → Bool) : State :=
  let s := (s.scalar.clusters.map (·.1)).foldl (fun (s : State) c => s.stopCluster p c) (s.stopArray p)
  { s with hub := { s.hub with ops := s.hub.ops.mapVals fun _ o => if p o then o.cancel else o } }

/-! ## Steps 3 to 8 of Table 14.5 -/

/-- Step 4: the lea's jobs are unbound, their images abandoned. -/
def State.unbindLea (s : State) (l : Nat) : State :=
  ((s.leaJobs l).map (·.1)).foldl (fun (s : State) h => (s.abandon h .cancelled).unbind h) s

/-- Step 5: the entry of one of the lea's ops, where its ring takes it. -/
def State.resetEntry (s : State) (n : Nat) : State :=
  match s.op n with
  | none => s
  | some o =>
    let put (st : Status) (detail : Nat) : State :=
      if bit (wordAt o.hdr 0) 10 && st == .ok then s
      else match s.opRing o with
        | none => s
        | some (r, k) => if s.entryWaits o.lea r k then s else s.putEntry o r k st detail
    match o.phase with
    | .done st detail | .entryHeld st detail => put st detail
    | _ => s

/-- Step 5 (R408). -/
def State.resetEntries (s : State) (l : Nat) : State :=
  ((s.leaOps l).map (·.1)).foldl (fun (s : State) n => s.resetEntry n) s

/-- Step 6: the lea's interrupts are quenched, and its event registers take their reset values. -/
def State.quench (s : State) (l : Nat) : State :=
  let s := s.modLea l fun x => { x with pba := 0, events := [], evQueued := false, evOverflow := false, evIntrEnable := false }
  { s with out := { s.out with msixHeld := s.out.msixHeld.filter fun m => m.1 != l } }

/-- The mailbox's registers at a lea reset; a command in service keeps its BUSY until it is answered (R39). -/
def Mailbox.leaReset (m : Mailbox) : Mailbox :=
  { m with ring := false, busy := m.busy && m.deferral.isSome, done := false, overrun := false, intrEnable := false
           doneCount := 0, overrunCount := 0 }

/-- Step 7: what the lea holds is returned, and its registers of the lea-reset domain take their reset values; the
MSI-X table is kept, except by a Function Level Reset (R409). -/
def Lea.returnCredits (x : Lea) (flr : Bool) : Lea :=
  { x with queues := [], rings := [], qdb := [], cdb := [], counters := [], norms := [], pins := []
           readyArray := false, readyCluster := false, badDoorbell := 0, rejectCount := 0, mbx := x.mbx.leaReset
           msix := if flr then [] else x.msix, resetting := x.resetting.map fun r => { r with returned := true } }

/-- The sectors of a lea's pins are written back (R219). -/
def State.unpinAll (s : State) (l : Nat) : State :=
  let pins := (s.lea l).pins
  { s with mem := { s.mem with dirty := s.mem.dirty.filter fun x => !pins.any fun p => p.base ≤ x * 32 && x * 32 < p.base + p.len } }

/-- A reset of lea 0 closes the Hedgerow rings and disarms staging (Table 15.7, R431). -/
def State.quietHedgerow (s : State) : State :=
  { s with hdr := { s.hdr with rxRing := none, txRing := none, staging := none
                               queue := s.hdr.queue.filter fun f => f.tier != 3 } }

/-- Step 7. -/
def State.returnLea (s : State) (l : Nat) (flr : Bool) : State :=
  let gone := (s.leaOps l).map (·.1)
  let s := gone.foldl (fun (s : State) n => (s.forgetOp n .cancelled).leaveFlight n) s
  let s := (s.unpinAll l).modLea l fun x => x.returnCredits flr
  if l = 0 then s.quietHedgerow else s

/-- Steps 3 to 7. -/
def State.resetSteps (s : State) (l : Nat) (r : LeaReset) : State :=
  let s := (s.stopOps fun o => o.lea == l).unbindLea l
  let s := if r.entries then s.resetEntries l else s
  (s.quench l).returnLea l (r.cause == .flr)

/-- The reset commands that wait for lea `l` are answered (R39). -/
def State.answerResets (s : State) (l : Nat) : State :=
  (s.leas.map (·.1)).foldl (fun (s : State) k =>
    if (s.lea k).mbx.deferral = some (.leaReset l) ∨ (k = l ∧ (s.lea k).mbx.deferral = some .selfReset) then s.respond k .ok
    else s) s

/-- The state of Table 2.5 that a reset ends in; a virtual function that has been enabled again exists (R389). -/
def State.afterReset (s : State) (l : Nat) (c : ResetCause) : State :=
  match c with
  | .leaReset | .flr => s.setLeaSt l .enabled
  | .leaDisable => s.setLeaSt l .disabled
  | .vfClear =>
    let s := s.modLea l Lea.toAbsent
    if s.pcie.vfEnable && l ≤ s.pcie.numVfs then s.createLea l else s

/-- Step 8. -/
def State.endReset (s : State) (l : Nat) (r : LeaReset) : State :=
  let s := (s.afterReset l r.cause).modLea l fun x =>
    { x with resetting := none, resetDone := true, resetCount := x.resetCount + 1 }
  s.answerResets l

/-- LEA_RESET_OPS_STOPPED (R407): steps 3 to 7, and step 8 once Cihal serves (Table 14.7). -/
def execLeaResetOpsStopped (l : Nat) (s : State) : Host.Outcome State Fault Refusal :=
  match (s.lea l).resetting with
  | none => finish s
  | some r =>
    let s := if r.returned then s else s.resetSteps l r
    finish (if s.cihalServes then s.endReset l r else s)

/-! ## What begins a lea reset -/

/-- LEA_RESET: the lea (R39, R40). -/
def cmdLeaReset : CmdDef := cmd 0x0012 1 .zeroOrSelf fun s l a =>
  let t := argN a 0
  need (t < 64) .badArgument <|
  need ((s.lea t).st = .enabled || (s.lea t).st = .faulted) .stateMismatch <|
  if t = l then .defer (s.beginReset t .leaReset) .selfReset else .defer (s.requestReset t .leaReset) (.leaReset t)

/-- LEA_DISABLE: the lea, not lea 0 (R40). -/
def cmdLeaDisable : CmdDef := cmd 0x0011 1 .leaZero fun s _ a =>
  let t := argN a 0
  need (t < 64) .badArgument <|
  need (t != 0 && ((s.lea t).st = .enabled || (s.lea t).st = .faulted)) .stateMismatch <|
  .defer (s.requestReset t .leaDisable) (.leaReset t)

/-- LEA_RESET (R407). -/
def execLeaReset (lea : Nat) (tag : Word) (args : List Word) (s : State) : Host.Outcome State Fault Refusal :=
  finish (s.issue cmdLeaReset lea tag args)

/-- LEA_DISABLE (R40). -/
def execLeaDisable (lea : Nat) (tag : Word) (args : List Word) (s : State) : Host.Outcome State Fault Refusal :=
  finish (s.issue cmdLeaDisable lea tag args)

/-- VF Enable is cleared: every virtual function passes to ABSENT (R389, Table 2.5). -/
def State.clearVfs (s : State) : State :=
  (range' 1 63).foldl (fun (s : State) l => s.requestReset l .vfClear) { s with pcie := { s.pcie with vfEnable := false } }

/-- VF_ENABLE_CLEAR (R389). -/
def execVfEnableClear (s : State) : Host.Outcome State Fault Refusal :=
  if s.pcie.vfEnable then finish s.clearVfs else finish s

/-- FLR_LEA (R407): a Function Level Reset of virtual function `l`. -/
def execFlrLea (l : Nat) (s : State) : Host.Outcome State Fault Refusal :=
  if 1 ≤ l ∧ l < 64 then finish (s.requestReset l .flr) else finish s

/-- FLR_PF (R38): lea 0 is reset, and VF Enable is cleared. -/
def execFlrPf (s : State) : Host.Outcome State Fault Refusal := finish (s.clearVfs.requestReset 0 .flr)

/-! ## DEVICE_HALT (R40, Table 14.7) -/

/-- The op that a message is for. -/
def MsgOwner.ofOp : MsgOwner → Option Nat
  | .copy n | .post n | .windrow n _ | .tokens n _ | .back n _ => some n
  | w => w.balOp

/-- Baler's work for a job's ops ends (R372). -/
def State.haltBaler (s : State) (h : Nat) : State :=
  let s := s.abandon h .cancelled
  match (s.jobs.find h).bind (·.baler) with
  | none => s
  | some b =>
    let s := match b.restore with
      | none => s
      | some r => s.failRestore h r .cancelled
    s.modBaler h fun b => { b with digestRuns := [], historyOps := [], fills := [], snapshotOp := none }

/-- What a job's ops were doing ends: their messages are not sent further, and nothing holds the job. -/
def Job.halt (j : Job) : Job := { j.dropMessages (fun w => w.ofOp.isSome) with hold := none }

/-- Every op ends with ST_CANCELLED and completes. -/
def State.cancelAll (s : State) : State :=
  let s := s.stopOps fun _ => true
  let s := (s.jobs.map (·.1)).foldl (fun (s : State) h => (s.haltBaler h).modJob h Job.halt) s
  (s.hub.ops.map (·.1)).foldl (fun (s : State) n => match s.op n with
    | none => s
    | some o => if (s.lea o.lea).st = .resetting then s else s.completeOp n) s

/-- DEVICE_HALT. -/
def cmdDeviceHalt : CmdDef := cmd 0x0050 0 .leaZero fun s _ _ =>
  need s.live .stateMismatch <| .ok (s.cancelAll.setDev .halted)

/-- DEVICE_HALT (R40). -/
def execDeviceHalt (lea : Nat) (tag : Word) (args : List Word) (s : State) : Host.Outcome State Fault Refusal :=
  finish (s.issue cmdDeviceHalt lea tag args)

/-- The commands of this file. -/
def resetCommands : List CmdDef := [cmdLeaReset, cmdLeaDisable, cmdDeviceHalt]

end Sys2Proof.Machine
end

