-- ==== Sys2Proof/Machine/Registers.lean ====
section
/-!
DEFINITION. Machine/Registers.lean: register accesses over PCIe (R6 to R9, R33, R390): every register of the manual with
its offset, what a read returns, what a write does, and the rows that write and read registers.
-/

namespace Sys2Proof.Machine

/-- A register of a block: its offset, whether it takes two words (R7), what it reads, what a write of its low or high
word does (Table 0.5), and how a read clears its RC fields. Reserved bits read zero and ignore writes (R8). -/
structure RegDef where
  off : Nat
  wide : Bool := false
  value : State → Nat
  write : State → Bool → Word → State := fun s _ _ => s
  clear : State → State := id

/-- Fields packed into a number, each with its low bit. -/
def packNat (l : List (Nat × Nat)) : Nat := l.foldl (fun a f => a + f.1 <<< f.2) 0

/-- A W1C bit after a write: bit `i` of the written word clears it (Table 0.5). -/
def w1c (b : Bool) (v : Word) (i : Nat) : Bool := b && !bit v i

/-- A 32-bit register that nothing writes. -/
def reg (off : Nat) (value : State → Nat) : RegDef := { off := off, value := value }

/-- A 64-bit register that nothing writes. -/
def reg64 (off : Nat) (value : State → Nat) : RegDef := { off := off, wide := true, value := value }

/-- A 32-bit register with fields that a write changes. -/
def regW (off : Nat) (value : State → Nat) (write : State → Word → State) : RegDef :=
  { off := off, value := value, write := fun s _ v => write s v }

/-- The register of a block at an offset, and whether the offset is its high word. -/
def findReg (l : List RegDef) (off : Nat) : Option (RegDef × Bool) :=
  match l.find? fun r => r.off == off || (r.wide && r.off + 4 == off) with
  | none => none
  | some r => some (r, r.off != off)

/-! ## Hub registers: package, host control, array, scales, step (01, 02, 04, 06, 07) -/

/-- The W1C write of HUB_EDGE_LOST. -/
def State.clearLost (s : State) (high : Bool) (v : Word) : State :=
  let m : Nat := if high then v.toNat <<< 32 else v.toNat
  { s with edge := { s.edge with lost := s.edge.lost &&& ~~~ (BitVec.ofNat 40 m) } }

/-- The registers of 01. -/
def edgeRegs : List RegDef :=
  [reg64 0x400 fun s => s.edge.online.toNat,
   reg64 0x408 fun s => s.edge.fenced.toNat,
   { off := 0x410, wide := true, value := fun s => s.edge.lost.toNat, write := State.clearLost },
   reg 0x418 fun s => packNat [(s.edge.fenceCount.toNat, 16), (s.edge.lossCount.toNat, 0)],
   reg 0x420 fun s => packNat [(s.edge.refLossCount.toNat, 16), (b2n s.edge.pmOsc, 3), (b2n s.edge.cihOsc, 2),
     (b2n (s.edge.pmOsc || s.edge.cihOsc), 1), (b2n s.edge.refPresent, 0)]]

/-- The device-wide registers of 02. -/
def hostRegs : List RegDef :=
  [reg 0x100 fun s => packNat [(s.hub.devChanges.toNat, 16), (s.hub.dev.code, 0)],
   { off := 0x108, value := fun s => packNat [(s.hub.inflightPeak, 16), (s.hub.ops.length, 0)],
     clear := fun s => { s with hub := { s.hub with inflightPeak := 0 } } },
   reg 0x110 fun s => packNat [(s.pcie.retrains.toNat, 16), (s.pcie.width, 4), (s.pcie.gen, 0)]]

/-- The dies in service, as HUB_ARRAY_SHAPE counts them (R85). -/
def State.diesIn (s : State) : Nat := ((List.range 4).filter fun d => s.array.inService.getLsbD d).length

/-- The registers of 04. -/
def arrayRegs : List RegDef :=
  [reg 0x600 fun s => packNat [(s.array.shapeChanges.toNat, 16), (s.array.inService.toNat, 12), (768 * s.diesIn, 0)],
   regW 0x608 (fun s => packNat [(b2n s.array.nanOut, 3), (b2n s.array.saturated, 2), (b2n s.array.recomputed, 1),
       (b2n s.array.run.isSome, 0)])
     (fun s v => { s with array := { s.array with
       nanOut := w1c s.array.nanOut v 3, saturated := w1c s.array.saturated v 2
       recomputed := w1c s.array.recomputed v 1 } }),
   reg64 0x610 fun s => packNat [(s.array.nanCount.toNat, 48), (s.array.satCount.toNat, 32),
     (s.array.recomputeCount.toNat, 0)],
   reg64 0x618 fun s => s.array.passes.toNat,
   reg 0x620 fun s => s.array.lastInstance.toNat]

/-- Whether an op is held for a fold (HUB_SCALE_STATUS.HELD; R148). -/
def State.anyFoldHeld (s : State) : Bool := s.hub.ops.any fun e => e.2.phase == .waiting && s.foldHeld e.2

/-- The registers of 06. -/
def scaleRegs : List RegDef :=
  [regW 0x700 (fun s => packNat [(b2n s.anyFoldHeld, 2), (b2n s.scale.tableFull, 1), (b2n s.scale.boundUsed, 0)])
     (fun s v => { s with scale := { s.scale with
       tableFull := w1c s.scale.tableFull v 1, boundUsed := w1c s.scale.boundUsed v 0 } }),
   reg 0x708 fun s => packNat [(s.scale.fullCount.toNat, 16), (s.scale.boundCount.toNat, 0)],
   reg64 0x710 fun s => s.scale.folds.toNat,
   regW 0x718 (fun s => packNat [(b2n s.scale.updNan, 2), (b2n s.scale.updSat, 1),
       (b2n (s.hub.ops.any fun e => e.2.cls == 7 && e.2.running), 0)])
     (fun s v => { s with scale := { s.scale with updNan := w1c s.scale.updNan v 2, updSat := w1c s.scale.updSat v 1 } }),
   reg 0x720 fun s => packNat [(s.scale.updNanCount.toNat, 16), (s.scale.updSatCount.toNat, 0)],
   reg64 0x728 fun s => s.scale.updElements.toNat]

/-- The registers of 07. -/
def stepRegs : List RegDef :=
  [regW 0x800 (fun s => packNat [(b2n s.train.clipNonfinite, 3), (b2n s.train.recomputeFailed, 2),
       (b2n s.train.recomputed, 1), (b2n (s.train.recomputes.any fun r => !r.resumed), 0)])
     (fun s v => { s with train := { s.train with
       clipNonfinite := w1c s.train.clipNonfinite v 3, recomputeFailed := w1c s.train.recomputeFailed v 2
       recomputed := w1c s.train.recomputed v 1 } }),
   reg 0x808 fun s => packNat [(s.train.nonfiniteCount.toNat, 24), (s.train.failCount.toNat, 16),
     (s.train.recomputeCount.toNat, 0)],
   reg64 0x810 fun s => s.train.replayed.toNat,
   { off := 0x818, value := fun s => packNat [(s.hub.phaseHeldPeak, 16), (s.phaseHeld, 0)],
     clear := fun s => { s with hub := { s.hub with phaseHeldPeak := 0 } } }]

/-! ## Hub registers: memory, dies, mapping (08, 09, 12) -/

/-- The MiB pinned in the shared cache (HUB_CACHE_STATUS.PINNED_MIB). -/
def State.pinnedMib (s : State) : Nat :=
  ceilDiv (s.leas.foldl (fun n e => n + e.2.pins.foldl (fun n p => n + p.len) 0) 0) (2 ^ 20)

/-- The HUB_ registers of 08. -/
def memRegs : List RegDef :=
  [regW 0x900 (fun s => packNat [(s.mem.stackLost.toNat, 16), (b2n s.mem.refillFailed, 4), (b2n s.mem.poisoned, 3),
       (b2n s.mem.detected, 2), (b2n s.mem.corrected, 1), (b2n (!s.mem.refills.isEmpty), 0)])
     (fun s v => { s with mem := { s.mem with
       refillFailed := w1c s.mem.refillFailed v 4, poisoned := w1c s.mem.poisoned v 3
       detected := w1c s.mem.detected v 2, corrected := w1c s.mem.corrected v 1 } }),
   reg64 0x908 fun s => packNat [(s.mem.lostCount.toNat, 56), (s.mem.failedCount.toNat, 48), (s.mem.poisonCount.toNat, 32),
     (s.mem.detectedCount.toNat, 16), (s.mem.correctedCount.toNat, 0)],
   reg64 0x910 fun s => packNat [(s.mem.lastKind, 60), (s.mem.lastAddr, 0)],
   reg64 0x918 fun s => packNat [(s.mem.refStore.toNat, 48), (s.mem.refPartner.toNat, 32), (s.mem.refParity.toNat, 16),
     (s.mem.refDropped.toNat, 0)],
   regW 0x920 (fun s => s.mem.deadline.toNat) (fun s v => { s with mem := { s.mem with deadline := v } }),
   regW 0x928 (fun s => packNat [(s.pinnedMib, 16), (b2n s.mem.cacheUncorr, 1), (b2n s.mem.cacheCorr, 0)])
     (fun s v => { s with mem := { s.mem with
       cacheUncorr := w1c s.mem.cacheUncorr v 1, cacheCorr := w1c s.mem.cacheCorr v 0 } }),
   reg 0x930 fun s => packNat [(s.mem.cacheUncorrCount.toNat, 16), (s.mem.cacheCorrCount.toNat, 0)]]

/-- The code of a die's state (HUB_DIE_STATUS). -/
def DieSt.code : DieSt → Nat
  | .inService => 0 | .queued => 1 | .resetting => 2 | .rejoining => 3 | .fenced => 4

/-- The HUB_ registers of 09. -/
def dieRegs : List RegDef :=
  [regW 0xA00 (fun s => packNat ([(b2n s.dies.fencedEvent, 17), (b2n s.dies.resetDone, 16)] ++
       (List.range 4).map fun n => ((s.die n).st.code, 4 * n)))
     (fun s v => { s with dies := { s.dies with
       fencedEvent := w1c s.dies.fencedEvent v 17, resetDone := w1c s.dies.resetDone v 16 } }),
   reg 0xA08 fun s => packNat [(s.dies.fenceCount.toNat, 16), (s.dies.resetCount.toNat, 0)],
   regW 0xA10 (fun s => packNat [(s.dies.errLimit, 24), (s.dies.stallCounts, 0)])
     (fun s v => { s with dies := { s.dies with errLimit := fld v 31 24, stallCounts := fld v 23 0 } }),
   regW 0xA18 (fun s => packNat [(b2n s.dies.crcMismatch, 4), (b2n s.dies.widthStepped, 3), (b2n s.dies.laneRepaired, 2),
       (b2n s.dies.laneFailed, 1), (b2n (s.dies.die.any fun d => !d.2.repairing.isEmpty), 0)])
     (fun s v => { s with dies := { s.dies with
       crcMismatch := w1c s.dies.crcMismatch v 4, widthStepped := w1c s.dies.widthStepped v 3
       laneRepaired := w1c s.dies.laneRepaired v 2, laneFailed := w1c s.dies.laneFailed v 1 } }),
   reg64 0xA20 fun s => packNat [(s.dies.crcCount.toNat, 48), (s.dies.stepCount.toNat, 32), (s.dies.repairCount.toNat, 16),
     (s.dies.failCount.toNat, 0)]]

/-- Whether any unit waits for a role (HUB_MAP_STATUS.ROLE_WAIT; R324). -/
def State.roleWaits (s : State) : Bool :=
  (s.jobs.any fun e => e.2.waits.any fun w => !w.sent) ||
  s.mem.refills.any fun e => match e.2.wait with
    | .resolve _ _ => true
    | _ => false

/-- The HUB_ registers of 12. -/
def mapRegs : List RegDef :=
  [regW 0xB00 (fun s => packNat [(b2n s.units.linkFailed, 4), (b2n s.roleWaits, 3), (b2n s.units.resolveFailed, 2),
       (b2n s.units.shardChanged, 1), (b2n (s.jobs.any fun e => e.2.replayPending), 0)])
     (fun s v => { s with units := { s.units with
       linkFailed := w1c s.units.linkFailed v 4, resolveFailed := w1c s.units.resolveFailed v 2
       shardChanged := w1c s.units.shardChanged v 1 } }),
   reg 0xB08 fun s => packNat [(s.units.linkCount.toNat, 24), (s.units.resolveCount.toNat, 16),
     (s.units.shardCount.toNat, 0)],
   reg64 0xB10 fun s => s.hub.fallowEvents.toNat,
   reg 0xB18 fun s => s.hub.fallowOps.toNat]

/-- Every HUB_ register. -/
def hubRegs : List RegDef :=
  edgeRegs ++ hostRegs ++ arrayRegs ++ scaleRegs ++ stepRegs ++ memRegs ++ dieRegs ++ mapRegs

/-! ## Cihal registers (01, 16) -/

/-- Whether ATTEST can sign (CIH_STORE_STATUS.SIGNING; R450, R453). -/
def State.canSign (s : State) : Bool :=
  s.live && ((if s.fw.leafUnknown then s.fw.advanceKeygen else s.fw).attestRefused).isNone

/-- The device-wide CIH_ registers, from 0x0001_0000. -/
def cihRegs : List RegDef :=
  [reg64 0x000 fun s => s.edge.count.toNat,
   regW 0x100 (fun s => packNat [(b2n s.fw.coldPending, 8), (b2n s.fw.noImage, 7), (b2n s.fw.reverted, 6),
       (b2n s.fw.activated, 5), (b2n s.fw.verifyFail, 4), (b2n s.fw.handover.isSome, 3), (b2n s.fw.trial, 2),
       (s.fw.running, 1), (s.fw.winner.getD 0, 0)])
     (fun s v => { s with fw := { s.fw with
       reverted := w1c s.fw.reverted v 6, activated := w1c s.fw.activated v 5, verifyFail := w1c s.fw.verifyFail v 4 } }),
   reg 0x108 fun s => packNat [(s.fw.revertCount.toNat, 16), (s.fw.activateCount.toNat, 0)],
   regW 0x110 (fun s => packNat [(min s.fw.fuses.keygen 3, 8), (b2n s.fw.lanesFull, 4), (b2n s.fw.keygenAdvanced, 3),
       (b2n s.fw.writeFail, 2), (b2n s.fw.recordWritten, 1), (b2n s.canSign, 0)])
     (fun s v => { s with fw := { s.fw with
       lanesFull := w1c s.fw.lanesFull v 4, keygenAdvanced := w1c s.fw.keygenAdvanced v 3
       writeFail := w1c s.fw.writeFail v 2, recordWritten := w1c s.fw.recordWritten v 1 } }),
   reg 0x118 fun s => packNat [(s.fw.failCount.toNat, 16), (s.fw.writeCount.toNat, 0)],
   reg64 0x120 fun s => packNat [(s.fw.current.leafLimit, 32), (s.fw.nextLeaf, 0)]]

/-! ## Welxis registers (01, 04, 05, 09) -/

/-- A write of half of WX_CLUSTER_PRIV of die `d` (R140). -/
def State.writePriv (s : State) (d : Nat) (high : Bool) (v : Word) : State :=
  let x := s.scalarDie d
  let old := x.privReg.toNat
  let new := if high then natField old 31 0 + v.toNat <<< 32 else natField old 63 32 <<< 32 + v.toNat
  { s with scalar := { s.scalar with dies := s.scalar.dies.insert d { x with privReg := BitVec.ofNat 64 new } } }

/-- The W1C write of WX_SCALAR_STATUS of die `d`. -/
def State.clearScalar (s : State) (d : Nat) (v : Word) : State :=
  let x := s.scalarDie d
  let y := { x with stashErr := w1c x.stashErr v 4, fault := w1c x.fault v 3, nanRow := w1c x.nanRow v 2
                    infRow := w1c x.infRow v 1, saturated := w1c x.saturated v 0 }
  { s with scalar := { s.scalar with dies := s.scalar.dies.insert d y } }

/-- Spare lanes left in one direction of a bundle (WX_STILE_BUNDLE). -/
def Die.sparesLeft (x : Die) (dir : Nat) : Nat :=
  let b := x.dir dir
  ((List.range 544).filter fun l => !b.groupOut.contains (l / 34) && (match b.lanes.find l with
    | none => 32 ≤ l % 34
    | some st => st == .spare)).length

/-- Lanes of a bundle on the retired-lane list (WX_STILE_BUNDLE.RETIRED; R236). -/
def Firmware.retiredIn (f : Firmware) (d b : Nat) : Nat :=
  (f.current.lanes.filter fun e => fld e.2 13 12 == 2 && (laneOf e.2).1 == d && (laneOf e.2).2.1 / 2 == b).length

/-- WX_STILE_BUNDLE[b] of die `d`, once published (Table 9.3, step 5). -/
def State.bundleValue (s : State) (d b : Nat) : Nat :=
  let x := s.die d
  if !x.published then 0
  else packNat [(x.groups (2 * b), 27), (x.groups (2 * b + 1), 22), (x.sparesLeft (2 * b), 16),
    (x.sparesLeft (2 * b + 1), 10), (s.fw.retiredIn d b, 0)]

/-- WX_EVENT_RATE of die `d`: not valid while the die is fenced or held in reset. -/
def State.rateValue (s : State) (d : Nat) : Nat :=
  let x := s.die d
  packNat [(b2n (x.rateValid && x.st != .fenced && x.st != .resetting), 16), (x.rate.toNat, 0)]

/-- The registers of Welxis `d`, but for WX_STILE_BUNDLE. -/
def wxRegs (d : Nat) : List RegDef :=
  [reg 0x000 fun s => s.rateValue d,
   reg64 0x100 fun s => (s.array.tilesWritten.getD d 0).toNat,
   regW 0x200 (fun s => let x := s.scalarDie d
       packNat [(b2n x.stashErr, 4), (b2n x.fault, 3), (b2n x.nanRow, 2), (b2n x.infRow, 1), (b2n x.saturated, 0)])
     (fun s v => s.clearScalar d v),
   reg 0x208 fun s => (s.scalarDie d).events.toNat,
   { off := 0x210, wide := true, value := fun s => (s.scalarDie d).privReg.toNat, write := fun s h v => s.writePriv d h v },
   reg64 0x218 fun s => if s.array.inService.getLsbD d then 2 ^ 64 - 1 else 0,
   reg64 0x220 fun s => (s.scalarDie d).rows.toNat,
   reg64 0x300 fun s => packNat ((s.die d).width.map fun e => (e.2, 2 * e.1)),
   reg64 0x308 fun s => (s.die d).invalidTotal.toNat]

/-- The register of Welxis `d` at an offset. -/
def wxReg (d off : Nat) : Option (RegDef × Bool) :=
  if 0x400 ≤ off ∧ off < 0x480 then some (reg off fun s => s.bundleValue d ((off - 0x400) / 4), false)
  else findReg (wxRegs d) off

/-! ## Unit registers (08, 10, 11, 12, 13) -/

/-- The EDP_ registers of memory channel `c`. -/
def edpRegs (c : Nat) : List RegDef :=
  let ch := fun (s : State) => s.mem.channels.getD c {}
  [regW 0x00 (fun s => packNat [((ch s).spareRows, 16), ((ch s).sparePins, 8), (b2n (ch s).pinRepaired, 3),
       (b2n (ch s).rowRepaired, 2), (b2n (ch s).degraded, 1), (b2n ((ch s).online && s.edgeOn (c / 32)), 0)])
     (fun s v => s.modChannel c fun x =>
       { x with pinRepaired := w1c x.pinRepaired v 3, rowRepaired := w1c x.rowRepaired v 2 }),
   reg 0x04 fun s => packNat [((ch s).rowCount.toNat, 16), ((ch s).pinCount.toNat, 0)],
   regW 0x10 (fun s => packNat [(b2n (ch s).tgFail, 2), (b2n (ch s).tgDone, 1), (b2n (ch s).tgRun.isSome, 0)])
     (fun s v => s.modChannel c fun x => { x with tgFail := w1c x.tgFail v 2, tgDone := w1c x.tgDone v 1 }),
   reg 0x14 fun s => packNat [((ch s).tgFailCount.toNat, 16), ((ch s).tgDoneCount.toNat, 0)],
   reg64 0x18 fun s => (ch s).tgPins.toNat,
   reg 0x20 fun s => (ch s).tgMismatches]

/-- The code of a port state (Table 10.2). -/
def PortSt.code : PortSt → Nat
  | .disabled => 0 | .training => 1 | .hold => 2 | .up => 3 | .faulted => 4

/-- The FAB_ registers of port `p`. -/
def fabRegs (p : Nat) : List RegDef :=
  [regW 0x00 (fun s => packNat [(b2n (s.port p).pnAging, 7), (b2n (s.port p).macsecFail, 6), (b2n (s.port p).fecHit, 5),
       (b2n (s.port p).linkFault, 4), ((s.port p).st.code, 0)])
     (fun s v => s.modPort p fun x =>
       { x with pnAging := w1c x.pnAging v 7, macsecFail := w1c x.macsecFail v 6, fecHit := w1c x.fecHit v 5
                linkFault := w1c x.linkFault v 4 }),
   reg 0x08 fun s => packNat [((s.port p).macsecCount.toNat, 16), ((s.port p).faultCount.toNat, 0)],
   reg64 0x10 fun s => packNat [((s.port p).fecUncorr, 32), ((s.port p).fecCorr, 0)],
   reg64 0x18 fun s => packNat [((s.port p).pauses.toNat, 48), ((s.port p).fcsDrops.toNat, 32),
     ((s.port p).otherDrops.toNat, 0)]]

/-- Whether the job's sends are held until a key switch (HYK_STATUS.SEND_HELD; R269). -/
def Job.sendsHeld (j : Job) : Bool :=
  match j.sendSlot with
  | none => false
  | some i => (j.keys.find i).any fun k => 2 ^ 48 - 1 ≤ k.txSeq

/-- The HYK_ registers. -/
def hykRegs : List RegDef :=
  [regW 0x00 (fun s => packNat [(b2n (s.jobs.any fun e => e.2.sendsHeld), 4), (b2n s.fab.keyAging, 3),
       (b2n s.fab.peerQuarantined, 2), (b2n s.fab.peerLost, 1), (b2n s.fab.authFail, 0)])
     (fun s v => { s with fab := { s.fab with
       keyAging := w1c s.fab.keyAging v 3, peerQuarantined := w1c s.fab.peerQuarantined v 2
       peerLost := w1c s.fab.peerLost v 1, authFail := w1c s.fab.authFail v 0 } }),
   reg64 0x08 fun s => packNat [(s.fab.agingCount.toNat, 48), (s.fab.quarantineCount.toNat, 32),
     (s.fab.lostCount.toNat, 16), (s.fab.authCount.toNat, 0)],
   reg64 0x10 fun s => packNat [(s.fab.malformed.toNat, 48), (s.fab.unknownJob.toNat, 32),
     (s.fab.unknownPeer.toNat, 16), (s.fab.authDrops.toNat, 0)],
   reg64 0x18 fun s => packNat [(s.fab.duplicates.toNat, 48), (s.fab.timeouts.toNat, 32), (s.fab.retxPackets.toNat, 0)]]

/-- The ops of group `g` now held under R297 (WDR_GROUP_SEQ.HELD). -/
def State.heldOps (s : State) (g : Nat) : Nat :=
  (s.wdr.runs.filter fun e => e.2.group == g && e.2.gseq.isNone && !e.2.localOnly && e.2.whole.isNone).length

/-- WDR_GROUP_SEQ[g]; zero where the group is not set. -/
def State.groupSeqValue (s : State) (g : Nat) : Nat :=
  match s.wdr.groups.find g with
  | none => 0
  | some x => packNat [(x.sendBucket, 48), (s.heldOps g, 32), (x.gseq.toNat, 0)]

/-- The WDR_ registers, but for WDR_GROUP_SEQ. -/
def wdrRegs : List RegDef :=
  [regW 0x000 (fun s => packNat [(b2n s.wdr.moved, 5), (b2n s.wdr.escalated, 4), (b2n s.wdr.late, 3),
       (b2n s.wdr.partialSet, 2), (b2n s.wdr.seqErr, 1), (b2n (s.hub.ops.any fun e => e.2.cls == 4), 0)])
     (fun s v => { s with wdr := { s.wdr with
       moved := w1c s.wdr.moved v 5, escalated := w1c s.wdr.escalated v 4, late := w1c s.wdr.late v 3
       partialSet := w1c s.wdr.partialSet v 2, seqErr := w1c s.wdr.seqErr v 1 } }),
   reg64 0x008 fun s => packNat [(s.wdr.lateCount.toNat, 48), (s.wdr.escalateCount.toNat, 32),
     (s.wdr.partialCount.toNat, 16), (s.wdr.movedCount.toNat, 8), (s.wdr.seqCount.toNat, 0)],
   reg64 0x010 fun s => s.wdr.closed.toNat,
   { off := 0x018, value := fun s => packNat [(s.wdr.openPeak, 16), (s.wdr.openChunks, 0)],
     clear := fun s => { s with wdr := { s.wdr with openPeak := 0 } } }]

/-- The WDR_ register at an offset. -/
def wdrReg (off : Nat) : Option (RegDef × Bool) :=
  if 0x100 ≤ off ∧ off < 0x300 then some (reg64 (off / 8 * 8) fun s => s.groupSeqValue ((off - 0x100) / 8), off % 8 == 4)
  else findReg wdrRegs off

/-- The TED_ registers. -/
def tedRegs : List RegDef :=
  [regW 0x000 (fun s => packNat [(b2n s.units.tedPeerLost, 3), (b2n s.units.tedBadMessage, 2), (b2n s.units.tedDropped, 1),
       (b2n (s.hub.ops.any fun e => e.2.cls == 5), 0)])
     (fun s v => { s with units := { s.units with
       tedPeerLost := w1c s.units.tedPeerLost v 3, tedBadMessage := w1c s.units.tedBadMessage v 2
       tedDropped := w1c s.units.tedDropped v 1 } }),
   reg64 0x008 fun s => packNat [(s.units.tedLostCount.toNat, 48), (s.units.tedBadCount.toNat, 32),
     (s.units.tedDropCount.toNat, 0)],
   reg64 0x010 fun s => s.units.tedRows.toNat]

/-- The fills that the device serves (R382, R383). -/
def State.fillsServed (s : State) : Nat := s.jobs.foldl (fun n e => n + (e.2.baler.map fun b => b.serves.length).getD 0) 0

/-- Whether a SNAPSHOT or a HISTORY_SYNC op holds a job (BAL_STATUS.PAUSED). -/
def State.balPaused (s : State) : Bool :=
  s.jobs.any fun e => e.2.hold.any fun h => h.op.any fun n => (s.hub.ops.find n).any fun o => o.cls == 6

/-- The BAL_ registers. -/
def balRegs : List RegDef :=
  [regW 0x000 (fun s => packNat [(b2n (0 < s.fillsServed), 9), (b2n s.units.restoreFailed, 8), (b2n s.units.farSkipped, 7),
       (b2n s.units.farSealed, 6), (b2n s.units.digestMismatch, 5), (b2n s.units.replayMismatch, 4),
       (b2n s.units.verified, 3), (b2n s.units.abandoned, 2), (b2n s.units.sealed, 1), (b2n s.balPaused, 0)])
     (fun s v => { s with units := { s.units with
       restoreFailed := w1c s.units.restoreFailed v 8, farSkipped := w1c s.units.farSkipped v 7
       farSealed := w1c s.units.farSealed v 6, digestMismatch := w1c s.units.digestMismatch v 5
       replayMismatch := w1c s.units.replayMismatch v 4, verified := w1c s.units.verified v 3
       abandoned := w1c s.units.abandoned v 2, sealed := w1c s.units.sealed v 1 } }),
   reg64 0x008 fun s => packNat [(s.units.mismatchCount.toNat, 48), (s.units.abandonCount.toNat, 32),
     (s.units.farCount.toNat, 16), (s.units.sealedCount.toNat, 0)],
   reg64 0x010 fun s => s.units.rideUnits.toNat,
   reg64 0x018 fun s => s.units.sweepUnits.toNat,
   reg 0x020 fun s => satNat 32 s.units.lastPause,
   reg 0x028 fun s => packNat [(s.fillsServed, 24), (s.units.fillsDropped.toNat, 16), (s.units.fillCount.toNat, 0)]]

/-! ## Hedgerow and power manager registers (15, 16) -/

/-- The W1C write of MGT_STATUS. -/
def State.clearMgt (s : State) (v : Word) : State :=
  { s with hdr := { s.hdr with
    hbLost := w1c s.hdr.hbLost v 6, srcBlocked := w1c s.hdr.srcBlocked v 5, authFail := w1c s.hdr.authFail v 4
    stuckEvent := w1c s.hdr.stuckEvent v 3 } }

/-- MGT_STATUS. Before start-up ends, an offline domain diverts nothing. -/
def State.mgtStatus (s : State) : Nat :=
  packNat [(b2n s.hdr.staging.isSome, 7), (b2n s.hdr.hbLost, 6), (b2n s.hdr.srcBlocked, 5), (b2n s.hdr.authFail, 4),
    (b2n s.hdr.stuckEvent, 3), (b2n s.hdr.mediumStuck, 2), (b2n (s.diverted && s.hub.dev != .boot), 1),
    (b2n (s.edgeOn 30), 0)]

/-- MGT_CFG. -/
def Hedgerow.cfgValue (h : Hedgerow) : Nat :=
  packNat [(h.healthRate, 24), (h.blockLimit, 16), (b2n h.halfEvent, 3), (b2n h.deliverBad, 2), (b2n h.healthEn, 1),
    (b2n h.txEn, 0)]

/-- MGT_HB[h]; zero where the entry is not set. -/
def Hedgerow.hbValue (x : Hedgerow) (h : Nat) : Nat :=
  match x.hb.find h with
  | none => 0
  | some e => packNat [(e.peerStep.toNat, 32), (min e.misses 255, 24), (b2n e.lastFabric, 1), (1, 0)]

/-- The MGT_ registers, but for the arrays. Writes of the configuration registers go to the shadow copy while the
domain is offline (R252). -/
def mgtRegs : List RegDef :=
  [regW 0x000 State.mgtStatus State.clearMgt,
   reg64 0x008 fun s => packNat [(s.hdr.lostCount.toNat, 48), (s.hdr.blockCount.toNat, 32), (s.hdr.authCount.toNat, 16),
     (s.hdr.stuckCount.toNat, 0)],
   regW 0x010 (fun s => s.hdr.cfgValue) (fun s v => s.mgtWrite 0x010 v),
   regW 0x018 (fun s => s.hdr.stuckCounts.toNat) (fun s v => s.mgtWrite 0x018 v),
   reg64 0x020 fun s => leToNat s.hdr.mac,
   regW 0x028 (fun s => packNat [(s.hdr.txTail, 16), (s.hdr.rxHead, 0)]) (fun s v => s.mgtWrite 0x028 v),
   regW 0x040 (fun s => s.hdr.half.toNat) (fun s v => { s with hdr := { s.hdr with half := s.hdr.half &&& ~~~ v } }),
   reg 0x048 fun s => s.hdr.halfCount.toNat]

/-- The MGT_ register at an offset. -/
def mgtReg (off : Nat) : Option (RegDef × Bool) :=
  if 0x100 ≤ off ∧ off < 0x180 then some (reg off fun s => (s.hdr.ctr.getD ((off - 0x100) / 4) 0).toNat, false)
  else if 0x200 ≤ off ∧ off < 0x280 then some (reg64 (off / 8 * 8) fun s => s.hdr.hbValue ((off - 0x200) / 8), off % 8 == 4)
  else findReg mgtRegs off

/-- The PWR_ registers. -/
def pwrRegs : List RegDef :=
  [regW 0x000 (fun s => packNat [(b2n s.pwr.ocEvent, 5), (b2n s.pwr.thermCrit, 4), (b2n s.pwr.thermThrottle, 3),
       (b2n s.pwr.capThrottle, 2), (b2n (s.pwr.limitCap || s.pwr.limitOc || s.pwr.limitCrit), 1),
       (b2n (!s.pwr.coreOff && s.pwr.actual < s.pwr.target), 0)])
     (fun s v => { s with pwr := { s.pwr with
       ocEvent := w1c s.pwr.ocEvent v 5, thermCrit := w1c s.pwr.thermCrit v 4
       thermThrottle := w1c s.pwr.thermThrottle v 3, capThrottle := w1c s.pwr.capThrottle v 2 } }),
   reg64 0x008 fun s => packNat [(s.pwr.ocCount.toNat, 48), (s.pwr.critCount.toNat, 32), (s.pwr.thermCount.toNat, 16),
     (s.pwr.capCount.toNat, 0)],
   reg 0x010 fun s => packNat [(s.pwr.target, 16), (s.pwr.actual, 0)],
   { off := 0x018, value := fun s => packNat [(s.pwr.peakW % 2 ^ 16, 16), (s.pwr.windowW % 2 ^ 16, 0)],
     clear := fun s => { s with pwr := { s.pwr with peakW := 0 } } },
   reg 0x020 fun s => packNat [(s.pwr.hotSensor, 24), (ofSigned 16 s.pwr.tj, 0)]]

/-! ## The lea window (Table 2.2; 02, 14) -/

/-- The W1C and RW fields of CIH_MBX_STATUS. -/
def Mailbox.writeStatus (m : Mailbox) (v : Word) : Mailbox :=
  { m with intrEnable := bit v 3, overrun := w1c m.overrun v 2, done := w1c m.done v 1 }

/-- The W1C and RW fields of LEA_EVENT_STATUS. -/
def Lea.writeEvent (x : Lea) (v : Word) : Lea :=
  { x with evIntrEnable := bit v 15, evOverflow := w1c x.evOverflow v 1, evQueued := w1c x.evQueued v 0 }

/-- The registers of lea `l`, but for the arrays. -/
def leaRegs (l : Nat) : List RegDef :=
  [regW 0x200 (fun s => b2n (s.lea l).mbx.ring)
     (fun s v => if bit v 0 then s.modLea l fun x => { x with mbx := x.mbx.doorbell } else s),
   regW 0x204 (fun s => packNat [(b2n (s.lea l).mbx.intrEnable, 3), (b2n (s.lea l).mbx.overrun, 2),
       (b2n (s.lea l).mbx.done, 1), (b2n (s.lea l).mbx.busy, 0)])
     (fun s v => s.modLea l fun x => { x with mbx := x.mbx.writeStatus v }),
   reg 0x208 fun s => packNat [((s.lea l).mbx.overrunCount.toNat, 16), ((s.lea l).mbx.doneCount.toNat, 0)],
   reg 0x300 fun s => packNat [((s.lea l).changeCount.toNat, 16), (b2n (s.edgeOn 31), 8), (s.hub.dev.code, 4),
     ((s.lea l).st.code, 0)],
   reg 0x304 fun s => packNat [((s.lea l).rejectCount.toNat, 16), ((s.lea l).badDoorbell.toNat, 0)],
   regW 0x400 (fun s => packNat [(b2n (s.lea l).evIntrEnable, 15), ((s.lea l).events.length, 8),
       (b2n (s.lea l).evOverflow, 1), (b2n (s.lea l).evQueued, 0)])
     (fun s v => s.modLea l fun x => x.writeEvent v),
   reg 0x404 fun s => packNat [((s.lea l).evDropped.toNat, 16), ((s.lea l).evQueuedCount.toNat, 0)],
   regW 0x408 (fun s => packNat [((s.lea l).resetCount.toNat, 16), ((s.lea l).resetCause.code, 2),
       (b2n (s.lea l).resetDone, 1), (b2n (s.lea l).resetting.isSome, 0)])
     (fun s v => s.modLea l fun x => { x with resetDone := w1c x.resetDone v 1 }),
   reg 0x410 fun s => packNat [((s.lea l).quotas.inflight, 16), ((s.leaOps l).length, 0)],
   reg 0x418 fun s => packNat [((s.lea l).wArray, 24), ((s.lea l).wCluster, 16), ((s.lea l).wMem, 8), ((s.lea l).wFab, 0)],
   reg64 0x420 fun s => (s.lea l).arrayEvents.toNat,
   reg64 0x428 fun s => (s.lea l).clusterEvents.toNat]

/-- A write of word `i` of a lea's MSI-X table (R404): its vector's message goes out as the Mask bit of a pending vector
is cleared, as PCIe defines. -/
def State.writeMsix (s : State) (l i : Nat) (v : Word) : State :=
  let w := if i % 4 = 3 then v &&& 1 else v
  let s := s.modLea l fun x => { x with msix := x.msix.insert i w }
  if i % 4 = 3 ∧ !bit v 0 ∧ (s.lea l).pba.getLsbD (i / 4) then
    (s.modLea l fun x => { x with pba := x.pba &&& ~~~ (1#64 <<< (i / 4)) }).interrupt l (i / 4)
  else s

/-- The register of lea `l` at an offset of its window. -/
def leaReg (l off : Nat) : Option (RegDef × Bool) :=
  if off < 0x100 then some (regW off (fun s => ((s.lea l).mbx.request.getD (off / 4) 0).toNat)
    (fun s v => s.modLea l fun x => { x with mbx := { x.mbx with request := x.mbx.request.insert (off / 4) v } }), false)
  else if off < 0x200 then some (reg off fun s => ((s.lea l).mbx.response.getD ((off - 0x100) / 4) 0).toNat, false)
  else if off < 0x1000 then findReg (leaRegs l) off
  else if off < 0x1800 then
    let r := (off - 0x1000) / 4
    some (regW off (fun s => (s.lea l).cdb.getD r 0) (fun s v => s.modLea l fun x => x.ringBell r v), false)
  else if off < 0x7000 then none
  else if off < 0x7400 then
    let i := (off - 0x7000) / 4
    some (regW off (fun s => ((s.lea l).msix.getD i (if i % 4 = 3 then 1 else 0)).toNat) (fun s v => s.writeMsix l i v), false)
  else if off < 0x7800 then none
  else if off < 0x7808 then
    some (reg off fun s => natField (s.lea l).pba.toNat (8 * (off - 0x7800) + 31) (8 * (off - 0x7800)), false)
  else if off < 0x8000 ∨ 0x10000 ≤ off ∨ off % 8 ≠ 0 then none
  else
    let q := (off - 0x8000) / 8
    some (regW off (fun s => (s.lea l).qdb.getD q 0) (fun s v => s.modLea l fun x => x.queueBell q v), false)

/-! ## Accesses (R6 to R9, R33, R390) -/

/-- The register of the physical function's BAR0 at an offset (Table 2.1). -/
def pfReg (off : Nat) : Option (RegDef × Bool) :=
  if off < 0x10000 then findReg hubRegs off
  else if off < 0x20000 then findReg cihRegs (off - 0x10000)
  else if 0x100000 ≤ off ∧ off < 0x140000 then wxReg ((off - 0x100000) / 0x10000) (off % 0x10000)
  else if 0x200000 ≤ off ∧ off < 0x210000 then findReg (edpRegs ((off - 0x200000) / 0x100)) (off % 0x100)
  else if 0x210000 ≤ off ∧ off < 0x211000 then findReg (fabRegs ((off - 0x210000) / 0x100)) (off % 0x100)
  else if 0x220000 ≤ off ∧ off < 0x230000 then findReg hykRegs (off - 0x220000)
  else if 0x230000 ≤ off ∧ off < 0x240000 then wdrReg (off - 0x230000)
  else if 0x240000 ≤ off ∧ off < 0x250000 then findReg tedRegs (off - 0x240000)
  else if 0x250000 ≤ off ∧ off < 0x260000 then findReg balRegs (off - 0x250000)
  else if 0x260000 ≤ off ∧ off < 0x270000 then mgtReg (off - 0x260000)
  else if 0x270000 ≤ off ∧ off < 0x280000 then findReg pwrRegs (off - 0x270000)
  else if 0xFF0000 ≤ off then leaReg 0 (off - 0xFF0000)
  else none

/-- The size of a lea's BAR0 (R33, R390). -/
def barSize (lea : Nat) : Nat := if lea = 0 then 2 ^ 24 else 2 ^ 16

/-- The register that an offset of a lea's BAR0 names: device-wide registers only for lea 0 (R33). -/
def regAt (lea off : Nat) : Option (RegDef × Bool) := if lea = 0 then pfReg off else leaReg lea off

/-- A read completes with this word. -/
def State.readData (s : State) (w : Word) : State :=
  { s with pcie := { s.pcie with lastRead := w, lastAbort := false } }

/-- A read of a register's word (R7, R9): a low word latches the high word, a high word returns the latched one, and RC
fields are cleared. -/
def State.readReg (s : State) (lea off : Nat) (r : RegDef) (high : Bool) : State :=
  let v := r.value s
  if high then
    match (s.lea lea).latch.find (off - 4) with
    | some w => (s.readData w).modLea lea fun x => { x with latch := x.latch.erase (off - 4) }
    | none => s.readData (BitVec.ofNat 32 (v >>> 32))
  else
    let s := r.clear (s.readData (BitVec.ofNat 32 v))
    if r.wide then s.modLea lea fun x => { x with latch := x.latch.insert off (BitVec.ofNat 32 (v >>> 32)) } else s

/-- A register access that is not a naturally aligned word completes with Completer Abort (R6). -/
def State.abortAccess (s : State) : State := { s with pcie := { s.pcie with lastAbort := true } }

/-- A read of a word at an offset of a lea's BAR0 (R6 to R9). -/
def State.readWordAt (s : State) (lea off : Nat) : State :=
  if !s.reachable lea || barSize lea ≤ off then s
  else if off % 4 ≠ 0 then s.abortAccess
  else match regAt lea off with
    | none => s.readData 0
    | some (r, high) => s.readReg lea off r high

/-- A write of a word at an offset of a lea's BAR0 (R6, R8, R9). -/
def State.writeWordAt (s : State) (lea off : Nat) (v : Word) : State :=
  if !s.reachable lea || barSize lea ≤ off then s
  else if off % 4 ≠ 0 then s.abortAccess
  else
    let s := { s with pcie := { s.pcie with lastAbort := false } }
    match regAt lea off with
    | none => s
    | some (r, high) => r.write s high v

/-- REGISTER_WRITE (R6, R8, R9). A command takes its effect whole, so no hardware set coincides with the clear (R56). -/
def execRegisterWrite (lea offset : Nat) (value : Word) (s : State) : Host.Outcome State Fault Refusal :=
  finish (s.writeWordAt lea offset value)

/-- RC_READ (R9): the RC fields of the register read are cleared. -/
def execRcRead (lea offset : Nat) (s : State) : Host.Outcome State Fault Refusal := finish (s.readWordAt lea offset)

/-- LOW_WORD_READ (R7): the low word of a 64-bit register latches its high word. -/
def execLowWordRead (lea offset : Nat) (s : State) : Host.Outcome State Fault Refusal := finish (s.readWordAt lea offset)

/-- CLUSTER_PRIV_WRITE (R140): a write of one half of WX_CLUSTER_PRIV. -/
def execClusterPrivWrite (die : Nat) (high : Bool) (value : Word) (s : State) : Host.Outcome State Fault Refusal :=
  if s.reachable 0 && die < 4 then finish (s.writePriv die high value) else finish s

end Sys2Proof.Machine
end

