-- ==== Sys2Proof/Machine/StepReplay.lean ====
section
/-!
DEFINITION. Machine/StepReplay.lean: STEP_REPLAY (12, R332).
-/

namespace Sys2Proof.Machine

/-- Whether a job may replay a step (R332): no op of it is in flight, no update op of the step has started, and none of its
Windrow groups has sent bucket 0 of a later step. -/
def State.mayReplay (s : State) (jh : Nat) (j : Job) (step : Word) : Bool :=
  (s.jobOps jh).isEmpty && !j.updateSteps.contains step &&
  (s.jobGroups jh).all fun e => e.2.firsts.all fun f => !signedLess step f.1

/-- A Windrow group goes back to bucket 0 of a step that it sent under GSEQ `q` (R332, item 2). -/
def WGroup.rewind (g : WGroup) (step q : Word) : WGroup :=
  let old (key : Nat) : Bool := signedLess (BitVec.ofNat 32 (key / 1024)) q
  { g with gseq := q, sendStep := some step, sendBucket := 0, lastStep := none, expectBase := q, expect := []
           chunks := g.chunks.sel fun k _ => old k, early := g.early.sel fun k _ => old k
           digests := g.digests.sel fun k _ => old k, empties := g.empties.filter fun x => signedLess x q
           steps := g.steps.filter fun x => x.step != step, written := g.written.filter (· != step)
           firsts := g.firsts.filter fun f => f.1 != step, lasts := g.lasts.filter fun f => f.1 != step
           rankUntil := if signedLess g.rankUntil (step + 1) then step + 1 else g.rankUntil }

/-- Items 1 to 3 of R332. -/
def State.replayStep (s : State) (jh : Nat) (j : Job) (step : Word) : State :=
  let s := s.discardReports j step
  let s := (s.jobGroups jh).foldl (fun (s : State) e => match e.2.firsts.find? fun f => f.1 == step with
    | none => s
    | some f => s.modGroup e.1 fun g => g.rewind step f.2) s
  let s := s.setPhase jh j false
  let s := s.modJob jh fun j => { j with logSince := some j.logNext }
  (List.range (2 ^ j.log2Dir)).foldl (fun (s : State) i =>
    if (s.dirEntry j i).step = step then s.clearDirValid j i else s) s

/-- Item 4 of R332. -/
def State.replayGathers (s : State) (jh : Nat) (j : Job) : State :=
  let s := (List.range (2 ^ j.log2Gather)).foldl (fun (s : State) i => s.clearStamped (j.gatherAddr i)) s
  s.modJob jh fun j => { j with replayPending := false }

/-- STEP_REPLAY: JOB, STEP (R332); a gather directory that cannot be read ends it with the status after items 1 to 3
(Table 8.7). -/
def cmdStepReplay : CmdDef := jobCmd 0x0510 2 fun s _ h j a =>
  need (s.mayReplay h j (wordAt a 1)) .stateMismatch <|
  needAccess (accessAll [s.access j.scaleRegion j.scaleLen, s.access j.stepRegion j.stepLen]) s <|
  match s.access j.gatherBase (32 * 2 ^ j.log2Gather) with
  | .stall => .defer s .memory
  | .bad sec st => .done ((s.lostRead sec).replayStep h j (wordAt a 1)) st []
  | .good => .ok ((s.replayStep h j (wordAt a 1)).replayGathers h j)

/-! ## The command row -/

/-- STEP_REPLAY (R332). -/
def execStepReplay (lea : Nat) (tag : Word) (args : List Word) (s : State) : Host.Outcome State Fault Refusal :=
  finish (s.issue cmdStepReplay lea tag args)

/-- The commands of this file. -/
def replayCommands : List CmdDef :=
  [cmdStepReplay]

end Sys2Proof.Machine
end

