-- ==== Sys2Proof/Machine/Commands.lean ====
section
/-!
DEFINITION. Machine/Commands.lean: every mailbox command of Table 2.6, and the row in which Cihal serves the next mailbox.
-/

namespace Sys2Proof.Machine

/-- Every mailbox command (Table 2.6, Table 2.7 and the command tables of the units). -/
def allCommands : List CmdDef :=
  hostCommands ++ jobCommands ++ firmwareCommands ++ powerCommands ++ hedgerowCommands ++ dieCommands ++ memoryCommands ++
  edgeCommands ++ portCommands ++ windrowCommands ++ balerCommands ++ roleCommands ++ receiveCommands ++ replayCommands ++
  resetCommands

/-- MAILBOX_SERVE (R36, R37): Cihal takes the next waiting command in round-robin order and serves it. -/
def execMailboxServe (s : State) : Host.Outcome State Fault Refusal :=
  match s.nextMailbox with
  | none => finish s
  | some l => finish (s.serve allCommands l)

end Sys2Proof.Machine
end

