-- ==== Sys2Proof/Machine/StartUp.lean ====
section
/-!
DEFINITION. Machine/StartUp.lean: cold start (16, Table 16.2, Table 16.3), power loss, and the return of the reference
clock (R26).
-/

namespace Sys2Proof.Machine

/-- What a store write cut short leaves (Table 16.10, R460, R480). -/
def Firmware.cutShort (f : Firmware) (c : StoreCut) : Firmware :=
  match c with
  | .nothing => f
  | .bank => match f.writable with
    | none => f
    | some b => f.eraseBank b
  | .record => match f.record with
    | some (0, _) => { f with rec1 := none }
    | some _ => { f with rec0 := none }
    | none => f
  | .header =>
    let b := if f.trial then f.running else f.verified.getD f.running
    f.putBank b 8180 (List.replicate 12 0xFF)

/-- What outlives a power loss or a cold start: the fuses and the two-bank store (R436), with the commands that wait and
the model's own count of free values. -/
def State.afterLoss (s : State) (c : StoreCut) : State :=
  let f := s.fw.cutShort c
  let r := State.reset
  { r with pending := s.pending, hub := { r.hub with free := s.hub.free }
           fw := { r.fw with fuses := f.fuses, flash := f.flash, rec0 := f.rec0, rec1 := f.rec1 } }

/-- POWER_LOSS (R436, Table 16.10). -/
def execPowerLoss (cut : StoreCut) (s : State) : Host.Outcome State Fault Refusal :=
  finish { s.afterLoss cut with board := { powered := false } }

/-- No bank holds a valid image (R448). -/
def State.noImage (s : State) : State :=
  (({ s with fw := { s.fw with noImage := true, rom := true } }.setOnline 28 true).setOnline 29 true).queueEvent 0
    (faultEvent .storeFault 0x09 0) |>.ibi 5

/-- Step 9 for one die: census and self-test (R246). -/
def State.startDie (s : State) (d : Nat) (c : Census) : State :=
  let s := s.census d c.failed
  if (s.die d).narrow || !c.selfTest then s.fenceDie d
  else (s.dieIn d).modDie d fun x => { x with rate := c.rate, rateValid := true }

/-- Every die's step 9. -/
def State.startDies (s : State) (l : List Census) : State :=
  (List.range 4).foldl (fun s d => s.startDie d (l.getD d { failed := [], selfTest := false, rate := 0 })) s

/-- Step 10 for one stack: its PHY comes up, its channels serve, or the stack is lost. -/
def State.startStack (s : State) (pass : BitVec 8) (k : Nat) : State :=
  let s := s.setOnline k true
  let s := (range' (32 * k) 32).foldl (fun s ch => s.modChannel ch fun c =>
    { c with online := true, sparePins := min 4 (Config.trainedSpares ch).1, spareRows := (Config.trainedSpares ch).2 % 256 }) s
  if pass.getLsbD k then s else s.loseStack k

/-- Domains come up. -/
def State.bringUp (s : State) (l : List Nat) : State := l.foldl (fun s d => s.setOnline d true) s

/-- Step 13: the record is written with BOOT_COUNT + 1 and a fresh leaf block (R451), a lost leaf state first takes a
new key generation (R453); the device is READY and lea 0 ENABLED (R502). -/
def State.finishStart (s : State) : State :=
  let s := if s.fw.leafUnknown then { s with fw := s.fw.advanceKeygen } else s
  let k := s.fw.fuses.keygen
  let first := s.fw.nextLeaf
  let s := s.writeRecord fun r => { r with bootCount := r.bootCount + 1, leafLimit := first + 64, keygen := k }
  (s.setDev .ready).setLeaSt 0 .enabled

/-- Step 7: the core voltage comes up. -/
def State.coldPower (s : State) (c : ColdStart) : State :=
  let p := { s.pwr with coreOff := false, vCap := s.pwr.target, vTherm := s.pwr.target, tj := c.tj }
  { s with pwr := p.apply, fw := { s.fw with coldWait := none } }

/-- Steps 10 to 13, unless every die was fenced (R246). -/
def State.coldLast (s : State) (c : ColdStart) : State :=
  match s.hub.dev with
  | .halted => s
  | _ => (((List.range 8).foldl (fun s k => s.startStack c.stacksOk k) s).bringUp (30 :: 39 :: range' 8 20)).finishStart

/-- Steps 7 to 13 of Table 16.2. -/
def State.coldEnd (s : State) (c : ColdStart) : State :=
  (((s.coldPower c).bringUp [36, 28, 29]).startDies c.dies).coldLast c

/-- Step 6: the image in bank `b` starts (R447, R462); a cold trial that does not report alive is waited for. -/
def State.coldImage (s : State) (c : ColdStart) (b : Nat) : State :=
  if s.fw.bankTrial b = 1 then
    let f := (s.fw.rewriteHeader b (s.fw.bankSeq b) 2).run b
    let f := { f with coldTrial := true, coldSince := s.now }
    if c.alive then { s with fw := f }.coldEnd c else { s with fw := { f with coldWait := some c } }
  else { s with fw := s.fw.run b }.coldEnd c

/-- Steps 3 to 6 of Table 16.2. -/
def State.coldMiddle (s : State) (c : ColdStart) : State :=
  let f := s.fw.fuses
  let e := { s.edge with refPresent := true, refLostAt := none, pmOsc := false, cihOsc := false }
  let s := { s with edge := e, hdr := { s.hdr with mac := f.mac, seed := c.seed.toNat + leToNat f.mac }
                    fw := { s.fw with coldWait := none } }
  let s := s.bringUp [31, 32, 34, 35, 38]
  let s := if c.entropy then s.setOnline 37 true else s.fenceDomain 37
  if !c.xspi then s.ibi 5
  else
    let s := s.setOnline 33 true
    let s := { s with fw := { s.fw with leafUnknown := s.fw.record.isNone, nextLeaf := s.fw.current.leafLimit } }
    match s.fw.winner with
    | none => s.noImage
    | some b => s.coldImage c b

/-- Step 2 of Table 16.2: without the reference clock the part waits on its oscillator (Table 16.3). -/
def State.coldBegin (s : State) (c : ColdStart) : State :=
  if c.refclk then s.coldMiddle c
  else
    let e := { s.edge with pmOsc := true, cihOsc := true, refLostAt := some s.now }
    ({ s with edge := e, fw := { s.fw with coldWait := some c } }.bringUp [31, 32]).ibi 1

/-- COLD_START (R437, R439, R440, R480). -/
def execColdStart (c : ColdStart) (s : State) : Host.Outcome State Fault Refusal :=
  finish ((s.afterLoss c.cut).coldBegin c)

/-- COLD_TRIAL_ALIVE_TIMEOUT (R462): Cihal ROM starts the other valid bank, and the cold start goes on. -/
def execColdTrialAliveTimeout (s : State) : Host.Outcome State Fault Refusal :=
  match s.fw.coldWait with
  | none => finish s
  | some c =>
    if !s.fw.coldTrial || s.elapsed s.fw.coldSince < s.fw.fwAlive then finish s
    else
      let f := { s.fw with coldTrial := false, reverted := true, revertCount := s.fw.revertCount + 1, coldWait := none }
      let s := { s with fw := f }
      match s.fw.winner with
      | none => finish s.noImage
      | some b => finish ({ s with fw := s.fw.run b }.coldEnd c)

/-- REFCLK_RETURN (R26): offline domains, and 31 and 32 unless fenced, recover one at a time in index order; a cold
start that waits for the clock resumes (Table 16.3). -/
def execRefclkReturn (s : State) : Host.Outcome State Fault Refusal :=
  if s.edge.refPresent then finish s
  else match s.fw.coldWait, s.hub.dev with
    | some c, .boot => finish (s.coldMiddle { c with refclk := true })
    | _, _ =>
      let l := (List.range 40).filter fun d =>
        !s.edgeFenced d && (!s.edgeOn d || d == 31 || d == 32)
      let s := { s with edge := { s.edge with refPresent := true, refLostAt := none, returning := l } }
      finish s.nextRecovery

end Sys2Proof.Machine
end

