-- ==== Sys2Proof/Machine/Dispatch.lean ====
section
/-!
DEFINITION. Machine/Dispatch.lean: the one table from commands to their meanings.
-/

namespace Sys2Proof.Machine

/-- The meaning of a command: its effect on everything but the queue of waiting commands. -/
def exec (i : Instr) (s : State) : Host.Outcome State Fault Refusal :=
  match i with
  | .coldStart c => Sys2Proof.Machine.execColdStart c s
  | .perst => Sys2Proof.Machine.execPerst s
  | .pcieLinkDown => Sys2Proof.Machine.execPcieLinkDown s
  | .pcieLinkUp width gen => Sys2Proof.Machine.execPcieLinkUp width gen s
  | .misalignedRegAccess lea offset write => Sys2Proof.Machine.execMisalignedRegAccess lea offset write s
  | .registerWrite lea offset value => Sys2Proof.Machine.execRegisterWrite lea offset value s
  | .rcRead lea offset => Sys2Proof.Machine.execRcRead lea offset s
  | .lowWordRead lea offset => Sys2Proof.Machine.execLowWordRead lea offset s
  | .mbxDoorbell lea => Sys2Proof.Machine.execMbxDoorbell lea s
  | .mailboxServe => Sys2Proof.Machine.execMailboxServe s
  | .queueDoorbell lea q tail => Sys2Proof.Machine.execQueueDoorbell lea q tail s
  | .cringHeadDoorbell lea r head => Sys2Proof.Machine.execCringHeadDoorbell lea r head s
  | .clusterPrivWrite die high value => Sys2Proof.Machine.execClusterPrivWrite die high value s
  | .mgtRingWrite value => Sys2Proof.Machine.execMgtRingWrite value s
  | .numvfsWrite n => Sys2Proof.Machine.execNumvfsWrite n s
  | .absentVfAccess lea offset write => Sys2Proof.Machine.execAbsentVfAccess lea offset write s
  | .vfEnableSet => Sys2Proof.Machine.execVfEnableSet s
  | .vfEnableClear => Sys2Proof.Machine.execVfEnableClear s
  | .flrLea lea => Sys2Proof.Machine.execFlrLea lea s
  | .flrPf => Sys2Proof.Machine.execFlrPf s
  | .leaResetOpsStopped lea => Sys2Proof.Machine.execLeaResetOpsStopped lea s
  | .ping lea tag args => Sys2Proof.Machine.execPing lea tag args s
  | .getInfo lea tag args => Sys2Proof.Machine.execGetInfo lea tag args s
  | .getStatus lea tag args => Sys2Proof.Machine.execGetStatus lea tag args s
  | .leaEnable lea tag args => Sys2Proof.Machine.execLeaEnable lea tag args s
  | .leaDisable lea tag args => Sys2Proof.Machine.execLeaDisable lea tag args s
  | .leaReset lea tag args => Sys2Proof.Machine.execLeaReset lea tag args s
  | .cringCreate lea tag args => Sys2Proof.Machine.execCringCreate lea tag args s
  | .cringDestroy lea tag args => Sys2Proof.Machine.execCringDestroy lea tag args s
  | .queueCreate lea tag args => Sys2Proof.Machine.execQueueCreate lea tag args s
  | .queueStop lea tag args => Sys2Proof.Machine.execQueueStop lea tag args s
  | .queueStart lea tag args => Sys2Proof.Machine.execQueueStart lea tag args s
  | .queueDestroy lea tag args => Sys2Proof.Machine.execQueueDestroy lea tag args s
  | .counterSet lea tag args => Sys2Proof.Machine.execCounterSet lea tag args s
  | .edgeRetry lea tag args => Sys2Proof.Machine.execEdgeRetry lea tag args s
  | .deviceHalt lea tag args => Sys2Proof.Machine.execDeviceHalt lea tag args s
  | .slotFetch lea q slot => Sys2Proof.Machine.execSlotFetch lea q slot s
  | .opStart n => Sys2Proof.Machine.execOpStart n s
  | .opCompletion n => Sys2Proof.Machine.execOpCompletion n s
  | .completionRingRoom n => Sys2Proof.Machine.execCompletionRingRoom n s
  | .scaleFold job inst => Sys2Proof.Machine.execScaleFold job inst s
  | .nextMatrixOpPick => Sys2Proof.Machine.execNextMatrixOpPick s
  | .matrixOp => Sys2Proof.Machine.execMatrixOp s
  | .arrayPassStart => Sys2Proof.Machine.execArrayPassStart s
  | .arrayPassEnd => Sys2Proof.Machine.execArrayPassEnd s
  | .elementwiseOp cl => Sys2Proof.Machine.execElementwiseOp cl s
  | .rowDispatch cl => Sys2Proof.Machine.execRowDispatch cl s
  | .rowEnd cl => Sys2Proof.Machine.execRowEnd cl s
  | .softmaxFwd cl => Sys2Proof.Machine.execSoftmaxFwd cl s
  | .softmaxBwd cl => Sys2Proof.Machine.execSoftmaxBwd cl s
  | .actFwd cl => Sys2Proof.Machine.execActFwd cl s
  | .actBwd cl => Sys2Proof.Machine.execActBwd cl s
  | .stashWrite cl => Sys2Proof.Machine.execStashWrite cl s
  | .convert cl => Sys2Proof.Machine.execConvert cl s
  | .nop cl f => Sys2Proof.Machine.execNop cl f s
  | .halt cl f => Sys2Proof.Machine.execHalt cl f s
  | .setvl cl f => Sys2Proof.Machine.execSetvl cl f s
  | .setvlP cl f => Sys2Proof.Machine.execSetvlP cl f s
  | .bnz cl f => Sys2Proof.Machine.execBnz cl f s
  | .jmp cl f => Sys2Proof.Machine.execJmp cl f s
  | .sublen cl f => Sys2Proof.Machine.execSublen cl f s
  | .addlen cl f => Sys2Proof.Machine.execAddlen cl f s
  | .mov cl f => Sys2Proof.Machine.execMov cl f s
  | .movi cl f => Sys2Proof.Machine.execMovi cl f s
  | .uadd cl f => Sys2Proof.Machine.execUadd cl f s
  | .usub cl f => Sys2Proof.Machine.execUsub cl f s
  | .addmx cl f => Sys2Proof.Machine.execAddmx cl f s
  | .fadd cl f => Sys2Proof.Machine.execFadd cl f s
  | .fsub cl f => Sys2Proof.Machine.execFsub cl f s
  | .fmul cl f => Sys2Proof.Machine.execFmul cl f s
  | .fma cl f => Sys2Proof.Machine.execFma cl f s
  | .fmin cl f => Sys2Proof.Machine.execFmin cl f s
  | .fmax cl f => Sys2Proof.Machine.execFmax cl f s
  | .fabs cl f => Sys2Proof.Machine.execFabs cl f s
  | .fneg cl f => Sys2Proof.Machine.execFneg cl f s
  | .fcmp cl f => Sys2Proof.Machine.execFcmp cl f s
  | .fsel cl f => Sys2Proof.Machine.execFsel cl f s
  | .padd cl f => Sys2Proof.Machine.execPadd cl f s
  | .pmul cl f => Sys2Proof.Machine.execPmul cl f s
  | .pfma cl f => Sys2Proof.Machine.execPfma cl f s
  | .exp2 cl f => Sys2Proof.Machine.execExp2 cl f s
  | .log2 cl f => Sys2Proof.Machine.execLog2 cl f s
  | .rcp cl f => Sys2Proof.Machine.execRcp cl f s
  | .rsqrt cl f => Sys2Proof.Machine.execRsqrt cl f s
  | .tanh cl f => Sys2Proof.Machine.execTanh cl f s
  | .erf cl f => Sys2Proof.Machine.execErf cl f s
  | .sigm cl f => Sys2Proof.Machine.execSigm cl f s
  | .fdiv cl f => Sys2Proof.Machine.execFdiv cl f s
  | .iadd cl f => Sys2Proof.Machine.execIadd cl f s
  | .isub cl f => Sys2Proof.Machine.execIsub cl f s
  | .imul cl f => Sys2Proof.Machine.execImul cl f s
  | .and cl f => Sys2Proof.Machine.execAnd cl f s
  | .or cl f => Sys2Proof.Machine.execOr cl f s
  | .xor cl f => Sys2Proof.Machine.execXor cl f s
  | .shl cl f => Sys2Proof.Machine.execShl cl f s
  | .shr cl f => Sys2Proof.Machine.execShr cl f s
  | .icmp cl f => Sys2Proof.Machine.execIcmp cl f s
  | .redsum cl f => Sys2Proof.Machine.execRedsum cl f s
  | .redmax cl f => Sys2Proof.Machine.execRedmax cl f s
  | .redmin cl f => Sys2Proof.Machine.execRedmin cl f s
  | .bcast cl f => Sys2Proof.Machine.execBcast cl f s
  | .perm cl f => Sys2Proof.Machine.execPerm cl f s
  | .ldF cl f => Sys2Proof.Machine.execLdF cl f s
  | .stF cl f => Sys2Proof.Machine.execStF cl f s
  | .ldmx cl f => Sys2Proof.Machine.execLdmx cl f s
  | .stmx cl f => Sys2Proof.Machine.execStmx cl f s
  | .stmxS cl f => Sys2Proof.Machine.execStmxS cl f s
  | .ldm cl f => Sys2Proof.Machine.execLdm cl f s
  | .lds cl f => Sys2Proof.Machine.execLds cl f s
  | .sts cl f => Sys2Proof.Machine.execSts cl f s
  | .amo cl f => Sys2Proof.Machine.execAmo cl f s
  | .cvt cl f => Sys2Proof.Machine.execCvt cl f s
  | .sgd n => Sys2Proof.Machine.execSgd n s
  | .adamw n => Sys2Proof.Machine.execAdamw n s
  | .lion n => Sys2Proof.Machine.execLion n s
  | .accumulate n => Sys2Proof.Machine.execAccumulate n s
  | .phase n => Sys2Proof.Machine.execPhase n s
  | .phaseComplete n => Sys2Proof.Machine.execPhaseComplete n s
  | .mark n => Sys2Proof.Machine.execMark n s
  | .normRead n => Sys2Proof.Machine.execNormRead n s
  | .clip n => Sys2Proof.Machine.execClip n s
  | .shardStamp n => Sys2Proof.Machine.execShardStamp n s
  | .shardCheck n => Sys2Proof.Machine.execShardCheck n s
  | .prefetch n => Sys2Proof.Machine.execPrefetch n s
  | .copyLocal n => Sys2Proof.Machine.execCopyLocal n s
  | .copyPeer n => Sys2Proof.Machine.execCopyPeer n s
  | .copyPost n => Sys2Proof.Machine.execCopyPost n s
  | .windrowOp n => Sys2Proof.Machine.execWindrowOp n s
  | .windrowSend n => Sys2Proof.Machine.execWindrowSend n s
  | .contrib => Sys2Proof.Machine.execContrib s
  | .result => Sys2Proof.Machine.execResult s
  | .escalateReq => Sys2Proof.Machine.execEscalateReq s
  | .chunkDeadline group key => Sys2Proof.Machine.execChunkDeadline group key s
  | .resultLimitExpiry n => Sys2Proof.Machine.execResultLimitExpiry n s
  | .dispatch n => Sys2Proof.Machine.execDispatch n s
  | .returnRows n => Sys2Proof.Machine.execReturnRows n s
  | .combine n => Sys2Proof.Machine.execCombine n s
  | .tokens => Sys2Proof.Machine.execTokens s
  | .returnRecords => Sys2Proof.Machine.execReturnRecords s
  | .snapshot n => Sys2Proof.Machine.execSnapshot n s
  | .snapshotCapture n => Sys2Proof.Machine.execSnapshotCapture n s
  | .weightsSweep job => Sys2Proof.Machine.execWeightsSweep job s
  | .lossRecord n => Sys2Proof.Machine.execLossRecord n s
  | .sealImage job => Sys2Proof.Machine.execSealImage job s
  | .restore n => Sys2Proof.Machine.execRestore n s
  | .lossCheck n => Sys2Proof.Machine.execLossCheck n s
  | .historySync n => Sys2Proof.Machine.execHistorySync n s
  | .digest n => Sys2Proof.Machine.execDigest n s
  | .fill n => Sys2Proof.Machine.execFill n s
  | .digestLimitExpiry n => Sys2Proof.Machine.execDigestLimitExpiry n s
  | .getData => Sys2Proof.Machine.execGetData s
  | .sealed => Sys2Proof.Machine.execSealed s
  | .refused => Sys2Proof.Machine.execRefused s
  | .digestMsg => Sys2Proof.Machine.execDigestMsg s
  | .history => Sys2Proof.Machine.execHistory s
  | .fillReq => Sys2Proof.Machine.execFillReq s
  | .fillData => Sys2Proof.Machine.execFillData s
  | .fillDone => Sys2Proof.Machine.execFillDone s
  | .fillAbort => Sys2Proof.Machine.execFillAbort s
  | .memUnitConfig lea tag args => Sys2Proof.Machine.execMemUnitConfig lea tag args s
  | .memRefillSet lea tag args => Sys2Proof.Machine.execMemRefillSet lea tag args s
  | .memRefillClear lea tag args => Sys2Proof.Machine.execMemRefillClear lea tag args s
  | .memPin lea tag args => Sys2Proof.Machine.execMemPin lea tag args s
  | .memUnpin lea tag args => Sys2Proof.Machine.execMemUnpin lea tag args s
  | .memScrubSet lea tag args => Sys2Proof.Machine.execMemScrubSet lea tag args s
  | .memPoisonList lea tag args => Sys2Proof.Machine.execMemPoisonList lea tag args s
  | .memTgStart lea tag args => Sys2Proof.Machine.execMemTgStart lea tag args s
  | .memTgStop lea tag args => Sys2Proof.Machine.execMemTgStop lea tag args s
  | .tgRunEnd ch mismatches pins => Sys2Proof.Machine.execTgRunEnd ch mismatches pins s
  | .hbmUncorrectableRead sector => Sys2Proof.Machine.execHbmUncorrectableRead sector s
  | .refillTableFree => Sys2Proof.Machine.execRefillTableFree s
  | .refillReqResend sector => Sys2Proof.Machine.execRefillReqResend sector s
  | .refillDeadline sector => Sys2Proof.Machine.execRefillDeadline sector s
  | .detectedReadError n sector => Sys2Proof.Machine.execDetectedReadError n sector s
  | .recomputeFinish job => Sys2Proof.Machine.execRecomputeFinish job s
  | .correctedReadError sector => Sys2Proof.Machine.execCorrectedReadError sector s
  | .channelRepair ch pin => Sys2Proof.Machine.execChannelRepair ch pin s
  | .patrolScrub corrected uncorrectable => Sys2Proof.Machine.execPatrolScrub corrected uncorrectable s
  | .cacheError sector correctable => Sys2Proof.Machine.execCacheError sector correctable s
  | .edpinFault stack => Sys2Proof.Machine.execEdpinFault stack s
  | .edgeClockLoss dom => Sys2Proof.Machine.execEdgeClockLoss dom s
  | .edgePllRelock dom => Sys2Proof.Machine.execEdgePllRelock dom s
  | .edgeRelockTimeout dom => Sys2Proof.Machine.execEdgeRelockTimeout dom s
  | .queuedEdgeRecovery => Sys2Proof.Machine.execQueuedEdgeRecovery s
  | .refclkLoss => Sys2Proof.Machine.execRefclkLoss s
  | .refclkReturn => Sys2Proof.Machine.execRefclkReturn s
  | .refclkAbsentTimeout => Sys2Proof.Machine.execRefclkAbsentTimeout s
  | .oscillatorFailure dom recovered => Sys2Proof.Machine.execOscillatorFailure dom recovered s
  | .stileInvalidCode die dir lane => Sys2Proof.Machine.execStileInvalidCode die dir lane s
  | .stileCrcMismatch die => Sys2Proof.Machine.execStileCrcMismatch die s
  | .laneErrorInterval => Sys2Proof.Machine.execLaneErrorInterval s
  | .groupStallTimeout die dir lanes => Sys2Proof.Machine.execGroupStallTimeout die dir lanes s
  | .bundleRepairDone die bundle verified => Sys2Proof.Machine.execBundleRepairDone die bundle verified s
  | .welxisInternalFault die => Sys2Proof.Machine.execWelxisInternalFault die s
  | .welxisSelfTestEnd die census => Sys2Proof.Machine.execWelxisSelfTestEnd die census s
  | .queuedWelxisReset => Sys2Proof.Machine.execQueuedWelxisReset s
  | .dieRejoin die => Sys2Proof.Machine.execDieRejoin die s
  | .wxReset lea tag args => Sys2Proof.Machine.execWxReset lea tag args s
  | .wxFence lea tag args => Sys2Proof.Machine.execWxFence lea tag args s
  | .wxUnfence lea tag args => Sys2Proof.Machine.execWxUnfence lea tag args s
  | .stileCensusRead lea tag args => Sys2Proof.Machine.execStileCensusRead lea tag args s
  | .stileWidthSet lea tag args => Sys2Proof.Machine.execStileWidthSet lea tag args s
  | .stileRetireClear lea tag args => Sys2Proof.Machine.execStileRetireClear lea tag args s
  | .fabPortConfig lea tag args => Sys2Proof.Machine.execFabPortConfig lea tag args s
  | .fabPortEnable lea tag args => Sys2Proof.Machine.execFabPortEnable lea tag args s
  | .fabPortDisable lea tag args => Sys2Proof.Machine.execFabPortDisable lea tag args s
  | .fabAddrSet lea tag args => Sys2Proof.Machine.execFabAddrSet lea tag args s
  | .fabMacsecKey lea tag args => Sys2Proof.Machine.execFabMacsecKey lea tag args s
  | .hykKeyLoad lea tag args => Sys2Proof.Machine.execHykKeyLoad lea tag args s
  | .hykKeySwitch lea tag args => Sys2Proof.Machine.execHykKeySwitch lea tag args s
  | .hykPeerSet lea tag args => Sys2Proof.Machine.execHykPeerSet lea tag args s
  | .hykPeerReset lea tag args => Sys2Proof.Machine.execHykPeerReset lea tag args s
  | .hykWindowSet lea tag args => Sys2Proof.Machine.execHykWindowSet lea tag args s
  | .hykWindowClear lea tag args => Sys2Proof.Machine.execHykWindowClear lea tag args s
  | .hykCfg lea tag args => Sys2Proof.Machine.execHykCfg lea tag args s
  | .portLinkFault port uncorrected corrected other => Sys2Proof.Machine.execPortLinkFault port uncorrected corrected other s
  | .portBringupDone port => Sys2Proof.Machine.execPortBringupDone port s
  | .portHoldExpiry port => Sys2Proof.Machine.execPortHoldExpiry port s
  | .connectorDetach engine => Sys2Proof.Machine.execConnectorDetach engine s
  | .connectorLatch engine => Sys2Proof.Machine.execConnectorLatch engine s
  | .arpRequest port srcMac srcIp target => Sys2Proof.Machine.execArpRequest port srcMac srcIp target s
  | .neighborSolicitation port srcMac srcIp target => Sys2Proof.Machine.execNeighborSolicitation port srcMac srcIp target s
  | .pauseFrame port => Sys2Proof.Machine.execPauseFrame port s
  | .data f => Sys2Proof.Machine.execData f s
  | .post f => Sys2Proof.Machine.execPost f s
  | .ack f => Sys2Proof.Machine.execAck f s
  | .nak f => Sys2Proof.Machine.execNak f s
  | .heartbeat f => Sys2Proof.Machine.execHeartbeat f s
  | .refillReq f => Sys2Proof.Machine.execRefillReq f s
  | .refillReqServe => Sys2Proof.Machine.execRefillReqServe s
  | .refillReply f => Sys2Proof.Machine.execRefillReply f s
  | .ackDelayExpiry job chan => Sys2Proof.Machine.execAckDelayExpiry job chan s
  | .retxTimeout job chan => Sys2Proof.Machine.execRetxTimeout job chan s
  | .rateWindowEnd job rank => Sys2Proof.Machine.execRateWindowEnd job rank s
  | .roleResendTimer job index => Sys2Proof.Machine.execRoleResendTimer job index s
  | .roleResolveTimeout job index => Sys2Proof.Machine.execRoleResolveTimeout job index s
  | .wdrGroupSet lea tag args => Sys2Proof.Machine.execWdrGroupSet lea tag args s
  | .wdrGroupClear lea tag args => Sys2Proof.Machine.execWdrGroupClear lea tag args s
  | .wdrModeSet lea tag args => Sys2Proof.Machine.execWdrModeSet lea tag args s
  | .wdrSeqReset lea tag args => Sys2Proof.Machine.execWdrSeqReset lea tag args s
  | .wdrGroupRead lea tag args => Sys2Proof.Machine.execWdrGroupRead lea tag args s
  | .jobBind lea tag args => Sys2Proof.Machine.execJobBind lea tag args s
  | .jobUnbind lea tag args => Sys2Proof.Machine.execJobUnbind lea tag args s
  | .jobRead lea tag args => Sys2Proof.Machine.execJobRead lea tag args s
  | .roleWrite lea tag args => Sys2Proof.Machine.execRoleWrite lea tag args s
  | .roleRead lea tag args => Sys2Proof.Machine.execRoleRead lea tag args s
  | .stepReplay lea tag args => Sys2Proof.Machine.execStepReplay lea tag args s
  | .shardSet lea tag args => Sys2Proof.Machine.execShardSet lea tag args s
  | .shardClear lea tag args => Sys2Proof.Machine.execShardClear lea tag args s
  | .tedSet lea tag args => Sys2Proof.Machine.execTedSet lea tag args s
  | .tedClear lea tag args => Sys2Proof.Machine.execTedClear lea tag args s
  | .tedHomeSet lea tag args => Sys2Proof.Machine.execTedHomeSet lea tag args s
  | .creditLinkSet lea tag args => Sys2Proof.Machine.execCreditLinkSet lea tag args s
  | .creditLinkClear lea tag args => Sys2Proof.Machine.execCreditLinkClear lea tag args s
  | .balSet lea tag args => Sys2Proof.Machine.execBalSet lea tag args s
  | .balTargetSet lea tag args => Sys2Proof.Machine.execBalTargetSet lea tag args s
  | .balRegionSet lea tag args => Sys2Proof.Machine.execBalRegionSet lea tag args s
  | .balRegionClear lea tag args => Sys2Proof.Machine.execBalRegionClear lea tag args s
  | .balKeyTag lea tag args => Sys2Proof.Machine.execBalKeyTag lea tag args s
  | .balObjectSet lea tag args => Sys2Proof.Machine.execBalObjectSet lea tag args s
  | .balAbandon lea tag args => Sys2Proof.Machine.execBalAbandon lea tag args s
  | .balStateRead lea tag args => Sys2Proof.Machine.execBalStateRead lea tag args s
  | .leaQuotaSet lea tag args => Sys2Proof.Machine.execLeaQuotaSet lea tag args s
  | .leaQuotaRead lea tag args => Sys2Proof.Machine.execLeaQuotaRead lea tag args s
  | .leaShareSet lea tag args => Sys2Proof.Machine.execLeaShareSet lea tag args s
  | .leaGrantSet lea tag args => Sys2Proof.Machine.execLeaGrantSet lea tag args s
  | .leaGrantClear lea tag args => Sys2Proof.Machine.execLeaGrantClear lea tag args s
  | .leaGrantRead lea tag args => Sys2Proof.Machine.execLeaGrantRead lea tag args s
  | .mgtAddrSet lea tag args => Sys2Proof.Machine.execMgtAddrSet lea tag args s
  | .mgtSrcSet lea tag args => Sys2Proof.Machine.execMgtSrcSet lea tag args s
  | .mgtSrcRead lea tag args => Sys2Proof.Machine.execMgtSrcRead lea tag args s
  | .mgtRingSet lea tag args => Sys2Proof.Machine.execMgtRingSet lea tag args s
  | .mgtRingClear lea tag args => Sys2Proof.Machine.execMgtRingClear lea tag args s
  | .mgtHbSet lea tag args => Sys2Proof.Machine.execMgtHbSet lea tag args s
  | .mgtHbClear lea tag args => Sys2Proof.Machine.execMgtHbClear lea tag args s
  | .mgtStageArm lea tag args => Sys2Proof.Machine.execMgtStageArm lea tag args s
  | .mgtStageDisarm lea tag args => Sys2Proof.Machine.execMgtStageDisarm lea tag args s
  | .hostFrame f => Sys2Proof.Machine.execHostFrame f s
  | .hdrHeartbeat f => Sys2Proof.Machine.execHdrHeartbeat f s
  | .healthReq f => Sys2Proof.Machine.execHealthReq f s
  | .stage f => Sys2Proof.Machine.execStage f s
  | .hbInterval h => Sys2Proof.Machine.execHbInterval h s
  | .hdrTransmit => Sys2Proof.Machine.execHdrTransmit s
  | .hdrCollision => Sys2Proof.Machine.execHdrCollision s
  | .hdrBackoffExpiry => Sys2Proof.Machine.execHdrBackoffExpiry s
  | .mediumStuck => Sys2Proof.Machine.execMediumStuck s
  | .mediumIdle => Sys2Proof.Machine.execMediumIdle s
  | .tokenBucketRefill => Sys2Proof.Machine.execTokenBucketRefill s
  | .fwWrite lea tag args => Sys2Proof.Machine.execFwWrite lea tag args s
  | .fwVerify lea tag args => Sys2Proof.Machine.execFwVerify lea tag args s
  | .fwActivate lea tag args => Sys2Proof.Machine.execFwActivate lea tag args s
  | .handoverAlive => Sys2Proof.Machine.execHandoverAlive s
  | .fwAliveTimeout => Sys2Proof.Machine.execFwAliveTimeout s
  | .coldTrialAliveTimeout => Sys2Proof.Machine.execColdTrialAliveTimeout s
  | .fwCommit lea tag args => Sys2Proof.Machine.execFwCommit lea tag args s
  | .fwSvnCommit lea tag args => Sys2Proof.Machine.execFwSvnCommit lea tag args s
  | .fwInfo lea tag args => Sys2Proof.Machine.execFwInfo lea tag args s
  | .fwCommitCold lea tag args => Sys2Proof.Machine.execFwCommitCold lea tag args s
  | .attest lea tag args => Sys2Proof.Machine.execAttest lea tag args s
  | .attestDeferredSign => Sys2Proof.Machine.execAttestDeferredSign s
  | .storeRead lea tag args => Sys2Proof.Machine.execStoreRead lea tag args s
  | .pwrSet lea tag args => Sys2Proof.Machine.execPwrSet lea tag args s
  | .pwrThermalSet lea tag args => Sys2Proof.Machine.execPwrThermalSet lea tag args s
  | .powerWindowEnd watts badRails => Sys2Proof.Machine.execPowerWindowEnd watts badRails s
  | .thermalSample sensor tj => Sys2Proof.Machine.execThermalSample sensor tj s
  | .overCurrentWarning => Sys2Proof.Machine.execOverCurrentWarning s
  | .i3cPrivateRead => Sys2Proof.Machine.execI3cPrivateRead s
  | .jtagBypass => Sys2Proof.Machine.execJtagBypass s
  | .jtagIdcode => Sys2Proof.Machine.execJtagIdcode s
  | .jtagSamplePreload => Sys2Proof.Machine.execJtagSamplePreload s
  | .jtagExtest => Sys2Proof.Machine.execJtagExtest s
  | .jtagClamp => Sys2Proof.Machine.execJtagClamp s
  | .powerLoss cut => Sys2Proof.Machine.execPowerLoss cut s
  | .receivedFrame f => Sys2Proof.Machine.execReceivedFrame f s
  | .i3cDynamicAddress a => Sys2Proof.Machine.execI3cDynamicAddress a s

end Sys2Proof.Machine
end

