-- ==== Sys2Proof/Machine/Tick.lean ====
section
/-!
DEFINITION. Machine/Tick.lean: what time does when no command waits. DESIGN CHOICE (log 2): a step on an empty queue is
one count of the Cihal domain counter, which stops while the Cihal domain is offline (R23, R27).
-/

namespace Sys2Proof.Machine

/-- One count of the Cihal domain counter (R23, R27). -/
def State.tick (s : State) : State :=
  if s.edgeOn 31 then { s with edge := { s.edge with count := s.edge.count + 1 } } else s

end Sys2Proof.Machine
end

