-- ==== Sys2Proof/Machine/Step.lean ====
section
/-!
DEFINITION. Machine/Step.lean: one step of the block: the command at the front of the queue takes its effect, and on an
empty queue the Cihal domain counter counts.
-/

namespace Sys2Proof.Machine

/-- The state with the command that a word spells put at the front of its queue, and unchanged where it spells none. -/
def State.withFetchWord (s : State) (nbits w : Nat) : State :=
  match decodeTableWord nbits w with
  | none => s
  | some c => { s with pending := c :: s.pending }

/-- One step: the front command's effect on the state with the rest of the queue, or a tick of the Cihal domain counter
when no command waits. -/
def step (s : State) : Host.Outcome State Fault Refusal :=
  match s.pending with
  | [] => .next s.tick
  | c :: rest => exec c { s with pending := rest }

end Sys2Proof.Machine
end

