-- ==== Sys2Proof/Safety.lean ====
section
/-!
DEFINITION. Safety.lean: the predicates that statements are made in: when a lea's mailbox is served at once, what Cihal
has taken from it then, and what every step keeps.
-/

namespace Sys2Proof.Machine

/-- Cihal serves lea `l`'s mailbox at once when its doorbell is rung: the host reaches the window (R32), no request is
in service or waits in it (R34), Cihal serves mailboxes (R37), and no lea before it in round-robin order has a command
to take (R36). -/
structure State.Serves (s : State) (l : Nat) : Prop where
  reach : s.reachable l = true
  lea_lt : l < 64
  free : (s.lea l).mbx.busy = false
  undeferred : (s.lea l).mbx.deferral = none
  cihal : s.cihalServes = true
  turn : ∀ k < 64, k ≠ l → (k + 64 - s.hub.turn % 64) % 64 < (l + 64 - s.hub.turn % 64) % 64 → s.mbxReady (s.lea k) = false

/-- The mailbox once Cihal has taken the request from it: it holds the request (Table 2.3), which is latched; BUSY is
set and DONE cleared (R35, R37). -/
def Mailbox.taken (m : Mailbox) (code : Nat) (tag : Word) (args : List Word) : Mailbox :=
  let req := storeWords m.request 0 ((requestWords code tag args).take 64)
  { m with request := req, latched := (List.range 64).map (req.getD · 0), ring := false, busy := true, done := false
           deferral := none }

/-- The state once Cihal has taken a command from lea `l`'s mailbox; the lea after it has the next turn (R36). -/
def State.taken (s : State) (l code : Nat) (tag : Word) (args : List Word) : State :=
  let t := s.modLea l fun x => { x with mbx := x.mbx.taken code tag args }
  { t with hub := { t.hub with turn := (l + 1) % 64 } }

/-- The arguments of a command that takes `n` words: no fewer, and no more than the request window holds (Table 2.3). -/
abbrev Fits (n : Nat) (args : List Word) : Prop := n ≤ args.length ∧ args.length ≤ 62

/-- Lea 0, or the lea that the first argument names (check 4 of Table 2.8). -/
abbrev ZeroOrSelf (l : Nat) (args : List Word) : Prop := l = 0 ∨ argN args 0 = l

/-- The outcome of a command that Cihal answers: the response is written in state `u`, and the machine settles. -/
abbrev answered (u : State) (l : Nat) (st : Status) (rs : List Word) : Host.Outcome State Fault Refusal :=
  .next (u.respond l st rs).settle

/-- A frame on the Hedgerow segment that passes checks 1 to 6 of Table 15.1: it is whole, addressed to the part, from a
source that is neither the part, a group address nor BLOCKED, and that has a token. -/
structure State.HdrPasses (s : State) (f : HdrRx) : Prop where
  online : s.edgeOn 30 = true
  whole : (hdrFaults f).2 = none
  ours : s.hdr.forUs (f.bytes.take 6) = true
  foreign : slice f.bytes 6 6 ≠ s.hdr.mac
  single : groupMac (slice f.bytes 6 6) = false
  open' : (s.hdr.source (slice f.bytes 6 6)).any (fun e => e.2.blocked) = false
  token : s.hdr.hasToken (slice f.bytes 6 6) = true

/-- It is a Hedgerow frame of type `k` in the form of check 7 (Table 15.1, Table 15.2). -/
def isHedgerow (f : HdrRx) (k : Nat) : Prop :=
  slice f.bytes 12 2 = natToBE 2 0x88B5 ∧ hedgerowOk f.bytes = true ∧ beToNat (slice f.bytes 14 1) % 16 = k

/-- A received frame that passes checks 1 to 7 of Table 10.7 as a packet of TYPE `ty` of job `jh`, under key `k`, without
a CE mark. -/
structure State.HykPasses (s : State) (f : RxFrame) (ty jh : Nat) (j : Job) (k : KeySlot) : Prop where
  linked : (s.port f.port).linked = true
  takes : (s.port f.port).takes f = true
  whole : wellFormedPacket f.payload = true
  type : (parseHeader f.payload).type = ty
  job : s.packetJob (parseHeader f.payload) = some (jh, j)
  found : s.jobs.find jh = some j
  peer : (j.peer (parseHeader f.payload).src).any (fun x => x.st == .active && x.addr == f.src) = true
  key : j.keys.find (parseHeader f.payload).slot = some k
  tag : gcmTag k.key (parseHeader f.payload).nonce (f.payload.take 36) ((f.payload.drop 36).take (f.payload.length - 52)) =
    f.payload.drop (f.payload.length - 16)
  noCe : f.ce = false

/-- The decrypted content of a frame under a key. -/
def hykContent (f : RxFrame) (k : KeySlot) : List Byte :=
  gcmCrypt k.key (parseHeader f.payload).nonce ((f.payload.drop 36).take (f.payload.length - 52))

/-- A packet that its channel awaits next, with nothing out of order and no message half received, that names no role. -/
structure Job.InOrder (j : Job) (f : RxFrame) (c : RxChan) : Prop where
  chan : j.rx.getD (chanKey (parseHeader f.payload).src (parseHeader f.payload).channel) {} = c
  next : (parseHeader f.payload).psn = c.cum
  above : c.above = []
  held : c.held = []
  few : c.unackedCount < 15
  noAck : (parseHeader f.payload).ackReq = false
  noRole : (parseHeader f.payload).roleKind = 0

/-- Cluster `c` runs a row of op `n`, a user program that has more than one instruction left of its limit (R119, R122). -/
structure State.RunsRow (s : State) (c n : Nat) (o : Op) : Prop where
  row : s.rowOn c = some (n, o)
  user : o.entry = 0
  left : (s.cluster c).instrs + 1 < o.instrLimit

/-- A cluster past an instruction of some cost: the pc moves past its one or two words, and it counts. -/
def Cluster.past (k : Cluster) (f : IFields) (cost : Nat) : Cluster :=
  { k with pc := (k.pc + iBytes f) % 2 ^ 48, instrs := k.instrs + 1, events := k.events + cost }

/-- What a lane instruction leaves: each lane that takes part holds its result in the destination register, every other
lane and register is unchanged, and the row is SATURATED where a lane that takes part was (R124, R128). -/
structure Cluster.LaneResult (k k' : Cluster) (f : IFields) (cost : Nat) (g : Nat → Word × Bool) : Prop where
  result : ∀ l < 64, k.takes f l = true → k'.lane f.dst.toNat l = (g l).1
  frame : ∀ r < 32, ∀ l < 64, (r ≠ f.dst.toNat ∨ k.takes f l = false) → k'.lane r l = k.lane r l
  rest : k' = { k.past f cost with
    d := k'.d, saturated := k.saturated || (List.range 64).any fun l => k.takes f l && (g l).2 }

/-- What a comparison leaves: each lane that takes part holds its result in the destination predicate. -/
structure Cluster.PredResult (k k' : Cluster) (f : IFields) (g : Nat → Bool) : Prop where
  result : f.dst.toNat ∈ [1, 2, 3] → ∀ l < 64, k.takes f l = true → k'.predicate f.dst.toNat l = g l
  frame : ∀ r < 4, ∀ l < 64, (r ≠ f.dst.toNat ∨ k.takes f l = false) → k'.predicate r l = k.predicate r l
  rest : k' = { k.past f 1 with p := k'.p }

/-- A row of the library function with code `entry` that can run: its argument record is in order (R120), and what it reads
and writes is there. -/
structure State.LibReady (s : State) (c n entry : Nat) (o : Op) (a : LibArgs) : Prop where
  row : s.rowOn c = some (n, o)
  entry : o.entry = entry
  args : a = { entry := o.entry, words := s.argRecord o, rows := o.rows, len := o.rowLen }
  record : s.access o.argBase 128 = .good
  ok : s.recordOk o.lea a = true
  reads : s.spansAccess (a.rowReads (s.cluster c).row) = .good
  stash : a.readsStash = true → s.access a.stashBase 32 = .good ∧ a.headerOk o (s.readWords a.stashBase 8) = true ∧
    s.spansGranted o.lea ((headerTensor a.stashBase (s.readWords a.stashBase 8)).accessSpans false) = true ∧
    s.spansAccess ((headerTensor a.stashBase (s.readWords a.stashBase 8)).segReads
      ((s.cluster c).row, 1, 0, (headerTensor a.stashBase (s.readWords a.stashBase 8)).extent)) = .good
  writes : s.spansAccess ((a.writes (s.cluster c).row (s.libValues a (s.cluster c).row)).all.map fun x =>
    { base := x.1, len := x.2.length, write := true }) = .good

/-- Nothing notes the writes of an op: no refill descriptor is set and no shard is registered (R209, R326). -/
structure State.NoNotes (s : State) : Prop where
  descs : s.mem.descs = []
  shards : ∀ e ∈ s.jobs, e.2.shards = []

/-- Op `n` runs, of class `cls`, for job `j`. -/
structure State.RunsFor (s : State) (n cls : Nat) (o : Op) (j : Job) : Prop where
  op : s.runs n cls = some o
  job : s.jobs.find o.job = some j

/-- Op `n` may start: it is admitted, and nothing that R50, R175, R176, R185 or R331 names keeps it back. -/
structure State.MayBegin (s : State) (n : Nat) (o : Op) : Prop where
  op : s.op n = some o
  live : s.live = true
  may : s.mayStart n o = true
  fine : s.depFailed o = false
  met : s.waitMet o = true
  free : s.unitFree n o = true
  phase : s.phaseRefuses o = false
  update : s.updateRefused o = false

/-- The machine's own invariant, which every command re-establishes: in READY no lea but lea 0 is ENABLED, in
RUN one is (Table 2.5), and each PEAK field is at least the present count. -/
structure State.Settled (s : State) : Prop where
  ready : s.hub.dev = .ready → s.tenants = 0
  run : s.hub.dev = .run → 0 < s.tenants
  inflight : s.hub.ops.length ≤ s.hub.inflightPeak
  held : s.phaseHeld ≤ s.hub.phaseHeldPeak
  chunks : s.wdr.openChunks ≤ s.wdr.openPeak

end Sys2Proof.Machine
end

