-- ==== Sys2Proof/Certificates/Slice0/Obligations.lean ====
section
/-!
DEFINITION. Certificates/Slice0/Obligations.lean: the statements about the model.
A command statement says what state Cihal answers a mailbox command in (`answered`), from the state in which it has taken
the command (`taken`); `ResponseAndSettleFrame` says what answering and settling change.
-/

open Sys2Proof Sys2Proof.Machine

/-! ## The host interface (02, 14) -/

/-- R32, R437, R6, R389: PCIE_LINK_DOWN and PERST bring the link down and change nothing else; a misaligned register
access completes with Completer Abort and changes no register; an access to an absent function changes nothing; NumVFs
is written while VF Enable is clear; setting VF Enable takes leas 1 to NumVFs from ABSENT to DISABLED. -/
def Obligations.LinkAndFunctionEvents : Prop :=
  (∀ s : State, exec .pcieLinkDown s = .next (State.settle { s with pcie := { s.pcie with up := false, width := 0, gen := 0 } })) ∧
  (∀ s : State, exec .perst s = .next (State.settle { s with pcie := { s.pcie with up := false, width := 0, gen := 0 } })) ∧
  (∀ (s : State) (lea offset : Nat) (w : Bool), s.reachable lea →
    exec (.misalignedRegAccess lea offset w) s = .next (State.settle { s with pcie := { s.pcie with lastAbort := true } })) ∧
  (∀ (s : State) (lea offset : Nat) (w : Bool), (s.lea lea).st = .absent →
    exec (.absentVfAccess lea offset w) s = .next s.settle) ∧
  (∀ (s : State) (n : Nat), s.pcie.vfEnable = false → n ≤ 63 →
    exec (.numvfsWrite n) s = .next (State.settle { s with pcie := { s.pcie with numVfs := n } })) ∧
  (∀ (s : State) (n : Nat), s.pcie.vfEnable = true → exec (.numvfsWrite n) s = .next s.settle) ∧
  (∀ s : State, s.pcie.vfEnable = false → ∃ t, exec .vfEnableSet s = .next t ∧ t.pcie.vfEnable = true ∧
    ∀ l, (t.lea l).st = if (s.lea l).st = .absent ∧ 1 ≤ l ∧ l ≤ s.pcie.numVfs then .disabled else (s.lea l).st)

/-- R34, R35, R37: a write of 1 to RING while no request is in service latches the 64 request words, sets BUSY and clears
DONE; while one is in service it changes the overrun bit and count alone. R44, R496: a doorbell write to an open queue
(ring) of a lea outside RESETTING with a tail (head) below its slot count sets that tail (head); any other is ignored
and counted in BAD_DOORBELL. -/
def Obligations.DoorbellWrites : Prop :=
  (
  ∀ (s : State) (l : Nat), s.reachable l → ∃ t, exec (.mbxDoorbell l) s = .next t ∧
    ((s.lea l).mbx.busy = false →
      (t.lea l).mbx = { (s.lea l).mbx with latched := (List.range 64).map ((s.lea l).mbx.request.getD · 0)
                                           busy := true, done := false, ring := true }) ∧
    ((s.lea l).mbx.busy = true →
      (t.lea l).mbx = { (s.lea l).mbx with overrun := true, overrunCount := (s.lea l).mbx.overrunCount + 1 }) ∧
    (∀ k, k ≠ l → (t.lea k).mbx = (s.lea k).mbx) ∧ t.mem = s.mem ∧ t.hub.ops = s.hub.ops) ∧
  (
  (∀ (s : State) (l q : Nat) (v : Word) (k : Queue), s.reachable l → q < 4096 → (s.lea l).st ≠ .resetting →
    (s.lea l).queues.find q = some k → v.toNat < 2 ^ k.log2 → k.log2 ≤ 16 →
    exec (.queueDoorbell l q v) s = .next (s.modLea l fun x => { x with qdb := x.qdb.insert q v.toNat }).settle) ∧
  (∀ (s : State) (l q : Nat) (v : Word), s.reachable l → q < 4096 →
    ((s.lea l).st = .resetting ∨ ∀ k, (s.lea l).queues.find q = some k → 2 ^ k.log2 ≤ v.toNat) →
    exec (.queueDoorbell l q v) s = .next (s.modLea l fun x => { x with badDoorbell := x.badDoorbell + 1 }).settle) ∧
  (∀ (s : State) (l r : Nat) (v : Word) (k : CRing), s.reachable l → r < 512 → (s.lea l).st ≠ .resetting →
    (s.lea l).rings.find r = some k → v.toNat < 2 ^ k.log2 → k.log2 ≤ 16 →
    exec (.cringHeadDoorbell l r v) s = .next (s.modLea l fun x => { x with cdb := x.cdb.insert r v.toNat }).settle) ∧
  (∀ (s : State) (l r : Nat) (v : Word), s.reachable l → r < 512 →
    ((s.lea l).st = .resetting ∨ ∀ k, (s.lea l).rings.find r = some k → 2 ^ k.log2 ≤ v.toNat) →
    exec (.cringHeadDoorbell l r v) s = .next (s.modLea l fun x => { x with badDoorbell := x.badDoorbell + 1 }).settle))

/-- Table 2.13, R406, R412: what PING, GET_INFO, GET_STATUS, LEA_QUOTA_READ and LEA_GRANT_READ answer; GET_STATUS removes
the seven oldest fault-event records, and none of the others changes anything. -/
def Obligations.HostQueryAnswers : Prop :=
  ∀ (s : State) (l : Nat) (tag : Word) (args : List Word), s.Serves l →
  (Fits 0 args → exec (.ping l tag args) s =
    answered (s.taken l 0x0001 tag args) l .ok (s.fw.version :: words64 s.edge.count.toNat)) ∧
  (Fits 0 args → exec (.getInfo l tag args) s = answered (s.taken l 0x0002 tag args) l .ok
    [BitVec.ofNat 32 (s.fw.fuses.revision % 2 ^ 16), BitVec.ofNat 32 l, BitVec.ofNat 32 (s.lea l).quotas.queues,
     BitVec.ofNat 32 (s.lea l).quotas.counters]) ∧
  (Fits 0 args → exec (.getStatus l tag args) s =
    answered ((s.taken l 0x0003 tag args).modLea l fun x => { x with events := x.events.drop 7 }) l .ok
      ([packFields [(s.hub.dev.code, 4), ((s.lea l).st.code, 0)], BitVec.ofNat 32 ((s.lea l).events.length - 7)] ++
        ((s.lea l).events.take 7).flatMap FaultEvent.words)) ∧
  (Fits 1 args → ZeroOrSelf l args → s.hub.dev ≠ .boot → argN args 0 < 64 → (s.lea (argN args 0)).st ≠ .absent →
    exec (.leaQuotaRead l tag args) s = answered (s.taken l 0x0702 tag args) l .ok
      ((List.zip (s.lea (argN args 0)).quotas.list (s.quotaUse (argN args 0))).flatMap fun p =>
        [BitVec.ofNat 32 p.1, BitVec.ofNat 32 p.2])) ∧
  (Fits 1 args → ZeroOrSelf l args → s.hub.dev ≠ .boot → argN args 0 < 64 → (s.lea (argN args 0)).st ≠ .absent →
    exec (.leaGrantRead l tag args) s = answered (s.taken l 0x0706 tag args) l .ok
      (BitVec.ofNat 32 (s.lea (argN args 0)).grants.length :: (s.lea (argN args 0)).grants.flatMap fun e =>
        [packFields [(b2n e.2.rw, 31), (e.1, 24), (natField e.2.base 47 32, 0)], BitVec.ofNat 32 e.2.base,
         BitVec.ofNat 32 (e.2.len / 2 ^ 16)]))

/-- Table 2.7, R496, R498: LEA_ENABLE takes a DISABLED lea to ENABLED; CRING_CREATE opens a ring with its indices at zero
and PHASE 1, and CRING_DESTROY closes one that no queue names; QUEUE_CREATE opens a queue with tail and head zero;
QUEUE_STOP and QUEUE_START change its STOPPED state alone; QUEUE_DESTROY closes a stopped queue without ops. -/
def Obligations.RingAndQueueCommands : Prop :=
  ∀ (s : State) (l : Nat) (tag : Word) (args : List Word), s.Serves l → s.hub.dev ≠ .boot →
  (Fits 1 args → l = 0 → argN args 0 < 64 → (s.lea (argN args 0)).st = .disabled → s.live → exec (.leaEnable l tag args) s =
    answered ((s.taken l 0x0010 tag args).setLeaSt (argN args 0) .enabled) l .ok []) ∧
  (Fits 5 args → argN args 0 < 512 → argN args 1 ≤ 1 → argAddrOk args 2 → 4 ≤ argN args 4 → argN args 4 ≤ 16 →
    s.ringOk l (argN args 1 == 1) (argAddr args 2) (16 * 2 ^ argN args 4) 16 true →
    argN args 0 < (s.lea l).quotas.rings → (s.lea l).st = .enabled → (s.lea l).rings.has (argN args 0) = false →
    exec (.cringCreate l tag args) s = answered ((s.taken l 0x0020 tag args).modLea l fun x => { x with
      rings := x.rings.insert (argN args 0) { hbm := argN args 1 == 1, base := argAddr args 2, log2 := argN args 4
                                              write := 0, phase := true }
      cdb := x.cdb.insert (argN args 0) 0 }) l .ok []) ∧
  (Fits 1 args → argN args 0 < 512 → (s.lea l).rings.has (argN args 0) = true →
    (∀ e ∈ (s.lea l).queues, e.2.cring ≠ argN args 0) → exec (.cringDestroy l tag args) s =
    answered ((s.taken l 0x0021 tag args).modLea l fun x => { x with rings := x.rings.erase (argN args 0) }) l .ok []) ∧
  (Fits 9 args → argN args 0 < 4096 → argN args 1 ≤ 1 → argAddrOk args 2 → 4 ≤ argN args 4 → argN args 4 ≤ 16 →
    argN args 5 < 512 → argN args 6 < 4 → argN args 7 ≤ 1 → (argN args 7 = 1 → argN args 1 = 1) →
    s.ringOk l (argN args 1 == 1) (argAddr args 2) (128 * 2 ^ argN args 4) 128 (argN args 7 == 1) →
    (argN args 7 = 1 → (s.jobOf l (argN args 8)).isSome) → (s.lea l).queues.length < (s.lea l).quotas.queues →
    (s.lea l).st = .enabled → (s.lea l).queues.has (argN args 0) = false → (s.lea l).rings.has (argN args 5) = true →
    exec (.queueCreate l tag args) s = answered ((s.taken l 0x0022 tag args).modLea l fun x => { x with
      queues := x.queues.insert (argN args 0)
        { hbm := argN args 1 == 1, base := argAddr args 2, log2 := argN args 4, cring := argN args 5, prio := argN args 6
          fabPost := argN args 7 == 1, job := if argN args 7 = 1 then argN args 8 else 0xFFFF, stopped := false, head := 0 }
      qdb := x.qdb.insert (argN args 0) 0 }) l .ok []) ∧
  (∀ k, Fits 1 args → argN args 0 < 4096 → (s.lea l).queues.find (argN args 0) = some k → k.stopped = false →
    exec (.queueStop l tag args) s = answered ((s.taken l 0x0023 tag args).modLea l fun x =>
      { x with queues := x.queues.insert (argN args 0) { k with stopped := true } }) l .ok []) ∧
  (∀ k, Fits 1 args → argN args 0 < 4096 → (s.lea l).queues.find (argN args 0) = some k → k.stopped = true →
    exec (.queueStart l tag args) s = answered ((s.taken l 0x0024 tag args).modLea l fun x =>
      { x with queues := x.queues.insert (argN args 0) { k with stopped := false } }) l .ok []) ∧
  (∀ k, Fits 1 args → argN args 0 < 4096 → (s.lea l).queues.find (argN args 0) = some k → k.stopped = true →
    (∀ e ∈ s.hub.ops, e.2.lea = l → e.2.queue ≠ argN args 0) → exec (.queueDestroy l tag args) s =
    answered ((s.taken l 0x0025 tag args).modLea l fun x => { x with queues := x.queues.erase (argN args 0) }) l .ok [])

/-- Table 2.7, R392, R403, R394: COUNTER_SET writes the value and clears FAILED; LEA_QUOTA_SET and LEA_SHARE_SET replace
the quotas that MASK names and the four weights; LEA_GRANT_SET adds a grant at the first free index and zeroes it where
ZERO is 1; LEA_GRANT_CLEAR removes one that nothing uses. -/
def Obligations.CounterQuotaShareGrantCommands : Prop :=
  ∀ (s : State) (l : Nat) (tag : Word) (args : List Word), s.Serves l → s.hub.dev ≠ .boot →
  (Fits 2 args → argN args 0 < 4096 → argN args 0 < (s.lea l).quotas.counters → (s.lea l).st = .enabled →
    exec (.counterSet l tag args) s =
      answered ((s.taken l 0x0030 tag args).setCounter l (argN args 0) { value := wordAt args 1, failed := false }) l .ok []) ∧
  (∀ new : List Nat, l = 0 → Fits (2 + (onesBelow (argN args 1) 32).length) args → argN args 0 < 64 → argN args 1 < 512 →
    new = maskedQuotas (s.lea (argN args 0)).quotas.list (argN args 1) 0 (args.drop 2) →
    (∀ p ∈ List.zip new quotaMax, p.1 ≤ p.2) →
    (∀ i < 9, ∀ tot, quotaTotal.getD i none = some tot → (argN args 1).testBit i →
      s.leas.foldl (fun n e => n + (if e.1 = argN args 0 then 0 else e.2.quotas.list.getD i 0)) 0 + new.getD i 0 ≤ tot) →
    (s.lea (argN args 0)).st ≠ .absent → (s.lea (argN args 0)).st ≠ .resetting →
    (∀ i < 9, (argN args 1).testBit i → (s.quotaUse (argN args 0)).getD i 0 ≤ new.getD i 0) →
    exec (.leaQuotaSet l tag args) s =
      answered ((s.taken l 0x0701 tag args).modLea (argN args 0) fun x => { x with quotas := Quotas.ofList new }) l .ok []) ∧
  (l = 0 → Fits 5 args → argN args 0 < 64 → argN args 1 < 256 → argN args 2 < 256 → argN args 3 < 256 → argN args 4 < 256 →
    (s.lea (argN args 0)).st ≠ .absent → exec (.leaShareSet l tag args) s =
      answered ((s.taken l 0x0703 tag args).modLea (argN args 0) fun x =>
        { x with wArray := argN args 1, wCluster := argN args 2, wMem := argN args 3, wFab := argN args 4 }) l .ok []) ∧
  (∀ i, l = 0 → Fits 6 args → argN args 0 < 64 → argAddrOk args 1 → argAddr args 1 % 2 ^ 16 = 0 →
    argN args 3 % 2 ^ 16 = 0 → 0 < argN args 3 → s.mem.inUsable (argAddr args 1) (argN args 3) → argN args 4 ≤ 1 →
    argN args 5 ≤ 1 → (s.lea (argN args 0)).grants.length < (s.lea (argN args 0)).quotas.grants →
    (s.lea (argN args 0)).st ≠ .absent → (s.lea (argN args 0)).st ≠ .resetting →
    (s.lea (argN args 0)).grants.freeFrom 0 16 = some i → ∃ u : State,
    u = ((s.taken l 0x0704 tag args).modLea (argN args 0) fun x => { x with
      grants := x.grants.insert i { base := argAddr args 1, len := argN args 3, rw := argN args 4 == 1 } }) ∧
    exec (.leaGrantSet l tag args) s = answered (if argN args 5 = 1 then
      u.write (argAddr args 1) (List.replicate (argN args 3) 0) else u) l .ok [BitVec.ofNat 32 i]) ∧
  (∀ g, l = 0 → Fits 2 args → argN args 0 < 64 → argN args 1 < 16 → (s.lea (argN args 0)).grants.find (argN args 1) = some g →
    (∀ e ∈ s.hub.ops, e.2.lea ≠ argN args 0) → s.rangeUsed (argN args 0) g.base g.len = false →
    (s.lea (argN args 0)).st ≠ .resetting → exec (.leaGrantClear l tag args) s =
      answered ((s.taken l 0x0705 tag args).modLea (argN args 0) fun x =>
        { x with grants := x.grants.erase (argN args 1) }) l .ok [])

/-! ## The power manager, I3C and boundary scan (16, 17) -/

/-- R466: at the end of a window whose average power exceeds CAP, v falls by 5 mV × min(ceil((W − CAP) / GAIN), 8), to no
less than 580 mV, and reaching 580 mV sets the issue limit; where W + HYST is below CAP, the limit is cleared and v
rises by 5 mV up to TARGET; the voltage applied is the lower of v and the thermal rule's, never above TARGET. R468 to
R470: a thermal sample sets Tj and its sensor; from THROTTLE on it starts throttling and below THROTTLE − 3 °C it ends
it; from 105 °C on it limits issue, until below 100 °C; from 115 °C on the part trips: the lasers and the core supply
go off, the device is HALTED, and THERM_TRIP_N is asserted. -/
def Obligations.PowerAndThermalLimits : Prop :=
  (
  ∀ (s : State) (w : Nat) (bad : List Nat), s.pmActs → ∃ t, exec (.powerWindowEnd w bad) s = .next t ∧
    t.pwr.windowW = w ∧ t.pwr.peakW = max s.pwr.peakW w ∧ t.pwr.limitOc = false ∧
    (s.pwr.cap < w → t.pwr.vCap = max (s.pwr.vCap - 5 * min ((w - s.pwr.cap + s.pwr.gain - 1) / s.pwr.gain) 8) 580 ∧
      t.pwr.limitCap = (s.pwr.limitCap || t.pwr.vCap == 580)) ∧
    (w + s.pwr.hyst < s.pwr.cap → t.pwr.limitCap = false ∧
      t.pwr.vCap = if s.pwr.vCap < s.pwr.target then s.pwr.vCap + 5 else s.pwr.vCap) ∧
    (s.pwr.cap ≤ w + s.pwr.hyst → w ≤ s.pwr.cap → t.pwr.vCap = s.pwr.vCap ∧ t.pwr.limitCap = s.pwr.limitCap) ∧
    t.pwr.vTherm = (if s.pwr.throttling then max (s.pwr.vTherm - 5) 580 else s.pwr.vTherm) ∧
    t.pwr.actual = min s.pwr.target (min t.pwr.vCap t.pwr.vTherm) ∧
    t.pwr.target = s.pwr.target ∧ t.pwr.cap = s.pwr.cap ∧ t.pwr.tj = s.pwr.tj ∧ t.mem = s.mem ∧ t.jobs = s.jobs ∧
    t.hub.ops = s.hub.ops ∧ t.edge = s.edge) ∧
  (
  ∀ (s : State) (sensor : Nat) (tj : Int), s.edgeOn 36 → ∃ t, exec (.thermalSample sensor tj) s = .next t ∧
    t.pwr.tj = tj ∧ t.pwr.hotSensor = sensor ∧
    (16 * (s.pwr.throttle : Int) ≤ tj → t.pwr.throttling = true ∧ t.pwr.thermThrottle = true) ∧
    (tj < 16 * ((s.pwr.throttle : Int) - 3) → t.pwr.throttling = false ∧ t.pwr.vTherm = s.pwr.target) ∧
    (16 * ((s.pwr.throttle : Int) - 3) ≤ tj → tj < 16 * (s.pwr.throttle : Int) → t.pwr.throttling = s.pwr.throttling) ∧
    (1680 ≤ tj → t.pwr.limitCrit = true) ∧ (tj < 1600 → t.pwr.limitCrit = false) ∧
    (1600 ≤ tj → tj < 1680 → t.pwr.limitCrit = s.pwr.limitCrit) ∧
    (1840 ≤ tj → s.pwr.tripped = false → t.pwr.tripped = true ∧ t.pwr.coreOff = true ∧ t.pwr.actual = 0 ∧
      t.hub.dev = .halted ∧ ∀ p, (t.fab.ports.find p).all fun x => !x.lasers) ∧
    (tj < 1840 → t.pwr.tripped = s.pwr.tripped ∧ t.pwr.coreOff = s.pwr.coreOff ∧ t.fab = s.fab) ∧
    t.mem = s.mem ∧ t.jobs = s.jobs ∧ t.edge = s.edge)

/-- R467, R472, R482: an over-current warning sets the issue limit and its event; the dynamic address is taken; a private
read puts out the health data; a boundary-scan instruction is loaded. Each changes nothing else. Table 16.8, R465,
R468: PWR_SET sets TARGET, CAP, GAIN and HYST and applies the voltage; PWR_THERMAL_SET sets THROTTLE. -/
def Obligations.SidebandAndPowerCommands : Prop :=
  (
  ∀ s : State,
  exec .overCurrentWarning s = .next (State.settle { s with
    pwr := { s.pwr with limitOc := true, ocEvent := true, ocCount := s.pwr.ocCount + 1 } }) ∧
  (∀ a, s.edgeFenced 35 = false → exec (.i3cDynamicAddress a) s =
    .next (State.settle { s with board := { s.board with i3cAddr := some a } })) ∧
  (s.edgeFenced 35 = false → s.board.i3cAddr.isSome → exec .i3cPrivateRead s =
    .next (State.settle { s with board := { s.board with lastI3c := s.health } })) ∧
  (s.edgeFenced 34 = false →
    exec .jtagBypass s = .next (State.settle { s with board := { s.board with jtag := .bypass } }) ∧
    exec .jtagIdcode s = .next (State.settle { s with board := { s.board with jtag := .idcode } }) ∧
    exec .jtagSamplePreload s = .next (State.settle { s with board := { s.board with jtag := .samplePreload } }) ∧
    exec .jtagExtest s = .next (State.settle { s with board := { s.board with jtag := .extest } }) ∧
    exec .jtagClamp s = .next (State.settle { s with board := { s.board with jtag := .clamp } }))) ∧
  (
  ∀ (s : State) (l : Nat) (tag : Word) (args : List Word), s.Serves l → l = 0 → s.live →
  (Fits 4 args → 580 ≤ argN args 0 → argN args 0 ≤ 850 → argN args 0 % 5 = 0 → 500 ≤ argN args 1 → argN args 1 ≤ 1200 →
    1 ≤ argN args 2 → argN args 2 ≤ 255 → 5 ≤ argN args 3 → argN args 3 ≤ 255 → ∃ p : Power,
    exec (.pwrSet l tag args) s = answered { s.taken l 0x0920 tag args with pwr := p } l .ok [] ∧
    p.target = argN args 0 ∧ p.cap = argN args 1 ∧ p.gain = argN args 2 ∧ p.hyst = argN args 3 ∧ p.lowered = false ∧
    p.actual = min (argN args 0) (min p.vCap p.vTherm) ∧ p.vCap ≤ argN args 0 ∧ p.vTherm ≤ argN args 0 ∧
    p.throttle = s.pwr.throttle ∧ p.tj = s.pwr.tj) ∧
  (Fits 1 args → 80 ≤ argN args 0 → argN args 0 ≤ 100 → exec (.pwrThermalSet l tag args) s =
    answered { s.taken l 0x0921 tag args with pwr := { s.pwr with throttle := argN args 0, loweredTherm := false } } l .ok []))

/-! ## Start-up, firmware and attestation (16) -/

/-- R436, R437, R439, Table 16.2: POWER_LOSS leaves nothing but the fuses and the store, and the rails off; COLD_START
with the reference clock, the store and a winning bank that is no cold trial runs that bank and ends READY with lea 0
ENABLED, or HALTED where every die is fenced; COLD_TRIAL_ALIVE_TIMEOUT starts the other valid bank. -/
def Obligations.ColdStartAndPowerLoss : Prop :=
  (∀ (s : State) (cut : StoreCut), ∃ t, exec (.powerLoss cut) s = .next t ∧ t.board.powered = false ∧ t.hub.dev = .boot ∧
    t.fw.fuses = s.fw.fuses ∧ (cut = .nothing → t.fw.flash = s.fw.flash ∧ t.fw.rec0 = s.fw.rec0 ∧ t.fw.rec1 = s.fw.rec1) ∧
    t.mem = State.reset.mem ∧ t.jobs = [] ∧ t.hub.ops = [] ∧ t.pending = s.pending) ∧
  (∀ (s : State) (c : ColdStart) (b : Nat), c.refclk → c.xspi → (s.fw.cutShort c.cut).winner = some b →
    (s.fw.cutShort c.cut).bankTrial b ≠ 1 → ∃ t, exec (.coldStart c) s = .next t ∧ t.fw.running = b ∧ t.fw.rom = false ∧
    t.fw.noImage = false ∧ t.edge.refPresent = true ∧ t.jobs = [] ∧ t.hub.ops = [] ∧ t.pending = s.pending ∧
    ((∀ d < 4, (t.die d).st = .fenced) → t.hub.dev = .halted) ∧
    ((∃ d < 4, (t.die d).st ≠ .fenced) → t.hub.dev = .ready ∧ (t.lea 0).st = .enabled)) ∧
  (∀ (s : State) (c : ColdStart) (b : Nat), s.fw.coldWait = some c → s.fw.coldTrial = true →
    s.fw.fwAlive ≤ s.elapsed s.fw.coldSince → s.fw.winner = some b → ∃ t, exec .coldTrialAliveTimeout s = .next t ∧
    t.fw.running = b ∧ t.fw.coldTrial = false ∧ t.fw.coldWait = none ∧ t.fw.reverted = true ∧
    t.fw.revertCount = s.fw.revertCount + 1)

/-- R455 to R463, R473: FW_WRITE programs the writable bank and takes its VERIFIED mark; FW_VERIFY marks it or reports
what failed; FW_ACTIVATE begins the handover and is answered later; FW_COMMIT rewrites the running bank's header;
FW_SVN_COMMIT burns the minimum SVN; FW_COMMIT_COLD makes the verified bank the winner; FW_INFO and STORE_READ report.
R451, R452, R454, R457, R459: ATTEST signs with the next leaf and writes the report, or waits for the rate interval,
and ATTEST_DEFERRED_SIGN then signs; HANDOVER_ALIVE ends the handover and answers FW_ACTIVATE; FW_ALIVE_TIMEOUT turns
the handover back to the winning bank. -/
def Obligations.FirmwareAndAttestation : Prop :=
  (
  ∀ (s : State) (l : Nat) (tag : Word) (args : List Word), s.Serves l → s.hub.dev ≠ .boot →
  (∀ b, l = 0 → Fits 4 args → argN args 0 % 4096 = 0 → argN args 1 % 4096 = 0 → 0 < argN args 1 →
    argN args 0 + argN args 1 ≤ 0x02000000 → argAddrOk args 2 → s.mem.inUsable (argAddr args 2) (argN args 1) →
    s.granted 0 (argAddr args 2) (argN args 1) false → s.fw.writable = some b → s.hdr.staging = none → s.edgeOn 33 →
    s.access (argAddr args 2) (argN args 1) = .good → exec (.fwWrite l tag args) s =
      answered { s.taken l 0x0901 tag args with
        fw := s.fw.program b (argN args 0) (s.read (argAddr args 2) (argN args 1)) } l .ok []) ∧
  (∀ b, l = 0 → Fits 0 args → s.fw.writable = some b → s.hdr.staging = none → s.edgeOn 33 →
    (s.fw.bankValid b = true → exec (.fwVerify l tag args) s =
      answered { s.taken l 0x0902 tag args with fw := { s.fw with verified := some b } } l .ok []) ∧
    (s.fw.bankValid b = false → exec (.fwVerify l tag args) s =
      answered { s.taken l 0x0902 tag args with
        fw := { s.fw with verifyFail := true, revertCount := s.fw.revertCount + 1 } } l
        (if s.fw.bankAuthentic b then .badArgument else .signature) [])) ∧
  (∀ b, l = 0 → Fits 0 args → s.fw.verified = some b → s.fw.trial = false → s.fw.writable = some b →
    s.fw.bankRunstate b = s.fw.bankRunstate s.fw.running → s.edgeOn 33 → ∃ t, exec (.fwActivate l tag args) s = .next t ∧
    t.fw = { s.fw with handover := some { bank := b, since := s.edge.count, reverting := false } } ∧
    (t.lea 0).mbx.deferral = some .fwActivate ∧ (t.lea 0).mbx.busy = true ∧ (t.lea 0).mbx.done = false) ∧
  (l = 0 → Fits 0 args → s.edgeOn 33 → s.fw.coldTrial = true → exec (.fwCommit l tag args) s =
    answered { s.taken l 0x0904 tag args with fw := { s.fw.rewriteHeader s.fw.running (s.fw.bankSeq s.fw.running) 0 with
      coldTrial := false } } l .ok []) ∧
  (∀ w, l = 0 → Fits 0 args → s.edgeOn 33 → s.fw.coldTrial = false → s.fw.trial = true → s.fw.winner = some w →
    exec (.fwCommit l tag args) s = answered { s.taken l 0x0904 tag args with
      fw := s.fw.rewriteHeader s.fw.running (s.fw.bankSeq w + 1) 0 } l .ok []) ∧
  (l = 0 → Fits 0 args → s.edgeOn 38 → s.fw.trial = false → exec (.fwSvnCommit l tag args) s =
    answered { s.taken l 0x0905 tag args with fw := { s.fw with
      fuses := { s.fw.fuses with minSvn := max s.fw.fuses.minSvn (s.fw.bankSvn s.fw.running) } } } l .ok []) ∧
  (Fits 0 args → exec (.fwInfo l tag args) s = answered (s.taken l 0x0906 tag args) l .ok
    (([0, 1].flatMap fun b => [BitVec.ofNat 32 (b2n (s.fw.bankValid b)), BitVec.ofNat 32 (s.fw.bankSeq b),
      BitVec.ofNat 32 (s.fw.bankVersion b), BitVec.ofNat 32 (s.fw.bankSvn b)]) ++
      [BitVec.ofNat 32 s.fw.running, BitVec.ofNat 32 s.fw.fuses.minSvn])) ∧
  (∀ b w, l = 0 → Fits 0 args → s.edgeOn 33 → s.fw.writable = some b → s.fw.winner = some w → s.fw.verified = some b →
    s.fw.bankRunstate b ≠ s.fw.bankRunstate s.fw.running → exec (.fwCommitCold l tag args) s =
    answered { s.taken l 0x0907 tag args with
      fw := { s.fw.rewriteHeader b (s.fw.bankSeq w + 1) 1 with coldPending := true } } l .ok []) ∧
  (l = 0 → Fits 2 args → s.live → argAddrOk args 0 → s.mem.inUsable (argAddr args 0) 4644 →
    s.granted 0 (argAddr args 0) 4644 true → s.edgeOn 33 → s.writeAccess (argAddr args 0) 4644 = .good →
    exec (.storeRead l tag args) s =
      answered ((s.taken l 0x0911 tag args).write (argAddr args 0) s.fw.current.bytes) l .ok [])) ∧
  (
  (∀ (s : State) (tag : Word) (args : List Word), s.Serves 0 → s.live → Fits 10 args → argAddrOk args 8 →
    s.mem.inUsable (argAddr args 8) 5652 → s.granted 0 (argAddr args 8) 5652 true → s.fw.leafUnknown = false →
    s.fw.fuses.keygen < 4 → s.fw.nextLeaf < 2 ^ 30 →
    ((∀ t, s.fw.lastSign = some t → 2 ^ 25 ≤ s.elapsed t) → s.edgeOn 33 → s.writeAccess (argAddr args 8) 5652 = .good →
      ∃ u, exec (.attest 0 tag args) s = answered u 0 .ok [] ∧ u.fw.nextLeaf = s.fw.nextLeaf + 1 ∧
      u.fw.lastSign = some s.edge.count) ∧
    (∀ t, s.fw.lastSign = some t → s.elapsed t < 2 ^ 25 → ∃ u, exec (.attest 0 tag args) s = .next u ∧
      u.fw = { s.fw with attestArgs := some args } ∧ (u.lea 0).mbx.deferral = some .attest)) ∧
  (∀ (s : State) (args : List Word), (s.lea 0).mbx.deferral = some .attest → s.fw.attestArgs = some args →
    (∀ t, s.fw.lastSign = some t → 2 ^ 25 ≤ s.elapsed t) → s.cihalServes → s.edgeOn 33 →
    ∃ u, exec .attestDeferredSign s = answered u 0 .ok [] ∧ u.fw.nextLeaf = s.fw.nextLeaf + 1 ∧
      u.fw.lastSign = some s.edge.count ∧ u.fw.attestArgs = none) ∧
  (∀ (s : State) (h : Handover), s.fw.handover = some h → s.edgeOn 31 → h.reverting = false →
    exec .handoverAlive s = answered (State.flushHealth { s with fw := { s.fw.run h.bank with
      activated := true, activateCount := s.fw.activateCount + 1 } }) 0 .ok []) ∧
  (∀ (s : State) (h : Handover), s.fw.handover = some h → s.edgeOn 31 → h.reverting = true →
    exec .handoverAlive s = answered (State.flushHealth { s with fw := { s.fw.run h.bank with
      reverted := true, revertCount := s.fw.revertCount + 1 } }) 0 .unitFault []) ∧
  (∀ (s : State) (h : Handover), s.fw.handover = some h → h.reverting = false → s.fw.fwAlive ≤ s.elapsed h.since →
    exec .fwAliveTimeout s = .next (State.settle { s with fw := { s.fw with
      handover := some { bank := s.fw.winner.getD s.fw.running, since := s.edge.count, reverting := true } } })))

/-! ## Edge domains and clocks (01) -/

/-- Table 1.6, R19, R21: a clock loss of a monitored online domain takes it offline, sets its LOST bit and counts it, and
begins its recovery, or queues it behind a running one; a second loss inside the domain's own window fences it. -/
def Obligations.EdgeClockLossRecovery : Prop :=
  ∀ (s : State) (dom : Nat), monitored dom →
  (s.edgeOn dom → s.edgeFenced dom = false → s.edge.refPresent → (s.edge.recovery.any fun r => r.dom == dom) = false →
    (dom = 31 → s.edgeOn 32 ∨ s.edgeFenced 32) → (dom = 32 → s.edgeOn 31 ∨ s.edgeFenced 31) →
    ∃ t, exec (.edgeClockLoss dom) s = .next t ∧ (∀ d < 40, t.edgeOn d = (s.edgeOn d && d != dom)) ∧
    (∀ d < 40, t.edge.lost.getLsbD d = (s.edge.lost.getLsbD d || d == dom)) ∧ t.edge.lossCount = s.edge.lossCount + 1 ∧
    t.edge.fenced = s.edge.fenced ∧
    (s.edge.recovery = none → s.edge.returning = [] → t.edge.queued = s.edge.queued ∧
      t.edge.recovery = some { dom := dom, retry := false, failed := 0, since := s.edge.count }) ∧
    (s.edge.recovery.isSome → t.edge.recovery = s.edge.recovery ∧ t.edge.queued = s.edge.queued ++ [dom]) ∧
    t.mem = s.mem ∧ t.jobs = s.jobs ∧ t.hub.ops = s.hub.ops) ∧
  (∀ r, s.edge.recovery = some r → r.dom = dom → r.retry = false → ∃ t, exec (.edgeClockLoss dom) s = .next t ∧
    (∀ d < 40, t.edgeFenced d = (s.edgeFenced d || d == dom)) ∧ t.edge.fenceCount = s.edge.fenceCount + 1 ∧
    t.edge.recovery = none ∧ (dom ≠ 31 → dom ≠ 32 → t.edgeOn dom = false))

/-- R19 to R21: a relock within the limit brings the domain back in service and ends the window; a relock timeout counts a
failed attempt, and the third fences the domain; the next queued recovery begins once no window is open. R24 to R26,
R491: a reference-clock loss puts domains 31 and 32 on the oscillator, takes every domain of the reference clock
offline and ends the recoveries; its return begins the recoveries in index order; ten million counts of absence raise
the I3C device fault; an oscillator failure is recovered, or halts the device, while the reference clock is present.
R490: EDGE_RETRY of a fenced domain opens its recovery window with the domain offline, fenced and unanswered, and sets
no LOST bit and counts no loss; of domains 34 and 35 it succeeds at once. -/
def Obligations.EdgeRecoveryAndReferenceClock : Prop :=
  (
  (∀ (s : State) (dom : Nat) (r : Recovery), dom < 40 → s.edge.recovery = some r → r.dom = dom → s.edge.refPresent →
    (dom ≠ 31 → s.elapsed r.since ≤ 20000 ∧ s.fw.handover = none) → ∃ t, exec (.edgePllRelock dom) s = .next t ∧
    t.edgeOn dom = true ∧ t.edgeFenced dom = false ∧ t.edge.recovery = none ∧ t.onOsc dom = false ∧
    (∀ d < 40, d ≠ dom → t.edgeOn d = s.edgeOn d ∧ t.edgeFenced d = s.edgeFenced d)) ∧
  (∀ (s : State) (dom : Nat) (r : Recovery), s.edge.recovery = some r → r.dom = dom →
    (dom ≠ 31 → 20000 ≤ s.elapsed r.since) →
    (r.failed < 2 → exec (.edgeRelockTimeout dom) s = .next (State.settle { s with edge := { s.edge with
      recovery := some { r with failed := r.failed + 1, since := s.edge.count } } })) ∧
    (2 ≤ r.failed → dom < 40 → r.retry = false → ∃ t, exec (.edgeRelockTimeout dom) s = .next t ∧
      t.edgeFenced dom = true ∧ t.edge.fenceCount = s.edge.fenceCount + 1 ∧ t.edge.recovery = none)) ∧
  (∀ (s : State) (d : Nat) (rest : List Nat), s.edge.recovery = none → s.edge.refPresent → s.edge.returning = [] →
    s.edge.queued = d :: rest → ∃ t, exec .queuedEdgeRecovery s = .next t ∧ t.edge.queued = rest ∧
    t.edge.recovery = some { dom := d, retry := s.edgeFenced d, failed := 0, since := s.edge.count })) ∧
  (
  (∀ s : State, s.edge.refPresent → ∃ t, exec .refclkLoss s = .next t ∧ t.edge.refPresent = false ∧
    t.edge.refLossCount = s.edge.refLossCount + 1 ∧ t.edge.refLostAt = some s.edge.count ∧ t.edge.cihOsc = true ∧
    t.edge.pmOsc = true ∧ t.edgeOn 31 = true ∧ t.edgeOn 32 = true ∧ (∀ d ∈ refDomains, t.edgeOn d = false) ∧
    t.edge.recovery = none ∧ t.edge.queued = []) ∧
  (∀ (s : State) (d : Nat), s.edge.refPresent = false → (s.fw.coldWait = none ∨ s.hub.dev ≠ .boot) →
    ((List.range 40).filter fun d => !s.edgeFenced d && (!s.edgeOn d || d == 31 || d == 32)).head? = some d →
    ∃ t, exec .refclkReturn s = .next t ∧ t.edge.refPresent = true ∧
    t.edge.recovery = some { dom := d, retry := false, failed := 0, since := s.edge.count } ∧
    t.edge.returning = ((List.range 40).filter fun d => !s.edgeFenced d && (!s.edgeOn d || d == 31 || d == 32)).tail) ∧
  (∀ (s : State) (c : BitVec 64), s.edge.refLostAt = some c → 10000000 ≤ s.elapsed c → s.edge.absentReported = false →
    s.edge.refPresent = false → exec .refclkAbsentTimeout s = .next (State.settle
      { s with edge := { s.edge with absentReported := true }, out := { s.out with ibi := s.out.ibi ++ [2] } })) ∧
  (∀ (s : State) (dom : Nat), s.onOsc dom → s.edge.refPresent → ∃ t, exec (.oscillatorFailure dom true) s = .next t ∧
    t.edgeOn dom = true ∧ t.onOsc dom = false ∧ t.hub.ops = s.hub.ops ∧ t.mem = s.mem) ∧
  (∀ (s : State) (dom : Nat), s.onOsc dom → s.edge.refPresent → ∃ t, exec (.oscillatorFailure dom false) s = .next t ∧
    t.edgeOn dom = false ∧ t.hub.dev = .halted ∧ t.out.ibi = s.out.ibi ++ [2])) ∧
  (
  ∀ (s : State) (tag : Word) (args : List Word), s.Serves 0 → s.live → Fits 1 args → argN args 0 < 40 →
    s.edgeFenced (argN args 0) →
  (argN args 0 ≠ 34 → argN args 0 ≠ 35 → s.edge.recovery = none → s.edge.returning = [] →
    ∃ t, exec (.edgeRetry 0 tag args) s = .next t ∧
    t.edge.recovery = some { dom := argN args 0, retry := true, failed := 0, since := s.edge.count } ∧
    t.edgeOn (argN args 0) = false ∧ t.edge.fenced = s.edge.fenced ∧ t.edge.lost = s.edge.lost ∧
    t.edge.lossCount = s.edge.lossCount ∧ (t.lea 0).mbx.deferral = some (.edgeRetry (argN args 0)) ∧
    (t.lea 0).mbx.busy = true) ∧
  (argN args 0 = 34 ∨ argN args 0 = 35 → ∃ u, exec (.edgeRetry 0 tag args) s = answered u 0 .ok [] ∧
    u.edgeOn (argN args 0) = true ∧ u.edgeFenced (argN args 0) = false ∧ u.edge.lossCount = s.edge.lossCount))

/-- R491: while both domains run on the oscillator because the reference clock is absent, an oscillator failure leaves
the device's behaviour undefined: the machine stops there, and nowhere else. -/
def Obligations.OscillatorFailureStops : Prop :=
  (∀ (s : State) (dom : Nat) (r : Bool), s.onOsc dom → s.edge.refPresent = false →
    exec (.oscillatorFailure dom r) s = .fault .oscillatorFailed) ∧
  (∀ (c : Instr) (s : State), (∃ t, exec c s = .next t) ∨
    ∃ dom r, c = .oscillatorFailure dom r ∧ s.onOsc dom = true ∧ s.edge.refPresent = false)

/-! ## Dies and Stile links (09) -/

/-- R232, R243, R247, R249: an internal fault or a CRC mismatch resets a die in service, opening its window, or queues it
behind an open window; in a die that resets it fences the die. R245 to R247: at the end of its self-test a die rejoins
with its window closed, or is fenced where the test fails, a bundle is below half width or it is its fourth reset; the
next queued die's reset begins once no window is open; a die that rejoins returns to service at an op boundary. -/
def Obligations.DieResetAndRecovery : Prop :=
  (
  ∀ (s : State) (d : Nat) (i : Instr), d < 4 → (i = .welxisInternalFault d ∨ i = .stileCrcMismatch d) →
  ((s.die d).st = .inService ∨ (s.die d).st = .rejoining → s.dies.window = none → ∃ t, exec i s = .next t ∧
    (t.die d).st = .resetting ∧ t.dies.window = some d ∧ s.edge.count ∈ (t.die d).resets ∧
    t.array.inService.getLsbD d = false) ∧
  ((s.die d).st = .inService ∨ (s.die d).st = .rejoining → s.dies.window.isSome → ∃ t, exec i s = .next t ∧
    (t.die d).st = .queued ∧ t.dies.waiting = s.dies.waiting ++ [d] ∧ t.dies.window = s.dies.window ∧
    t.array.inService.getLsbD d = false) ∧
  ((s.die d).st = .resetting → ∃ t, exec i s = .next t ∧ (t.die d).st = .fenced ∧ t.dies.fencedEvent = true ∧
    t.dies.fenceCount = s.dies.fenceCount + 1 ∧ (s.dies.window = some d → t.dies.window = none)) ∧
  ((s.die d).st ≠ .fenced → ∃ t, exec (.stileCrcMismatch d) s = .next t ∧ t.dies.crcMismatch = true ∧
    t.dies.crcCount = s.dies.crcCount + 1)) ∧
  (
  (∀ (s : State) (d : Nat) (c : Census), s.dies.window = some d →
    (c.selfTest = true → ((s.census d c.failed).die d).narrow = false → s.fourthReset d = false →
      ∃ t, exec (.welxisSelfTestEnd d c) s = .next t ∧ (t.die d).st = .rejoining ∧ t.dies.window = none ∧
      t.dies.resetDone = true ∧ t.dies.resetCount = s.dies.resetCount + 1 ∧ (t.die d).rate = c.rate ∧
      (t.die d).bundles = ((s.census d c.failed).die d).bundles) ∧
    (c.selfTest = false ∨ s.fourthReset d = true → ∃ t, exec (.welxisSelfTestEnd d c) s = .next t ∧
      (t.die d).st = .fenced ∧ t.dies.window = none ∧ t.dies.fenceCount = s.dies.fenceCount + 1)) ∧
  (∀ (s : State) (d : Nat) (rest : List Nat), s.dies.window = none → s.dies.waiting = d :: rest →
    ∃ t, exec .queuedWelxisReset s = .next t ∧ (t.die d).st = .resetting ∧ t.dies.window = some d ∧ t.dies.waiting = rest) ∧
  (∀ (s : State) (d : Nat), d < 4 → (s.die d).st = .rejoining → s.array.run = none → ∃ t, exec (.dieRejoin d) s = .next t ∧
    (t.die d).st = .inService ∧ t.array.inService = s.array.inService ||| (1#4 <<< d) ∧
    t.array.shapeChanges = s.array.shapeChanges + 1))

/-- R232, R236 to R240: an invalid code counts against its group and lane; at the interval a data lane above ERR_LIMIT,
and at a stall timeout every lane that has not settled, is marked field-failed and its bundle's repair runs; a
verified repair ends with the bundle at the width that its groups allow, and fences the die where that is below half.
R253, R236, R240, R250: WX_RESET begins the reset of a die in service; WX_FENCE fences one where another is not
fenced; WX_UNFENCE restores a fenced die and is answered when it rejoins; STILE_CENSUS_READ reports a bundle
direction; STILE_WIDTH_SET sets a bundle's width; STILE_RETIRE_CLEAR takes the retired lanes from the record. -/
def Obligations.StileAndDieCommands : Prop :=
  (
  (∀ (s : State) (d dir lane : Nat), d < 4 → dir < 64 → lane < 544 → (s.die d).st ≠ .fenced →
    ∃ t, exec (.stileInvalidCode d dir lane) s = .next t ∧ (t.die d).invalidTotal = (s.die d).invalidTotal + 1 ∧
    ((t.die d).dir dir).invalid.getD (lane / 34) 0 = ((s.die d).dir dir).invalid.getD (lane / 34) 0 + 1 ∧
    ((t.die d).dir dir).interval.getD lane 0 = ((s.die d).dir dir).interval.getD lane 0 + 1 ∧
    ((t.die d).dir dir).lanes = ((s.die d).dir dir).lanes ∧ (t.die d).st = (s.die d).st) ∧
  (∀ s : State, s.dies.interval < s.interval → ∃ t, exec .laneErrorInterval s = .next t ∧ t.dies.interval = s.interval ∧
    (∀ d < 4, ∀ p ∈ (s.die d).overLimit s.dies.errLimit, (s.die d).st = .inService → ((s.die d).dir p.1).carries p.2 →
      ((t.die d).dir p.1).lanes.find p.2 = some .fieldFailed ∧ p.1 / 2 ∈ (t.die d).repairing)) ∧
  (∀ (s : State) (d dir : Nat) (lanes : List Nat), d < 4 → dir < 64 → (s.die d).st = .inService →
    ∃ t, exec (.groupStallTimeout d dir lanes) s = .next t ∧ ∀ l ∈ lanes, ((s.die d).dir dir).carries l →
      ((t.die d).dir dir).lanes.find l = some .fieldFailed ∧ dir / 2 ∈ (t.die d).repairing) ∧
  (∀ (s : State) (d b : Nat), b ∈ (s.die d).repairing → ∃ t, exec (.bundleRepairDone d b true) s = .next t ∧
    b ∉ (t.die d).repairing ∧
    (t.die d).dir (2 * b) = ((s.die d).dir (2 * b)).repair.1 ∧
    (t.die d).dir (2 * b + 1) = ((s.die d).dir (2 * b + 1)).repair.1 ∧
    (max ((s.die d).width.getD b 0) ((t.die d).allowed b) = 3 → (t.die d).st = .fenced) ∧
    (max ((s.die d).width.getD b 0) ((t.die d).allowed b) < 3 → (t.die d).st = (s.die d).st))) ∧
  (
  ∀ (s : State) (tag : Word) (args : List Word), s.Serves 0 → s.hub.dev ≠ .boot →
  (Fits 1 args → argN args 0 < 4 → (s.die (argN args 0)).st = .inService → s.dies.window = none →
    ∃ u, exec (.wxReset 0 tag args) s = answered u 0 .ok [] ∧ (u.die (argN args 0)).st = .resetting ∧
    u.dies.window = some (argN args 0)) ∧
  (∀ e, Fits 1 args → argN args 0 < 4 → (s.die (argN args 0)).st ≠ .fenced → e < 4 → e ≠ argN args 0 →
    (s.die e).st ≠ .fenced → ∃ u, exec (.wxFence 0 tag args) s = answered u 0 .ok [] ∧
    (u.die (argN args 0)).st = .fenced ∧ u.dies.fenceCount = s.dies.fenceCount + 1 ∧
    u.array.inService.getLsbD (argN args 0) = false ∧ u.die e = s.die e) ∧
  (Fits 1 args → s.live → argN args 0 < 4 → (s.die (argN args 0)).st = .fenced → s.dies.window = none →
    ∃ t, exec (.wxUnfence 0 tag args) s = .next t ∧ (t.die (argN args 0)).st = .resetting ∧
    t.dies.window = some (argN args 0) ∧ (t.lea 0).mbx.deferral = some (.wxUnfence (argN args 0))) ∧
  (Fits 3 args → argN args 0 < 4 → argN args 1 < 32 → argN args 2 < 2 → (s.die (argN args 0)).st ≠ .fenced →
    exec (.stileCensusRead 0 tag args) s = answered (s.taken 0 0x0204 tag args) 0 .ok
      (((List.range 51).map fun k =>
          BitVec.ofNat 32 (((s.die (argN args 0)).dir (2 * argN args 1 + argN args 2)).stream >>> (32 * k))) ++
        (List.range 8).map fun k => packFields
          [(satNat 16 (((s.die (argN args 0)).dir (2 * argN args 1 + argN args 2)).invalid.getD (2 * k + 1) 0), 16),
           (satNat 16 (((s.die (argN args 0)).dir (2 * argN args 1 + argN args 2)).invalid.getD (2 * k) 0), 0)])) ∧
  (Fits 3 args → argN args 0 < 4 → argN args 1 < 32 → 0 < argN args 2 → argN args 2 < 3 →
    (s.die (argN args 0)).allowed (argN args 1) ≤ argN args 2 → (s.die (argN args 0)).st = .inService →
    ∃ u, exec (.stileWidthSet 0 tag args) s = answered u 0 .ok [] ∧
    (u.die (argN args 0)).width = (s.die (argN args 0)).width.insert (argN args 1) (argN args 2) ∧
    (u.die (argN args 0)).st = .inService) ∧
  (Fits 0 args → s.live → s.edgeOn 33 → s.edgeFenced 33 = false → exec (.stileRetireClear 0 tag args) s =
    answered { s.taken 0 0x0206 tag args with
      fw := s.fw.writeRecord fun r => { r with lanes := r.lanes.sel fun _ w => fld w 13 12 != 2 } } 0 .ok []))

/-! ## The Hedgerow port (15) -/

/-- Table 15.1, R424, R425, R427 to R432: what a received frame that passes the checks does. A frame of another EtherType
goes to the host ring with its entry header; a heartbeat of a known peer under the right tag and a new sequence number
is heard; a health request is answered with the health data; a STAGE frame in order is written to the bank and
acknowledged. Table 15.1: a frame that fails check 1, 2, 3, 4 or 5 reaches neither the host ring nor the transmit
queue, nor memory, and no heartbeat entry changes; check 1 counts it by its fault and check 2 in counter 16. -/
def Obligations.HedgerowFrames : Prop :=
  (
  ∀ (s : State) (f : HdrRx), s.HdrPasses f →
  (∀ r, slice f.bytes 12 2 ≠ natToBE 2 0x88B5 → s.hdr.rxRing = some r → s.rxRoom r → ∃ t, exec (.hostFrame f) s = .next t ∧
    t.hdr.rxRing = some { r with index := r.index + 1 } ∧
    (r.hbm = false → t.mem = s.mem ∧ t.out.host = s.out.host ++ [(r.base + r.index % 2 ^ r.log2 * 2048,
      s.rxHeader r (min f.bytes.length 2016) 0 (slice f.bytes 6 6) ++ f.bytes.take 2016)]) ∧
    (r.hbm = true → t.mem = (s.write (r.base + r.index % 2 ^ r.log2 * 2048)
      (s.rxHeader r (min f.bytes.length 2016) 0 (slice f.bytes 6 6) ++ f.bytes.take 2016)).mem)) ∧
  (∀ h j i e k, isHedgerow f 1 → 44 ≤ beToNat (slice f.bytes 16 2) →
    (s.jobs.find? fun x => x.2.jobId.toNat == beToNat (slice f.bytes 22 4)) = some (h, j) →
    s.hdr.hbOf h (beToNat (slice f.bytes 26 2)) = some (i, e) → s.hdr.hb.find i = some e → s.jobs.find h = some j →
    j.keys.find (beToNat (slice f.bytes 32 1) / 128) = some k → beToNat (slice f.bytes 28 2) = j.rank →
    gcmTag k.key (hbNonce (beToNat (slice f.bytes 30 2)) j.jobId (beToNat (slice f.bytes 34 4))) (f.bytes.take 50) [] =
      slice f.bytes 50 16 →
    (j.hb.getD (beToNat (slice f.bytes 32 1) / 128) {}).accepted.getD e.rank 0 < beToNat (slice f.bytes 34 4) →
    ∃ t, exec (.hdrHeartbeat f) s = .next t ∧ t.hdr.hb.find i = some { e with misses := 0, heard := true, lost := false
                                                                              lastFabric := false, peerStep := BitVec.ofNat 32 (beToNat (slice f.bytes 38 4)) } ∧
    ∃ j', t.jobs.find h = some j' ∧
      (j'.hb.getD (beToNat (slice f.bytes 32 1) / 128) {}).accepted.getD e.rank 0 = beToNat (slice f.bytes 34 4)) ∧
  (isHedgerow f 2 → s.hdr.healthEn → s.cihalServes → s.hdr.healthSent < s.hdr.healthRate →
    ∃ t, exec (.healthReq f) s = .next t ∧ t.hdr.healthSent = s.hdr.healthSent + 1 ∧ t.hdr.queue = s.hdr.queue ++
      [{ tier := 2, bytes := s.hdrFrame (slice f.bytes 6 6) 3 (beToNat (slice f.bytes 18 4)) s.health }]) ∧
  (∀ g b, isHedgerow f 4 → s.hdr.staging = some g → g.mac = slice f.bytes 6 6 → g.armId.toNat = beToNat (slice f.bytes 22 4) →
    9 ≤ beToNat (slice f.bytes 16 2) → beToNat (slice f.bytes 16 2) ≤ 1032 → s.edgeOn 33 → s.fw.writable = some b →
    beToNat (slice f.bytes 26 4) = g.next →
    g.next + (slice f.bytes 30 (beToNat (slice f.bytes 16 2) - 8)).length ≤ g.len → ∃ t, exec (.stage f) s = .next t ∧
    t.fw.flash = (s.fw.putBank b g.next (slice f.bytes 30 (beToNat (slice f.bytes 16 2) - 8))).flash ∧
    t.hdr.staging = (if g.len ≤ g.next + (slice f.bytes 30 (beToNat (slice f.bytes 16 2) - 8)).length then none
      else some { g with next := g.next + (slice f.bytes 30 (beToNat (slice f.bytes 16 2) - 8)).length }) ∧
    t.hdr.queue.length = s.hdr.queue.length + 1)) ∧
  (
  ∀ (s : State) (f : HdrRx) (i : Instr), s.edgeOn 30 → s.hdr.deliverBad = false →
    (i = .hostFrame f ∨ i = .hdrHeartbeat f ∨ i = .healthReq f ∨ i = .stage f) →
    ((hdrFaults f).2.isSome ∨ s.hdr.forUs (f.bytes.take 6) = false ∨ slice f.bytes 6 6 = s.hdr.mac ∨
      groupMac (slice f.bytes 6 6) = true ∨ (s.hdr.source (slice f.bytes 6 6)).any (fun e => e.2.blocked) = true ∨
      s.hdr.hasToken (slice f.bytes 6 6) = false) →
    ∃ t, exec i s = .next t ∧ t.hdr.rxRing = s.hdr.rxRing ∧ t.hdr.queue = s.hdr.queue ∧ t.hdr.hb = s.hdr.hb ∧
      t.hdr.staging = s.hdr.staging ∧ t.mem = s.mem ∧ t.out.host = s.out.host ∧ t.fw.flash = s.fw.flash ∧ t.jobs = s.jobs)

/-- R415 to R418, R429: the first frame of the highest tier goes out padded and with its FCS, and leaves the queue; a
collision counts an attempt and draws a back-off, and the sixteenth discards the frame; the back-off ends; a stuck
medium is noted with its event, and idle clears it. R421, R424, R427, R428: each interval of 2^20 counts adds RATE
tokens to every bucket, up to its BURST; at INTERVAL a heartbeat entry that heard nothing counts a miss, and
MISS_LIMIT misses report the peer lost; a write of MGT_RING sets TX_TAIL and RX_HEAD. -/
def Obligations.HedgerowSendingAndTimers : Prop :=
  (
  (∀ (s : State) (f : HdrFrame), s.edgeOn 30 → s.hdr.txEn → s.hdr.mediumStuck = false →
    (s.hdr.txRing = none ∨ s.hdr.queue.any fun g => g.tier == 3) → s.hdr.nextFrame = some f → f.backoff = none →
    ∃ t, exec .hdrTransmit s = .next t ∧ t.hdr.sentOut = s.hdr.sentOut ++ [wireFrame f.bytes] ∧
    t.hdr.queue = dropFrame f s.hdr.queue ∧
    t.hdr.txRing = if f.tier = 3 then s.hdr.txRing.map fun r => { r with index := r.index + 1 } else s.hdr.txRing) ∧
  (∀ (s : State) (r : HdrRing), s.edgeOn 30 → s.hdr.txEn → s.hdr.mediumStuck = false → s.hdr.queue = [] →
    s.hdr.txRing = some r → r.hbm = true → s.txWaiting r → (s.txEntry r).2 = true → ∃ t, exec .hdrTransmit s = .next t ∧
    t.hdr.sentOut = s.hdr.sentOut ++ [wireFrame (s.txEntry r).1] ∧ t.hdr.queue = [] ∧
    t.hdr.txRing = some { r with index := r.index + 1 }) ∧
  (∀ (s : State) (f : HdrFrame), s.edgeOn 30 → s.hdr.txEn → s.hdr.mediumStuck = false →
    (s.hdr.txRing = none ∨ s.hdr.queue.any fun g => g.tier == 3) → s.hdr.nextFrame = some f → f.backoff = none →
    (f.attempts < 15 → ∃ t r, exec .hdrCollision s = .next t ∧ r < 2 ^ min (f.attempts + 1) 10 ∧
      t.hdr.queue = replaceFrame f { f with attempts := f.attempts + 1, backoff := some r } s.hdr.queue ∧
      t.hdr.sentOut = s.hdr.sentOut) ∧
    (15 ≤ f.attempts → ∃ t, exec .hdrCollision s = .next t ∧ t.hdr.queue = dropFrame f s.hdr.queue ∧
      t.hdr.sentOut = s.hdr.sentOut)) ∧
  (∀ (s : State) (f : HdrFrame), (s.hdr.queue.find? fun g => g.backoff.isSome) = some f →
    exec .hdrBackoffExpiry s = .next (State.settle { s with hdr := { s.hdr with
      queue := replaceFrame f { f with backoff := none } s.hdr.queue } })) ∧
  (∀ s : State, s.edgeOn 30 → s.hdr.mediumStuck = false → ∃ t, exec .mediumStuck s = .next t ∧ t.hdr = { s.hdr with
    mediumStuck := true, stuckEvent := true, stuckCount := s.hdr.stuckCount + 1 } ∧ t.mem = s.mem ∧ t.jobs = s.jobs) ∧
  (∀ s : State, exec .mediumIdle s = .next (State.settle { s with hdr := { s.hdr with mediumStuck := false } }))) ∧
  (
  (∀ s : State, s.hdr.interval < s.interval → ∃ t, exec .tokenBucketRefill s = .next t ∧ t.hdr.interval = s.interval ∧
    t.hdr.healthSent = 0 ∧ t.hdr.sharedTokens = min 16 (s.hdr.sharedTokens + (s.interval - s.hdr.interval) * 256) ∧
    (∀ i, t.hdr.sources.find i = (s.hdr.sources.find i).map fun e =>
      { e with recent := 0, tokens := min e.burst (e.tokens + (s.interval - s.hdr.interval) * e.rate) })) ∧
  (∀ (s : State) (h : Nat) (e : HbEntry), s.hdr.hb.find h = some e → e.interval ≤ s.elapsed e.since →
    ∃ t e', exec (.hbInterval h) s = .next t ∧ t.hdr.hb.find h = some e' ∧ e'.since = s.edge.count ∧ e'.heard = false ∧
    (e.heard = true ∨ e.lost = true → e'.misses = e.misses ∧ e'.lost = e.lost) ∧
    (e.heard = false → e.lost = false → e'.misses = min (e.misses + 1) 255 ∧
      e'.lost = decide (e.missLimit ≤ e.misses + 1) ∧ (e.missLimit ≤ e.misses + 1 → t.hdr.hbLost = true))) ∧
  (∀ (s : State) (v : Word), s.reachable 0 → s.edgeOn 30 → exec (.mgtRingWrite v) s = .next (State.settle { s with
    hdr := { s.hdr with txTail := fld v 31 16, rxHead := fld v 15 0 } })))

/-- Table 15.7: the Hedgerow commands set and clear the port's addresses, its source table, its rings, its heartbeat
entries and its staging. -/
def Obligations.HedgerowCommands : Prop :=
  ∀ (s : State) (l : Nat) (tag : Word) (args : List Word), s.Serves l → s.hub.dev ≠ .boot →
  (l = 0 → Fits 10 args → s.live → (∀ i ∈ [1, 3, 5, 7, 9], argN args i < 2 ^ 16) → exec (.mgtAddrSet l tag args) s =
    answered { s.taken l 0x0801 tag args with
      hdr := { s.hdr with mac := argMac args 0, multicast := [2, 4, 6, 8].map (argMac args) } } l .ok []) ∧
  (∀ e : SrcEntry, l = 0 → Fits 6 args → s.live → argN args 0 < 16 → argN args 2 < 2 ^ 16 → argN args 5 < 2 →
    (argN args 1 ≠ 0 ∨ argN args 2 ≠ 0) → 1 ≤ argN args 4 → argN args 4 ≤ 255 →
    e = { mac := argMac args 1, rate := argN args 3, burst := argN args 4, blocked := argN args 5 == 1
          tokens := argN args 4, drops := 0, recent := 0 } →
    exec (.mgtSrcSet l tag args) s = answered { s.taken l 0x0802 tag args with
      hdr := { s.hdr with sources := s.hdr.sources.insert (argN args 0) e } } l .ok []) ∧
  (l = 0 → Fits 0 args → exec (.mgtSrcRead l tag args) s = answered (s.taken l 0x0803 tag args) l .ok
    ((s.hdr.sources.flatMap fun e => [BitVec.ofNat 32 e.1] ++ bytesWords e.2.mac ++
      [BitVec.ofNat 32 e.2.rate, BitVec.ofNat 32 e.2.burst, BitVec.ofNat 32 (b2n e.2.blocked),
       BitVec.ofNat 32 e.2.drops]).take 61)) ∧
  (l = 0 → Fits 5 args → argN args 0 ≤ 1 → argN args 1 ≤ 1 → argAddrOk args 2 → 4 ≤ argN args 4 → argN args 4 ≤ 12 →
    (argN args 1 = 1 → s.mem.inUsable (argAddr args 2) (2048 * 2 ^ argN args 4) ∧
      s.granted 0 (argAddr args 2) (2048 * 2 ^ argN args 4) (argN args 0 != 1)) →
    (argN args 0 = 0 → s.hdr.rxRing = none) → (argN args 0 = 1 → s.hdr.txRing = none) →
    ∀ r : HdrRing, r = { hbm := argN args 1 == 1, base := argAddr args 2, log2 := argN args 4, index := 0 } →
    exec (.mgtRingSet l tag args) s = answered { s.taken l 0x0804 tag args with hdr := (if argN args 0 = 1 then
      { s.hdr with txRing := some r } else { s.hdr with rxRing := some r }) } l .ok []) ∧
  (l = 0 → Fits 1 args → argN args 0 ≤ 1 → (argN args 0 = 0 → s.hdr.rxRing.isSome) → (argN args 0 = 1 → s.hdr.txRing.isSome) →
    exec (.mgtRingClear l tag args) s = answered { s.taken l 0x0805 tag args with
      hdr := s.hdr.closeRing (argN args 0 == 1) } l .ok []) ∧
  (∀ j, Fits 8 args → s.jobOf l (argN args 1) = some j → argN args 0 < 16 → argN args 2 < j.ranks → argN args 4 < 2 ^ 16 →
    argN args 5 ≤ 2 → 10000 ≤ argN args 6 → argN args 6 ≤ 2 ^ 31 → 2 ≤ argN args 7 → argN args 7 ≤ 255 →
    s.hdr.hb.length < 16 → s.hdr.hb.has (argN args 0) = false → j.keys ≠ [] → ∀ e : HbEntry,
    e = { job := argN args 1, rank := argN args 2, mac := argMac args 3, since := s.edge.count, interval := argN args 6
          missLimit := argN args 7
          path := if argN args 5 = 0 then .hedgerow else if argN args 5 = 1 then .fabric else .both } →
    exec (.mgtHbSet l tag args) s = answered { s.taken l 0x0810 tag args with
      hdr := { s.hdr with hb := s.hdr.hb.insert (argN args 0) e } } l .ok []) ∧
  (∀ j e, Fits 2 args → s.jobOf l (argN args 0) = some j → argN args 1 < 16 → s.hdr.hb.find (argN args 1) = some e →
    e.job = argN args 0 → exec (.mgtHbClear l tag args) s = answered { s.taken l 0x0811 tag args with
      hdr := { s.hdr with hb := s.hdr.hb.erase (argN args 1) } } l .ok []) ∧
  (∀ b, l = 0 → Fits 4 args → argN args 2 < 2 ^ 16 → 1 ≤ argN args 3 → argN args 3 ≤ 0x02000000 →
    s.fw.writable = some b → s.hdr.staging = none → s.edgeOn 33 → exec (.mgtStageArm l tag args) s =
    answered { s.taken l 0x0820 tag args with fw := s.fw.eraseBank b, hdr := { s.hdr with
      staging := some { armId := wordAt args 0, mac := argMac args 1, len := argN args 3, next := 0 } } } l .ok []) ∧
  (l = 0 → Fits 0 args → s.hdr.staging.isSome → exec (.mgtStageDisarm l tag args) s =
    answered { s.taken l 0x0821 tag args with hdr := { s.hdr with staging := none } } l .ok [])

/-! ## HBM, poison, refill and the traffic generators (08) -/

/-- R203 to R208, R217: a corrected error is counted; an uncorrectable error of the corrected class poisons the sector; an
uncorrectable cache error of a dirty sector is an error of that sector; a scrub interval takes the errors it meets; a
failing pin or row takes a spare. R208 to R214: a waiting sector takes a free refill entry; an unanswered request to
the partner is sent again after RTO_COUNTS; at the deadline the refill goes on without the partner, and where nothing
else serves it the sector takes the poison code; a held request of a partner is answered once its step is reached; an
Edpin fault loses its stack. -/
def Obligations.MemoryErrorsAndRefills : Prop :=
  (
  (∀ (s : State) (sec : Nat), sec / 2 ^ 25 < 576 → (s.mem.unit (sec / 2 ^ 25)).detect = false →
    exec (.correctedReadError sec) s = .next (State.settle { s with mem := { s.mem with
      corrected := true, correctedCount := s.mem.correctedCount + 1, lastKind := 1, lastAddr := sec * 32 } })) ∧
  (∀ (s : State) (sec : Nat), sec / 2 ^ 25 < 576 → (s.mem.unit (sec / 2 ^ 25)).detect = false → s.mem.lostSector sec = false →
    s.mem.errs.has sec = false → 256 ≤ s.mem.refills.length → exec (.hbmUncorrectableRead sec) s = .next (State.settle
      { s with mem := { s.mem with errs := s.mem.errs.insert sec .poisoned, poisoned := true
                                   poisonCount := s.mem.poisonCount + 1, lastKind := 3, lastAddr := sec * 32
                                   waiting := s.mem.waiting ++ [sec] } })) ∧
  (∀ (s : State) (sec : Nat), sec / 2 ^ 25 < 576 → (s.mem.unit (sec / 2 ^ 25)).detect = false → s.mem.lostSector sec = false →
    s.mem.errs.has sec = false → s.mem.refills.length < 256 → ∃ t, exec (.hbmUncorrectableRead sec) s = .next t ∧
    t.mem.poisoned = true ∧ t.mem.poisonCount = s.mem.poisonCount + 1 ∧
    (s.mem.parityServes sec = false → s.mem.descOf sec = none → t.mem.errs.find sec = some .poisonCode ∧
      t.mem.failedCount = s.mem.failedCount + 1)) ∧
  (∀ (s : State) (sec : Nat), exec (.cacheError sec true) s = .next (State.settle { s with mem := { s.mem with
    cacheCorr := true, cacheCorrCount := s.mem.cacheCorrCount + 1 } })) ∧
  (∀ (s : State) (sec : Nat), s.mem.dirty.contains sec = false → exec (.cacheError sec false) s = .next (State.settle
    { s with mem := { s.mem with cacheUncorr := true, cacheUncorrCount := s.mem.cacheUncorrCount + 1 } })) ∧
  (∀ (s : State) (sec : Nat), s.mem.dirty.contains sec = true → sec / 2 ^ 25 < 576 →
    (s.mem.unit (sec / 2 ^ 25)).detect = true → ∃ t, exec (.cacheError sec false) s = .next t ∧
    t.mem.errs.find sec = some .detected ∧ t.mem.cacheUncorrCount = s.mem.cacheUncorrCount + 1) ∧
  (∀ (s : State) (sec : Nat), s.mem.scrubRate ≠ 0 → 2 ^ 20 ≤ s.elapsed s.mem.lastScrub →
    (s.mem.unit (sec / 2 ^ 25)).detect = false → exec (.patrolScrub [sec] []) s = .next (State.settle { s with mem := { s.mem with
      lastScrub := s.edge.count, corrected := true, correctedCount := s.mem.correctedCount + 1, lastKind := 1
      lastAddr := sec * 32 } })) ∧
  (∀ (s : State) (ch : Nat), ch < 256 → ∃ t, exec (.channelRepair ch true) s = .next t ∧ t.mem.hbm = s.mem.hbm ∧
    t.mem.channels.getD ch {} = if 0 < (s.mem.channels.getD ch {}).sparePins then
      { (s.mem.channels.getD ch {}) with sparePins := (s.mem.channels.getD ch {}).sparePins - 1, pinRepaired := true
                                         pinCount := (s.mem.channels.getD ch {}).pinCount + 1 }
      else { (s.mem.channels.getD ch {}) with degraded := true }) ∧
  (∀ (s : State) (ch : Nat), ch < 256 → 0 < (s.mem.channels.getD ch {}).spareRows →
    ∃ t, exec (.channelRepair ch false) s = .next t ∧ t.mem.channels.getD ch {} =
      { (s.mem.channels.getD ch {}) with spareRows := (s.mem.channels.getD ch {}).spareRows - 1, rowRepaired := true
                                         rowCount := (s.mem.channels.getD ch {}).rowCount + 1 })) ∧
  (
  (∀ (s : State) (sec : Nat) (rest : List Nat), s.mem.waiting = sec :: rest → s.mem.refills.length < 256 →
    exec .refillTableFree s = .next ({ s with mem := { s.mem with waiting := rest } }.refillStart sec).settle) ∧
  (∀ (s : State) (sec ep : Nat) (st : Word) (since sent : BitVec 64) (e : Refill) (d : RefillDesc) (kind index : Nat) (r : Role),
    s.mem.refills.find sec = some e → e.wait = .partner ep st since sent → s.mem.descs.find e.desc = some d →
    s.fab.rtoCounts ≤ s.elapsed sent → s.refillPartner d = some (kind, index, r) → ∃ t,
    exec (.refillReqResend sec) s = .next t ∧
    t.mem.refills.find sec = some { e with wait := .partner ep st since s.edge.count } ∧ t.mem.errs = s.mem.errs ∧
    t.mem.hbm = s.mem.hbm) ∧
  (∀ (s : State) (sec ep : Nat) (st : Word) (since sent : BitVec 64) (e : Refill) (d : RefillDesc),
    s.mem.refills.find sec = some e → e.wait = .partner ep st since sent → s.mem.descs.find e.desc = some d →
    s.mem.deadline.toNat ≤ s.elapsed since → s.units.objects.find d.object.toNat = none →
    ∃ t, exec (.refillDeadline sec) s = .next t ∧ t.mem.errs.find sec = some .poisonCode ∧ t.mem.refillFailed = true ∧
    t.mem.failedCount = s.mem.failedCount + 1 ∧ t.mem.refills = s.mem.refills.erase sec) ∧
  (∀ (s : State) (h : HeldRefill) (r : Nat) (data : List Byte), s.heldRefills = [h] →
    s.refillAnswer (beToNat (h.sectorReq.take 8) / 32) (BitVec.ofNat 32 (beToNat (h.sectorReq.drop 8))) = some (r, data) →
    exec .refillReqServe s = .next (({ s with heldRefills := [] } : State).sendRefillReply h.job h.rank
      (beToNat (h.sectorReq.take 8) / 32) r data).settle) ∧
  (∀ (s : State) (k : Nat), k < 8 → s.mem.stackLost.getLsbD k = false → ∃ t, exec (.edpinFault k) s = .next t ∧
    t.mem.stackLost = s.mem.stackLost ||| (1#8 <<< k) ∧ t.mem.lostCount = s.mem.lostCount + 1 ∧ t.mem.hbm = s.mem.hbm ∧
    (∀ x ∈ t.mem.dirty, s.mem.stackOf x ≠ k) ∧ (∀ x ∈ t.mem.present, s.mem.stackOf x ≠ k)))

/-- R199, R205, R209, R219, R226: MEM_UNIT_CONFIG sets the class and parity of units and fills them with zeros;
MEM_REFILL_SET and MEM_REFILL_CLEAR add and remove a descriptor; MEM_PIN and MEM_UNPIN a pin; MEM_SCRUB_SET sets
SCRUB_RATE; MEM_POISON_LIST lists the poison-coded sectors that the lea is granted. R224, R225: MEM_TG_START starts a
run of the channel's generator with its arguments; MEM_TG_STOP ends it with what the run had found, a free value of
the machine (log 8); TG_RUN_END ends it with its mismatches. -/
def Obligations.MemoryCommandsAndTests : Prop :=
  (
  ∀ (s : State) (l : Nat) (tag : Word) (args : List Word), s.Serves l → s.hub.dev ≠ .boot →
  (l = 0 → Fits 4 args → 1 ≤ argN args 1 → argN args 0 + argN args 1 ≤ 576 → argN args 2 ≤ 1 → argN args 3 ≤ 1 →
    s.mem.stackLost = 0 →
    (∀ e ∈ s.leas, ∀ g ∈ e.2.grants, overlaps g.2.base g.2.len (argN args 0 * 2 ^ 30) (argN args 1 * 2 ^ 30) = false) →
    (∀ e ∈ s.leas, ∀ p ∈ e.2.pins, overlaps p.base p.len (argN args 0 * 2 ^ 30) (argN args 1 * 2 ^ 30) = false) →
    ∃ m, exec (.memUnitConfig l tag args) s = answered { s.taken l 0x0101 tag args with mem := m } l .ok [] ∧
    (∀ a, (argN args 0 ≤ a / 2 ^ 30 ∧ a / 2 ^ 30 < argN args 0 + argN args 1 → readByte m.hbm a = 0) ∧
      (a / 2 ^ 30 < argN args 0 ∨ argN args 0 + argN args 1 ≤ a / 2 ^ 30 → readByte m.hbm a = readByte s.mem.hbm a)) ∧
    (∀ u, u < argN args 0 ∨ argN args 0 + argN args 1 ≤ u → m.unit u = s.mem.unit u) ∧
    (s.mem.units.Pairwise (fun a b => a.1 < b.1) → ∀ u, argN args 0 ≤ u → u < argN args 0 + argN args 1 →
      m.unit u = { detect := argN args 2 == 1, parity := argN args 3 == 1 })) ∧
  (l = 0 → Fits 5 args → argAddrOk args 0 → 0 < argN args 2 → argN args 2 % 2 ^ 16 = 0 → argN args 4 < 256 →
    (argN args 3 = 0xFFFF ∨ s.jobs.has (argN args 3) = true) → s.mem.inCorrected (argAddr args 0) (argN args 2) →
    (∀ e ∈ s.mem.descs, overlaps e.2.base e.2.len (argAddr args 0) (argN args 2) = false) →
    exec (.memRefillSet l tag args) s = answered { s.taken l 0x0102 tag args with mem := { s.mem with
      descs := s.mem.descs.insert (topIndex s.mem.descs) { base := argAddr args 0, len := argN args 2, job := argN args 3
                                                           object := wordAt args 4, clean := true, lastStep := 0 } } } l .ok []) ∧
  (l = 0 → Fits 2 args → argAddrOk args 0 → (∃ e ∈ s.mem.descs, e.2.base = argAddr args 0) →
    exec (.memRefillClear l tag args) s = answered { s.taken l 0x0103 tag args with mem := { s.mem with
      descs := s.mem.descs.sel fun _ d => d.base != argAddr args 0 } } l .ok []) ∧
  (Fits 3 args → argAddrOk args 0 → argAddr args 0 % 2 ^ 16 = 0 → 0 < argN args 2 → argN args 2 % 2 ^ 16 = 0 →
    ceilDiv ((s.lea l).pins.foldl (fun n p => n + p.len) (argN args 2)) (2 ^ 20) ≤ (s.lea l).quotas.pinMib →
    ceilDiv (s.leas.foldl (fun n e => n + e.2.pins.foldl (fun n p => n + p.len) 0) (argN args 2)) (2 ^ 20) ≤ 256 →
    s.mem.inUsable (argAddr args 0) (argN args 2) → s.granted l (argAddr args 0) (argN args 2) false →
    exec (.memPin l tag args) s = answered ((s.taken l 0x0104 tag args).modLea l fun x =>
      { x with pins := x.pins ++ [{ base := argAddr args 0, len := argN args 2 }] }) l .ok []) ∧
  (Fits 3 args → argAddrOk args 0 → { base := argAddr args 0, len := argN args 2 } ∈ (s.lea l).pins →
    ∃ u, exec (.memUnpin l tag args) s = answered u l .ok [] ∧
    (u.lea l).pins = (s.lea l).pins.erase { base := argAddr args 0, len := argN args 2 } ∧ u.mem.hbm = s.mem.hbm ∧
    ∀ x ∈ u.mem.dirty, x ∈ s.mem.dirty ∧ (x * 32 < argAddr args 0 ∨ argAddr args 0 + argN args 2 ≤ x * 32)) ∧
  (l = 0 → Fits 1 args → s.live → argN args 0 < 65536 → exec (.memScrubSet l tag args) s =
    answered { s.taken l 0x0106 tag args with mem := { s.mem with scrubRate := argN args 0 } } l .ok []) ∧
  (Fits 0 args → (s.lea l).st = .enabled → ∃ all : List Nat,
    all = (s.mem.errs.filter fun e => e.2 == .poisonCode && s.granted l (e.1 * 32) 32 false).map (·.1) ∧
    exec (.memPoisonList l tag args) s = answered (s.taken l 0x0107 tag args) l .ok
      (packFields [(b2n (decide (30 < all.length)), 31), ((all.take 30).length, 0)] ::
        (all.take 30).flatMap fun x => words48 (x * 32)))) ∧
  (
  (∀ (s : State) (tag : Word) (args : List Word), s.Serves 0 → Fits 5 args → s.hub.dev ≠ .boot → argN args 0 < 256 →
    argN args 1 ≤ 1 → argN args 2 < 4 → 4 ≤ argN args 3 → argN args 3 ≤ 28 →
    (s.mem.channels.getD (argN args 0) {}).tgRun = none →
    (argN args 1 = 1 → s.mem.stackLost.getLsbD (argN args 0 / 32) = true) → exec (.memTgStart 0 tag args) s =
    answered ((s.taken 0 0x0110 tag args).modChannel (argN args 0) fun c => { c with
      tgRun := some (argN args 1 == 1, argN args 2, argN args 3, wordAt args 4), tgPins := 0 }) 0 .ok []) ∧
  (∀ (s : State) (tag : Word) (args : List Word), s.Serves 0 → Fits 1 args → s.hub.dev ≠ .boot → argN args 0 < 256 →
    (s.mem.channels.getD (argN args 0) {}).tgRun.isSome → ∃ u, exec (.memTgStop 0 tag args) s = answered u 0 .ok [] ∧
    (u.mem.channels.getD (argN args 0) {}).tgRun = none ∧ (u.mem.channels.getD (argN args 0) {}).tgDone = true ∧
    (u.mem.channels.getD (argN args 0) {}).tgDoneCount = (s.mem.channels.getD (argN args 0) {}).tgDoneCount + 1 ∧
    u.mem.hbm = s.mem.hbm) ∧
  (∀ (s : State) (ch n : Nat) (pins : BitVec 64), (s.mem.channels.getD ch {}).tgRun.isSome → ∃ t,
    exec (.tgRunEnd ch n pins) s = .next t ∧ (t.mem.channels.getD ch {}).tgRun = none ∧
    (t.mem.channels.getD ch {}).tgDone = true ∧ (t.mem.channels.getD ch {}).tgPins = pins ∧
    (t.mem.channels.getD ch {}).tgMismatches = min ((s.mem.channels.getD ch {}).tgMismatches + n) (2 ^ 32 - 1) ∧
    (t.mem.channels.getD ch {}).tgFail = ((s.mem.channels.getD ch {}).tgFail || decide (0 < n))))

/-! ## Jobs, roles, shards, Tedder's configuration and credit links (12) -/

/-- R316, R317, R319, R352: JOB_BIND of a new JOB_ID over headers that follow their tables binds the job under the first
free handle, with the training-step region in its bind state; JOB_UNBIND removes it with its groups, heartbeat entries
and waiting messages; JOB_READ and ROLE_READ report. R322, R323: ROLE_WRITE of entries that exist, each with a later
EPOCH than it has, writes them; messages that waited for them go on. An entry with an EPOCH that is no later fails
check 7, and nothing is written. R326, R334, R346, R352: SHARD_SET registers a shard and writes its header,
SHARD_CLEAR removes it; TED_SET, TED_HOME_SET and TED_CLEAR set, extend and remove Tedder's configuration while no
Tedder op of the job is in flight; CREDIT_LINK_SET and CREDIT_LINK_CLEAR add and remove a link. -/
def Obligations.JobRoleAndMappingCommands : Prop :=
  (
  ∀ (s : State) (l : Nat) (tag : Word) (args : List Word), s.Serves l → s.hub.dev ≠ .boot →
  (∀ h j, Fits 16 args → j = s.bound l args → bindArgsOk args → s.regionOk l j.scaleRegion 32 → s.regionOk l j.stepRegion 32 →
    s.regionOk l j.mapRegion 32 → s.access j.scaleRegion 32 = .good → s.access j.stepRegion 32 = .good →
    s.access j.mapRegion 32 = .good → s.headersOk j → s.jobs.length < 256 → (s.leaJobs l).length < (s.lea l).quotas.jobs →
    (s.lea l).st = .enabled → (∀ e ∈ s.jobs, e.2.jobId ≠ j.jobId) → s.jobs.freeFrom 0 257 = some h →
    ∃ u : State, u = { s.taken l 0x0501 tag args with jobs := s.jobs.insert h { j with logSince := some 0 } } ∧
    exec (.jobBind l tag args) s = answered (u.bindStep j) l .ok [BitVec.ofNat 32 h]) ∧
  (∀ j, Fits 1 args → s.jobOf l (argN args 0) = some j → (∀ e ∈ s.hub.ops, e.2.job ≠ argN args 0) →
    exec (.jobUnbind l tag args) s = answered ((s.taken l 0x0502 tag args).unbind (argN args 0)) l .ok []) ∧
  (∀ j, Fits 1 args → s.jobOf l (argN args 0) = some j → exec (.jobRead l tag args) s =
    answered (s.taken l 0x0503 tag args) l .ok ([j.jobId, BitVec.ofNat 32 j.rank, BitVec.ofNat 32 j.ranks] ++
      words64 j.seed ++ words48 j.scaleRegion ++ words48 j.stepRegion ++ words48 j.mapRegion ++
      [BitVec.ofNat 32 (b2n j.gatherHier), BitVec.ofNat 32 j.nodeSize, BitVec.ofNat 32 j.segLimit,
       BitVec.ofNat 32 j.fallowLimit, BitVec.ofNat 32 j.resolveCounts, BitVec.ofNat 32 (b2n j.replayPending),
       j.updateStep.getD 0])) ∧
  (∀ j, Fits 4 args → s.jobOf l (argN args 0) = some j → j.rolesOk args → s.access (j.roleBase args) (8 * argN args 3) = .good →
    exec (.roleRead l tag args) s = answered (s.taken l 0x0505 tag args) l .ok
      (s.readWords (j.roleBase args) (2 * argN args 3)))) ∧
  (
  ∀ (s : State) (l : Nat) (tag : Word) (args : List Word) (j : Job), s.Serves l → s.hub.dev ≠ .boot →
  s.jobOf l (argN args 0) = some j → Fits (4 + 2 * argN args 3) args → j.rolesOk args →
  s.access (j.roleBase args) (8 * argN args 3) = .good →
  ((∀ i < argN args 3, signedLess (s.readWord (j.roleBase args + 8 * i + 4)) (wordAt args (5 + 2 * i)) = true) →
    exec (.roleWrite l tag args) s = answered ((range' (argN args 2) (argN args 3)).foldl
      (fun u i => u.roleMoved (argN args 0) (argN args 1) i)
      ((s.taken l 0x0504 tag args).writeWords (j.roleBase args) ((args.drop 4).take (2 * argN args 3)))) l .ok []) ∧
  (∀ i < argN args 3, signedLess (s.readWord (j.roleBase args + 8 * i + 4)) (wordAt args (5 + 2 * i)) = false →
    exec (.roleWrite l tag args) s = answered (s.taken l 0x0504 tag args) l .stateMismatch [])) ∧
  (
  ∀ (s : State) (l : Nat) (tag : Word) (args : List Word) (j : Job), s.Serves l → s.hub.dev ≠ .boot →
    s.jobOf l (argN args 0) = some j →
  (Fits 5 args → argN args 1 < 65536 → argAddrOk args 2 → s.mem.inUsable (argAddr args 2) (32 + argN args 4) →
    s.granted l (argAddr args 2) (32 + argN args 4) true → j.shards.has (argN args 1) = false →
    s.writeAccess (argAddr args 2) 32 = .good → exec (.shardSet l tag args) s = answered
      (((s.taken l 0x0520 tag args).modJob (argN args 0) fun j => { j with
        shards := j.shards.insert (argN args 1) (argAddr args 2, argN args 4) }).writeWords (argAddr args 2)
          [packFields [(1, 24), (argN args 1, 0)], 0, 0, wordAt args 4, 0, 0, 0, 0]) l .ok []) ∧
  (Fits 2 args → argN args 1 < 65536 → j.shards.has (argN args 1) = true → exec (.shardClear l tag args) s = answered
    ((s.taken l 0x0521 tag args).modJob (argN args 0) fun j => { j with shards := j.shards.erase (argN args 1) }) l .ok []) ∧
  (Fits 12 args → j.tedOk (tedArgs args) → s.tedderBusy (argN args 0) = false → exec (.tedSet l tag args) s = answered
    ((s.taken l 0x0530 tag args).modJob (argN args 0) fun j => { j with tedder := some (tedArgs args) }) l .ok []) ∧
  (Fits 1 args → s.tedderBusy (argN args 0) = false → exec (.tedClear l tag args) s = answered
    ((s.taken l 0x0531 tag args).modJob (argN args 0) fun j => { j with tedder := none }) l .ok []) ∧
  (∀ t o, Fits 14 args → j.tedder = some t → o = tedHomeArgs args → argN args 1 < t.homeSlots → o.expert < 65535 →
    o.counter + 1 < (s.lea l).quotas.counters → (∀ i ∈ [3, 5, 7, 9, 11], argAddrOk args i = true) →
    s.granted l o.data0 (t.sources * t.cap * t.d) true → s.granted l o.scale0 (t.sources * t.cap * (t.d / 32)) true →
    s.granted l o.data1 (t.sources * t.cap * t.d) true → s.granted l o.scale1 (t.sources * t.cap * (t.d / 32)) true →
    s.granted l o.returns (2 * t.sources * 8) true → s.tedderBusy (argN args 0) = false →
    exec (.tedHomeSet l tag args) s = answered ((s.taken l 0x0532 tag args).modJob (argN args 0) fun j => { j with
      tedder := some { t with homes := t.homes.insert (argN args 1) o } }) l .ok []) ∧
  (Fits 9 args → argN args 1 < 256 → argN args 2 < (s.lea l).quotas.counters → argN args 2 < 4096 → 1 ≤ argN args 3 →
    argN args 3 ≤ 4 → argN args 4 < 2 ^ 24 → argN args 5 < 256 → argN args 6 % 32 = 0 → argN args 7 < 4096 →
    argN args 8 < 4096 → j.links.has (argN args 1) = false → exec (.creditLinkSet l tag args) s = answered
    ((s.taken l 0x0540 tag args).modJob (argN args 0) fun j => { j with
      links := j.links.insert (argN args 1) (linkArgs args) }) l .ok []) ∧
  (Fits 2 args → argN args 1 < 256 → j.links.has (argN args 1) = true → ∃ u j',
    exec (.creditLinkClear l tag args) s = answered u l .ok [] ∧ u.jobs.find (argN args 0) = some j' ∧
    j'.links = j.links.erase (argN args 1) ∧ j'.shards = j.shards ∧ j'.peers = j.peers ∧ u.mem = s.mem))

/-! ## Optical ports and the Hykan transport's configuration (10) -/

/-- R257 to R259, R261, R485: the link states of a port under faults, bring-up, hold, and a connector's detaching and
latching; PAUSE frames are counted; an ARP request or a Neighbor Solicitation for the port's address is answered within
the rate. -/
def Obligations.PortEvents : Prop :=
  (∀ (s : State) (p u c : Nat), p < 16 → (s.port p).st = .up →
    ((s.port p).faults.filter fun t => (s.edge.count - t).toNat < 2 ^ 30).length < 7 →
    (∃ t, exec (.portLinkFault p u c true) s = .next t ∧ (t.port p).st = .training ∧ (t.port p).linkFault = true ∧
      s.edge.count ∈ (t.port p).faults ∧ (t.port p).fecUncorr = min ((s.port p).fecUncorr + u) (2 ^ 32 - 1) ∧
      t.jobs = s.jobs ∧ t.mem = s.mem) ∧
    (u ≤ s.fab.fecLimit → ∃ t, exec (.portLinkFault p u c false) s = .next t ∧ (t.port p).st = .up ∧
      (t.port p).fecCorr = min ((s.port p).fecCorr + c) (2 ^ 32 - 1))) ∧
  (∀ (s : State) (p u c : Nat), p < 16 → (s.port p).st = .up →
    7 ≤ ((s.port p).faults.filter fun t => (s.edge.count - t).toNat < 2 ^ 30).length →
    ∃ t, exec (.portLinkFault p u c true) s = .next t ∧ (t.port p).st = .faulted) ∧
  (∀ (s : State) (p : Nat), (s.port p).st = .training → (s.port p).lasers → s.edgeOn (8 + p) →
    s.edgeOn (24 + (s.port p).engine) → s.fab.detached.contains (s.port p).engine = false →
    exec (.portBringupDone p) s = .next (s.modPort p fun x => { x with st := .hold, holdSince := s.edge.count }).settle) ∧
  (∀ (s : State) (p : Nat), (s.port p).st = .hold → s.fab.holdCounts ≤ s.elapsed (s.port p).holdSince →
    exec (.portHoldExpiry p) s = .next (s.modPort p fun x => { x with st := .up }).pumpAll.settle) ∧
  (∀ (s : State) (e p : Nat) (x : Port), e < 4 → s.fab.detached.contains e = false → s.fab.ports.find p = some x →
    x.configured → x.engine = e → ∃ t, exec (.connectorDetach e) s = .next t ∧ e ∈ t.fab.detached ∧ (t.port p).lasers = false ∧
    (x.active = true → (t.port p).linkFault = true ∧ ((t.port p).st = .training ∨ (t.port p).st = .faulted))) ∧
  (∀ (s : State) (e p : Nat) (x : Port), s.fab.ports.find p = some x → x.configured → x.engine = e → x.active = true →
    s.edgeFenced 39 = false → ∃ t, exec (.connectorLatch e) s = .next t ∧ t.fab.detached.contains e = false ∧
    (t.port p).lasers = true ∧ (t.port p).st = x.st) ∧
  (∀ (s : State) (p : Nat), p < 16 → (s.port p).linked → exec (.pauseFrame p) s =
    .next (s.modPort p fun x => { x with pauses := x.pauses + 1 }).settle) ∧
  (∀ (s : State) (p : Nat) (srcMac srcIp : List Byte), (s.port p).ipv4 ≠ [] → s.mayReply (s.port p) →
    ∃ t, exec (.arpRequest p srcMac srcIp (s.port p).ipv4) s = .next t ∧
    t.fab.otherOut = s.fab.otherOut ++ [(p, (s.port p).arpReply srcMac srcIp)] ∧ t.jobs = s.jobs ∧ t.mem = s.mem) ∧
  (∀ (s : State) (p : Nat) (srcMac srcIp : List Byte), (s.port p).ipv6 ≠ [] → s.mayReply (s.port p) →
    ∃ t, exec (.neighborSolicitation p srcMac srcIp (s.port p).ipv6) s = .next t ∧
    t.fab.otherOut = s.fab.otherOut ++ [(p, (s.port p).neighborAdvert srcMac srcIp)] ∧ t.jobs = s.jobs ∧ t.mem = s.mem)

/-- Table 10.11, R255 to R257, R259, R262 to R265: FAB_PORT_CONFIG of a DISABLED port with lanes that no other has;
FAB_PORT_ENABLE begins bring-up with a clear fault history; FAB_PORT_DISABLE turns the lasers off and erases the
MACsec keys; FAB_ADDR_SET sets the addresses; FAB_MACSEC_KEY installs an association. Table 10.11, R262, R267, R269 to
R271, R285: HYK_KEY_LOAD loads a slot that does not send, with TX_SEQ zero; HYK_KEY_SWITCH chooses the sending slot;
HYK_PEER_SET makes a new or lost peer ACTIVE; HYK_PEER_RESET discards the peer's channel contexts; HYK_WINDOW_SET and
HYK_WINDOW_CLEAR add and remove a window; HYK_CFG sets the parameters. -/
def Obligations.PortAndHykanCommands : Prop :=
  (
  ∀ (s : State) (tag : Word) (args : List Word), s.Serves 0 → s.hub.dev ≠ .boot →
  (Fits 9 args → argN args 0 < 16 → argN args 1 < 4 → argN args 3 ∈ [1, 2, 4, 8] → argN args 2 % argN args 3 = 0 →
    argN args 2 + argN args 3 ≤ 16 → argN args 4 ≤ 1 → 1518 ≤ argN args 5 → argN args 5 ≤ 9216 → argN args 6 ≤ 4094 →
    argN args 7 < 64 → argN args 8 < 3 → (argN args 8 = 1 → (configPort (s.port (argN args 0)) args).gbps ≤ 200) →
    (∀ e ∈ s.fab.ports, e.1 ≠ argN args 0 → e.2.sharesLane (configPort (s.port (argN args 0)) args) = false) →
    (s.port (argN args 0)).st = .disabled → exec (.fabPortConfig 0 tag args) s = answered
      ((s.taken 0 0x0301 tag args).modPort (argN args 0) fun p => { p with
        configured := true, engine := argN args 1, firstLane := argN args 2, lanes := argN args 3
        rate100 := argN args 4 == 1, frame := argN args 5, vlan := argN args 6, dscp := argN args 7
        suite := argN args 8 }) 0 .ok []) ∧
  (Fits 1 args → argN args 0 < 16 → ((s.port (argN args 0)).st = .disabled ∨ (s.port (argN args 0)).st = .faulted) →
    (s.port (argN args 0)).configured → s.edgeOn (8 + argN args 0) → s.edgeOn (24 + (s.port (argN args 0)).engine) →
    exec (.fabPortEnable 0 tag args) s = answered ((s.taken 0 0x0302 tag args).modPort (argN args 0) fun p => { p with
      st := .training, faults := [], lasers := !s.edgeFenced 39 && !s.fab.detached.contains p.engine }) 0 .ok []) ∧
  (Fits 1 args → argN args 0 < 16 → (s.port (argN args 0)).st ≠ .disabled → exec (.fabPortDisable 0 tag args) s = answered
    ((s.taken 0 0x0303 tag args).modPort (argN args 0) fun p => { p with
      st := .disabled, lasers := false, txSa := [], rxSa := [], txAn := none }) 0 .ok []) ∧
  (Fits 9 args → argN args 0 < 16 → argN args 2 < 65536 → argN args 8 < 65536 → (s.port (argN args 0)).st = .disabled →
    exec (.fabAddrSet 0 tag args) s = answered ((s.taken 0 0x0304 tag args).modPort (argN args 0) fun p => { p with
      mac := argMac args 1, ipv4 := argAddrBytes args 3 4, ipv6 := argAddrBytes args 4 16, udp := argN args 8 }) 0 .ok []) ∧
  (∀ sa : MacsecSa, Fits 11 args → argN args 0 < 16 → argN args 1 ≤ 1 → argN args 2 < 4 → (s.port (argN args 0)).configured →
    ((s.port (argN args 0)).suite = 1 ∨ ((s.port (argN args 0)).suite = 2 ∧ 15 ≤ args.length)) →
    sa = { an := argN args 2, key := argBytes args 3 32, pn := 1
           salt := if (s.port (argN args 0)).suite = 2 then argBytes args 11 12 else []
           ssci := if (s.port (argN args 0)).suite = 2 then wordAt args 14 else 0 } →
    exec (.fabMacsecKey 0 tag args) s = answered (((s.taken 0 0x0305 tag args).modPort (argN args 0) fun p =>
      if argN args 1 = 0 then { p with txSa := p.txSa.insert (argN args 2) sa, txAn := some (argN args 2) }
      else { p with rxSa := p.rxSa.insert (argN args 2) sa }).pumpAll) 0 .ok [])) ∧
  (
  ∀ (s : State) (l : Nat) (tag : Word) (args : List Word), s.Serves l → s.hub.dev ≠ .boot →
  (∀ j, Fits 11 args → s.jobOf l (argN args 0) = some j → argN args 1 < 2 → argN args 10 < 65536 →
    j.sendSlot ≠ some (argN args 1) → exec (.hykKeyLoad l tag args) s = answered
    (((s.taken l 0x0310 tag args).modJob (argN args 0) fun j => { j with
      keys := j.keys.insert (argN args 1) { key := argBytes args 2 32, senderId := argN args 10, txSeq := 0, tag := [] }
      sendSlot := j.sendSlot.or (some (argN args 1)), hb := j.hb.erase (argN args 1) }).pumpJob (argN args 0)) l .ok []) ∧
  (∀ j, Fits 2 args → s.jobOf l (argN args 0) = some j → argN args 1 < 2 → j.keys.has (argN args 1) = true →
    exec (.hykKeySwitch l tag args) s = answered (((s.taken l 0x0311 tag args).modJob (argN args 0) fun j => { j with
      sendSlot := some (argN args 1) }).pumpJob (argN args 0)) l .ok []) ∧
  (∀ j, Fits 10 args → s.jobOf l (argN args 0) = some j → argN args 1 < 1024 → argN args 8 < 65536 → argN args 9 < 65536 →
    (∀ p, j.peers.find (argN args 1) = some p → p.st = .lost) → exec (.hykPeerSet l tag args) s = answered
    (((s.taken l 0x0312 tag args).modJob (argN args 0) fun j => { j with peers := j.peers.insert (argN args 1)
                                                                           { addr := argIp args 2, mac := argMac args 7, ports := argN args 9 } }).pumpJob (argN args 0)) l .ok []) ∧
  (∀ j, Fits 2 args → s.jobOf l (argN args 0) = some j → (argN args 1 < 1024 ∨ argN args 1 = 0xFFFE ∨ argN args 1 = 0xFFFD) →
    (j.peer (argN args 1)).isSome → exec (.hykPeerReset l tag args) s = answered
    (((s.taken l 0x0313 tag args).endPeer (argN args 0) (argN args 1)).modJob (argN args 0) fun j =>
      (j.modPeer (argN args 1) fun p => { p with st := .active, faults := [] }).resetPeer (argN args 1)) l .ok []) ∧
  (∀ j, Fits 6 args → s.jobOf l (argN args 0) = some j → argN args 1 < 256 → argAddrOk args 2 → argAddr args 2 % 32 = 0 →
    argN args 4 % 32 = 0 → 0 < argN args 4 → 1 ≤ argN args 5 → argN args 5 ≤ 3 →
    s.mem.inUsable (argAddr args 2) (argN args 4) → s.granted l (argAddr args 2) (argN args 4) (bit (wordAt args 5) 0) →
    j.windows.has (argN args 1) = false → exec (.hykWindowSet l tag args) s = answered
    ((s.taken l 0x0314 tag args).modJob (argN args 0) fun j => { j with windows := j.windows.insert (argN args 1)
                                                                            { base := argAddr args 2, len := argN args 4
                                                                              data := bit (wordAt args 5) 0, refill := bit (wordAt args 5) 1 } }) l .ok []) ∧
  (∀ j, Fits 2 args → s.jobOf l (argN args 0) = some j → argN args 1 < 256 → j.windows.has (argN args 1) = true →
    j.placing (argN args 1) = false → exec (.hykWindowClear l tag args) s = answered
    ((s.taken l 0x0315 tag args).modJob (argN args 0) fun j => { j with windows := j.windows.erase (argN args 1) }) l .ok []) ∧
  (l = 0 → Fits 9 args → s.live → argN args 0 ∈ [1024, 2048, 4096, 8192] →
    (∀ e ∈ s.fab.ports, e.2.configured → argN args 0 + 130 + (if e.2.vlan = 0 then 0 else 4) +
      (if e.2.suite = 0 then 0 else 32) ≤ e.2.frame) → exec (.hykCfg l tag args) s =
    answered { s.taken l 0x0316 tag args with fab := { s.fab with
      pktData := argN args 0, rtoCounts := argN args 1, retryLimit := argN args 2, faultLimit := argN args 3
      rateWindow := argN args 4, minRate := argN args 5, aiStep := argN args 6, holdCounts := argN args 7
      fecLimit := argN args 8 } } l .ok []))

/-! ## The Hykan transport (10) and role movement (12) -/

/-- Table 10.7 checks 1 to 7, R272: a frame that fails a check is dropped and counted under the first check that it fails;
no job and no memory changes, whatever its TYPE. -/
def Obligations.HykanCheckOrder : Prop :=
  ∀ (s : State) (f : RxFrame),
  (∀ i ∈ [Instr.receivedFrame f, .data f, .post f, .ack f, .nak f, .heartbeat f, .refillReq f, .refillReply f],
    ((s.port f.port).linked = false → exec i s = .next s.settle) ∧
    ((s.port f.port).linked → f.fcsOk = false →
      exec i s = .next (s.modPort f.port fun p => { p with fcsDrops := p.fcsDrops + 1 }).settle) ∧
    ((s.port f.port).linked → f.fcsOk → ((s.port f.port).suite = 0 ∨ f.macsecOk = true) → (s.port f.port).takes f = false →
      exec i s = .next (s.modPort f.port fun p => { p with otherDrops := p.otherDrops + 1 }).settle) ∧
    ((s.port f.port).linked → f.fcsOk → (s.port f.port).suite ≠ 0 → f.macsecOk = false → ∃ t, exec i s = .next t ∧
      (t.port f.port).macsecFail = true ∧ (t.port f.port).macsecCount = (s.port f.port).macsecCount + 1 ∧
      (t.port f.port).otherDrops = (s.port f.port).otherDrops + 1 ∧ t.jobs = s.jobs ∧ t.mem = s.mem) ∧
    ((s.port f.port).linked → (s.port f.port).takes f → wellFormedPacket f.payload = false →
      exec i s = .next (State.settle { s with fab := { s.fab with malformed := s.fab.malformed + 1 } }))) ∧
  (∀ p ∈ [(1, Instr.data f), (2, .post f), (3, .ack f), (4, .nak f), (5, .heartbeat f), (6, .refillReq f), (7, .refillReply f)],
    (s.port f.port).linked → (s.port f.port).takes f → wellFormedPacket f.payload → (parseHeader f.payload).type = p.1 →
    (s.packetJob (parseHeader f.payload) = none →
      exec p.2 s = .next (State.settle { s with fab := { s.fab with unknownJob := s.fab.unknownJob + 1 } })) ∧
    (∀ jh j, s.packetJob (parseHeader f.payload) = some (jh, j) →
      ((j.peer (parseHeader f.payload).src).any (fun x => x.st == .active && x.addr == f.src) = false →
        exec p.2 s = .next (State.settle { s with fab := { s.fab with unknownPeer := s.fab.unknownPeer + 1 } })) ∧
      ((j.peer (parseHeader f.payload).src).any (fun x => x.st == .active && x.addr == f.src) = true →
        (j.keys.find (parseHeader f.payload).slot = none → exec p.2 s =
          .next (State.settle { s with fab := { s.fab with authDrops := s.fab.authDrops + 1 } })) ∧
        (∀ k, j.keys.find (parseHeader f.payload).slot = some k →
          gcmTag k.key (parseHeader f.payload).nonce (f.payload.take 36)
            ((f.payload.drop 36).take (f.payload.length - 52)) ≠ f.payload.drop (f.payload.length - 16) →
          ∃ t, exec p.2 s = .next t ∧ t.fab.authDrops = s.fab.authDrops + 1 ∧ t.fab.authFail = true ∧
          t.fab.authCount = s.fab.authCount + 1 ∧ t.jobs = s.jobs ∧ t.mem = s.mem))))

/-- R208, R275, R276, R45: a DATA packet that its channel awaits is written at its window's base plus OFFSET, and accepted;
the last packet of a message raises the counter that its placement names by SIGNAL_INC; a POST that has room is written at
the tail of its queue, which moves on by one. -/
def Obligations.HykanPlacement : Prop :=
  ∀ (s : State) (f : RxFrame) (jh : Nat) (j : Job) (k : KeySlot) (c : RxChan) (h : HykHeader) (pl : Placement) (len : Nat),
  h = parseHeader f.payload → j.InOrder f c → parsePlacement (hykContent f k) = (pl, len) →
  len = (hykContent f k).length - 12 → ∀ p : RxPacket, p =
    { psn := h.psn, last := h.last, post := h.type == 2, pl := pl, body := (hykContent f k).drop 12, step := h.step
      roleKind := h.roleKind, roleIndex := h.roleIndex } →
  ∀ c' : RxChan, c' = { c with cum := c.cum + 1, unackedCount := c.unackedCount + 1
                               oldest := some (c.oldest.getD s.edge.count) } →
  (∀ w, s.HykPasses f 1 jh j k → h.last = false → pl.useSignal = false → h.src ≠ 0xFFFE → h.src ≠ 0xFFFD → pl.target < 256 →
    j.windows.find pl.target = some w → w.data → pl.offset % 32 = 0 → pl.offset + len ≤ w.len →
    s.writeAccess (w.base + pl.offset) len ≠ .stall →
    exec (.data f) s = .next ((s.write (w.base + pl.offset) p.body).modJob jh fun x => { x with
      rx := x.rx.insert (chanKey h.src h.channel) { c' with held := [p] } }).settle) ∧
  (∀ w, s.HykPasses f 1 jh j k → h.last → c.delivered = c.cum → pl.useSignal → pl.signalIdx < (s.lea j.lea).quotas.counters →
    h.src ≠ 0xFFFE → h.src ≠ 0xFFFD → pl.target < 256 → j.windows.find pl.target = some w → w.data → pl.offset % 32 = 0 →
    pl.offset + len ≤ w.len → s.writeAccess (w.base + pl.offset) len ≠ .stall → s.mem.descs = [] →
    (∀ e ∈ s.jobs, e.2.shards = []) → s.wdr.groups = [] → j.tedder = none → s.watchers j.lea pl.signalIdx = [] →
    ∃ t, exec (.data f) s = .next t ∧ t.mem = (s.write (w.base + pl.offset) p.body).mem ∧
    t.counter j.lea pl.signalIdx = { s.counter j.lea pl.signalIdx with
      value := (s.counter j.lea pl.signalIdx).value + BitVec.ofNat 32 pl.signalInc } ∧
    t.jobs.find jh = some { j with
      rx := j.rx.insert (chanKey h.src h.channel) { c' with delivered := c.cum + 1 } }) ∧
  (∀ q, s.HykPasses f 2 jh j k → h.last → c.delivered = c.cum → pl.useSignal = false → pl.target < 4096 → len = 128 →
    pl.offset = 0 → s.postRefusal jh j pl.target = none → (s.lea j.lea).queues.find pl.target = some q →
    ∃ t, exec (.post f) s = .next t ∧
    t.mem = (s.write (q.base + 128 * (s.lea j.lea).qdb.getD pl.target 0) p.body).mem ∧
    (t.lea j.lea).qdb.find pl.target = some (((s.lea j.lea).qdb.getD pl.target 0 + 1) % 2 ^ q.log2) ∧
    t.jobs.find jh = some { j with
      rx := j.rx.insert (chanKey h.src h.channel) { c' with delivered := c.cum + 1 } })

/-- R277, R278, R282, R424, R279, R210: an ACK past all of a message's packets so far takes them from its channel and clears
the expiries; a NAK with ST_NO_RESOURCE leaves the packet and clears the expiries; a fabric heartbeat is heard; a refill
request for a sector at its step is answered with its data; a reply to a waiting refill puts its data in the sector. -/
def Obligations.HykanAnswers : Prop :=
  ∀ (s : State) (f : RxFrame) (jh : Nat) (j : Job) (k : KeySlot) (h : HykHeader) (d : List Byte),
  h = parseHeader f.payload → d = hykContent f k →
  (∀ c, s.HykPasses f 3 jh j k → beToNat ((d.drop 14).take 2) = 0 → j.tx.find (chanKey h.src h.channel) = some c →
    c.queued = [] → c.unacked ≠ [] →
    (∀ p ∈ c.unacked, signedLess p.psn (BitVec.ofNat 32 (beToNat (d.take 4))) = true ∧ p.last = false) →
    ∀ c' : TxChan, c' = { c with unacked := [], acked := openTail (c.acked ++ c.unacked), backoff := 0, expiries := 0
                                 rwnd := beToNat ((d.drop 12).take 2), since := s.edge.count } →
    exec (.ack f) s = .next (s.modJob jh fun x => { x with
      tx := x.tx.insert (chanKey h.src h.channel) c' }).settle) ∧
  (∀ c p, s.HykPasses f 4 jh j k → beToNat ((d.drop 4).take 2) = Status.noResource.code →
    j.tx.find (chanKey h.src h.channel) = some c → p ∈ c.unacked → p.psn = BitVec.ofNat 32 (beToNat (d.take 4)) →
    exec (.nak f) s = .next (s.modJob jh fun x => { x with
      tx := x.tx.insert (chanKey h.src h.channel) { c with expiries := 0 } }).settle) ∧
  (∀ i e, s.HykPasses f 5 jh j k → s.hdr.hbOf jh h.src = some (i, e) → exec (.heartbeat f) s =
    .next (State.settle { s with hdr := { s.hdr with
      hb := s.hdr.hb.insert i (e.hear true (BitVec.ofNat 32 (beToNat (d.take 4)))) } })) ∧
  (∀ sec, s.HykPasses f 6 jh j k → sec = beToNat (d.take 8) / 32 → h.roleKind = 0 → j.refillSource sec →
    (∀ data, s.refillAnswer sec (BitVec.ofNat 32 (beToNat ((d.drop 8).take 4))) = some (0, data) →
      exec (.refillReq f) s = .next (s.sendRefillReply jh h.src sec 0 data).settle) ∧
    (s.refillAnswer sec (BitVec.ofNat 32 (beToNat ((d.drop 8).take 4))) = none → ∃ t, exec (.refillReq f) s = .next t ∧
      t.mem = s.mem ∧ t.jobs = s.jobs ∧ t.fab = s.fab ∧ ∃ x ∈ t.heldRefills, x.job = jh ∧ x.rank = h.src)) ∧
  (∀ sec e ep st since sent desc, s.HykPasses f 7 jh j k → sec = beToNat (d.take 8) / 32 → d.length = 48 →
    beToNat ((d.drop 8).take 1) = 0 → s.mem.refills.find sec = some e → e.wait = .partner ep st since sent →
    s.mem.descs.find e.desc = some desc → desc.job = jh →
    exec (.refillReply f) s = .next (State.settle { s with mem := { s.mem.refilled sec (d.drop 16) with
      refPartner := s.mem.refPartner + 1 } }))

/-- R277, R278, R280, R283, R324: an ACK goes out 2,000 counts after its oldest packet; a timeout counts, backs off and
sends again, and the RETRY_LIMIT-th in a row loses the peer; at the end of a rate window without CE marks the rate rises
and α decays; a message whose role moved goes again after RTO_COUNTS, and ends after RESOLVE_COUNTS. -/
def Obligations.HykanTimers : Prop :=
  ∀ (s : State) (jh : Nat) (j : Job), s.jobs.find jh = some j →
  (∀ chan c t0, j.rx.find chan = some c → c.oldest = some t0 → 2000 ≤ s.elapsed t0 → ∃ t j',
    exec (.ackDelayExpiry jh chan) s = .next t ∧ t.mem = s.mem ∧ t.jobs.find jh = some j' ∧
    j'.rx = j.rx.insert chan { c with unackedCount := 0, oldest := none } ∧ j'.tx = j.tx ∧
    t.fab.out.length ≤ s.fab.out.length + 1 ∧ t.fab.out.take s.fab.out.length = s.fab.out) ∧
  (∀ chan c, j.tx.find chan = some c → (c.unacked.any fun p => !p.sacked && !j.waitsFor p.owner) →
    s.rto c ≤ s.elapsed c.since → c.expiries + 1 < s.fab.retryLimit → ∃ t j' c',
    exec (.retxTimeout jh chan) s = .next t ∧ t.mem = s.mem ∧ t.fab.timeouts = s.fab.timeouts + 1 ∧
    t.jobs.find jh = some j' ∧ j'.rx = j.rx ∧ j'.tx.find chan = some c' ∧ c'.expiries = c.expiries + 1 ∧
    c'.backoff = c.backoff + 1 ∧ c'.since = s.edge.count ∧ c'.unacked = c.unacked ∧ c'.queued = c.queued) ∧
  (∀ chan c, j.tx.find chan = some c → (c.unacked.any fun p => !p.sacked && !j.waitsFor p.owner) →
    s.rto c ≤ s.elapsed c.since → s.fab.retryLimit ≤ c.expiries + 1 → exec (.retxTimeout jh chan) s =
    .next ((({ s with fab := { s.fab with timeouts := s.fab.timeouts + 1 } } : State).modTx jh chan fun c => { c with
      expiries := c.expiries + 1, backoff := c.backoff + 1, since := s.edge.count }).losePeer jh (chan / 4096) .lost).settle) ∧
  (∀ rank p r q, j.peer rank = some p → p.rate = some r → p.rateAt < s.rateWindowNow → p.ceSeen = false →
    s.peerPortRate j rank p = some q → exec (.rateWindowEnd jh rank) s = .next (s.modJob jh fun x => x.modPeer rank fun _ =>
      { p with rateAt := p.rateAt + 1, alpha := p.alpha * 15 / 16
               rate := some (min (r + (s.fab.aiStep : Rat)) (q : Rat)) }).settle) ∧
  (∀ rank p r, j.peer rank = some p → p.rate = some r → p.rateAt < s.rateWindowNow → p.ceSeen = true →
    exec (.rateWindowEnd jh rank) s = .next (s.modJob jh fun x => x.modPeer rank fun _ =>
      { p with ceSeen := false, rateAt := p.rateAt + 1 }).settle) ∧
  (∀ i w t0, j.waits[i]? = some w → w.resendAt = some t0 → s.fab.rtoCounts ≤ s.elapsed t0 →
    exec (.roleResendTimer jh i) s = .next (s.resendHere jh w w.epoch).settle) ∧
  (∀ i w, j.waits[i]? = some w → j.resolveCounts ≤ s.elapsed w.firstNak → exec (.roleResolveTimeout jh i) s =
    .next ((((({ s with units := { s.units with resolveFailed := true, resolveCount := s.units.resolveCount + 1 } } :
      State).takeOut jh w.key w.owner).dropWait jh w.owner).msgUnresolved w.owner).settle))

/-! ## The scalar cores (05) -/

/-- R114, R123, R128, R130, Table 5.4: control and uniform instructions. Each changes its own cluster alone, and there the
pc, the counts and the register named. R122, R123: a uniform register that is written holds the value cut to its
width, and no other changes; a row that has executed INSTR_LIMIT instructions and goes on stops with CAUSE 2; an addmx
with no MX pair stops it with CAUSE 3. -/
def Obligations.UniformInstructionEffects : Prop :=
  (
  ∀ (s : State) (c n : Nat) (o : Op) (f : IFields) (k p : Cluster), s.RunsRow c n o → k = s.cluster c → p = k.past f 1 →
  exec (.nop c f) s = .next (s.putCluster c p).settle ∧
  exec (.halt c f) s = .next (s.putCluster c { p with st := .ended }).settle ∧
  exec (.setvl c f) s = .next (s.putCluster c { p with
    len := min (k.uniform f.s1.toNat) 64, paired := false, oddTail := false }).settle ∧
  exec (.setvlP c f) s = .next (s.putCluster c { p with
    len := min (ceilDiv (k.uniform f.s1.toNat) 2) 64, paired := true
    oddTail := k.uniform f.s1.toNat % 2 = 1 ∧ ceilDiv (k.uniform f.s1.toNat) 2 ≤ 64 }).settle ∧
  exec (.bnz c f) s = .next (s.putCluster c (if k.uniform f.s1.toNat = 0 then p else { p with pc := p.branch f })).settle ∧
  exec (.jmp c f) s = .next (s.putCluster c { p with pc := p.branch f }).settle ∧
  exec (.sublen c f) s = .next (s.putCluster c
    (p.setUniform f.dst.toNat (k.uniform f.dst.toNat + 2 ^ 48 - k.covered))).settle ∧
  exec (.addlen c f) s = .next (s.putCluster c
    (p.setUniform f.dst.toNat (k.uniform f.dst.toNat + k.len * k.uniform2 f))).settle ∧
  exec (.mov c f) s = .next (s.putCluster c (p.setUniform f.dst.toNat (k.uniform2 f))).settle ∧
  exec (.movi c f) s = .next (s.putCluster c (p.setUniform f.dst.toNat (f.imm.getD 0).toNat)).settle ∧
  exec (.uadd c f) s = .next (s.putCluster c
    (p.setUniform f.dst.toNat (k.uniform f.s1.toNat + k.uniform2 f))).settle ∧
  exec (.usub c f) s = .next (s.putCluster c
    (p.setUniform f.dst.toNat (k.uniform f.s1.toNat + 2 ^ 48 - k.uniform2 f))).settle ∧
  (∀ i x, mxPair f.dst.toNat = some i → iBlockFmt f = some x → ∃ k', exec (.addmx c f) s = .next (s.putCluster c k').settle ∧
    k' = { p with a := k'.a } ∧ k'.addrReg i = (k.addrReg i + ceilDiv k.len 32 * fmtUnitBytes x) % 2 ^ 48 ∧
    k'.addrReg (i + 1) = (k.addrReg (i + 1) + ceilDiv k.len 32) % 2 ^ 48 ∧
    ∀ r, r ≠ i → r ≠ i + 1 → k'.addrReg r = k.addrReg r)) ∧
  (
  (∀ (k : Cluster) (i v : Nat), i < 24 →
    (k.setUniform i v).uniform i = (if i < 16 then v % 2 ^ 32 else v % 2 ^ 48) ∧
    ∀ r, r ≠ i → (k.setUniform i v).uniform r = k.uniform r) ∧
  (∀ (k : Cluster) (v : Nat), v ≤ 64 → (k.setUniform 24 v).len = v ∧ (k.setUniform 25 v) = k) ∧
  (∀ (s : State) (c n : Nat) (o : Op) (f : IFields), s.rowOn c = some (n, o) → o.entry = 0 →
    (o.instrLimit ≤ (s.cluster c).instrs + 1 → ∃ t, exec (.nop c f) s = .next t ∧ (t.cluster c).st = .stopped 2 ∧
      t.mem = s.mem ∧ t.jobs = s.jobs) ∧
    (mxPair f.dst.toNat = none → ∃ t, exec (.addmx c f) s = .next t ∧ (t.cluster c).st = .stopped 3 ∧
      t.mem = s.mem ∧ t.jobs = s.jobs)) ∧
  (∀ (s : State) (c : Nat) (f : IFields), (s.cluster c).op = none → exec (.fadd c f) s = .next s.settle))

/-- R119, R122, Table 5.4: a user program's instruction is fetched at the pc and executed; a halt ends the row, and a
fetch outside the grant stops it with CAUSE 3. R115, R116, R190, Table 5.1: a free cluster starts a row with the op's
words in u0 to u15; a row that has ended frees its cluster and counts for its die. -/
def Obligations.RowRunsAndProgramFetch : Prop :=
  (
  (∀ (s : State) (c n : Nat) (o : Op), s.RunsRow c n o → s.granted o.lea (s.cluster c).pc 4 false →
    s.access (s.cluster c).pc 4 = .good → fld (s.readWord (s.cluster c).pc) 31 24 = 1 →
    bit (s.readWord (s.cluster c).pc) 1 = false → bit (s.readWord (s.cluster c).pc) 0 = false →
    exec (.elementwiseOp c) s = .next (s.putCluster c { (s.cluster c).past (iFieldsOf (s.readWord (s.cluster c).pc) none) 1 with st := .ended }).settle) ∧
  (∀ (s : State) (c n : Nat) (o : Op), s.RunsRow c n o → s.granted o.lea (s.cluster c).pc 4 false = false →
    ∃ t, exec (.elementwiseOp c) s = .next t ∧ (t.cluster c).st = .stopped 3 ∧ t.mem = s.mem) ∧
  (∀ (s t : State) (o : Op) (k x : Cluster) (m : Nat), s.fetchRun o k = .go t x → x.st = .running →
    s.runProgram o k (m + 1) = t.runProgram o x m)) ∧
  (
  (∀ (s : State) (c n l : Nat) (o : Op) (r : EltRun), s.clusterOn c = true → (s.cluster c).op = none →
    pickLea ((s.leas.filter fun x => (s.rowPool c).any fun e => e.2.lea == x.1).map fun x =>
      (x.1, x.2.wCluster, x.2.vCluster)) = some l →
    s.firstByPrio ((s.rowPool c).filter fun e => e.2.lea == l) = some n → s.op n = some o → s.scalar.runs.find n = some r →
    r.rerun = [] → ∃ t, exec (.rowDispatch c) s = .next t ∧ (t.cluster c).op = some n ∧ (t.cluster c).row = r.nextRow ∧
    (∀ i < 16, (t.cluster c).uniform i = (o.w (8 + i)).toNat) ∧ (t.cluster c).store = [] ∧ (t.cluster c).st = .running ∧
    t.scalar.runs.find n = some { r with nextRow := r.nextRow + 1 } ∧ t.mem = s.mem ∧ t.jobs = s.jobs) ∧
  (∀ (s : State) (c : Nat), s.clusterOn c = false ∨ (s.cluster c).op.isSome → exec (.rowDispatch c) s = .next s.settle) ∧
  (∀ (s : State) (c n : Nat) (o : Op) (r : EltRun), (s.cluster c).op = some n → s.op n = some o → (s.cluster c).st = .ended →
    s.scalar.runs.find n = some r → r.doneRows + 1 < o.rows → r.fail = none → r.cancelled = false →
    ∃ t, exec (.rowEnd c) s = .next t ∧ t.cluster c = { priv := (s.cluster c).priv } ∧
    (t.scalarDie (c / 64)).rows = (s.scalarDie (c / 64)).rows + 1 ∧
    ((s.cluster c).mxElems = 0 → (s.cluster c).underflow = 0 → t.mem = s.mem)) ∧
  (∀ (s : State) (c n : Nat) (o : Op), (s.cluster c).op = some n → s.op n = some o → (s.cluster c).st = .running →
    exec (.rowEnd c) s = .next s.settle))

/-- R123 to R128, Table 5.4: each lane instruction gives every lane that takes part its result, and leaves every other lane,
register and the memory unchanged. The functions are those of R124 to R126; comparisons write a predicate. -/
def Obligations.LaneInstructions : Prop :=
  ∀ (s : State) (c n : Nat) (o : Op) (f : IFields) (k : Cluster), s.RunsRow c n o → k = s.cluster c →
  ∀ (a b d : Nat → Word), (∀ l, a l = k.lane f.s1.toNat l) → (∀ l, b l = k.lane2 f l) → (∀ l, d l = k.lane f.s3.toNat l) →
  (∀ p ∈ [
      (Instr.fadd c f, 1, fun l => fadd (a l) (b l)), (.fsub c f, 1, fun l => fsub (a l) (b l)),
      (.fmul c f, 1, fun l => fmul (a l) (b l)), (.fma c f, 1, fun l => fma (a l) (b l) (d l)),
      (.fmin c f, 1, fun l => (fmin (a l) (b l), false)), (.fmax c f, 1, fun l => (fmax (a l) (b l), false)),
      (.fabs c f, 1, fun l => (fabs (a l), false)), (.fneg c f, 1, fun l => (fneg (a l), false)),
      (.exp2 c f, 4, fun l => fexp2 (a l)), (.log2 c f, 4, fun l => flog2 (a l)), (.rcp c f, 4, fun l => rcp (a l)),
      (.rsqrt c f, 4, fun l => frsqrt (a l)), (.tanh c f, 4, fun l => ftanh (a l)), (.erf c f, 4, fun l => ferf (a l)),
      (.sigm c f, 4, fun l => fsigm (a l)), (.fdiv c f, 8, fun l => fdiv (a l) (b l)),
      (.iadd c f, 1, fun l => (a l + b l, false)), (.isub c f, 1, fun l => (a l - b l, false)),
      (.imul c f, 1, fun l => (a l * b l, false)), (.and c f, 1, fun l => (a l &&& b l, false)),
      (.or c f, 1, fun l => (a l ||| b l, false)), (.xor c f, 1, fun l => (a l ^^^ b l, false)),
      (.shl c f, 1, fun l => (if (b l).toNat < 32 then a l <<< b l else Config.shiftOver true (a l) (b l), false)),
      (.shr c f, 1, fun l => (if 32 ≤ (b l).toNat then Config.shiftOver false (a l) (b l)
        else if Config.shrSigned then (a l).sshiftRight (b l).toNat else a l >>> b l, false)),
      (.padd c f, 1, fun l => k.pairLane f l ((bf16Lo (a l)).add (bf16Lo (b l))) ((bf16Hi (a l)).add (bf16Hi (b l)))),
      (.pmul c f, 1, fun l => k.pairLane f l ((bf16Lo (a l)).mul (bf16Lo (b l))) ((bf16Hi (a l)).mul (bf16Hi (b l)))),
      (.pfma c f, 1, fun l => k.pairLane f l (((bf16Lo (a l)).mul (bf16Lo (b l))).add (bf16Lo (d l)))
        (((bf16Hi (a l)).mul (bf16Hi (b l))).add (bf16Hi (d l)))),
      (.redsum c f, 6, fun _ => laneTree ((List.range 64).map fun l => if k.takes f l then (a l, false) else (0, false))),
      (.redmax c f, 6, fun _ => (k.foldLanes f fmax, false)), (.redmin c f, 6, fun _ => (k.foldLanes f fmin, false)),
      (.bcast c f, 1, fun _ => (k.laneAt f.s1.toNat (k.uniform2 f), false)),
      (.perm c f, 2, fun l => (k.laneAt f.s1.toNat (b l).toNat, false)),
      (.lds c f, 1, fun l => (k.storeWord (a l).toNat, false)),
      (.cvt c f, 1, fun l => cvtWrite (Config.cvtTo (BitVec.ofNat 4 (iFmtCode f))).toNat
        (cvtRead (Config.cvtFrom (BitVec.ofNat 4 (iFmtCode f))).toNat (a l)).1
        (if (Config.cvtFrom (BitVec.ofNat 4 (iFmtCode f))).toNat = 3 then
          (cvtRead (Config.cvtFrom (BitVec.ofNat 4 (iFmtCode f))).toNat (a l)).2
        else (cvtRead (Config.cvtFrom (BitVec.ofNat 4 (iFmtCode f))).toNat (b l)).1))],
    ∃ k', exec p.1 s = .next (s.putCluster c k').settle ∧ k.LaneResult k' f p.2.1 p.2.2) ∧
  (∃ k', exec (.fsel c f) s = .next (s.putCluster c k').settle ∧ k.LaneResult k' { f with pred := 0 } 1
    fun l => (if k.predicate f.pred.toNat l then a l else b l, false)) ∧
  (∃ k', exec (.fcmp c f) s = .next (s.putCluster c k').settle ∧ k.PredResult k' f fun l =>
    Config.fcmpHolds f.s3 ((fp32 (a l)).lt (fp32 (b l))) ((fp32 (a l)).numEq (fp32 (b l))) ((fp32 (b l)).lt (fp32 (a l)))) ∧
  (∃ k', exec (.icmp c f) s = .next (s.putCluster c k').settle ∧ k.PredResult k' f fun l =>
    Config.icmpHolds f.s3 ((a l).slt (b l)) ((a l).ult (b l)) (a l == b l)) ∧
  exec (.sts c f) s = .next (s.putCluster c { k.past f 1 with store := (k.lanes f).foldl (fun m l =>
    if (a l).toNat + 4 ≤ 131072 then writeCells m (a l).toNat (natToLE 4 (b l).toNat) else m) k.store }).settle

/-- R65 to R67, R69 to R78, R118, R122, R129, R130: loads give each lane that takes part the element at its place; stores
write each element's encoding, or each block's scale and codes, and no other byte of memory; an access outside the
grant stops the row with CAUSE 1. R220 to R222, Table 8.5: an atomic operation of an op with AMO gives a lane the old
value and writes the new one; no byte outside its targets changes; an op without AMO, a reserved OP or a misaligned
target stops the row with CAUSE 3. -/
def Obligations.LaneMemoryInstructions : Prop :=
  (
  ∀ (s : State) (c n : Nat) (o : Op) (f : IFields) (k : Cluster), s.RunsRow c n o → k = s.cluster c →
  (∀ x, iPlainFmt f = some x →
    s.spansGranted o.lea ((k.lanes f).map fun l => { base := k.base f + l * fmtUnitBytes x, len := fmtUnitBytes x }) →
    s.spansAccess ((k.lanes f).map fun l => { base := k.base f + l * fmtUnitBytes x, len := fmtUnitBytes x }) = .good →
    ∃ k', exec (.ldF c f) s = .next (s.putCluster c k').settle ∧ k.LaneResult k' f 1 fun l =>
      toFp32 (decodeElem x (leToNat (s.read (k.base f + l * fmtUnitBytes x) (fmtUnitBytes x))))) ∧
  (∀ i x, mxPair f.s1.toNat = some i → iBlockFmt f = some x → s.spansGranted o.lea (k.strip i x false) →
    s.spansAccess (k.strip i x false) = .good →
    ∃ k', exec (.ldmx c f) s = .next (s.putCluster c k').settle ∧ k.LaneResult k' f 1 fun l =>
      toFp32 (decodeMx x (blockCode (readByte s.mem.hbm) x (k.addrReg i + l / 32 * fmtUnitBytes x) (l % 32))
        (readByte s.mem.hbm (k.addrReg (i + 1) + l / 32)).toNat)) ∧
  (∀ m, m = ceilDiv k.len 8 → 0 < m → s.spansGranted o.lea [{ base := k.base f, len := m }] →
    s.spansAccess [{ base := k.base f, len := m }] = .good →
    ∃ k', exec (.ldm c f) s = .next (s.putCluster c k').settle ∧ k.PredResult k' f fun l =>
      (readByte s.mem.hbm (k.base f + l / 8)).getLsbD (l % 8)) ∧
  (∀ x, iPlainFmt f = some x →
    s.spansGranted o.lea ((k.lanes f).map fun l => { base := k.base f + l * fmtUnitBytes x, len := fmtUnitBytes x }) = false →
    ∃ t, exec (.ldF c f) s = .next t ∧ (t.cluster c).st = .stopped 1 ∧ t.mem = s.mem) ∧
  (∀ x m, iPlainFmt f = some x → Cells.wf s.mem.hbm → (∀ q, s.mem.lostSector q = false) → m = fmtUnitBytes x →
    (∀ w, w = joinRuns ((k.lanes f).map fun l => (k.base f + l * m, natToLE m (encodeVal x (fp32 (k.lane2 f l))).1)) →
      s.spansGranted o.lea (w.map fun y => { base := y.1, len := y.2.length, write := true }) ∧
      s.spansAccess (w.map fun y => { base := y.1, len := y.2.length, write := true }) = .good) →
    ∃ t, exec (.stF c f) s = .next t ∧ (∀ l < 64, k.takes f l →
      readCells t.mem.hbm (k.base f + l * m) m = natToLE m (encodeVal x (fp32 (k.lane2 f l))).1) ∧
    (∀ a, (∀ l < 64, k.takes f l → a < k.base f + l * m ∨ k.base f + l * m + m ≤ a) →
      readByte t.mem.hbm a = readByte s.mem.hbm a) ∧
    (t.cluster c).d = k.d ∧ (t.cluster c).u = k.u ∧ (t.cluster c).a = k.a ∧ (t.cluster c).store = k.store) ∧
  (∀ p ∈ [(Instr.stmx c f, none), (.stmxS c f, some (k.uniform f.dst.toNat % 256))], ∀ i x, mxPair f.s1.toNat = some i →
    iBlockFmt f = some x → Cells.wf s.mem.hbm → (∀ q, s.mem.lostSector q = false) → 0 < k.len → k.len ≤ 64 →
    (∀ blk, k.addrReg i + 2 * fmtUnitBytes x ≤ k.addrReg (i + 1) ∨ k.addrReg (i + 1) + 2 ≤ k.addrReg i →
      blk = (chunks32 3 (k.stored f)).map (storedBlock x p.2) →
      (∀ w, w = joinRuns ((blk.zipIdx.map fun b => (k.addrReg i + b.2 * fmtUnitBytes x, packBlock x b.1.2.1)) ++
          blk.zipIdx.map fun b => (k.addrReg (i + 1) + b.2, [BitVec.ofNat 8 b.1.1])) →
        s.spansGranted o.lea (w.map fun y => { base := y.1, len := y.2.length, write := true }) ∧
        s.spansAccess (w.map fun y => { base := y.1, len := y.2.length, write := true }) = .good) →
      ∃ t, exec p.1 s = .next t ∧ (∀ b e, blk[b]? = some e →
        readCells t.mem.hbm (k.addrReg i + b * fmtUnitBytes x) (fmtUnitBytes x) = packBlock x e.2.1 ∧
        readByte t.mem.hbm (k.addrReg (i + 1) + b) = BitVec.ofNat 8 e.1) ∧
      (∀ a, (a < k.addrReg i ∨ k.addrReg i + ceilDiv k.len 32 * fmtUnitBytes x ≤ a) →
        (a < k.addrReg (i + 1) ∨ k.addrReg (i + 1) + ceilDiv k.len 32 ≤ a) →
        readByte t.mem.hbm a = readByte s.mem.hbm a)))) ∧
  (
  ∀ (s : State) (c n : Nat) (o : Op) (f : IFields) (k : Cluster) (w : Word), s.RunsRow c n o → k = s.cluster c →
  f.imm = some w →
  (o.amo = true → fld w 3 0 < 0xE → 16 ≤ f.s1.toNat → f.s1.toNat ≤ 23 → Cells.wf s.mem.hbm →
    (∀ q, s.mem.lostSector q = false) →
    (∀ l ∈ k.lanes f, (k.base f + (k.lane f.s2.toNat l).toNat) % amoBytes (fld w 3 0) = 0) →
    s.spansGranted o.lea ((k.lanes f).map fun l =>
      { base := k.base f + (k.lane f.s2.toNat l).toNat, len := amoBytes (fld w 3 0), write := true }) →
    s.spansAccess ((k.lanes f).map fun l =>
      { base := k.base f + (k.lane f.s2.toNat l).toNat, len := amoBytes (fld w 3 0) }) = .good →
    ∃ t, exec (.amo c f) s = .next t ∧
    (∀ a, (∀ l ∈ k.lanes f, a < k.base f + (k.lane f.s2.toNat l).toNat ∨
      k.base f + (k.lane f.s2.toNat l).toNat + amoBytes (fld w 3 0) ≤ a) → readByte t.mem.hbm a = readByte s.mem.hbm a) ∧
    (∀ l a, k.lanes f = [l] → a = k.base f + (k.lane f.s2.toNat l).toNat → fld w 3 0 ≠ 1 →
      t.readWord a = (amoNew (fld w 3 0) (s.readWord a) (k.lane f.s3.toNat l) (k.lane (fld w 8 4) l)).1 ∧
      (t.cluster c).lane f.dst.toNat l = s.readWord a) ∧
    (∀ l a, k.lanes f = [l] → a = k.base f + (k.lane f.s2.toNat l).toNat → fld w 3 0 = 1 →
      leToNat (t.read a 8) = (leToNat (s.read a 8) + (k.lane f.s3.toNat l).toNat +
        2 ^ 32 * (k.lane ((f.s3.toNat + 1) % 32) l).toNat) % 2 ^ 64 ∧
      (t.cluster c).lane f.dst.toNat l = BitVec.ofNat 32 (leToNat (s.read a 8)))) ∧
  (o.amo = false ∨ 0xE ≤ fld w 3 0 → ∃ t, exec (.amo c f) s = .next t ∧ (t.cluster c).st = .stopped 3 ∧ t.mem = s.mem))

/-- R120, R131 to R138, R500: a row of each library function that can run ends, writes the results that its record places,
and no other byte of memory. Table 5.8, R132: a softmax row with a NaN input gives all NaN, an LSE of NaN and NAN_ROW;
one whose maximum is +infinity sets INF_ROW; one with every element masked gives all +0, an LSE of −infinity and
MASKED_ROW. -/
def Obligations.LibraryRowResults : Prop :=
  (
  ∀ (s : State) (c n : Nat) (o : Op) (a : LibArgs), Cells.wf s.mem.hbm → (∀ q, s.mem.lostSector q = false) →
  ∀ p ∈ [(Instr.softmaxFwd c, 0x0001), (.softmaxBwd c, 0x0002), (.actFwd c, 0x0010), (.actBwd c, 0x0011),
    (.stashWrite c, 0x0020), (.convert c, 0x0021)], s.LibReady c n p.2 o a →
  ∀ (v : RowVals) (w : List (Nat × List Byte)), v = s.libValues a (s.cluster c).row →
  w = (a.writes (s.cluster c).row v).all → ∃ t, exec p.1 s = .next t ∧
  (t.cluster c).st = .ended ∧ (t.cluster c).flags = v.flags ∧
  (∀ x, (∀ y ∈ w, x < y.1 ∨ y.1 + y.2.length ≤ x) → readByte t.mem.hbm x = readByte s.mem.hbm x) ∧
  (w.Pairwise (fun x y => x.1 + x.2.length ≤ y.1 ∨ y.1 + y.2.length ≤ x.1) →
    ∀ y ∈ w, readCells t.mem.hbm y.1 y.2.length = y.2) ∧ t.jobs = s.jobs) ∧
  (
  ∀ (a : LibArgs) (row : Nat) (mask : List Bool) (xs : List FV),
  (xs.any FV.nan → (softmaxRow a row mask none xs).out = xs.map (fun _ => Val.nan) ∧
    (softmaxRow a row mask none xs).lse = some f32Nan ∧ (softmaxRow a row mask none xs).flags = 1) ∧
  (xs.any FV.nan = false → (∀ e ∈ smT a row mask xs, e = none) →
    (softmaxRow a row mask none xs).out = xs.map (fun _ => Val.zero false) ∧
    (softmaxRow a row mask none xs).lse = some f32NegInf ∧ (softmaxRow a row mask none xs).flags = 4))

/-! ## The life of an op (02) -/

/-- R43, R45, R53, R495, Table 2.9: a slot that passes its checks is admitted and waits; one that fails a check is never
run, and its queue moves on all the same; a slot that the host does not return stops its queue. R50, R51, R180: an op
that may start, of a class whose unit does nothing at its start, runs and changes nothing else; an op whose counter is
FAILED completes with ST_DEP_FAILED; an op that waits for its counter changes nothing. -/
def Obligations.SlotFetchAndOpStart : Prop :=
  (
  ∀ (s : State) (l q : Nat) (k : Queue) (slot : List Byte) (u : State) (o : Op), (s.lea l).queues.find q = some k →
  s.mayFetch l q k = true → u = (s.modLea l fun x => x.passSlot q) → o = Op.ofSlot l q k.head slot →
  ((k.hbm = false ∧ slot.length = 128) ∨
    (k.hbm = true ∧ s.access (k.base + 128 * k.head) 128 = .good ∧ slot = s.read (k.base + 128 * k.head) 128) →
    (u.headerStatus o = none → ∃ t o', exec (.slotFetch l q (if k.hbm then [] else slot)) s = .next t ∧
      t.op s.hub.nextOp = some o' ∧ o'.phase = .waiting ∧ o'.hdr = o.hdr ∧ o'.body = o.body ∧ o'.lea = l ∧ o'.queue = q ∧
      t.hub.nextOp = s.hub.nextOp + 1 ∧ (t.lea l).queues.find q = some { k with head := (k.head + 1) % 2 ^ k.log2 } ∧
      (∀ n, n ≠ s.hub.nextOp → t.op n = s.op n)) ∧
    (∀ st, u.headerStatus o = some st → exec (.slotFetch l q (if k.hbm then [] else slot)) s =
      .next ((u.enterFlight { o with phase := .done st 0 }).completeOp s.hub.nextOp).settle)) ∧
  (k.hbm = false → slot.length ≠ 128 → ∃ t, exec (.slotFetch l q slot) s = .next t ∧
    (t.lea l).queues.find q = some { k with stopped := true } ∧ t.jobs = s.jobs)) ∧
  (
  (∀ (s : State) (n : Nat) (o : Op), s.MayBegin n o → o.cls ∈ [3, 4, 5] → s.jobs.find o.job = none →
    exec (.opStart n) s = .next (s.modOp n fun x => { x with phase := .running, stepped := true }).settle) ∧
  (∀ (s : State) (n : Nat) (o : Op) (j : Job), s.MayBegin n o → o.cls ∈ [3, 4, 5] → s.jobs.find o.job = some j →
    j.backward = true →
    exec (.opStart n) s = .next (s.modOp n fun x => { x with phase := .running, stepped := true }).settle) ∧
  (∀ (s : State) (n : Nat) (o : Op) (j : Job) (u : State), s.MayBegin n o → o.cls ∈ [3, 4, 5] → s.jobs.find o.job = some j →
    j.backward = false → u = (s.modOp n fun x => { x with phase := .running, stepped := true }) →
    exec (.opStart n) s = .next (((u.writeWords (j.logAddr j.logNext) ((o.hdr ++ o.body).take 32)).writeWords
      (j.stepRegion + 8) [j.logNext + 1]).modJob o.job fun x => { x with logNext := j.logNext + 1 }).settle) ∧
  (∀ (s : State) (n : Nat) (o : Op), s.op n = some o → s.live → s.mayStart n o → s.depFailed o →
    exec (.opStart n) s = .next (s.refuseOp n .depFailed).settle) ∧
  (∀ (s : State) (n : Nat) (o : Op), s.op n = some o → s.depFailed o = false → s.waitMet o = false →
    exec (.opStart n) s = .next s.settle))

/-- R47 to R51, R404: an op whose work has ended well raises the counter that it signals, and its entry goes to its ring with
TAG, STATUS, QUEUE, STEP, PHASE and DETAIL; a full ring holds the entry, and it is written once there is room. -/
def Obligations.OpCompletion : Prop :=
  ∀ (s : State) (n r : Nat) (o : Op) (k : CRing) (detail : Nat), s.op n = some o → (s.lea o.lea).st ≠ .resetting →
  s.opRing o = some (r, k) → k.hbm = false → s.pcie.up → bit (wordAt o.hdr 0) 10 = false → bit (wordAt o.hdr 0) 9 = false →
  (∀ st, o.phase = .entryHeld st detail → s.ringFull o.lea r k = false → ∃ t, exec (.completionRingRoom n) s = .next t ∧
    t.out.host = s.out.host ++ [(k.base + 16 * k.write, wordsToBytes [wordAt o.hdr 1,
      packFields [(st.code, 16), (o.queue, 0)], o.step, packFields [(b2n k.phase, 31), (natField detail 15 0, 0)]])] ∧
    (t.lea o.lea).rings.find r = some k.advance ∧ t.hub.ops = s.hub.ops.erase n ∧ t.mem = s.mem ∧ t.jobs = s.jobs) ∧
  (∀ st, o.phase = .entryHeld st detail → s.ringFull o.lea r k = true → exec (.completionRingRoom n) s = .next s.settle) ∧
  (∀ i, o.phase = .done .ok detail → i = fld (wordAt o.hdr 5) 19 8 → bit (wordAt o.hdr 0) 12 = true →
    s.watchers o.lea i = [] → s.jobs.find o.job = none → o.cls ≠ 7 → s.ringFull o.lea r k = false →
    s.hub.ops.Pairwise (fun a b => a.1 < b.1) → ∃ t, exec (.opCompletion n) s = .next t ∧
    t.counter o.lea i = { s.counter o.lea i with
      value := (s.counter o.lea i).value + BitVec.ofNat 32 (fld (wordAt o.hdr 5) 7 0) } ∧
    t.out.host = s.out.host ++ [(k.base + 16 * k.write, wordsToBytes (o.entryWords k .ok detail))] ∧
    (t.lea o.lea).rings.find r = some k.advance ∧ t.op n = none ∧ (∀ m, m ≠ n → t.op m = s.op m) ∧ t.mem = s.mem) ∧
  (o.phase = .done .ok detail → bit (wordAt o.hdr 0) 12 = false → s.jobs.find o.job = none → o.cls ≠ 7 →
    s.ringFull o.lea r k = true → ∃ t, exec (.opCompletion n) s = .next t ∧
    t.op n = some { o with phase := .entryHeld .ok detail } ∧ t.out.host = s.out.host ∧ t.mem = s.mem)

/-! ## The logical array (04) and the scale history (06) -/

/-- R92, R93, R343, R344: at an op boundary the hub picks; a pass that may start is counted, and the pass before it
drains; the drain of a pass makes its tiles. R101 to R103: a tile that overflows at its exponent is not written; it is
to be formed again, once, at one more than the exponent that it needs. -/
def Obligations.ArrayPassesAndOverflow : Prop :=
  (
  (∀ s : State, s.array.run = none → s.pickStands = false → s.array.inService ≠ 0 → exec .nextMatrixOpPick s =
    .next (State.settle { s with hub := { s.hub with picked := s.nextMatrix } })) ∧
  (∀ s : State, s.array.run.isSome ∨ s.array.inService = 0 → exec .nextMatrixOpPick s = .next s.settle) ∧
  (∀ (s : State) (o : Op) (r r' : MatrixRun) (p : Pass), s.inArray = some (o, r) → r.cancelled = false →
    (r.pass = none ∨ r.drain = none) → r.take o.mat = (r', some p) → ∃ t r'', exec .arrayPassStart s = .next t ∧
    t.array.run = some r'' ∧ r''.pass = some p ∧ r''.drain = (if r'.pass.isSome then r'.pass else r'.drain) ∧
    t.array.passes = s.array.passes + 1 ∧ r''.events = r'.events + s.passEvents o.mat (p.tiles.map (·.1)) *
      (if r'.transPass o.mat p then 2 else 1) ∧ t.mem = s.mem ∧ t.hub.ops = s.hub.ops ∧ t.jobs = s.jobs) ∧
  (∀ (s u : State) (o : Op) (r r' : MatrixRun) (p : Pass), s.inArray = some (o, r) → r.drain = some p →
    s.drainPass o { r with drain := none } false p = .done u r' →
    exec .arrayPassEnd s = .next (u.putRun o r').settle) ∧
  (∀ s : State, s.inArray = none → exec .arrayPassStart s = .next s.settle ∧ exec .arrayPassEnd s = .next s.settle ∧
    exec .matrixOp s = .next s.settle)) ∧
  (
  ∀ (s : State) (o : Op) (r : MatrixRun) (replay : Bool) (die : Nat) (t : Nat × Nat) (x : Tile) (r' : MatrixRun)
    (cells : List (List Cell)), s.tileNow o.mat (r.fill die t.2 (s.panelOf o.mat r die t.2)) t = (x, r') →
  cells = o.mat.cells (readByte s.mem.hbm) x.t0 t.1 (s.panelOf o.mat r die t.2) → x.recomputed = false →
  (cells.any fun row => row.any (Cell.over x.t0)) = true → ∃ u r'' needed, x.t0 ≤ needed ∧
  (∀ row ∈ cells, ∀ c ∈ row, c.over x.t0 = true → c.needed x.t0 ≤ needed) ∧
  s.drainTile o r replay die t = (.done u r'', true) ∧ u.array.recomputeCount = s.array.recomputeCount + 1 ∧
  u.array.tilesWritten = s.array.tilesWritten ∧ r''.recomputes = r'.recomputes + 1 ∧
  r''.tiles.find (o.mat.tileNo t) = some { t0 := needed + 1, recomputed := true })

/-- R86, R88, R107: a matrix op of one tile on one die, whose cells do not overflow at its worst-case bound, forms its cells
from A and B, writes its encoded output and no other byte of memory, and ends with ST_OK. -/
def Obligations.MatrixOpOfOneTile : Prop :=
  ∀ (s : State) (o : Op) (n die ev : Nat) (d : MatDesc) (t0 : Int) (cells : List (List Cell)) (enc : List EncOut),
  s.inArray = some (o, { op := n, dies := [die], start := none, events := ev }) → d = o.mat → d.mt = 1 → d.nt = 1 →
  s.NoNotes → o.inHistory = false → d.normEn = false →
  s.spansAccess (d.a.segReads (d.segA 0) ++ d.b.segReads (d.segB 0)) = .good → t0 = d.bound (readByte s.mem.hbm) (0, 0) →
  cells = d.cells (readByte s.mem.hbm) t0 0 (d.panel (readByte s.mem.hbm) 0) →
  (cells.any fun row => row.any (Cell.over t0)) = false → enc = d.encode t0 0 0 cells →
  s.spansAccess (encSpans enc) = .good → ∃ t o', exec .matrixOp s = .next t ∧ t.array.run = none ∧ t.op n = some o' ∧
  (∃ detail, o'.phase = .done .ok detail) ∧ t.mem = (s.putEnc enc).mem ∧
  (Cells.wf s.mem.hbm → ∀ a, (∀ x ∈ encSpans enc, a < x.base ∨ x.base + x.len ≤ a) →
    readByte t.mem.hbm a = readByte s.mem.hbm a)

/-- R150: a fold takes the observed exponent into the estimate at once where the entry is not VALID or the exponent is no
lower, and lets a lower one pull it down by an eighth of the gap, rounded up, or by a quarter where more than 2^−UF_LOG2
of the written elements underflowed; an entry without an observation keeps its estimate; a step with a recompute counts in
OVERFLOW_STEPS. R147, R148: the entry's pending report ends and its PEND_STEP becomes the held op's STEP. -/
def Obligations.ScaleHistoryFold : Prop :=
  (∀ (e : HistEntry) (u : Nat) (o : Int), e.pendObs = some o → (e.valid = false ∨ e.estimate ≤ 256 * o) →
    (e.fold u).estimate = 256 * o ∧ (e.fold u).valid = true) ∧
  (∀ (e : HistEntry) (u : Nat) (o d sh : Int), e.pendObs = some o → e.valid = true → 256 * o < e.estimate →
    d = e.estimate - 256 * o → sh = (if e.pendElements < e.pendUnderflow * 2 ^ u then 4 else 8) →
    (e.fold u).estimate = e.estimate - (d + sh - 1) / sh ∧ 256 * o ≤ (e.fold u).estimate ∧
    (e.fold u).estimate < e.estimate ∧ (e.fold u).valid = true) ∧
  (∀ (e : HistEntry) (u : Nat), e.pendObs = none → (e.fold u).estimate = e.estimate ∧ (e.fold u).valid = e.valid) ∧
  (∀ (e : HistEntry) (u : Nat), (e.fold u).overflowSteps =
    (if 0 < e.pendRecomputes then min (e.overflowSteps + 1) 65535 else e.overflowSteps)) ∧
  (∀ (s : State) (jh inst i : Nat) (j : Job) (e e' : HistEntry) (h : Nat × Op) (mine : Map Op),
    s.jobs.find jh = some j → s.histSlot j (BitVec.ofNat 32 inst) = some i → e = s.histEntry j i →
    mine = (s.hub.ops.filter fun x => x.2.job == jh && x.2.inHistory && x.2.inst == BitVec.ofNat 32 inst) →
    (mine.find? fun x => x.2.phase == .waiting && signedLess e.pendStep x.2.step) = some h →
    (mine.any fun x => x.2.step == e.pendStep && !x.2.completed) = false →
    e' = { (e.fold j.ufLog2).discard with foldedStep := e.pendStep, pendStep := h.2.step } →
    ∃ t, exec (.scaleFold jh inst) s = .next t ∧ t.mem = (s.putHist j i e').mem ∧ t.scale.folds = s.scale.folds + 1 ∧
    t.jobs = s.jobs ∧ t.hub.ops = s.hub.ops) ∧
  (∀ (s : State) (jh inst : Nat), s.jobs.find jh = none → exec (.scaleFold jh inst) s = .next s.settle)

/-! ## The weight-update engine (06) -/

/-- R168 to R172: an update op of each mode writes the tensors that it names, element by element, and no other byte of
memory; it counts its elements, adds to the norm entries that it names and ends with ST_OK. -/
def Obligations.UpdateOps : Prop :=
  ∀ (s : State) (n : Nat) (o : Op) (j : Job) (r : State × UpdAcc),
  ∀ p ∈ [(Instr.sgd n, UpdMode.sgd), (.adamw n, .adamw), (.lion n, .lion), (.accumulate n, .accumulate)],
  s.RunsFor n 7 o j → o.updMode = some p.2 → s.spansAccess o.updSpans = .good → s.NoNotes →
  r = s.updLoop o p.2 j.seed o.updCount 0 {} → ∃ t o', exec p.1 s = .next t ∧ t.op n = some o' ∧
  o'.phase = .done .ok (b2n r.2.saturated * 2 ^ 15 + b2n r.2.nanOut * 2 ^ 14 + b2n r.2.normSat * 2 ^ 13) ∧
  t.mem = r.1.mem ∧ t.scale.updElements = s.scale.updElements + BitVec.ofNat 64 o.updCount ∧ t.jobs = s.jobs ∧
  (Cells.wf s.mem.hbm → ∀ a, (∀ x ∈ o.updSpans, x.write = true → a < x.base ∨ x.base + x.len ≤ a) →
    readByte t.mem.hbm a = readByte s.mem.hbm a)

/-- R162: a stochastic write of a NaN gives the canonical NaN and of an infinity the infinity of its sign; a finite value is
cut to BF16, or goes to the next code from zero where the output drawn is below the bits cut off; where that code would be
an infinity, the largest finite number of the sign is written and the overflow flag set. R163: a lane's generator never
comes to zero; its seed is not zero. -/
def Obligations.StochasticRounding : Prop :=
  (∀ (f : Word) (r : Nat), (fp32 f).isNan = true → stochBf16 f r = (0x7FC0, false)) ∧
  (∀ (f : Word) (r : Nat), (fp32 f).isInf = true → stochBf16 f r = (fld f 31 16, false)) ∧
  (∀ (f : Word) (r code : Nat), (fp32 f).isNan = false → (fp32 f).isInf = false →
    code = (if r < fld f 15 0 then fld f 31 16 + 1 else fld f 31 16) →
    ((fp32 (BitVec.ofNat 32 (code * 65536))).isInf = false → stochBf16 f r = (code, false)) ∧
    ((fp32 (BitVec.ofNat 32 (code * 65536))).isInf = true → stochBf16 f r = (fld f 31 16, true))) ∧
  (∀ x : BitVec 64, x ≠ 0 → laneNext x ≠ 0) ∧
  (∀ (seed layer part lane : Nat) (step : Word), laneSeed seed layer part lane step ≠ 0)

/-! ## Sync ops (07, 12) and copies (10) -/

/-- R175: a PHASE op that starts takes the set of its job's other ops in flight and holds the job; while it does, no op
outside that set starts; once every op of the set has completed, PHASE becomes TO_PHASE and the op ends. R181: a MARK op
writes its directory entry and ends. -/
def Obligations.PhaseAndMark : Prop :=
  (∀ (s : State) (n : Nat) (o : Op) (j : Job) (u : State), s.MayBegin n o → o.cls = 8 → o.func = 1 →
    s.jobs.find o.job = some j → u = (s.modOp n fun x => { x with phase := .running, stepped := true }) →
    exec (.phase n) s = .next (u.takeHold o.job (some n)).settle ∧ ∃ t h j', exec (.phase n) s = .next t ∧
    t.jobs.find o.job = some j' ∧ j'.hold = some h ∧ h.op = some n ∧
    (∀ e ∈ s.hub.ops, e.2.job = o.job → e.1 ≠ n → e.2.completed = false → e.1 ∈ h.awaits) ∧ n ∉ h.awaits) ∧
  (∀ (s : State) (n : Nat) (o : Op) (j : Job) (h : JobHold), s.RunsFor n 8 o j → o.func = 1 → j.hold = some h →
    h.op = some n → s.holdOver h = true → exec (.phaseComplete n) s = .next
    (((s.writeWords (j.stepRegion + 4) [BitVec.ofNat 32 (b2n o.toBackward)]).modJob o.job fun x => { x with
      hold := none, backward := o.toBackward
      logSince := if o.toBackward then j.logSince else some j.logNext }).endOp n .ok).settle) ∧
  (∀ (s : State) (n : Nat) (o : Op) (j : Job) (h : JobHold), s.RunsFor n 8 o j → j.hold = some h →
    s.holdOver h = false → exec (.phaseComplete n) s = .next s.settle) ∧
  (∀ (s : State) (n m : Nat) (o : Op) (j : Job) (h : JobHold), s.op m = some o → s.jobs.find o.job = some j →
    j.hold = some h → h.op = some n → m ≠ n → m ∉ h.awaits → exec (.opStart m) s = .next s.settle) ∧
  (∀ (s : State) (n i prev : Nat) (o : Op) (j : Job) (last first : Word) (e : DirEntry), s.MayBegin n o → o.cls = 8 →
    o.func = 2 → s.jobs.find o.job = some j → i = o.f 0 15 0 → prev = o.f 1 31 16 → j.dirOk i →
    (prev = 0xFFFF ∨ j.dirOk prev = true) → last = j.logNext - 1 →
    first = (if prev = 0xFFFF then j.logSince.getD 0 else (s.dirEntry j prev).last + 1) →
    e = { prev := prev, layer := o.f 1 15 0, step := o.step, segment := o.segment, microbatch := o.microbatch
          base := o.addr 2, valid := true, noReplay := s.anyUnreplayable j o first last, len := (o.w 4).toNat
          first := first, last := last } →
    exec (.mark n) s = .next (((s.modOp n fun x => { x with phase := .running, stepped := true }).writeWords
      (j.dirAddr i) e.words).endOp n .ok).settle)

/-- R191 to R195: NORM_READ with DEST zero clears its entries, and otherwise writes a record for each and no other byte;
CLIP writes the clip factor into its slots and moves the queue's tail, or, where a norm is not finite, changes only
its flags. R329, R330, R333: SHARD_STAMP stamps entries whose buffers hold their shards, and is refused otherwise;
SHARD_CHECK ends well where every stamp holds, and otherwise reports the change and awaits a replay; PREFETCH brings
sectors into the cache. -/
def Obligations.NormShardAndPrefetchOps : Prop :=
  (
  (∀ (s : State) (n : Nat) (o : Op), s.runs n 8 = some o → o.func = 3 → o.addr 2 = 0 → exec (.normRead n) s =
    .next ((s.modLea o.lea fun x => { x with norms := x.norms.sel fun i _ =>
                                               i < o.f 1 15 0 || o.f 1 15 0 + o.normCount ≤ i }).endOp n .ok).settle) ∧
  (∀ (s : State) (n : Nat) (o : Op), s.runs n 8 = some o → o.func = 3 → o.addr 2 ≠ 0 →
    s.writeAccess (o.addr 2) (8 * o.normCount) ≠ .stall → s.NoNotes → Cells.wf s.mem.hbm →
    ∃ t, exec (.normRead n) s = .next t ∧ (∀ a, a < o.addr 2 ∨ o.addr 2 + 8 * o.normCount ≤ a →
      readByte t.mem.hbm a = readByte s.mem.hbm a) ∧ t.jobs = s.jobs) ∧
  (∀ (s : State) (n : Nat) (o : Op), s.runs n 8 = some o → o.func = 3 → o.addr 2 ≠ 0 → o.normCount = 1 → s.NoNotes →
    s.writeAccess (o.addr 2) 8 = .good → ∀ u : State, u = s.writeWords (o.addr 2) (s.norm o.lea (o.f 1 15 0)).record →
    exec (.normRead n) s = .next ((if bit (o.w 0) 23 then u.putNorm o.lea (o.f 1 15 0) {} else u).endOp n .ok).settle) ∧
  (∀ (s u : State) (n : Nat) (o : Op) (q : Queue) (g : Word), s.runs n 8 = some o → o.func = 4 →
    (s.lea o.lea).queues.find (o.f 1 27 16) = some q → q.hbm → q.stopped = false →
    (s.lea o.lea).qdb.getD (o.f 1 27 16) 0 = o.f 4 31 16 → (o.f 4 31 16 + o.f 4 15 0) % 2 ^ q.log2 = o.f 5 15 0 →
    s.clipStalls o q = false → (∀ i ∈ range' (o.f 1 15 0) (o.f 0 15 0), (s.norm o.lea i).nan = false ∧
      (s.norm o.lea i).inf = false) →
    g = clipScale ((range' (o.f 1 15 0) (o.f 0 15 0)).foldl (fun a i => a + (s.norm o.lea i).sum) 0) (o.w 2) (o.w 3) →
    s.clipSlots q g (o.f 4 15 0) (o.f 4 31 16) = (u, none) → s.NoNotes → exec (.clip n) s = .next ((u.modLea o.lea fun x => { x with
      qdb := x.qdb.insert (o.f 1 27 16) (o.f 5 15 0) }).endOp n .ok).settle) ∧
  (∀ (s : State) (n : Nat) (o : Op) (q : Queue), s.runs n 8 = some o → o.func = 4 →
    (s.lea o.lea).queues.find (o.f 1 27 16) = some q → q.hbm → q.stopped = false →
    (s.lea o.lea).qdb.getD (o.f 1 27 16) 0 = o.f 4 31 16 → (o.f 4 31 16 + o.f 4 15 0) % 2 ^ q.log2 = o.f 5 15 0 →
    s.clipStalls o q = false → (∃ i ∈ range' (o.f 1 15 0) (o.f 0 15 0), (s.norm o.lea i).nan = true ∨
      (s.norm o.lea i).inf = true) →
    exec (.clip n) s = .next (({ s with train := { s.train with
      clipNonfinite := true, nonfiniteCount := s.train.nonfiniteCount + 1 } } : State).endOp n .ok 0x8000).settle)) ∧
  (
  ∀ (s : State) (n : Nat) (o : Op) (j : Job), s.RunsFor n 8 o j →
  (o.func = 0x20 → s.spansAccess (s.gatherSpans (o.gatherEntries j)) = .good →
    ((∀ a ∈ o.gatherEntries j, fld (s.readWord (s.gatherBuffer a)) 15 0 = fld (s.readWord a) 15 0) →
      exec (.shardStamp n) s = .next (((o.gatherEntries j).foldl State.stampEntry s).endOp n .ok).settle) ∧
    ((∃ a ∈ o.gatherEntries j, fld (s.readWord (s.gatherBuffer a)) 15 0 ≠ fld (s.readWord a) 15 0) →
      exec (.shardStamp n) s = .next (s.endOp n .badArgument).settle)) ∧
  (o.func = 0x21 → s.spansAccess (s.gatherSpans (o.gatherEntries j)) = .good →
    ((∀ a ∈ o.gatherEntries j, s.stampHolds a = true) → exec (.shardCheck n) s = .next (s.endOp n .ok).settle) ∧
    ((∃ a ∈ o.gatherEntries j, s.stampHolds a = false) → ∃ t o' j', exec (.shardCheck n) s = .next t ∧
      t.op n = some o' ∧ o'.phase = .done .shardChanged 0 ∧ t.jobs.find o.job = some j' ∧ j'.replayPending = true ∧
      t.units.shardChanged = true ∧ t.units.shardCount = s.units.shardCount + 1 ∧ t.mem = s.mem)) ∧
  (o.func = 0x22 → s.spansAccess [{ base := o.addr 1, len := (o.w 3).toNat }] = .good → ∃ t o', exec (.prefetch n) s = .next t ∧
    t.op n = some o' ∧ o'.phase = .done .ok 0 ∧ t.mem.hbm = s.mem.hbm ∧ t.jobs = s.jobs ∧
    (∀ x ∈ s.mem.present, x ∈ t.mem.present) ∧ ∀ x ∈ sectorsOf (o.addr 1) (o.w 3).toNat, x ∈ t.mem.present))

/-- R281, R282, R369, Table 10.8: a LOCAL copy gives its destination what its source held, and no other byte of memory
changes; a PEER or POST copy to an ACTIVE peer queues its message; one without a key, or to a peer that is not there, ends. -/
def Obligations.CopyOps : Prop :=
  (∀ (s : State) (n : Nat) (o : Op), s.copyRun n 0 = some o → s.spansAccess o.cSpans = .good → s.NoNotes →
    s.openImage o.job = none → (∀ q, s.mem.lostSector q = false) → Cells.wf s.mem.hbm →
    ∃ t o', exec (.copyLocal n) s = .next t ∧ t.op n = some o' ∧ o'.phase = .done .ok 0 ∧
    t.read o.cDst.base o.cLen = s.read o.cSrc.base o.cLen ∧ t.jobs = s.jobs ∧
    ∀ a, a < o.cDst.base ∨ o.cDst.base + o.cLen ≤ a → readByte t.mem.hbm a = readByte s.mem.hbm a) ∧
  (∀ (s : State) (n : Nat) (o : Op) (j : Job), s.copyRun n 1 = some o → s.jobs.find o.job = some j →
    j.outstanding (.copy n) = false → s.copyRefusal o j = none → s.spansAccess [o.cSrc] = .good →
    exec (.copyPeer n) s = .next ((s.ride o.job o.cSrc.base o.cLen).send o.job (s.copyMessage n o)).settle) ∧
  (∀ (s : State) (n : Nat) (o : Op) (j : Job), s.copyRun n 2 = some o → s.jobs.find o.job = some j →
    j.outstanding (.post n) = false → s.copyRefusal o j = none → s.spansAccess [o.cSrc] = .good →
    exec (.copyPost n) s = .next (s.send o.job (s.copyMessage n o)).settle) ∧
  (∀ (s : State) (n : Nat) (o : Op) (j : Job) (st : Status), s.jobs.find o.job = some j → s.copyRefusal o j = some st →
    (s.copyRun n 1 = some o → j.outstanding (.copy n) = false → exec (.copyPeer n) s = .next (s.endOp n st).settle) ∧
    (s.copyRun n 2 = some o → j.outstanding (.post n) = false → exec (.copyPost n) s = .next (s.endOp n st).settle))

/-! ## Windrow (11) -/

/-- R302: in rank-order mode a chunk starts with contributor 0's words, copied exactly; it adds a contribution when it is
due, and one not yet due waits and changes no sum; so it comes to the same state in whatever order its contributions
arrive. R288: the chunks of a bucket part its elements among the contributors, each element to one; each contributor owns
one chunk. -/
def Obligations.WindrowChunks : Prop :=
  (∀ count r e : Nat, 0 < r → e < count → ∃ c, c < r ∧ (chunkSpan count r c).1 ≤ e ∧
    e < (chunkSpan count r c).1 + (chunkSpan count r c).2 ∧
    ∀ c', (chunkSpan count r c').1 ≤ e → e < (chunkSpan count r c').1 + (chunkSpan count r c').2 → c' = c) ∧
  (∀ r b i : Nat, i < r → ownedChunk r b i < r ∧ ownerOf r b (ownedChunk r b i) = i) ∧
  (∀ (k : Chunk) (n : Nat) (l m : List (Nat × Contribution)), k.rankOrder = true → k.taken = [] → k.waiting = [] →
    l.Perm m → (l.map (·.1)).Perm (List.range n) →
    l.foldl (fun k e => k.take e.1 e.2) k = m.foldl (fun k e => k.take e.1 e.2) k ∧
    (l.foldl (fun k e => k.take e.1 e.2) k).taken = List.range n) ∧
  (∀ (k : Chunk) (x : Contribution), k.rankOrder = true → k.taken = [] → k.waiting = [] →
    (k.take 0 x).sum = x.words ∧ (k.take 0 x).taken = [0]) ∧
  (∀ (k : Chunk) (i : Nat) (x : Contribution), k.rankOrder = true → k.taken.length < i →
    k.waiting.find k.taken.length = none → (k.take i x).sum = k.sum ∧ (k.take i x).taken = k.taken ∧
    (k.take i x).waiting.find i = some x) ∧
  (∀ (k : Chunk) (i : Nat) (x : Contribution), k.rankOrder = true → 0 < i → i = k.taken.length →
    k.waiting.find (i + 1) = none → (k.take i x).sum = List.zipWith (fun a b => (fadd a b).1) k.sum x.words ∧
    (k.take i x).taken = k.taken ++ [i])

/-- R289, R293, R297: a Windrow op on a step that does not reduce adds its source into its accumulator and ends; an op is
sent in its turn and takes the group's GSEQ; one that comes too late ends with SEQ_MISMATCH; one whose turn has not come
waits. -/
def Obligations.WindrowSending : Prop :=
  ∀ (s : State) (n : Nat) (o : Op) (g : WGroup), s.runs n 4 = some o → s.wdr.groups.find o.wGroup = some g →
  (s.wdr.runs.find n = none → g.reduces o.step = false → g.ownIndex.isSome → o.wLast = false →
    s.spansAccess (g.sourceSpans o) = .good → s.NoNotes → ∃ t o', exec (.windrowOp n) s = .next t ∧ t.op n = some o' ∧
    o'.phase = .done .ok 4096 ∧ t.mem = (s.wAccumulate o).mem ∧ (Cells.wf s.mem.hbm →
      ∀ a, a < o.addr 5 ∨ o.addr 5 + 4 * o.wCount ≤ a → readByte t.mem.hbm a = readByte s.mem.hbm a)) ∧
  (s.wdr.runs.find n = none → g.reduces o.step = true → g.turn o = .later → o.wBucket ≠ 0 →
    exec (.windrowOp n) s = .next (State.settle { s with wdr := { s.wdr with
      runs := s.wdr.runs.insert n { group := o.wGroup, localOnly := false, rank := o.rank } } })) ∧
  (∀ r, s.wdr.runs.find n = some r → r.group = o.wGroup → r.gseq = none →
    (g.turn o = .later → exec (.windrowSend n) s = .next s.settle) ∧
    (g.turn o = .before → exec (.windrowSend n) s = .next (s.seqError.wdrEnd n .seqMismatch).settle) ∧
    (g.turn o = .now → s.slotFree r.group g = true → g.ownIndex.isSome → s.spansAccess (g.sourceSpans o) = .good →
      exec (.windrowSend n) s = .next (s.wdrSendOp n o g).settle) ∧
    (g.turn o = .now → s.slotFree r.group g = true → g.ownIndex = none → g.early = [] → r.whole = none →
      (∃ c ∈ g.chunksOf o, r.results.has c = false) → ∃ t g' r', exec (.windrowSend n) s = .next t ∧
      t.wdr.groups.find o.wGroup = some g' ∧ g'.gseq = g.gseq + 1 ∧ g'.sendStep = some o.step ∧
      g'.sendBucket = (if o.wLast then 0 else o.wBucket + 1) ∧ t.wdr.runs.find n = some r' ∧ r'.gseq = some g.gseq ∧
      r'.waitSince = s.edge.count ∧ t.mem = s.mem ∧ t.jobs = s.jobs)) ∧
  (∀ r, s.wdr.runs.find n = some r → r.group = o.wGroup → r.gseq.isSome → r.unacked = [] →
    g.resultLimit ≤ s.elapsed r.waitSince → (∃ c ∈ g.chunksOf o, r.results.has c = false) →
    ∀ u : State, u = (((g.chunksOf o).filter fun c => !r.results.has c && !s.memberHere g (g.ownerMember o.wBucket c)).foldl
      (fun s c => s.contribute n c) s) →
    exec (.resultLimitExpiry n) s = .next (u.modRun n fun r => { r with waitSince := u.edge.count }).settle)

/-- R298, R299, R301, R304, R307, R312: the first contribution to a chunk opens it and is held in FP32; a RESULT's values
go into the member's RESULT tensor and nowhere else; an ESCALATE_REQ has the contribution sent again in FP32; a chunk whose
deadline passes below its quorum is SHORT. -/
def Obligations.WindrowMessages : Prop :=
  (∀ (s t0 : State) (d : Delivery) (gi i key : Nat) (g : WGroup) (h : WHeader), s.front .contrib = some (d, t0) →
    s.groupAt d = some (gi, g) → s.wdr.groups.find gi = some g → h = WHeader.parse d.body → i = g.slotIndex d.offset →
    i < g.count → key = chunkKey h.gseq h.chunk → (chunkSpan h.count g.count h.chunk).2 ≠ 0 → h.chunk < 1024 →
    g.expect.getD i g.expectBase = h.gseq → g.chunks = [] → h.rank = false → h.act = false → h.escalate = false →
    2 ≤ g.count → (∀ c, s.contributorGone g c = false) → ∃ t g' k, exec .contrib s = .next t ∧
    t.wdr.groups.find gi = some g' ∧ g'.expect.find i = some (h.gseq + 1) ∧ g'.chunks.find key = some k ∧ k.st = .opened ∧
    k.taken = [i] ∧ k.sum = decodeChunk h.fmt (chunkSpan h.count g.count h.chunk).2 (d.body.drop 256) ∧ k.d = h.weight ∧
    k.step = h.step ∧ k.openAt = s.edge.count ∧ t.delivered = t0.delivered ∧ t.mem = s.mem) ∧
  (∀ (s t0 : State) (d : Delivery) (gi n c : Nat) (g : WGroup) (r : WRun) (o : Op) (h : WHeader) (sp : Nat × Nat),
    s.front .result = some (d, t0) → s.groupAt d = some (gi, g) → s.wdr.groups.find gi = some g → h = WHeader.parse d.body →
    s.runOf gi h.gseq = some (n, r) → s.op n = some o → s.wdr.runs.find n = some r → r.group = gi → c = h.chunk →
    c ∈ g.chunksOf o → r.results.find c = none → r.whole = none →
    (∃ x ∈ g.chunksOf o, x ≠ c ∧ r.results.has x = false) → h.status = Status.ok.code → sp = chunkSpan o.wCount g.count c →
    s.spansAccess [o.wChunkSpan g.count c] = .good → Cells.wf s.mem.hbm → (∀ q, s.mem.lostSector q = false) →
    ∀ codes : List Nat, codes = (resultCodes o.wResFmt (decodeChunk h.fmt sp.2 (d.body.drop 256))).1 → codes.length = sp.2 →
    ∃ t r', exec .result s = .next t ∧ t.wdr.runs.find n = some r' ∧ r'.results.find c = some (.ok, h.digest) ∧
    t.read (o.addr 7 + o.wResBytes * sp.1) (o.wResBytes * sp.2) = codes.flatMap (natToLE o.wResBytes) ∧
    (∀ a, a < o.addr 7 + o.wResBytes * sp.1 ∨ o.addr 7 + o.wResBytes * sp.1 + o.wResBytes * sp.2 ≤ a →
      readByte t.mem.hbm a = readByte s.mem.hbm a) ∧ t.op n = some o) ∧
  (∀ (s t0 : State) (d : Delivery) (gi n : Nat) (g : WGroup) (r : WRun) (h : WHeader),
    s.front .escalateReq = some (d, t0) → s.groupAt d = some (gi, g) → h = WHeader.parse d.body →
    s.runOf gi h.gseq = some (n, r) → r.fp32.contains h.chunk = false → r.results.has h.chunk = false →
    exec .escalateReq s = .next ((t0.modRun n fun x => { x with fp32 := x.fp32 ++ [h.chunk] }).contribute n h.chunk).settle) ∧
  (∀ (s : State) (gi key : Nat) (g : WGroup) (k : Chunk), s.wdr.groups.find gi = some g → g.chunks.find key = some k →
    key / 1024 < 2 ^ 32 → k.st = .opened → k.act = false → k.rankOrder = false → g.deadline ≤ s.elapsed k.openAt →
    (k.taken.length < g.quorum → (∃ i < g.count, i ∉ k.taken) → (∀ c, s.contributorGone g c = false) →
      ∃ t g', exec (.chunkDeadline gi key) s = .next t ∧ t.wdr.groups.find gi = some g' ∧
      g'.chunks.find key = some { k with st := .short } ∧ t.mem = s.mem ∧ t.jobs = s.jobs) ∧
    (g.quorum ≤ k.taken.length → exec (.chunkDeadline gi key) s =
      .next (s.closeChunk gi g (BitVec.ofNat 32 (key / 1024)) (key % 1024) k).settle))

/-- Table 11.8, R287, R297, R300, R313, R315: WDR_GROUP_SET sets a group with its member table; WDR_GROUP_CLEAR removes
one that no op uses; WDR_MODE_SET sets MODE and RANK_UNTIL_STEP; WDR_SEQ_RESET restarts the sequence; WDR_GROUP_READ
answers the group. -/
def Obligations.WindrowCommands : Prop :=
  ∀ (s : State) (l : Nat) (tag : Word) (args : List Word) (j : Job), s.Serves l → s.hub.dev ≠ .boot →
  (∀ g w, Fits 22 args → s.jobOf l (argN args 1) = some j → s.groupArgsOk l args →
    s.access (argAddr args 2) (4 * argN args 4) = .good → g = s.groupArgs args → (∀ m ∈ g.members, memberOk m = true) →
    1 ≤ g.count → j.windows.find g.window = some w → 2 * g.slotSets * g.count * g.slotBytes ≤ w.len → w.data →
    s.wdr.groups.has (argN args 0) = false → exec (.wdrGroupSet l tag args) s = answered { s.taken l 0x0401 tag args with
      wdr := { s.wdr with groups := s.wdr.groups.insert (argN args 0) g } } l .ok []) ∧
  (∀ g : WGroup, s.jobOf l (argN args 0) = some j → argN args 1 < 64 → s.wdr.groups.find (argN args 1) = some g →
    g.job = argN args 0 →
    (Fits 2 args → s.groupBusy (argN args 1) = false → exec (.wdrGroupClear l tag args) s =
      answered { s.taken l 0x0402 tag args with wdr := { s.wdr with
        groups := s.wdr.groups.erase (argN args 1), runs := s.wdr.runs.sel fun _ r => r.group != argN args 1 } } l .ok []) ∧
    (Fits 4 args → argN args 2 < 2 → exec (.wdrModeSet l tag args) s =
      answered ((s.taken l 0x0403 tag args).modGroup (argN args 1) fun g => { g with
        modeRank := argN args 2 == 1, rankUntil := wordAt args 3 }) l .ok []) ∧
    (Fits 3 args → s.groupBusy (argN args 1) = false → exec (.wdrSeqReset l tag args) s =
      answered ((s.taken l 0x0404 tag args).modGroup (argN args 1) fun g => { g with
        gseq := wordAt args 2, expectBase := wordAt args 2, sendStep := none, sendBucket := 0, lastStep := none, expect := []
        chunks := [], early := [], digests := [], empties := [] }) l .ok []) ∧
    (Fits 2 args → exec (.wdrGroupRead l tag args) s = answered (s.taken l 0x0405 tag args) l .ok
      ([BitVec.ofNat 32 (argN args 1), BitVec.ofNat 32 g.job] ++ words48 g.memBase ++ [BitVec.ofNat 32 g.members.length,
        BitVec.ofNat 32 g.own, BitVec.ofNat 32 g.roleKind, BitVec.ofNat 32 g.channel, BitVec.ofNat 32 g.reduceEvery,
        g.baseStep, BitVec.ofNat 32 (b2n g.modeRank), g.rankUntil, BitVec.ofNat 32 g.deadline, BitVec.ofNat 32 g.quorum,
        BitVec.ofNat 32 g.resultLimit, BitVec.ofNat 32 g.window, BitVec.ofNat 32 g.slotSets, BitVec.ofNat 32 g.slotBytes] ++
        words48 g.recBase ++ [BitVec.ofNat 32 g.log2Rec, g.gseq0, g.gseq, g.sendStep.getD 0,
        BitVec.ofNat 32 g.sendBucket, g.records])))

/-! ## Tedder (12) -/

/-- R334 to R342: DISPATCH and RETURN send their messages, or end with PEER_LOST where a holder cannot be reached; COMBINE
waits for its rows, then writes OUT and no other byte of memory; a TOKENS message fills the expert input area of its home
and raises its counter, or is a BAD_MESSAGE; return records count for their bank. -/
def Obligations.TedderOpsAndMessages : Prop :=
  (∀ (s : State) (n i : Nat) (o : Op) (j : Job) (t : Tedder), s.tedRun n 1 = some (o, j, t) → s.units.tedRuns.has n = false →
    s.sourceIndex j t = some i → s.spansAccess (o.tSpans t) = .good →
    exec (.dispatch n) s = .next (s.dispatch n o j t i).settle ∧
    (∀ e < j.experts, s.holderOk j 4 e = false → ∃ u o', exec (.dispatch n) s = .next u ∧ u.op n = some o' ∧
      (∃ detail, o'.phase = .done .peerLost detail) ∧ u.units.tedPeerLost = true ∧
      u.units.tedLostCount = s.units.tedLostCount + 1 ∧ u.mem = s.mem ∧ u.jobs = s.jobs)) ∧
  (∀ (s : State) (n : Nat) (o : Op) (j : Job) (t : Tedder) (h : TedHome), s.tedRun n 2 = some (o, j, t) →
    s.units.tedRuns.has n = false → t.homes.find o.tHome = some h →
    s.spansAccess ({ base := h.returns + o.tBank * t.sources * 8, len := t.sources * 8 } :: o.tSpans t) = .good →
    exec (.returnRows n) s = .next (s.returns n o j t h).settle ∧
    ((∀ i < t.sources, (s.returnEntry t h o.tBank i).1 = 0) → s.tedOutstanding n o = false → ∃ u o',
      exec (.returnRows n) s = .next u ∧ u.op n = some o' ∧ o'.phase = .done .ok 0 ∧ u.mem = s.mem ∧ u.jobs = s.jobs)) ∧
  (∀ (s : State) (n e : Nat) (o : Op) (j : Job) (t : Tedder) (w : Window), s.tedRun n 3 = some (o, j, t) →
    t.expected.find o.tBank = some e → j.windows.find t.returnWin = some w →
    (t.returned.getD o.tBank 0 ≠ e → exec (.combine n) s = .next s.settle) ∧
    (t.returned.getD o.tBank 0 = e → s.NoNotes → s.spansAccess
        ({ base := w.base + o.tBank * t.retRows * t.recBytes, len := t.retRows * t.recBytes } :: o.tSpans t) = .good →
      ∃ u o' j' t', exec (.combine n) s = .next u ∧
      u.op n = some o' ∧ (∃ detail, o'.phase = .done .ok detail) ∧ u.jobs.find o.job = some j' ∧ j'.tedder = some t' ∧
      t'.expected = t.expected.erase o.tBank ∧ t'.returned = t.returned.erase o.tBank ∧ (Cells.wf s.mem.hbm → ∀ a,
        (∀ k < o.tTokens, ∀ x ∈ ((o.tOut t).encodeSeg none k 0 (s.combineRow t (w.base + o.tBank * t.retRows * t.recBytes)
          (keptPairs (s.routes o t j.experts) t.cap k (bit (o.w 0) 18)))).writes, a < x.1 ∨ x.1 + x.2.length ≤ a) →
        readByte u.mem.hbm a = readByte s.mem.hbm a))) ∧
  (∀ (s u : State) (d : Delivery) (j : Job) (t : Tedder) (h : TedHome) (bank hs i : Nat) (w : List Word),
    s.front .tokens = some (d, u) → s.tokensStall d.job d.offset = false → s.jobs.find d.job = some j → j.tedder = some t →
    t.stagingSlot d.offset = (bank, hs, i) → w = bytesToWords 16 d.body → t.homes.find hs = some h →
    (fld (wordAt w 0) 31 20 = 0x011 → fld (wordAt w 0) 15 0 = h.expert → fld (wordAt w 3) 31 16 = i →
      fld (wordAt w 2) 15 0 % 2 = bank → (wordAt w 5).toNat = t.d → (wordAt w 6).toNat ≤ t.cap → exec .tokens s =
      .next (u.takeTokens j.lea t h bank i (wordAt w 6).toNat (wordAt w 4).toNat (wordAt w 1) (d.body.drop 64)).settle) ∧
    (fld (wordAt w 0) 15 0 ≠ h.expert ∨ t.cap < (wordAt w 6).toNat → exec .tokens s = .next (State.settle { u with
      units := { u.units with tedBadMessage := true, tedBadCount := u.units.tedBadCount + 1 } }))) ∧
  (∀ (s u : State) (d : Delivery) (j : Job) (t : Tedder) (bank : Nat), s.front .returnRecords = some (d, u) →
    s.jobs.find d.job = some j → j.tedder = some t → bank = d.offset / max (t.retRows * t.recBytes) 1 → ∃ v j' t',
    exec .returnRecords s = .next v ∧ v.jobs.find d.job = some j' ∧ j'.tedder = some t' ∧
    t'.returned = t.returned.insert bank (t.returned.getD bank 0 + 1) ∧ v.mem = s.mem ∧ v.delivered = u.delivered)

/-! ## Baler (13) -/

/-- R364, R365, R366, R369, R370, Table 13.8: SNAPSHOT starts under a hold of its job, or is refused; once the ops that it
waits for have completed, the job is captured into the snapshot area alone, with the next CKPT_SEQ, and the hold ends; a
captured unit's leaf is its SHA-256; the sweep captures the WEIGHTS units that are wanted. -/
def Obligations.BalerSnapshots : Prop :=
  (∀ (s : State) (n : Nat) (o : Op) (j : Job) (b : Baler) (u : State), s.MayBegin n o → o.cls = 6 → o.bFunc = 1 →
    s.jobs.find o.job = some j → j.baler = some b → u = (s.modOp n fun x => { x with phase := .running, stepped := true }) →
    (b.st = .idle ∨ b.st = .unverified → j.replayPending = false → j.peerActive (storeRank false) = true →
      (∀ e ∈ s.jobGroups o.job, s.groupBlocks e.1 e.2 o.step = false) → b.holds (s.planSections o.job j b true) = true →
      exec (.snapshot n) s = .next ((((u.takeHold o.job (some n)).modBaler o.job fun b => { b with
        st := .paused, snapshotOp := some n }).logForward o).settle)) ∧
    (b.st = .paused ∨ b.st = .capturing ∨ j.replayPending = true ∨ j.peerActive (storeRank false) = false →
      exec (.snapshot n) s = .next (((u.endOp n .stateMismatch).completeOp n).settle))) ∧
  (∀ (s : State) (n : Nat) (o : Op) (j : Job) (b : Baler) (h : JobHold) (p : List Section × Nat × Nat),
    s.balRun n 1 = some (o, j, b) → j.hold = some h → h.op = some n → b.image = none →
    p = s.planSections o.job j b false → b.holds p = true →
    (s.holdOver h = true → s.spansAccess (pauseSpans p.1) = .good → ∃ t o' j' b' m, exec (.snapshotCapture n) s = .next t ∧
      t.op n = some o' ∧ o'.phase = .done .ok 0 ∧ t.jobs.find o.job = some j' ∧ j'.hold = none ∧ j'.baler = some b' ∧
      b'.st = .capturing ∧ b'.ckptSeq = b.ckptSeq + 1 ∧ b'.image = some m ∧ m.ckptSeq = b.ckptSeq + 1 ∧ m.step = o.step ∧
      m.loss = none ∧ m.noRoom = false ∧ (Cells.wf s.mem.hbm → ∀ a, a < b.area ∨ b.area + b.areaLen ≤ a →
        readByte t.mem.hbm a = readByte s.mem.hbm a)) ∧
    (s.holdOver h = false → exec (.snapshotCapture n) s = .next s.settle)) ∧
  (∀ (s : State) (jh si i : Nat) (data : List Byte) (j : Job) (b : Baler) (m : Image) (x : Section),
    s.openImage jh = some (j, b, m) → m.sections[si]? = some x → ∃ j' b' m' x',
    (s.captureUnit jh si i data).openImage jh = some (j', b', m') ∧ m'.sections[si]? = some x' ∧
    x'.leaves.find i = some (sha256 data) ∧ m'.ckptSeq = m.ckptSeq ∧ b'.st = b.st) ∧
  (∀ (s : State) (jh : Nat) (j : Job) (b : Baler) (m : Image) (us : List (Nat × Nat × Nat)) (u : State),
    s.openImage jh = some (j, b, m) → us = m.uncaptured (s.sweeps jh m) → b.st = .capturing →
    s.spansAccess (us.map fun x => { base := x.2.2, len := 4096 }) = .good →
    u = us.foldl (fun (s : State) x => s.captureUnit jh x.1 x.2.1 (s.read x.2.2 4096)) s →
    exec (.weightsSweep jh) s = .next (State.settle { u with units := { u.units with
      sweepUnits := u.units.sweepUnits + BitVec.ofNat 64 us.length } }))

/-- R360, R363, R371, R372: LOSS_RECORD's record is read into the open image; the manifest goes out with SEAL once every
section is captured and acknowledged; SEALED ends the image and its LOSS_RECORD; a refused image is abandoned; GET_DATA goes
to the use of its GET; a store message that names nothing open is dropped and counted. -/
def Obligations.BalerImages : Prop :=
  (∀ (s : State) (n : Nat) (o : Op) (j : Job) (b : Baler) (m : Image), s.balRun n 2 = some (o, j, b) → b.image = some m →
    m.op = some n → m.loss = none → s.access (o.addr 1) 32 = .good → exec (.lossRecord n) s =
    .next (s.modImage o.job fun m => { m with loss := some (s.read (o.addr 1) 32) }).settle) ∧
  (∀ (s : State) (jh i : Nat) (j : Job) (b : Baler) (m : Image) (k : KeySlot), s.openImage jh = some (j, b, m) →
    j.sendKey = some (i, k) →
    (m.loss.isSome → m.manifest = [] → (∀ x ∈ m.sections, x.whole = true) → j.putsOut false (fun _ => true) = false →
      exec (.sealImage jh) s = .next (((s.modImage jh fun m => { m with manifest := m.manifestBytes j k }).sendStore jh
        false 2 0 j.jobId j.rank m.ckptSeq 0 (m.manifestBytes j k) (.store jh (storeRank false) 2 0)).settle)) ∧
    (m.loss = none ∨ j.putsOut false (fun _ => true) = true → exec (.sealImage jh) s = .next s.settle)) ∧
  (∀ (s t : State) (d : Delivery) (j : Job) (b : Baler) (m : Image), s.front .sealed = some (d, t) →
    t.deliveryBaler d = some (j, b) → d.storeMsg.far = false → b.image = some m → m.manifest ≠ [] →
    d.storeMsg.names j.jobId j.rank m.ckptSeq = true → exec .sealed s = .next (t.imageSealed d.job m).settle ∧
    (b.farEvery = 0 → ∀ n o, m.op = some n → s.op n = some o → o.live → ∃ u j' b', exec .sealed s = .next u ∧
      u.op n = some { o with phase := .done .ok 0 } ∧ u.jobs.find d.job = some j' ∧ j'.baler = some b' ∧ b'.st = .idle ∧
      b'.image = none ∧ b'.ckptSeq = b.ckptSeq ∧ u.units.sealedCount = s.units.sealedCount + 1 ∧ u.mem = s.mem)) ∧
  (∀ (s t : State) (d : Delivery) (j : Job) (b : Baler) (m : Image), s.front .refused = some (d, t) →
    t.deliveryBaler d = some (j, b) → b.gets = [] → d.storeMsg.far = false → b.image = some m →
    d.storeMsg.names j.jobId j.rank m.ckptSeq = true → exec .refused s = .next (t.abandon d.job .unitFault 0x10).settle) ∧
  (∀ (s t : State) (d : Delivery) (j : Job) (b : Baler) (g : Get), s.front .getData = some (d, t) →
    t.deliveryBaler d = some (j, b) → b.gets = [g] → d.storeMsg.answers g = true → g.units = d.storeMsg.units →
    d.storeMsg.data.length = 4096 * g.units → ∀ u : State, u = (t.modBaler d.job fun b => { b with gets := [] }) →
    exec .getData s = .next (match g.use with
      | .restore => u.restoreGot d.job d.storeMsg.offset d.storeMsg.data
      | .relay => u.relayGot d.job d.storeMsg.offset d.storeMsg.data
      | .refill sec => u.refillGot sec d.storeMsg.offset d.storeMsg.data).settle) ∧
  (∀ (s t : State) (d : Delivery), ∀ p ∈ [(MsgKind.getData, Instr.getData), (.sealed, .sealed),
    (.refused, .refused)], s.front p.1 = some (d, t) → (t.deliveryBaler d = none ∨ ∃ j b, t.deliveryBaler d = some (j, b) ∧
      b.gets = [] ∧ b.image = none ∧ b.relay = none) → exec p.2 s = .next (State.settle { t with units := { t.units with
        fillsDropped := t.units.fillsDropped + 1 } }))

/-- R372, R374, R375, R378, R380, R382: RESTORE asks its target for the image; LOSS_CHECK ends the restored job's VERIFYING
where the loss record is the image's, and otherwise reports a replay mismatch; HISTORY_SYNC sends the scale history and
releases its job; DIGEST hashes its range and sends the value; FILL asks the holder of its role; an op whose peer is not
there ends with PEER_LOST. -/
def Obligations.BalerOps : Prop :=
  ∀ (s : State) (n : Nat) (o : Op) (j : Job) (b : Baler),
  (∀ far, s.balRun n 3 = some (o, j, b) → b.restore = none → far = (o.bTarget == 2) →
    (j.peerActive (storeRank far) = true → exec (.restore n) s = .next ((s.modBaler o.job fun b => { b with
      restore := some { op := n, set := o.bSet, far := far, rank := o.f 2 15 0, ckptSeq := o.w 1 } }).pumpRestore
        o.job).settle) ∧
    (j.peerActive (storeRank far) = false → exec (.restore n) s = .next (s.balEnd n .peerLost).settle)) ∧
  (s.balRun n 4 = some (o, j, b) → s.access (o.addr 1) 32 = .good →
    (s.read (o.addr 1) 32 = b.loss → ∃ t j' b', exec (.lossCheck n) s = .next t ∧
      t.op n = some { o with phase := .done .ok 0 } ∧ t.jobs.find o.job = some j' ∧ j'.baler = some b' ∧
      b' = { b with st := .idle } ∧ t.units.verified = true ∧ t.mem = s.mem) ∧
    (s.read (o.addr 1) 32 ≠ b.loss → ∃ t j', exec (.lossCheck n) s = .next t ∧
      t.op n = some { o with phase := .done .replayMismatch 0 } ∧ t.jobs.find o.job = some j' ∧ j'.baler = some b ∧
      t.units.replayMismatch = true ∧ t.units.mismatchCount = s.units.mismatchCount + 1 ∧ t.mem = s.mem)) ∧
  (∀ h data, s.balRun n 5 = some (o, j, b) → j.hold = some h → h.op = some n → s.holdOver h = true →
    s.access j.scaleRegion j.scaleLen = .good → data = s.read j.scaleRegion j.scaleLen →
    ((s.peerOfRole j o.bRole).isSome → exec (.historySync n) s = .next ((((s.dropHold o.job n).modBaler o.job fun b => { b with
      historyOps := b.historyOps ++ [n] }).sendBalRole o.job b.channel 0 o.bRole
        { type := 2, kind := 8, step := o.step, worker := o.bRole.2, units := unitsOf j.scaleLen }
        ((List.range (unitsOf j.scaleLen)).flatMap (unitOf data)) (.bal o.job 2 n 0)).settle)) ∧
    (s.peerOfRole j o.bRole = none → exec (.historySync n) s = .next (s.balEnd n .peerLost).settle)) ∧
  (∀ rank x d, s.balRun n 6 = some (o, j, b) → b.digestRuns = [] → x = o.digestSpan j b → s.access x.base x.len = .good →
    d = digestUnits (s.read x.base x.len) →
    (s.peerOfRole j o.bRole = none → exec (.digest n) s = .next (s.balEnd n .peerLost).settle) ∧
    (s.peerOfRole j o.bRole = some rank → b.digests = [] → exec (.digest n) s = .next (((s.modBaler o.job fun b => { b with
      digestRuns := [{ op := n, digest := d, since := s.edge.count }] }).sendBalRole o.job b.channel o.bSet o.bRole
        (s.digestMsg o j b d) [] (.bal o.job 1 n 0)).settle))) ∧
  (∀ r, s.balRun n 6 = some (o, j, b) → b.digestRuns = [r] → r.op = n →
    (b.digestLimit ≤ s.elapsed r.since → ∃ t, exec (.digestLimitExpiry n) s = .next t ∧
      t.op n = some { o with phase := .done .peerLost 0 } ∧ t.mem = s.mem) ∧
    (s.elapsed r.since < b.digestLimit → exec (.digestLimitExpiry n) s = .next s.settle)) ∧
  (s.balRun n 7 = some (o, j, b) → b.fills.has n = false →
    ((s.peerOfRole j o.bRole).isSome → exec (.fill n) s = .next (((s.modBaler o.job fun b => { b with
      fills := b.fills.insert n o.bSet }).sendBalRole o.job b.channel o.bSource o.bRole
        { type := 3, ordinal := o.bSet, step := o.step, worker := o.bRole.2, units := (j.fillLayout b o.bSet).length }
        (layoutBytes (j.fillLayout b o.bSet)) (.bal o.job 3 n 0)).settle)) ∧
    (s.peerOfRole j o.bRole = none → exec (.fill n) s = .next (s.balEnd n .peerLost).settle))

/-- R378, R380, R382, R383, R384, Table 13.9: a digest that a running DIGEST awaits ends it, well or with DIGEST_MISMATCH;
one that no op awaits is kept, or dropped beyond 16; a history goes into its SCALE_COPY; a fill request for a set that
does not exist is refused, and otherwise served; filled units go into their region and nowhere else; FILL_DONE and
FILL_ABORT end the fill. -/
def Obligations.BalerMessages : Prop :=
  ∀ (s t : State) (d : Delivery) (j : Job) (b : Baler) (m : BalMsg), t.deliveryBaler d = some (j, b) →
  m = BalMsg.parse d.body →
  (∀ e : EarlyDigest, s.front .digest = some (d, t) →
      e = ⟨d.rank, m.step, m.rangeId, m.kind, m.ordinal, m.offset, m.units, m.digest⟩ →
    (∀ r o, b.digestRuns = [r] → t.op r.op = some o → o.job = d.job → o.live → o.digestMatches e = true →
      (t.role j o.bRole.1 o.bRole.2).any (fun h => h.rank == d.rank) = true → ∃ u, exec .digestMsg s = .next u ∧
      u.op r.op = some { o with phase := .done (if r.digest = m.digest then .ok else .digestMismatch) 0 } ∧
      u.units.mismatchCount = s.units.mismatchCount + (if r.digest = m.digest then 0 else 1) ∧ u.mem = s.mem) ∧
    (b.digestRuns = [] → b.digests.length < 16 → exec .digestMsg s =
      .next (t.modBaler d.job fun b => { b with digests := b.digests ++ [e] }).settle) ∧
    (b.digestRuns = [] → 16 ≤ b.digests.length → exec .digestMsg s = .next t.dropStore.settle)) ∧
  (∀ set r, s.front .history = some (d, t) → b.mirrors = [(set, d.roleIndex)] →
    b.regions.find? (fun x => x.set == set && x.kind == 5) = some r →
    t.writeAccess r.base (min r.len (d.body.length - 64)) ≠ .stall → exec .history s =
    .next ((t.write r.base ((d.body.drop 64).take r.len)).noteWrite d.step r.base ((d.body.drop 64).take r.len).length).settle) ∧
  (s.front .fillReq = some (d, t) →
    (b.hasSet d.balSet = false → exec .fillReq s = .next (t.sendBal d.job b.channel d.rank m.ordinal
      { type := 6, step := m.step, status := Status.badArgument.code } [] (.bal d.job 6 d.rank m.ordinal)).settle) ∧
    (∀ v layout, v = ({ set := d.balSet, rank := d.rank, destSet := m.ordinal } : Serve) → layout = j.fillLayout b d.balSet →
      b.hasSet d.balSet = true → sameLayout (layoutBytes layout) ((d.body.drop 64).take (16 * m.units)) = true →
      (∀ e ∈ t.jobs, ∀ x, e.2.baler = some x → x.serves = []) →
      t.spansAccess (layout.map fun e => { base := e.2.2.1, len := e.2.2.2 }) = .good → ∀ u : State,
      u = (t.modBaler d.job fun b => { b with serves := b.serves ++ [v] }) → exec .fillReq s =
      .next (((layout.filter fun e => e.1 != 8).foldl (fun (s : State) e => s.sendRegion d.job b v (b.setSteps.getD v.set 0)
        (u.setWorker j b v.set) e) u).serveJob d.job).settle)) ∧
  (∀ n e data, s.front .fillData = some (d, t) → b.fillOf d.balSet = some n →
    (j.fillLayout b d.balSet).find? (fun e => e.1 == m.kind && e.2.1 == m.ordinal) = some e →
    data = (d.body.drop 64).take (min (4096 * m.units) (e.2.2.2 - 4096 * m.offset)) →
    t.writeAccess (e.2.2.1 + 4096 * m.offset) data.length = .good → ∃ u, exec .fillData s = .next u ∧
    u.jobs = s.jobs ∧ u.hub.ops = s.hub.ops ∧ (Cells.wf s.mem.hbm → ((∀ q, s.mem.lostSector q = false) →
      u.read (e.2.2.1 + 4096 * m.offset) data.length = data) ∧ ∀ a, a < e.2.2.1 ∨ e.2.2.1 + e.2.2.2 ≤ a →
        readByte u.mem.hbm a = readByte s.mem.hbm a)) ∧
  (∀ n o, s.front .fillDone = some (d, t) → b.fillOf d.balSet = some n → t.op n = some o → o.live → ∃ u j' b',
    exec .fillDone s = .next u ∧ u.op n = some { o with phase := .done .ok 0 } ∧ u.jobs.find d.job = some j' ∧
    j'.baler = some b' ∧ b'.fills = b.fills.erase n ∧ b'.stateStep = m.step ∧ b'.received = b.received + 1 ∧ u.mem = s.mem) ∧
  (∀ n, s.front .fillAbort = some (d, t) → b.fillOf d.balSet = some n →
    exec .fillAbort s = .next (t.balGiveUp n ((Status.ofCode m.status).getD .unitFault)).settle)

/-- R332, R354, R358, R372, R388, Table 13.11: BAL_SET gives a job Baler's parameters; BAL_TARGET_SET, BAL_REGION_SET,
BAL_REGION_CLEAR, BAL_KEY_TAG and BAL_OBJECT_SET set what they name; BAL_ABANDON abandons the open image; BAL_STATE_READ
answers; STEP_REPLAY is legal with no op in flight and discards the step. -/
def Obligations.BalerCommands : Prop :=
  ∀ (s : State) (l : Nat) (tag : Word) (args : List Word) (j : Job), s.Serves l → s.hub.dev ≠ .boot →
  (Fits 8 args → l = 0 → 1 ≤ argN args 0 → argN args 0 < 256 → (argN args 1 = 1 ∨ argN args 1 = 2) → argN args 3 < 65536 →
    argN args 5 < 16 → argAddrOk args 6 → argAddr args 6 % 4096 = 0 → (∀ e ∈ s.jobs, ∀ b, e.2.baler = some b → b.image = none) →
    ∀ x : StoreObject, x = ⟨argN args 1 == 2, wordAt args 2, argN args 3, wordAt args 4, argN args 5, argAddr args 6⟩ →
    exec (.balObjectSet l tag args) s = answered { s.taken l 0x0606 tag args with units := { s.units with
      objects := s.units.objects.insert (argN args 0) x } } l .ok []) ∧
  (s.jobOf l (argN args 0) = some j →
  (Fits 9 args → argAddrOk args 1 → argAddr args 1 % 4096 = 0 → argN args 3 % 4096 = 0 →
    s.granted l (argAddr args 1) (argN args 3) true → argN args 4 < 4096 → argN args 5 < 256 → 1 ≤ argN args 6 →
    argN args 6 ≤ 1600 → argN args 7 ≠ 0 →
    (∀ x : Baler, x =
        { area := argAddr args 1, areaLen := argN args 3, channel := argN args 4, farEvery := argN args 5,
          farRate := argN args 6, digestLimit := argN args 7, ckptSeq := wordAt args 8 } →
      j.baler = none → exec (.balSet l tag args) s = answered ((s.taken l 0x0601 tag args).modJob (argN args 0) fun j =>
        { j with baler := some x }) l .ok []) ∧
    (∀ b, j.baler = some b → b.st ≠ .idle → exec (.balSet l tag args) s =
      answered (s.taken l 0x0601 tag args) l .stateMismatch [])) ∧
  (∀ b p, Fits 10 args → (argN args 1 = 1 ∨ argN args 1 = 2) → argN args 8 < 65536 → argN args 9 < 65536 → j.baler = some b →
    b.relay = none → b.st = .idle → p = ({ addr := argIp args 2, mac := argMac args 7, ports := argN args 9 } : Peer) →
    exec (.balTargetSet l tag args) s = answered (((s.taken l 0x0602 tag args).modJob (argN args 0) fun j =>
      j.resetPeer (storeRank (argN args 1 == 2))).modBaler (argN args 0) fun b =>
        if argN args 1 = 2 then { b with far := some p } else { b with near := some p }) l .ok []) ∧
  (∀ b r, Fits 8 args → j.baler = some b → b.regions = [] → b.serves = [] → b.fills = [] → b.st = .idle → r =
      ({ set := argN args 1, kind := argN args 3, ordinal := argN args 4, base := argAddr args 5, len := argN args 7 } : BRegion) →
    r.set < 16 → argN args 2 < 2 ^ 24 → 1 ≤ r.kind → r.kind ≤ (if r.set = 0 then 4 else 5) → r.ordinal ≤ 13 →
    argAddrOk args 5 → r.base % 4096 = 0 → r.len % 4096 = 0 → 0 < r.len → s.mem.inCorrected r.base r.len →
    s.granted l r.base r.len true → exec (.balRegionSet l tag args) s =
    answered ((s.taken l 0x0603 tag args).modBaler (argN args 0) fun b => { b with
      regions := [r], mirrors := if r.set = 0 then b.mirrors else b.mirrors.insert r.set (argN args 2) }) l .ok []) ∧
  (∀ b r, Fits 4 args → j.baler = some b → b.serves = [] → b.fills = [] → b.st = .idle → r ∈ b.regions →
    r.set = argN args 1 → r.kind = argN args 2 → r.ordinal = argN args 3 → argN args 1 < 16 → 1 ≤ argN args 2 →
    argN args 2 ≤ 5 → argN args 3 ≤ 13 → exec (.balRegionClear l tag args) s =
    answered ((s.taken l 0x0604 tag args).modBaler (argN args 0) fun b => { b with
      regions := b.regions.filter fun r => r.set != argN args 1 || r.kind != argN args 2 || r.ordinal != argN args 3 }) l
      .ok []) ∧
  (∀ k, Fits 3 args → argN args 1 < 2 → j.keys.find (argN args 1) = some k → exec (.balKeyTag l tag args) s =
    answered ((s.taken l 0x0605 tag args).modJob (argN args 0) fun j => { j with
      keys := j.keys.insert (argN args 1) { k with tag := [wordAt args 2] } }) l .ok []) ∧
  (∀ b, Fits 1 args → j.baler = some b →
    (b.st = .paused ∨ b.st = .capturing → exec (.balAbandon l tag args) s =
      answered ((s.taken l 0x0607 tag args).abandon (argN args 0) .cancelled) l .ok []) ∧
    exec (.balStateRead l tag args) s = answered (s.taken l 0x0608 tag args) l .ok [BitVec.ofNat 32 b.st.code, b.ckptSeq,
      b.imageStep, b.stateStep, BitVec.ofNat 32 b.served, BitVec.ofNat 32 b.received]) ∧
  (Fits 2 args → s.access j.scaleRegion j.scaleLen = .good → s.access j.stepRegion j.stepLen = .good →
    s.access j.gatherBase (32 * 2 ^ j.log2Gather) = .good →
    (s.mayReplay (argN args 0) j (wordAt args 1) = true → exec (.stepReplay l tag args) s = answered
      (((s.taken l 0x0510 tag args).replayStep (argN args 0) j (wordAt args 1)).replayGathers (argN args 0) j) l .ok []) ∧
    (s.mayReplay (argN args 0) j (wordAt args 1) = false → exec (.stepReplay l tag args) s =
      answered (s.taken l 0x0510 tag args) l .stateMismatch [])))

/-! ## Recompute (07), lea resets (14) and register accesses (00, 02) -/

/-- R182, R183, R186, R187: a detected error that no recompute can mend ends its op with ST_UNIT_FAULT; one whose chain
is broken fails the recompute, and counts it; one whose chain is replayed leaves the op to resume; a recompute whose op has
ended is counted and entered in the training-step region. -/
def Obligations.RecomputeEvents : Prop :=
  (∀ (s : State) (n sec : Nat), (∀ o, s.op n = some o → o.running = false) →
    exec (.detectedReadError n sec) s = .next s.settle) ∧
  (∀ (s : State) (n sec : Nat) (o : Op), s.op n = some o → o.running → (s.lea o.lea).st ≠ .resetting →
    s.sectorAccess sec = .bad sec .unitFault →
    (s.recomputeTarget o sec = none → exec (.detectedReadError n sec) s = .next (s.faultOp n false).settle ∧
      (3 ≤ o.cls → exec (.detectedReadError n sec) s = .next (s.endOp n .unitFault).settle)) ∧
    (∀ j t, s.recomputeTarget o sec = some (j, t) → s.train.recomputes = [] →
      (s.chainTo j (2 ^ j.log2Dir + 1) t [] = none → ∃ u, exec (.detectedReadError n sec) s = .next u ∧
        (3 ≤ o.cls → u.train.recomputeFailed = true ∧ u.train.failCount = s.train.failCount + 1 ∧ u.mem = s.mem ∧
          u.op n = some { o with phase := .done .unitFault 0 })) ∧
      (∀ l es v, s.chainTo j (2 ^ j.log2Dir + 1) t [] = some l → es = l.map (s.dirEntry j) →
        s.spansAccess (State.chainSpans j l es) = .good →
        s.replayChain j (l.zip es) [] (l.length + 1) (l.length - 1) = .done v → ∃ u, exec (.detectedReadError n sec) s = .next u ∧
        u.mem = v.mem ∧ u.op n = v.op n ∧ ∃ r ∈ u.train.recomputes, r.op = n ∧ r.job = o.job ∧ r.target = t ∧
        r.resumed = true))) ∧
  (∀ (s : State) (jh : Nat) (j : Job) (r : Recompute) (a : Nat), s.jobs.find jh = some j → s.train.recomputes = [r] → r.job = jh →
    r.resumed = true → a = j.stepRegion + 12 →
    (s.op r.op = none → ∃ t, exec (.recomputeFinish jh) s = .next t ∧ t.train.recomputes = [] ∧ t.train.recomputed = true ∧
      t.train.recomputeCount = s.train.recomputeCount + 1 ∧ t.hub.ops = s.hub.ops ∧
      t.jobs = (s.modJob jh fun x => { x with recomputes := satNat 16 (j.recomputes + 1) }).jobs ∧
      t.mem = (s.writeWords a [packFields [(satNat 16 (j.recomputes + 1), 16), (r.target, 0)]]).mem) ∧
    (∀ o, s.op r.op = some o → o.live → exec (.recomputeFinish jh) s = .next s.settle))

/-- R38, R39, R40, R389, R407, R409, Table 14.5, Table 14.7: LEA_RESET and LEA_DISABLE take an ENABLED lea to RESETTING and
answer when its reset ends; a Function Level Reset and VF Enable cleared do the same without a command; once the lea's
units have stopped the reset takes its further steps, and the lea comes back; DEVICE_HALT cancels every op and takes the
device to HALTED. -/
def Obligations.LeaResets : Prop :=
  (∀ (s : State) (l : Nat) (tag : Word) (args : List Word), s.Serves l → s.hub.dev ≠ .boot →
    (Fits 1 args → ∀ k, k = argN args 0 → k < 64 → (s.lea k).st = .enabled →
      (k = l → exec (.leaReset l tag args) s = .next ((((s.taken l 0x0012 tag args).beginReset l .leaReset).modLea l fun x =>
        { x with mbx := { x.mbx with deferral := some .selfReset } }).settle)) ∧
      (l = 0 → k ≠ 0 → exec (.leaReset l tag args) s = .next ((((s.taken l 0x0012 tag args).requestReset k .leaReset).modLea l
        fun x => { x with mbx := { x.mbx with deferral := some (.leaReset k) } }).settle)) ∧
      (l = 0 → k ≠ 0 → exec (.leaDisable l tag args) s = .next ((((s.taken l 0x0011 tag args).requestReset k .leaDisable).modLea
        l fun x => { x with mbx := { x.mbx with deferral := some (.leaReset k) } }).settle))) ∧
    (Fits 0 args → l = 0 → s.live → exec (.deviceHalt l tag args) s =
      answered ((s.taken l 0x0050 tag args).cancelAll.setDev .halted) l .ok [])) ∧
  (∀ (s : State) (l : Nat) (c : ResetCause), (s.lea l).st = .enabled → ∀ t : State, t = s.beginReset l c →
    (t.lea l).st = .resetting ∧ t.mem = s.mem ∧ t.jobs = s.jobs ∧
    (∀ n o, s.op n = some o → t.op n = some (if o.lea = l ∧ o.phase = .waiting then { o with phase := .done .cancelled 0 }
      else o)) ∧ ∀ k, k ≠ l → t.lea k = s.lea k) ∧
  (∀ (s : State) (l : Nat), 1 ≤ l → l < 64 →
    ((s.lea l).st = .enabled → (s.lea l).inCommand = false → exec (.flrLea l) s = .next (s.beginReset l .flr).settle) ∧
    ((s.lea l).st = .absent → (s.lea l).inCommand = false → exec (.flrLea l) s = .next s.settle)) ∧
  (∀ s : State, s.pcie.vfEnable = false → exec .vfEnableClear s = .next s.settle) ∧
  (∀ s : State, s.pcie.vfEnable = true → ∃ t, exec .vfEnableClear s = .next t ∧ t.pcie.vfEnable = false ∧ t.mem = s.mem ∧
    t.jobs = s.jobs ∧ (t.lea 0).st = (s.lea 0).st ∧ ∀ l, 1 ≤ l → l < 64 →
      ((s.lea l).st = .disabled → (s.lea l).inCommand = false → (t.lea l).st = .absent ∧ (t.lea l).grants = []) ∧
      ((s.lea l).st = .enabled → (s.lea l).inCommand = false → (t.lea l).st = .resetting)) ∧
  (∀ s : State, exec .flrPf s = .next (s.clearVfs.requestReset 0 .flr).settle) ∧
  (∀ (s : State) (l : Nat) (r : LeaReset) (u : State), (s.lea l).resetting = some r →
    u = (if r.returned then s else s.resetSteps l r) → exec (.leaResetOpsStopped l) s =
    .next (if u.cihalServes then u.endReset l r else u).settle) ∧
  (∀ (s : State) (l : Nat) (r : LeaReset), (s.lea l).resetting = some r → r.returned = true → s.cihalServes = true →
    (r.cause = .leaReset ∨ r.cause = .flr) → (s.lea l).pendingReset = none → (s.lea l).st = .resetting →
    ∃ t, exec (.leaResetOpsStopped l) s = .next t ∧ (t.lea l).st = .enabled ∧ (t.lea l).resetting = none ∧
    (t.lea l).resetCount = (s.lea l).resetCount + 1 ∧ (t.lea l).queues = (s.lea l).queues ∧ t.mem = s.mem)

/-- R6, R7, R8, R9, R30, R48, R140: a register write at an offset that names a register changes what that register says,
and at one that names none nothing; RC_READ returns the fields and clears the clear-on-read ones; a low-word read latches
the high word for the read that follows; WX_CLUSTER_PRIV is written by halves; the link comes up with its width and
generation and the messages that it held go out. -/
def Obligations.RegisterAccesses : Prop :=
  (∀ (s : State) (l off : Nat) (v : Word), s.reachable l = true → off < barSize l → off % 4 = 0 →
    ∀ u : State, u = { s with pcie := { s.pcie with lastAbort := false } } →
    (regAt l off = none → exec (.registerWrite l off v) s = .next u.settle) ∧
    (∀ r high, regAt l off = some (r, high) → exec (.registerWrite l off v) s = .next (r.write u high v).settle) ∧
    (off < 0x100 → l ≠ 0 → exec (.registerWrite l off v) s = .next (u.modLea l fun x => { x with
      mbx := { x.mbx with request := x.mbx.request.insert (off / 4) v } }).settle) ∧
    (l = 0 → off = 0x920 → exec (.registerWrite l off v) s = .next (State.settle { u with
      mem := { u.mem with deadline := v } })) ∧
    (l = 0 → off = 0x410 → exec (.registerWrite l off v) s = .next (State.settle { u with
      edge := { u.edge with lost := u.edge.lost &&& ~~~ (v.setWidth 40) } })) ∧
    (l = 0 → off = 0xA18 → ∃ t, exec (.registerWrite l off v) s = .next t ∧
      t.dies.laneFailed = (s.dies.laneFailed && !bit v 1) ∧ t.dies.crcMismatch = (s.dies.crcMismatch && !bit v 4) ∧
      t.dies.crcCount = s.dies.crcCount ∧ t.mem = s.mem ∧ t.jobs = s.jobs)) ∧
  (∀ (s : State) (l off : Nat), s.reachable l = true → off < barSize l → off % 4 = 0 → regAt l off = none →
    ∀ i ∈ [Instr.rcRead l off, .lowWordRead l off], exec i s = .next (State.settle { s with pcie := { s.pcie with
      lastRead := 0, lastAbort := false } })) ∧
  (∀ s : State, s.reachable 0 = true →
    (∃ t, exec (.rcRead 0 0x108) s = .next t ∧
      t.pcie.lastRead = BitVec.ofNat 32 (packNat [(s.hub.inflightPeak, 16), (s.hub.ops.length, 0)]) ∧
      t.hub.inflightPeak = s.hub.ops.length ∧ t.hub.ops = s.hub.ops ∧ t.mem = s.mem) ∧
    (∃ t, exec (.rcRead 0 0x270018) s = .next t ∧
      t.pcie.lastRead = BitVec.ofNat 32 (packNat [(s.pwr.peakW % 2 ^ 16, 16), (s.pwr.windowW % 2 ^ 16, 0)]) ∧
      t.pwr = { s.pwr with peakW := 0 }) ∧
    (∃ t, exec (.lowWordRead 0 0x10000) s = .next t ∧ t.pcie.lastRead = s.edge.count.setWidth 32 ∧
      (t.lea 0).latch.find 0x10000 = some (BitVec.ofNat 32 (s.edge.count.toNat >>> 32))) ∧
    (∀ w, (s.lea 0).latch.find 0x10000 = some w → ∃ t, exec (.rcRead 0 0x10004) s = .next t ∧ t.pcie.lastRead = w ∧
      t.mem = s.mem ∧ t.edge = s.edge)) ∧
  (∀ (s : State) (die : Nat) (high : Bool) (v : Word) (old : Nat), s.reachable 0 = true → die < 4 →
    old = (s.scalarDie die).privReg.toNat → ∃ t, exec (.clusterPrivWrite die high v) s = .next t ∧
    (t.scalarDie die).privReg.toNat =
      (if high then old % 2 ^ 32 + v.toNat * 2 ^ 32 else old / 2 ^ 32 * 2 ^ 32 + v.toNat) ∧
    (∀ d, d ≠ die → t.scalarDie d = s.scalarDie d) ∧ t.scalar.clusters = s.scalar.clusters ∧ t.mem = s.mem) ∧
  (∀ (s : State) (width gen : Nat), s.pcie.up = false → s.edgeOn 28 → s.edgeOn 29 → 3 ≤ gen → gen ≤ 6 →
    (width = 1 ∨ width = 2 ∨ width = 4) → ∃ t, exec (.pcieLinkUp width gen) s = .next t ∧ t.pcie.up = true ∧
    t.pcie.width = width ∧ t.pcie.gen = gen ∧ t.out.msixHeld = [] ∧
    (s.hub.ops = [] → t.out.msix = s.out.msix ++ s.out.msixHeld ∧ t.mem = s.mem))

/-! ## The machine as a whole -/

/-- R41, Table 2.8: the command that MAILBOX_SERVE takes is checked in the table's order, and answers with the status of the
first check that it fails: VERSION, LENGTH, COMMAND, the argument words, the issuer, the BOOT rule; no other part of the
command is performed. -/
def Obligations.MailboxCheckOrder : Prop :=
  ∀ (s : State),
  (s.nextMailbox = none → exec .mailboxServe s = .next s.settle) ∧
  ∀ (l : Nat) (req : List Word) (u : State), s.nextMailbox = some l → req = (s.lea l).mbx.latched →
  u = { s.modLea l (fun x => { x with mbx := { x.mbx with ring := false, deferral := none } }) with
    hub := { s.hub with turn := (l + 1) % 64 } } →
  (fld (wordAt req 0) 31 24 ≠ 1 → exec .mailboxServe s = answered u l .badVersion []) ∧
  (fld (wordAt req 0) 31 24 = 1 →
    (reqLength req < 2 ∨ 64 < reqLength req → exec .mailboxServe s = answered u l .badMessage []) ∧
    (2 ≤ reqLength req → reqLength req ≤ 64 →
      ((∀ d ∈ allCommands, d.code ≠ reqCode req) → exec .mailboxServe s = answered u l .unknownCommand []) ∧
      (∀ d, allCommands.find? (fun d => d.code == reqCode req) = some d →
        (reqLength req < 2 + d.words (reqArgs req) → exec .mailboxServe s = answered u l .badMessage []) ∧
        (2 + d.words (reqArgs req) ≤ reqLength req →
          (d.issuer.allows l (reqArgs req) = false → exec .mailboxServe s = answered u l .denied []) ∧
          (d.issuer.allows l (reqArgs req) = true → s.hub.dev = .boot → 3 < d.code →
            exec .mailboxServe s = answered u l .stateMismatch []))) ∧
      (reqCode req = 1 → exec .mailboxServe s = answered u l .ok (s.fw.version :: words64 s.edge.count.toNat))))

/-- What `answered` means in the statements of commands: a response carries the status with the command's code, its tag, its
length and its results (Table 2.4), sets DONE and clears BUSY; it changes no memory, job or op, and no other lea. What
settles after every command is the device state, the PEAK fields and the leas' shares. -/
def Obligations.ResponseAndSettleFrame : Prop :=
  (∀ (m : Mailbox) (st : Status) (rs : List Word), m.latched.length = 64 →
    (m.respond st rs).response.getD 0 0 = packFields [(st.code, 16), (reqCode m.latched, 0)] ∧
    (m.respond st rs).response.getD 1 0 = wordAt m.latched 1 ∧
    (m.respond st rs).response.getD 2 0 = BitVec.ofNat 32 (3 + rs.length) ∧
    (∀ i, (h : i < rs.length) → (m.respond st rs).response.getD (3 + i) 0 = rs[i]) ∧
    (m.respond st rs).busy = false ∧ (m.respond st rs).done = true ∧ (m.respond st rs).request = m.request) ∧
  (∀ (u : State) (l : Nat) (st : Status) (rs : List Word), (u.leas.find l).isSome → (u.lea l).pendingEvents = [] →
    (u.lea l).pendingReset = none → ∀ t : State, t = u.respond l st rs → (t.lea l).mbx = (u.lea l).mbx.respond st rs ∧
    (∀ k, k ≠ l → t.lea k = u.lea k) ∧ t.mem = u.mem ∧ t.jobs = u.jobs ∧ t.hub = u.hub ∧ t.edge = u.edge ∧
    t.pending = u.pending ∧ t.wdr = u.wdr ∧ t.fab = u.fab ∧ t.units = u.units) ∧
  (∀ s t : State, t = s.settle → t = { s with leas := t.leas, hub := t.hub, wdr := t.wdr } ∧ t.hub.ops = s.hub.ops ∧
    t.hub.nextOp = s.hub.nextOp ∧ t.hub.turn = s.hub.turn ∧ t.wdr = { s.wdr with openPeak := t.wdr.openPeak } ∧
    ∀ l, ∃ a c v w, t.lea l = { s.lea l with readyArray := a, readyCluster := c, vArray := v, vCluster := w })

/-- R198, R215: bytes written to HBM keep its canonical form; they read back, where no sector of theirs is lost, and every
other byte reads as before. -/
def Obligations.MemoryWritesRead : Prop :=
  ∀ (s : State) (base : Nat) (bytes : List Byte), Cells.wf s.mem.hbm →
  Cells.wf (s.write base bytes).mem.hbm ∧
  ((∀ x ∈ sectorsOf base bytes.length, s.mem.lostSector x = false) →
    (s.write base bytes).read base bytes.length = bytes) ∧
  (∀ a, a < base ∨ base + bytes.length ≤ a → readByte (s.write base bytes).mem.hbm a = readByte s.mem.hbm a) ∧
  (∀ a, s.mem.lostSector (a / 32) = true → readByte (s.write base bytes).mem.hbm a = readByte s.mem.hbm a)

/-- A step takes the command at the front of the queue and runs it with the queue's rest; on an empty queue a step is one
count of the Cihal domain counter while that domain is online (R23, R27; the model's choice, log 2), and nothing else. -/
def Obligations.StepRunsFrontCommand : Prop :=
  (∀ (c : Instr) (rest : List Instr) (s : State), step { s with pending := c :: rest } = exec c { s with pending := rest }) ∧
  (∀ s : State, s.pending = [] → step s =
    .next (if s.edgeOn 31 then { s with edge := { s.edge with count := s.edge.count + 1 } } else s))

/-- An invariant of every step, from every state that has it: a device in RUN has a lea other than lea 0 that is ENABLED and
one in READY has none (Table 2.5), and each PEAK field is at least the count that it is the highest of (HUB_INFLIGHT,
HUB_PHASE_HELD, WDR_OPEN). -/
def Obligations.StepKeepsSettled : Prop :=
  ∀ s t : State, s.Settled → step s = .next t → t.Settled

/-- The machine after reset (R502, Table 2.5, R23, R198) has the invariant, no command waits, its memory lists no byte and
is in canonical form, no op is in flight, no job is bound, lea 0 is DISABLED and every other lea ABSENT, the device is in
BOOT, and the counter is zero. -/
def Obligations.ResetState : Prop :=
  State.reset.Settled ∧ Cells.wf State.reset.mem.hbm ∧ State.reset.mem.hbm = [] ∧ State.reset.pending = [] ∧
  State.reset.hub.ops = [] ∧ State.reset.jobs = [] ∧ State.reset.hub.dev = .boot ∧ (State.reset.lea 0).st = .disabled ∧
  (∀ l, l ≠ 0 → (State.reset.lea l).st = .absent) ∧ State.reset.edge.count = 0 ∧ State.reset.pcie.up = false
end

