-- ==== Sys2Proof/Laws/Map.lean ====
section
/-!
SUPPORT. Laws/Map.lean: what the operations on indexed tables do to a lookup, and that the cells of a memory keep their
canonical form (addresses strictly rising, no zero listed) under every memory operation.
-/

set_option Elab.async false

namespace Sys2Proof

namespace Map

variable {α : Type}

@[simp] theorem find_nil (k : Nat) : Map.find ([] : Map α) k = none := rfl

@[simp] theorem find_cons (j : Nat) (v : α) (m : Map α) (k : Nat) :
    Map.find ((j, v) :: m) k = if j = k then some v else Map.find m k := rfl

/-- An inserted entry is found, and no other lookup changes. -/
theorem find_insert (m : Map α) (k : Nat) (v : α) (j : Nat) :
    (m.insert k v).find j = if j = k then some v else m.find j := by
  induction m with
  | nil => simp [Map.insert, eq_comm]
  | cons e rest ih =>
    obtain ⟨i, w⟩ := e
    simp only [Map.insert]
    split
    · next h =>
      by_cases hjk : j = k
      · simp [hjk]
      · simp [hjk, Ne.symm hjk]
    · split
      · next h1 h2 =>
        subst h2
        by_cases hjk : j = k
        · simp [hjk]
        · simp [hjk, Ne.symm hjk]
      · next h1 h2 =>
        simp only [find_cons, ih]
        by_cases hjk : j = k
        · subst hjk; simp [Ne.symm h2]
        · simp [hjk]

@[simp] theorem find_insert_self (m : Map α) (k : Nat) (v : α) : (m.insert k v).find k = some v := by
  simp [find_insert]

@[simp] theorem find_insert_ne (m : Map α) {k j : Nat} (v : α) (h : j ≠ k) : (m.insert k v).find j = m.find j := by
  simp [find_insert, h]

/-- A second entry at the same index takes the place of the first. -/
@[simp] theorem insert_insert (m : Map α) (k : Nat) (v w : α) : (m.insert k v).insert k w = m.insert k w := by
  induction m with
  | nil => simp [Map.insert]
  | cons e rest ih =>
    obtain ⟨j, x⟩ := e
    by_cases h1 : k < j
    · simp [Map.insert, h1]
    · by_cases h2 : k = j
      · subst h2; simp [Map.insert]
      · simp [Map.insert, h1, h2, ih]

@[simp] theorem getD_insert_self (m : Map α) (k : Nat) (v d : α) : (m.insert k v).getD k d = v := by
  simp [Map.getD]

@[simp] theorem getD_insert_ne (m : Map α) {k j : Nat} (v d : α) (h : j ≠ k) :
    (m.insert k v).getD j d = m.getD j d := by
  simp [Map.getD, h]

/-- An erased entry leaves every other lookup as it was. -/
theorem find_erase_ne (m : Map α) {k j : Nat} (h : j ≠ k) : (m.erase k).find j = m.find j := by
  induction m with
  | nil => rfl
  | cons e rest ih =>
    obtain ⟨i, w⟩ := e
    simp only [Map.erase]
    split
    · next hik => subst hik; simp [Ne.symm h]
    · simp [ih]

/-- Indexes strictly rise. -/
abbrev Sorted (m : Map α) : Prop := m.Pairwise (fun a b => a.1 < b.1)

theorem find_none_of_lt (m : Map α) (k : Nat) (h : ∀ e ∈ m, k < e.1) : m.find k = none := by
  induction m with
  | nil => rfl
  | cons e rest ih =>
    obtain ⟨i, w⟩ := e
    have hi : i ≠ k := by have := h (i, w) (by simp); simp at this; omega
    simp [hi, ih fun e he => h e (List.mem_cons_of_mem _ he)]

/-- An erased entry is not found in a table whose indexes rise. -/
theorem find_erase_self (m : Map α) (k : Nat) (hs : m.Sorted) : (m.erase k).find k = none := by
  induction m with
  | nil => rfl
  | cons e rest ih =>
    obtain ⟨i, w⟩ := e
    have hs := List.pairwise_cons.mp hs
    simp only [Map.erase]
    split
    · next h => subst h; exact find_none_of_lt _ _ fun e he => hs.1 e he
    · next h => simp [h, ih hs.2]

theorem mem_insert {m : Map α} {k : Nat} {v : α} {e : Nat × α} (h : e ∈ m.insert k v) : e = (k, v) ∨ e ∈ m := by
  induction m with
  | nil => simpa [Map.insert] using h
  | cons a rest ih =>
    obtain ⟨i, w⟩ := a
    simp only [Map.insert] at h
    split at h
    · simpa using h
    · split at h
      · rcases List.mem_cons.mp h with h | h
        · exact .inl h
        · exact .inr (List.mem_cons_of_mem _ h)
      · rcases List.mem_cons.mp h with h | h
        · exact .inr (by simp [h])
        · rcases ih h with h | h
          · exact .inl h
          · exact .inr (List.mem_cons_of_mem _ h)

theorem mem_erase {m : Map α} {k : Nat} {e : Nat × α} (h : e ∈ m.erase k) : e ∈ m := by
  induction m with
  | nil => simp [Map.erase] at h
  | cons a rest ih =>
    obtain ⟨i, w⟩ := a
    simp only [Map.erase] at h
    split at h
    · exact List.mem_cons_of_mem _ h
    · rcases List.mem_cons.mp h with h | h
      · simp [h]
      · exact List.mem_cons_of_mem _ (ih h)

/-- Inserting keeps the indexes rising. -/
theorem sorted_insert (m : Map α) (k : Nat) (v : α) (hs : m.Sorted) : (m.insert k v).Sorted := by
  induction m with
  | nil => simp [Map.insert, Sorted]
  | cons a rest ih =>
    obtain ⟨i, w⟩ := a
    have hs' := List.pairwise_cons.mp hs
    simp only [Map.insert]
    split
    · next h =>
      refine List.pairwise_cons.mpr ⟨fun e he => ?_, hs⟩
      rcases List.mem_cons.mp he with rfl | he
      · exact h
      · exact Nat.lt_trans h (hs'.1 e he)
    · split
      · next h1 h2 => subst h2; exact List.pairwise_cons.mpr hs'
      · next h1 h2 =>
        refine List.pairwise_cons.mpr ⟨fun e he => ?_, ih hs'.2⟩
        rcases mem_insert he with rfl | he
        · show i < k; omega
        · exact hs'.1 e he

/-- Erasing keeps the indexes rising. -/
theorem sorted_erase (m : Map α) (k : Nat) (hs : m.Sorted) : (m.erase k).Sorted := by
  induction m with
  | nil => exact hs
  | cons a rest ih =>
    obtain ⟨i, w⟩ := a
    have hs' := List.pairwise_cons.mp hs
    simp only [Map.erase]
    split
    · exact hs'.2
    · exact List.pairwise_cons.mpr ⟨fun e he => hs'.1 e (mem_erase he), ih hs'.2⟩

/-- Indexes rise still when each entry is replaced in its place. -/
theorem sorted_mapVals (m : Map α) (f : Nat → α → α) (hs : m.Sorted) : (m.mapVals f).Sorted := by
  simpa [Map.mapVals, Sorted, List.pairwise_map] using hs

theorem find_mapVals (m : Map α) (f : Nat → α → α) (k : Nat) : (m.mapVals f).find k = (m.find k).map (f k) := by
  induction m with
  | nil => rfl
  | cons a rest ih =>
    obtain ⟨i, w⟩ := a
    have : (Map.mapVals ((i, w) :: rest) f).find k = if i = k then some (f i w) else (Map.mapVals rest f).find k := rfl
    rw [this, ih]
    by_cases h : i = k
    · subst h; simp
    · simp [h]

end Map

namespace Machine

/-- Reset memory is in canonical form. -/
theorem cells_wf_nil : Cells.wf [] := by simp [Cells.wf]

/-- Writing a byte keeps the canonical form. -/
theorem writeByte_wf (m : List Host.Cell) (a : Nat) (b : Byte) (h : Cells.wf m) : Cells.wf (writeByte m a b) := by
  unfold writeByte
  split
  · exact ⟨Map.sorted_erase m a h.1, fun c hc => h.2 c (Map.mem_erase hc)⟩
  · next hb =>
    refine ⟨Map.sorted_insert m a b h.1, fun c hc => ?_⟩
    rcases Map.mem_insert hc with rfl | hc
    · exact hb
    · exact h.2 c hc

/-- A byte reads as it was written, and every other byte as before. -/
theorem readByte_writeByte (m : List Host.Cell) (a : Nat) (b : Byte) (x : Nat) (h : Cells.wf m) :
    readByte (writeByte m a b) x = if x = a then b else readByte m x := by
  unfold readByte writeByte Map.getD
  by_cases hb : b = 0
  · simp only [hb, if_true]
    by_cases hx : x = a
    · subst hx; simp [Map.find_erase_self m x h.1]
    · simp [Map.find_erase_ne m hx, hx]
  · simp only [hb, if_false, Map.find_insert]
    by_cases hx : x = a <;> simp [hx]

theorem writeCells_wf (m : List Host.Cell) (a : Nat) (l : List Byte) (h : Cells.wf m) : Cells.wf (writeCells m a l) := by
  induction l generalizing m a with
  | nil => exact h
  | cons b rest ih => exact ih _ _ (writeByte_wf m a b h)

/-- A run of bytes reads as it was written, and every byte outside it as before. -/
theorem readByte_writeCells (m : List Host.Cell) (a : Nat) (l : List Byte) (x : Nat) (h : Cells.wf m) :
    readByte (writeCells m a l) x = if a ≤ x ∧ x < a + l.length then l.getD (x - a) 0 else readByte m x := by
  induction l generalizing m a with
  | nil => simp [writeCells] <;> omega
  | cons b rest ih =>
    rw [writeCells, ih _ _ (writeByte_wf m a b h), readByte_writeByte m a b x h]
    by_cases h1 : x = a
    · subst h1
      have h0 : ¬(x + 1 ≤ x ∧ x < x + 1 + rest.length) := by omega
      have h2 : x ≤ x ∧ x < x + (b :: rest).length := by simp
      rw [if_neg h0, if_pos rfl, if_pos h2]
      simp
    · by_cases h2 : a ≤ x ∧ x < a + (b :: rest).length
      · have h3 : a + 1 ≤ x ∧ x < a + 1 + rest.length := by
          simp only [List.length_cons] at h2; omega
        rw [if_pos h3, if_pos h2]
        obtain ⟨k, hk⟩ : ∃ k, x - a = k + 1 := ⟨x - a - 1, by omega⟩
        have h4 : x - (a + 1) = k := by omega
        rw [hk, h4, List.getD_cons_succ]
      · have h3 : ¬(a + 1 ≤ x ∧ x < a + 1 + rest.length) := by
          simp only [List.length_cons] at h2; omega
        rw [if_neg h3, if_neg h1, if_neg h2]

/-- Storing a byte in HBM keeps the canonical form, a lost sector's dropped byte included (R215). -/
theorem storeByte_wf (m : Memory) (a : Nat) (b : Byte) (h : Cells.wf m.hbm) : Cells.wf (m.storeByte a b).hbm := by
  unfold Memory.storeByte
  split
  · exact h
  · exact writeByte_wf _ _ _ h

theorem storeBytes_wf (m : Memory) (a : Nat) (l : List Byte) (h : Cells.wf m.hbm) : Cells.wf (m.storeBytes a l).hbm := by
  induction l generalizing m a with
  | nil => exact h
  | cons b rest ih => exact ih _ _ (storeByte_wf m a b h)

end Machine
end Sys2Proof
end

