-- ==== Sys2Proof/Laws/State.lean ====
section
/-!
SUPPORT. Laws/State.lean: which fields of the state the shared operations leave as they were, one lemma per operation and
field, so that no later proof unfolds an update of the state.
-/

set_option Elab.async false

namespace Sys2Proof.Machine

/-- A fold keeps what each of its steps keeps. -/
theorem foldl_keeps {α β : Type} (p : State → β) (f : State → α → State) (h : ∀ s a, p (f s a) = p s) (l : List α)
    (s : State) : p (l.foldl f s) = p s := by
  induction l generalizing s with
  | nil => rfl
  | cons a rest ih => rw [List.foldl_cons, ih, h]

@[simp] theorem State.modLea_pending (s : State) (l : Nat) (f : Lea → Lea) : (s.modLea l f).pending = s.pending := by
  unfold State.modLea; split <;> rfl

@[simp] theorem State.modLea_hub (s : State) (l : Nat) (f : Lea → Lea) : (s.modLea l f).hub = s.hub := by
  unfold State.modLea; split <;> rfl

@[simp] theorem State.modLea_jobs (s : State) (l : Nat) (f : Lea → Lea) : (s.modLea l f).jobs = s.jobs := by
  unfold State.modLea; split <;> rfl

@[simp] theorem State.modLea_edge (s : State) (l : Nat) (f : Lea → Lea) : (s.modLea l f).edge = s.edge := by
  unfold State.modLea; split <;> rfl

@[simp] theorem State.modLea_pcie (s : State) (l : Nat) (f : Lea → Lea) : (s.modLea l f).pcie = s.pcie := by
  unfold State.modLea; split <;> rfl

@[simp] theorem State.modLea_out (s : State) (l : Nat) (f : Lea → Lea) : (s.modLea l f).out = s.out := by
  unfold State.modLea; split <;> rfl

@[simp] theorem State.modLea_array (s : State) (l : Nat) (f : Lea → Lea) : (s.modLea l f).array = s.array := by
  unfold State.modLea; split <;> rfl

@[simp] theorem State.modLea_scalar (s : State) (l : Nat) (f : Lea → Lea) : (s.modLea l f).scalar = s.scalar := by
  unfold State.modLea; split <;> rfl

@[simp] theorem State.modLea_scale (s : State) (l : Nat) (f : Lea → Lea) : (s.modLea l f).scale = s.scale := by
  unfold State.modLea; split <;> rfl

@[simp] theorem State.modLea_train (s : State) (l : Nat) (f : Lea → Lea) : (s.modLea l f).train = s.train := by
  unfold State.modLea; split <;> rfl

@[simp] theorem State.modLea_mem (s : State) (l : Nat) (f : Lea → Lea) : (s.modLea l f).mem = s.mem := by
  unfold State.modLea; split <;> rfl

@[simp] theorem State.modLea_dies (s : State) (l : Nat) (f : Lea → Lea) : (s.modLea l f).dies = s.dies := by
  unfold State.modLea; split <;> rfl

@[simp] theorem State.modLea_fab (s : State) (l : Nat) (f : Lea → Lea) : (s.modLea l f).fab = s.fab := by
  unfold State.modLea; split <;> rfl

@[simp] theorem State.modLea_wdr (s : State) (l : Nat) (f : Lea → Lea) : (s.modLea l f).wdr = s.wdr := by
  unfold State.modLea; split <;> rfl

@[simp] theorem State.modLea_units (s : State) (l : Nat) (f : Lea → Lea) : (s.modLea l f).units = s.units := by
  unfold State.modLea; split <;> rfl

@[simp] theorem State.modLea_hdr (s : State) (l : Nat) (f : Lea → Lea) : (s.modLea l f).hdr = s.hdr := by
  unfold State.modLea; split <;> rfl

@[simp] theorem State.modLea_fw (s : State) (l : Nat) (f : Lea → Lea) : (s.modLea l f).fw = s.fw := by
  unfold State.modLea; split <;> rfl

@[simp] theorem State.modLea_pwr (s : State) (l : Nat) (f : Lea → Lea) : (s.modLea l f).pwr = s.pwr := by
  unfold State.modLea; split <;> rfl

@[simp] theorem State.modLea_board (s : State) (l : Nat) (f : Lea → Lea) : (s.modLea l f).board = s.board := by
  unfold State.modLea; split <;> rfl

@[simp] theorem State.modLea_delivered (s : State) (l : Nat) (f : Lea → Lea) : (s.modLea l f).delivered = s.delivered := by
  unfold State.modLea; split <;> rfl

@[simp] theorem State.modLea_heldRefills (s : State) (l : Nat) (f : Lea → Lea) : (s.modLea l f).heldRefills = s.heldRefills := by
  unfold State.modLea; split <;> rfl

@[simp] theorem State.modJob_pending (s : State) (j : Nat) (f : Job → Job) : (s.modJob j f).pending = s.pending := by
  unfold State.modJob; split <;> rfl

@[simp] theorem State.modJob_hub (s : State) (j : Nat) (f : Job → Job) : (s.modJob j f).hub = s.hub := by
  unfold State.modJob; split <;> rfl

@[simp] theorem State.modJob_leas (s : State) (j : Nat) (f : Job → Job) : (s.modJob j f).leas = s.leas := by
  unfold State.modJob; split <;> rfl

@[simp] theorem State.modJob_edge (s : State) (j : Nat) (f : Job → Job) : (s.modJob j f).edge = s.edge := by
  unfold State.modJob; split <;> rfl

@[simp] theorem State.modJob_pcie (s : State) (j : Nat) (f : Job → Job) : (s.modJob j f).pcie = s.pcie := by
  unfold State.modJob; split <;> rfl

@[simp] theorem State.modJob_out (s : State) (j : Nat) (f : Job → Job) : (s.modJob j f).out = s.out := by
  unfold State.modJob; split <;> rfl

@[simp] theorem State.modJob_array (s : State) (j : Nat) (f : Job → Job) : (s.modJob j f).array = s.array := by
  unfold State.modJob; split <;> rfl

@[simp] theorem State.modJob_scalar (s : State) (j : Nat) (f : Job → Job) : (s.modJob j f).scalar = s.scalar := by
  unfold State.modJob; split <;> rfl

@[simp] theorem State.modJob_scale (s : State) (j : Nat) (f : Job → Job) : (s.modJob j f).scale = s.scale := by
  unfold State.modJob; split <;> rfl

@[simp] theorem State.modJob_train (s : State) (j : Nat) (f : Job → Job) : (s.modJob j f).train = s.train := by
  unfold State.modJob; split <;> rfl

@[simp] theorem State.modJob_mem (s : State) (j : Nat) (f : Job → Job) : (s.modJob j f).mem = s.mem := by
  unfold State.modJob; split <;> rfl

@[simp] theorem State.modJob_dies (s : State) (j : Nat) (f : Job → Job) : (s.modJob j f).dies = s.dies := by
  unfold State.modJob; split <;> rfl

@[simp] theorem State.modJob_fab (s : State) (j : Nat) (f : Job → Job) : (s.modJob j f).fab = s.fab := by
  unfold State.modJob; split <;> rfl

@[simp] theorem State.modJob_wdr (s : State) (j : Nat) (f : Job → Job) : (s.modJob j f).wdr = s.wdr := by
  unfold State.modJob; split <;> rfl

@[simp] theorem State.modJob_units (s : State) (j : Nat) (f : Job → Job) : (s.modJob j f).units = s.units := by
  unfold State.modJob; split <;> rfl

@[simp] theorem State.modJob_hdr (s : State) (j : Nat) (f : Job → Job) : (s.modJob j f).hdr = s.hdr := by
  unfold State.modJob; split <;> rfl

@[simp] theorem State.modJob_fw (s : State) (j : Nat) (f : Job → Job) : (s.modJob j f).fw = s.fw := by
  unfold State.modJob; split <;> rfl

@[simp] theorem State.modJob_pwr (s : State) (j : Nat) (f : Job → Job) : (s.modJob j f).pwr = s.pwr := by
  unfold State.modJob; split <;> rfl

@[simp] theorem State.modJob_board (s : State) (j : Nat) (f : Job → Job) : (s.modJob j f).board = s.board := by
  unfold State.modJob; split <;> rfl

@[simp] theorem State.modJob_delivered (s : State) (j : Nat) (f : Job → Job) : (s.modJob j f).delivered = s.delivered := by
  unfold State.modJob; split <;> rfl

@[simp] theorem State.modJob_heldRefills (s : State) (j : Nat) (f : Job → Job) : (s.modJob j f).heldRefills = s.heldRefills := by
  unfold State.modJob; split <;> rfl

@[simp] theorem State.modOp_pending (s : State) (n : Nat) (f : Op → Op) : (s.modOp n f).pending = s.pending := by
  unfold State.modOp; split <;> rfl

@[simp] theorem State.modOp_leas (s : State) (n : Nat) (f : Op → Op) : (s.modOp n f).leas = s.leas := by
  unfold State.modOp; split <;> rfl

@[simp] theorem State.modOp_jobs (s : State) (n : Nat) (f : Op → Op) : (s.modOp n f).jobs = s.jobs := by
  unfold State.modOp; split <;> rfl

@[simp] theorem State.modOp_edge (s : State) (n : Nat) (f : Op → Op) : (s.modOp n f).edge = s.edge := by
  unfold State.modOp; split <;> rfl

@[simp] theorem State.modOp_pcie (s : State) (n : Nat) (f : Op → Op) : (s.modOp n f).pcie = s.pcie := by
  unfold State.modOp; split <;> rfl

@[simp] theorem State.modOp_out (s : State) (n : Nat) (f : Op → Op) : (s.modOp n f).out = s.out := by
  unfold State.modOp; split <;> rfl

@[simp] theorem State.modOp_array (s : State) (n : Nat) (f : Op → Op) : (s.modOp n f).array = s.array := by
  unfold State.modOp; split <;> rfl

@[simp] theorem State.modOp_scalar (s : State) (n : Nat) (f : Op → Op) : (s.modOp n f).scalar = s.scalar := by
  unfold State.modOp; split <;> rfl

@[simp] theorem State.modOp_scale (s : State) (n : Nat) (f : Op → Op) : (s.modOp n f).scale = s.scale := by
  unfold State.modOp; split <;> rfl

@[simp] theorem State.modOp_train (s : State) (n : Nat) (f : Op → Op) : (s.modOp n f).train = s.train := by
  unfold State.modOp; split <;> rfl

@[simp] theorem State.modOp_mem (s : State) (n : Nat) (f : Op → Op) : (s.modOp n f).mem = s.mem := by
  unfold State.modOp; split <;> rfl

@[simp] theorem State.modOp_dies (s : State) (n : Nat) (f : Op → Op) : (s.modOp n f).dies = s.dies := by
  unfold State.modOp; split <;> rfl

@[simp] theorem State.modOp_fab (s : State) (n : Nat) (f : Op → Op) : (s.modOp n f).fab = s.fab := by
  unfold State.modOp; split <;> rfl

@[simp] theorem State.modOp_wdr (s : State) (n : Nat) (f : Op → Op) : (s.modOp n f).wdr = s.wdr := by
  unfold State.modOp; split <;> rfl

@[simp] theorem State.modOp_units (s : State) (n : Nat) (f : Op → Op) : (s.modOp n f).units = s.units := by
  unfold State.modOp; split <;> rfl

@[simp] theorem State.modOp_hdr (s : State) (n : Nat) (f : Op → Op) : (s.modOp n f).hdr = s.hdr := by
  unfold State.modOp; split <;> rfl

@[simp] theorem State.modOp_fw (s : State) (n : Nat) (f : Op → Op) : (s.modOp n f).fw = s.fw := by
  unfold State.modOp; split <;> rfl

@[simp] theorem State.modOp_pwr (s : State) (n : Nat) (f : Op → Op) : (s.modOp n f).pwr = s.pwr := by
  unfold State.modOp; split <;> rfl

@[simp] theorem State.modOp_board (s : State) (n : Nat) (f : Op → Op) : (s.modOp n f).board = s.board := by
  unfold State.modOp; split <;> rfl

@[simp] theorem State.modOp_delivered (s : State) (n : Nat) (f : Op → Op) : (s.modOp n f).delivered = s.delivered := by
  unfold State.modOp; split <;> rfl

@[simp] theorem State.modOp_heldRefills (s : State) (n : Nat) (f : Op → Op) : (s.modOp n f).heldRefills = s.heldRefills := by
  unfold State.modOp; split <;> rfl

@[simp] theorem State.modDie_pending (s : State) (d : Nat) (f : Die → Die) : (s.modDie d f).pending = s.pending := rfl

@[simp] theorem State.modDie_hub (s : State) (d : Nat) (f : Die → Die) : (s.modDie d f).hub = s.hub := rfl

@[simp] theorem State.modDie_leas (s : State) (d : Nat) (f : Die → Die) : (s.modDie d f).leas = s.leas := rfl

@[simp] theorem State.modDie_jobs (s : State) (d : Nat) (f : Die → Die) : (s.modDie d f).jobs = s.jobs := rfl

@[simp] theorem State.modDie_edge (s : State) (d : Nat) (f : Die → Die) : (s.modDie d f).edge = s.edge := rfl

@[simp] theorem State.modDie_pcie (s : State) (d : Nat) (f : Die → Die) : (s.modDie d f).pcie = s.pcie := rfl

@[simp] theorem State.modDie_out (s : State) (d : Nat) (f : Die → Die) : (s.modDie d f).out = s.out := rfl

@[simp] theorem State.modDie_array (s : State) (d : Nat) (f : Die → Die) : (s.modDie d f).array = s.array := rfl

@[simp] theorem State.modDie_scalar (s : State) (d : Nat) (f : Die → Die) : (s.modDie d f).scalar = s.scalar := rfl

@[simp] theorem State.modDie_scale (s : State) (d : Nat) (f : Die → Die) : (s.modDie d f).scale = s.scale := rfl

@[simp] theorem State.modDie_train (s : State) (d : Nat) (f : Die → Die) : (s.modDie d f).train = s.train := rfl

@[simp] theorem State.modDie_mem (s : State) (d : Nat) (f : Die → Die) : (s.modDie d f).mem = s.mem := rfl

@[simp] theorem State.modDie_fab (s : State) (d : Nat) (f : Die → Die) : (s.modDie d f).fab = s.fab := rfl

@[simp] theorem State.modDie_wdr (s : State) (d : Nat) (f : Die → Die) : (s.modDie d f).wdr = s.wdr := rfl

@[simp] theorem State.modDie_units (s : State) (d : Nat) (f : Die → Die) : (s.modDie d f).units = s.units := rfl

@[simp] theorem State.modDie_hdr (s : State) (d : Nat) (f : Die → Die) : (s.modDie d f).hdr = s.hdr := rfl

@[simp] theorem State.modDie_fw (s : State) (d : Nat) (f : Die → Die) : (s.modDie d f).fw = s.fw := rfl

@[simp] theorem State.modDie_pwr (s : State) (d : Nat) (f : Die → Die) : (s.modDie d f).pwr = s.pwr := rfl

@[simp] theorem State.modDie_board (s : State) (d : Nat) (f : Die → Die) : (s.modDie d f).board = s.board := rfl

@[simp] theorem State.modDie_delivered (s : State) (d : Nat) (f : Die → Die) : (s.modDie d f).delivered = s.delivered := rfl

@[simp] theorem State.modDie_heldRefills (s : State) (d : Nat) (f : Die → Die) : (s.modDie d f).heldRefills = s.heldRefills := rfl

@[simp] theorem State.modPort_pending (s : State) (p : Nat) (f : Port → Port) : (s.modPort p f).pending = s.pending := rfl

@[simp] theorem State.modPort_hub (s : State) (p : Nat) (f : Port → Port) : (s.modPort p f).hub = s.hub := rfl

@[simp] theorem State.modPort_leas (s : State) (p : Nat) (f : Port → Port) : (s.modPort p f).leas = s.leas := rfl

@[simp] theorem State.modPort_jobs (s : State) (p : Nat) (f : Port → Port) : (s.modPort p f).jobs = s.jobs := rfl

@[simp] theorem State.modPort_edge (s : State) (p : Nat) (f : Port → Port) : (s.modPort p f).edge = s.edge := rfl

@[simp] theorem State.modPort_pcie (s : State) (p : Nat) (f : Port → Port) : (s.modPort p f).pcie = s.pcie := rfl

@[simp] theorem State.modPort_out (s : State) (p : Nat) (f : Port → Port) : (s.modPort p f).out = s.out := rfl

@[simp] theorem State.modPort_array (s : State) (p : Nat) (f : Port → Port) : (s.modPort p f).array = s.array := rfl

@[simp] theorem State.modPort_scalar (s : State) (p : Nat) (f : Port → Port) : (s.modPort p f).scalar = s.scalar := rfl

@[simp] theorem State.modPort_scale (s : State) (p : Nat) (f : Port → Port) : (s.modPort p f).scale = s.scale := rfl

@[simp] theorem State.modPort_train (s : State) (p : Nat) (f : Port → Port) : (s.modPort p f).train = s.train := rfl

@[simp] theorem State.modPort_mem (s : State) (p : Nat) (f : Port → Port) : (s.modPort p f).mem = s.mem := rfl

@[simp] theorem State.modPort_dies (s : State) (p : Nat) (f : Port → Port) : (s.modPort p f).dies = s.dies := rfl

@[simp] theorem State.modPort_wdr (s : State) (p : Nat) (f : Port → Port) : (s.modPort p f).wdr = s.wdr := rfl

@[simp] theorem State.modPort_units (s : State) (p : Nat) (f : Port → Port) : (s.modPort p f).units = s.units := rfl

@[simp] theorem State.modPort_hdr (s : State) (p : Nat) (f : Port → Port) : (s.modPort p f).hdr = s.hdr := rfl

@[simp] theorem State.modPort_fw (s : State) (p : Nat) (f : Port → Port) : (s.modPort p f).fw = s.fw := rfl

@[simp] theorem State.modPort_pwr (s : State) (p : Nat) (f : Port → Port) : (s.modPort p f).pwr = s.pwr := rfl

@[simp] theorem State.modPort_board (s : State) (p : Nat) (f : Port → Port) : (s.modPort p f).board = s.board := rfl

@[simp] theorem State.modPort_delivered (s : State) (p : Nat) (f : Port → Port) : (s.modPort p f).delivered = s.delivered := rfl

@[simp] theorem State.modPort_heldRefills (s : State) (p : Nat) (f : Port → Port) : (s.modPort p f).heldRefills = s.heldRefills := rfl

@[simp] theorem State.setDev_pending (s : State) (d : DevState) : (s.setDev d).pending = s.pending := by
  unfold State.setDev; split <;> rfl

@[simp] theorem State.setDev_leas (s : State) (d : DevState) : (s.setDev d).leas = s.leas := by
  unfold State.setDev; split <;> rfl

@[simp] theorem State.setDev_jobs (s : State) (d : DevState) : (s.setDev d).jobs = s.jobs := by
  unfold State.setDev; split <;> rfl

@[simp] theorem State.setDev_edge (s : State) (d : DevState) : (s.setDev d).edge = s.edge := by
  unfold State.setDev; split <;> rfl

@[simp] theorem State.setDev_pcie (s : State) (d : DevState) : (s.setDev d).pcie = s.pcie := by
  unfold State.setDev; split <;> rfl

@[simp] theorem State.setDev_out (s : State) (d : DevState) : (s.setDev d).out = s.out := by
  unfold State.setDev; split <;> rfl

@[simp] theorem State.setDev_array (s : State) (d : DevState) : (s.setDev d).array = s.array := by
  unfold State.setDev; split <;> rfl

@[simp] theorem State.setDev_scalar (s : State) (d : DevState) : (s.setDev d).scalar = s.scalar := by
  unfold State.setDev; split <;> rfl

@[simp] theorem State.setDev_scale (s : State) (d : DevState) : (s.setDev d).scale = s.scale := by
  unfold State.setDev; split <;> rfl

@[simp] theorem State.setDev_train (s : State) (d : DevState) : (s.setDev d).train = s.train := by
  unfold State.setDev; split <;> rfl

@[simp] theorem State.setDev_mem (s : State) (d : DevState) : (s.setDev d).mem = s.mem := by
  unfold State.setDev; split <;> rfl

@[simp] theorem State.setDev_dies (s : State) (d : DevState) : (s.setDev d).dies = s.dies := by
  unfold State.setDev; split <;> rfl

@[simp] theorem State.setDev_fab (s : State) (d : DevState) : (s.setDev d).fab = s.fab := by
  unfold State.setDev; split <;> rfl

@[simp] theorem State.setDev_wdr (s : State) (d : DevState) : (s.setDev d).wdr = s.wdr := by
  unfold State.setDev; split <;> rfl

@[simp] theorem State.setDev_units (s : State) (d : DevState) : (s.setDev d).units = s.units := by
  unfold State.setDev; split <;> rfl

@[simp] theorem State.setDev_hdr (s : State) (d : DevState) : (s.setDev d).hdr = s.hdr := by
  unfold State.setDev; split <;> rfl

@[simp] theorem State.setDev_fw (s : State) (d : DevState) : (s.setDev d).fw = s.fw := by
  unfold State.setDev; split <;> rfl

@[simp] theorem State.setDev_pwr (s : State) (d : DevState) : (s.setDev d).pwr = s.pwr := by
  unfold State.setDev; split <;> rfl

@[simp] theorem State.setDev_board (s : State) (d : DevState) : (s.setDev d).board = s.board := by
  unfold State.setDev; split <;> rfl

@[simp] theorem State.setDev_delivered (s : State) (d : DevState) : (s.setDev d).delivered = s.delivered := by
  unfold State.setDev; split <;> rfl

@[simp] theorem State.setDev_heldRefills (s : State) (d : DevState) : (s.setDev d).heldRefills = s.heldRefills := by
  unfold State.setDev; split <;> rfl

@[simp] theorem State.setLeaSt_pending (s : State) (l : Nat) (st : LeaSt) : (s.setLeaSt l st).pending = s.pending := by
  simp [State.setLeaSt]

@[simp] theorem State.setLeaSt_hub (s : State) (l : Nat) (st : LeaSt) : (s.setLeaSt l st).hub = s.hub := by
  simp [State.setLeaSt]

@[simp] theorem State.setLeaSt_jobs (s : State) (l : Nat) (st : LeaSt) : (s.setLeaSt l st).jobs = s.jobs := by
  simp [State.setLeaSt]

@[simp] theorem State.setLeaSt_edge (s : State) (l : Nat) (st : LeaSt) : (s.setLeaSt l st).edge = s.edge := by
  simp [State.setLeaSt]

@[simp] theorem State.setLeaSt_pcie (s : State) (l : Nat) (st : LeaSt) : (s.setLeaSt l st).pcie = s.pcie := by
  simp [State.setLeaSt]

@[simp] theorem State.setLeaSt_out (s : State) (l : Nat) (st : LeaSt) : (s.setLeaSt l st).out = s.out := by
  simp [State.setLeaSt]

@[simp] theorem State.setLeaSt_array (s : State) (l : Nat) (st : LeaSt) : (s.setLeaSt l st).array = s.array := by
  simp [State.setLeaSt]

@[simp] theorem State.setLeaSt_scalar (s : State) (l : Nat) (st : LeaSt) : (s.setLeaSt l st).scalar = s.scalar := by
  simp [State.setLeaSt]

@[simp] theorem State.setLeaSt_scale (s : State) (l : Nat) (st : LeaSt) : (s.setLeaSt l st).scale = s.scale := by
  simp [State.setLeaSt]

@[simp] theorem State.setLeaSt_train (s : State) (l : Nat) (st : LeaSt) : (s.setLeaSt l st).train = s.train := by
  simp [State.setLeaSt]

@[simp] theorem State.setLeaSt_mem (s : State) (l : Nat) (st : LeaSt) : (s.setLeaSt l st).mem = s.mem := by
  simp [State.setLeaSt]

@[simp] theorem State.setLeaSt_dies (s : State) (l : Nat) (st : LeaSt) : (s.setLeaSt l st).dies = s.dies := by
  simp [State.setLeaSt]

@[simp] theorem State.setLeaSt_fab (s : State) (l : Nat) (st : LeaSt) : (s.setLeaSt l st).fab = s.fab := by
  simp [State.setLeaSt]

@[simp] theorem State.setLeaSt_wdr (s : State) (l : Nat) (st : LeaSt) : (s.setLeaSt l st).wdr = s.wdr := by
  simp [State.setLeaSt]

@[simp] theorem State.setLeaSt_units (s : State) (l : Nat) (st : LeaSt) : (s.setLeaSt l st).units = s.units := by
  simp [State.setLeaSt]

@[simp] theorem State.setLeaSt_hdr (s : State) (l : Nat) (st : LeaSt) : (s.setLeaSt l st).hdr = s.hdr := by
  simp [State.setLeaSt]

@[simp] theorem State.setLeaSt_fw (s : State) (l : Nat) (st : LeaSt) : (s.setLeaSt l st).fw = s.fw := by
  simp [State.setLeaSt]

@[simp] theorem State.setLeaSt_pwr (s : State) (l : Nat) (st : LeaSt) : (s.setLeaSt l st).pwr = s.pwr := by
  simp [State.setLeaSt]

@[simp] theorem State.setLeaSt_board (s : State) (l : Nat) (st : LeaSt) : (s.setLeaSt l st).board = s.board := by
  simp [State.setLeaSt]

@[simp] theorem State.setLeaSt_delivered (s : State) (l : Nat) (st : LeaSt) : (s.setLeaSt l st).delivered = s.delivered := by
  simp [State.setLeaSt]

@[simp] theorem State.setLeaSt_heldRefills (s : State) (l : Nat) (st : LeaSt) : (s.setLeaSt l st).heldRefills = s.heldRefills := by
  simp [State.setLeaSt]

@[simp] theorem State.setCounter_pending (s : State) (l i : Nat) (c : Counter) : (s.setCounter l i c).pending = s.pending := by
  simp [State.setCounter]

@[simp] theorem State.setCounter_hub (s : State) (l i : Nat) (c : Counter) : (s.setCounter l i c).hub = s.hub := by
  simp [State.setCounter]

@[simp] theorem State.setCounter_jobs (s : State) (l i : Nat) (c : Counter) : (s.setCounter l i c).jobs = s.jobs := by
  simp [State.setCounter]

@[simp] theorem State.setCounter_edge (s : State) (l i : Nat) (c : Counter) : (s.setCounter l i c).edge = s.edge := by
  simp [State.setCounter]

@[simp] theorem State.setCounter_pcie (s : State) (l i : Nat) (c : Counter) : (s.setCounter l i c).pcie = s.pcie := by
  simp [State.setCounter]

@[simp] theorem State.setCounter_out (s : State) (l i : Nat) (c : Counter) : (s.setCounter l i c).out = s.out := by
  simp [State.setCounter]

@[simp] theorem State.setCounter_array (s : State) (l i : Nat) (c : Counter) : (s.setCounter l i c).array = s.array := by
  simp [State.setCounter]

@[simp] theorem State.setCounter_scalar (s : State) (l i : Nat) (c : Counter) : (s.setCounter l i c).scalar = s.scalar := by
  simp [State.setCounter]

@[simp] theorem State.setCounter_scale (s : State) (l i : Nat) (c : Counter) : (s.setCounter l i c).scale = s.scale := by
  simp [State.setCounter]

@[simp] theorem State.setCounter_train (s : State) (l i : Nat) (c : Counter) : (s.setCounter l i c).train = s.train := by
  simp [State.setCounter]

@[simp] theorem State.setCounter_mem (s : State) (l i : Nat) (c : Counter) : (s.setCounter l i c).mem = s.mem := by
  simp [State.setCounter]

@[simp] theorem State.setCounter_dies (s : State) (l i : Nat) (c : Counter) : (s.setCounter l i c).dies = s.dies := by
  simp [State.setCounter]

@[simp] theorem State.setCounter_fab (s : State) (l i : Nat) (c : Counter) : (s.setCounter l i c).fab = s.fab := by
  simp [State.setCounter]

@[simp] theorem State.setCounter_wdr (s : State) (l i : Nat) (c : Counter) : (s.setCounter l i c).wdr = s.wdr := by
  simp [State.setCounter]

@[simp] theorem State.setCounter_units (s : State) (l i : Nat) (c : Counter) : (s.setCounter l i c).units = s.units := by
  simp [State.setCounter]

@[simp] theorem State.setCounter_hdr (s : State) (l i : Nat) (c : Counter) : (s.setCounter l i c).hdr = s.hdr := by
  simp [State.setCounter]

@[simp] theorem State.setCounter_fw (s : State) (l i : Nat) (c : Counter) : (s.setCounter l i c).fw = s.fw := by
  simp [State.setCounter]

@[simp] theorem State.setCounter_pwr (s : State) (l i : Nat) (c : Counter) : (s.setCounter l i c).pwr = s.pwr := by
  simp [State.setCounter]

@[simp] theorem State.setCounter_board (s : State) (l i : Nat) (c : Counter) : (s.setCounter l i c).board = s.board := by
  simp [State.setCounter]

@[simp] theorem State.setCounter_delivered (s : State) (l i : Nat) (c : Counter) : (s.setCounter l i c).delivered = s.delivered := by
  simp [State.setCounter]

@[simp] theorem State.setCounter_heldRefills (s : State) (l i : Nat) (c : Counter) : (s.setCounter l i c).heldRefills = s.heldRefills := by
  simp [State.setCounter]

@[simp] theorem State.endOp_pending (s : State) (n : Nat) (st : Status) (d : Nat) : (s.endOp n st d).pending = s.pending := by
  simp [State.endOp]

@[simp] theorem State.endOp_leas (s : State) (n : Nat) (st : Status) (d : Nat) : (s.endOp n st d).leas = s.leas := by
  simp [State.endOp]

@[simp] theorem State.endOp_jobs (s : State) (n : Nat) (st : Status) (d : Nat) : (s.endOp n st d).jobs = s.jobs := by
  simp [State.endOp]

@[simp] theorem State.endOp_edge (s : State) (n : Nat) (st : Status) (d : Nat) : (s.endOp n st d).edge = s.edge := by
  simp [State.endOp]

@[simp] theorem State.endOp_pcie (s : State) (n : Nat) (st : Status) (d : Nat) : (s.endOp n st d).pcie = s.pcie := by
  simp [State.endOp]

@[simp] theorem State.endOp_out (s : State) (n : Nat) (st : Status) (d : Nat) : (s.endOp n st d).out = s.out := by
  simp [State.endOp]

@[simp] theorem State.endOp_array (s : State) (n : Nat) (st : Status) (d : Nat) : (s.endOp n st d).array = s.array := by
  simp [State.endOp]

@[simp] theorem State.endOp_scalar (s : State) (n : Nat) (st : Status) (d : Nat) : (s.endOp n st d).scalar = s.scalar := by
  simp [State.endOp]

@[simp] theorem State.endOp_scale (s : State) (n : Nat) (st : Status) (d : Nat) : (s.endOp n st d).scale = s.scale := by
  simp [State.endOp]

@[simp] theorem State.endOp_train (s : State) (n : Nat) (st : Status) (d : Nat) : (s.endOp n st d).train = s.train := by
  simp [State.endOp]

@[simp] theorem State.endOp_mem (s : State) (n : Nat) (st : Status) (d : Nat) : (s.endOp n st d).mem = s.mem := by
  simp [State.endOp]

@[simp] theorem State.endOp_dies (s : State) (n : Nat) (st : Status) (d : Nat) : (s.endOp n st d).dies = s.dies := by
  simp [State.endOp]

@[simp] theorem State.endOp_fab (s : State) (n : Nat) (st : Status) (d : Nat) : (s.endOp n st d).fab = s.fab := by
  simp [State.endOp]

@[simp] theorem State.endOp_wdr (s : State) (n : Nat) (st : Status) (d : Nat) : (s.endOp n st d).wdr = s.wdr := by
  simp [State.endOp]

@[simp] theorem State.endOp_units (s : State) (n : Nat) (st : Status) (d : Nat) : (s.endOp n st d).units = s.units := by
  simp [State.endOp]

@[simp] theorem State.endOp_hdr (s : State) (n : Nat) (st : Status) (d : Nat) : (s.endOp n st d).hdr = s.hdr := by
  simp [State.endOp]

@[simp] theorem State.endOp_fw (s : State) (n : Nat) (st : Status) (d : Nat) : (s.endOp n st d).fw = s.fw := by
  simp [State.endOp]

@[simp] theorem State.endOp_pwr (s : State) (n : Nat) (st : Status) (d : Nat) : (s.endOp n st d).pwr = s.pwr := by
  simp [State.endOp]

@[simp] theorem State.endOp_board (s : State) (n : Nat) (st : Status) (d : Nat) : (s.endOp n st d).board = s.board := by
  simp [State.endOp]

@[simp] theorem State.endOp_delivered (s : State) (n : Nat) (st : Status) (d : Nat) : (s.endOp n st d).delivered = s.delivered := by
  simp [State.endOp]

@[simp] theorem State.endOp_heldRefills (s : State) (n : Nat) (st : Status) (d : Nat) : (s.endOp n st d).heldRefills = s.heldRefills := by
  simp [State.endOp]

@[simp] theorem State.ibi_pending (s : State) (b : Nat) : (s.ibi b).pending = s.pending := rfl

@[simp] theorem State.ibi_hub (s : State) (b : Nat) : (s.ibi b).hub = s.hub := rfl

@[simp] theorem State.ibi_leas (s : State) (b : Nat) : (s.ibi b).leas = s.leas := rfl

@[simp] theorem State.ibi_jobs (s : State) (b : Nat) : (s.ibi b).jobs = s.jobs := rfl

@[simp] theorem State.ibi_edge (s : State) (b : Nat) : (s.ibi b).edge = s.edge := rfl

@[simp] theorem State.ibi_pcie (s : State) (b : Nat) : (s.ibi b).pcie = s.pcie := rfl

@[simp] theorem State.ibi_array (s : State) (b : Nat) : (s.ibi b).array = s.array := rfl

@[simp] theorem State.ibi_scalar (s : State) (b : Nat) : (s.ibi b).scalar = s.scalar := rfl

@[simp] theorem State.ibi_scale (s : State) (b : Nat) : (s.ibi b).scale = s.scale := rfl

@[simp] theorem State.ibi_train (s : State) (b : Nat) : (s.ibi b).train = s.train := rfl

@[simp] theorem State.ibi_mem (s : State) (b : Nat) : (s.ibi b).mem = s.mem := rfl

@[simp] theorem State.ibi_dies (s : State) (b : Nat) : (s.ibi b).dies = s.dies := rfl

@[simp] theorem State.ibi_fab (s : State) (b : Nat) : (s.ibi b).fab = s.fab := rfl

@[simp] theorem State.ibi_wdr (s : State) (b : Nat) : (s.ibi b).wdr = s.wdr := rfl

@[simp] theorem State.ibi_units (s : State) (b : Nat) : (s.ibi b).units = s.units := rfl

@[simp] theorem State.ibi_hdr (s : State) (b : Nat) : (s.ibi b).hdr = s.hdr := rfl

@[simp] theorem State.ibi_fw (s : State) (b : Nat) : (s.ibi b).fw = s.fw := rfl

@[simp] theorem State.ibi_pwr (s : State) (b : Nat) : (s.ibi b).pwr = s.pwr := rfl

@[simp] theorem State.ibi_board (s : State) (b : Nat) : (s.ibi b).board = s.board := rfl

@[simp] theorem State.ibi_delivered (s : State) (b : Nat) : (s.ibi b).delivered = s.delivered := rfl

@[simp] theorem State.ibi_heldRefills (s : State) (b : Nat) : (s.ibi b).heldRefills = s.heldRefills := rfl

@[simp] theorem State.noteWrite_pending (s : State) (st : Word) (b l : Nat) : (s.noteWrite st b l).pending = s.pending := rfl

@[simp] theorem State.noteWrite_hub (s : State) (st : Word) (b l : Nat) : (s.noteWrite st b l).hub = s.hub := rfl

@[simp] theorem State.noteWrite_leas (s : State) (st : Word) (b l : Nat) : (s.noteWrite st b l).leas = s.leas := rfl

@[simp] theorem State.noteWrite_jobs (s : State) (st : Word) (b l : Nat) : (s.noteWrite st b l).jobs = s.jobs := rfl

@[simp] theorem State.noteWrite_edge (s : State) (st : Word) (b l : Nat) : (s.noteWrite st b l).edge = s.edge := rfl

@[simp] theorem State.noteWrite_pcie (s : State) (st : Word) (b l : Nat) : (s.noteWrite st b l).pcie = s.pcie := rfl

@[simp] theorem State.noteWrite_out (s : State) (st : Word) (b l : Nat) : (s.noteWrite st b l).out = s.out := rfl

@[simp] theorem State.noteWrite_array (s : State) (st : Word) (b l : Nat) : (s.noteWrite st b l).array = s.array := rfl

@[simp] theorem State.noteWrite_scalar (s : State) (st : Word) (b l : Nat) : (s.noteWrite st b l).scalar = s.scalar := rfl

@[simp] theorem State.noteWrite_scale (s : State) (st : Word) (b l : Nat) : (s.noteWrite st b l).scale = s.scale := rfl

@[simp] theorem State.noteWrite_train (s : State) (st : Word) (b l : Nat) : (s.noteWrite st b l).train = s.train := rfl

@[simp] theorem State.noteWrite_dies (s : State) (st : Word) (b l : Nat) : (s.noteWrite st b l).dies = s.dies := rfl

@[simp] theorem State.noteWrite_fab (s : State) (st : Word) (b l : Nat) : (s.noteWrite st b l).fab = s.fab := rfl

@[simp] theorem State.noteWrite_wdr (s : State) (st : Word) (b l : Nat) : (s.noteWrite st b l).wdr = s.wdr := rfl

@[simp] theorem State.noteWrite_units (s : State) (st : Word) (b l : Nat) : (s.noteWrite st b l).units = s.units := rfl

@[simp] theorem State.noteWrite_hdr (s : State) (st : Word) (b l : Nat) : (s.noteWrite st b l).hdr = s.hdr := rfl

@[simp] theorem State.noteWrite_fw (s : State) (st : Word) (b l : Nat) : (s.noteWrite st b l).fw = s.fw := rfl

@[simp] theorem State.noteWrite_pwr (s : State) (st : Word) (b l : Nat) : (s.noteWrite st b l).pwr = s.pwr := rfl

@[simp] theorem State.noteWrite_board (s : State) (st : Word) (b l : Nat) : (s.noteWrite st b l).board = s.board := rfl

@[simp] theorem State.noteWrite_delivered (s : State) (st : Word) (b l : Nat) : (s.noteWrite st b l).delivered = s.delivered := rfl

@[simp] theorem State.noteWrite_heldRefills (s : State) (st : Word) (b l : Nat) : (s.noteWrite st b l).heldRefills = s.heldRefills := rfl

@[simp] theorem State.interrupt_pending (s : State) (l v : Nat) : (s.interrupt l v).pending = s.pending := by
  unfold State.interrupt; split
  · simp
  · split <;> rfl

@[simp] theorem State.interrupt_hub (s : State) (l v : Nat) : (s.interrupt l v).hub = s.hub := by
  unfold State.interrupt; split
  · simp
  · split <;> rfl

@[simp] theorem State.interrupt_jobs (s : State) (l v : Nat) : (s.interrupt l v).jobs = s.jobs := by
  unfold State.interrupt; split
  · simp
  · split <;> rfl

@[simp] theorem State.interrupt_edge (s : State) (l v : Nat) : (s.interrupt l v).edge = s.edge := by
  unfold State.interrupt; split
  · simp
  · split <;> rfl

@[simp] theorem State.interrupt_pcie (s : State) (l v : Nat) : (s.interrupt l v).pcie = s.pcie := by
  unfold State.interrupt; split
  · simp
  · split <;> rfl

@[simp] theorem State.interrupt_array (s : State) (l v : Nat) : (s.interrupt l v).array = s.array := by
  unfold State.interrupt; split
  · simp
  · split <;> rfl

@[simp] theorem State.interrupt_scalar (s : State) (l v : Nat) : (s.interrupt l v).scalar = s.scalar := by
  unfold State.interrupt; split
  · simp
  · split <;> rfl

@[simp] theorem State.interrupt_scale (s : State) (l v : Nat) : (s.interrupt l v).scale = s.scale := by
  unfold State.interrupt; split
  · simp
  · split <;> rfl

@[simp] theorem State.interrupt_train (s : State) (l v : Nat) : (s.interrupt l v).train = s.train := by
  unfold State.interrupt; split
  · simp
  · split <;> rfl

@[simp] theorem State.interrupt_mem (s : State) (l v : Nat) : (s.interrupt l v).mem = s.mem := by
  unfold State.interrupt; split
  · simp
  · split <;> rfl

@[simp] theorem State.interrupt_dies (s : State) (l v : Nat) : (s.interrupt l v).dies = s.dies := by
  unfold State.interrupt; split
  · simp
  · split <;> rfl

@[simp] theorem State.interrupt_fab (s : State) (l v : Nat) : (s.interrupt l v).fab = s.fab := by
  unfold State.interrupt; split
  · simp
  · split <;> rfl

@[simp] theorem State.interrupt_wdr (s : State) (l v : Nat) : (s.interrupt l v).wdr = s.wdr := by
  unfold State.interrupt; split
  · simp
  · split <;> rfl

@[simp] theorem State.interrupt_units (s : State) (l v : Nat) : (s.interrupt l v).units = s.units := by
  unfold State.interrupt; split
  · simp
  · split <;> rfl

@[simp] theorem State.interrupt_hdr (s : State) (l v : Nat) : (s.interrupt l v).hdr = s.hdr := by
  unfold State.interrupt; split
  · simp
  · split <;> rfl

@[simp] theorem State.interrupt_fw (s : State) (l v : Nat) : (s.interrupt l v).fw = s.fw := by
  unfold State.interrupt; split
  · simp
  · split <;> rfl

@[simp] theorem State.interrupt_pwr (s : State) (l v : Nat) : (s.interrupt l v).pwr = s.pwr := by
  unfold State.interrupt; split
  · simp
  · split <;> rfl

@[simp] theorem State.interrupt_board (s : State) (l v : Nat) : (s.interrupt l v).board = s.board := by
  unfold State.interrupt; split
  · simp
  · split <;> rfl

@[simp] theorem State.interrupt_delivered (s : State) (l v : Nat) : (s.interrupt l v).delivered = s.delivered := by
  unfold State.interrupt; split
  · simp
  · split <;> rfl

@[simp] theorem State.interrupt_heldRefills (s : State) (l v : Nat) : (s.interrupt l v).heldRefills = s.heldRefills := by
  unfold State.interrupt; split
  · simp
  · split <;> rfl

@[simp] theorem State.applyEvent_pending (s : State) (l : Nat) (e : FaultEvent) : (s.applyEvent l e).pending = s.pending := by
  unfold State.applyEvent; simp only; split <;> split <;> simp

@[simp] theorem State.applyEvent_hub (s : State) (l : Nat) (e : FaultEvent) : (s.applyEvent l e).hub = s.hub := by
  unfold State.applyEvent; simp only; split <;> split <;> simp

@[simp] theorem State.applyEvent_jobs (s : State) (l : Nat) (e : FaultEvent) : (s.applyEvent l e).jobs = s.jobs := by
  unfold State.applyEvent; simp only; split <;> split <;> simp

@[simp] theorem State.applyEvent_edge (s : State) (l : Nat) (e : FaultEvent) : (s.applyEvent l e).edge = s.edge := by
  unfold State.applyEvent; simp only; split <;> split <;> simp

@[simp] theorem State.applyEvent_pcie (s : State) (l : Nat) (e : FaultEvent) : (s.applyEvent l e).pcie = s.pcie := by
  unfold State.applyEvent; simp only; split <;> split <;> simp

@[simp] theorem State.applyEvent_array (s : State) (l : Nat) (e : FaultEvent) : (s.applyEvent l e).array = s.array := by
  unfold State.applyEvent; simp only; split <;> split <;> simp

@[simp] theorem State.applyEvent_scalar (s : State) (l : Nat) (e : FaultEvent) : (s.applyEvent l e).scalar = s.scalar := by
  unfold State.applyEvent; simp only; split <;> split <;> simp

@[simp] theorem State.applyEvent_scale (s : State) (l : Nat) (e : FaultEvent) : (s.applyEvent l e).scale = s.scale := by
  unfold State.applyEvent; simp only; split <;> split <;> simp

@[simp] theorem State.applyEvent_train (s : State) (l : Nat) (e : FaultEvent) : (s.applyEvent l e).train = s.train := by
  unfold State.applyEvent; simp only; split <;> split <;> simp

@[simp] theorem State.applyEvent_mem (s : State) (l : Nat) (e : FaultEvent) : (s.applyEvent l e).mem = s.mem := by
  unfold State.applyEvent; simp only; split <;> split <;> simp

@[simp] theorem State.applyEvent_dies (s : State) (l : Nat) (e : FaultEvent) : (s.applyEvent l e).dies = s.dies := by
  unfold State.applyEvent; simp only; split <;> split <;> simp

@[simp] theorem State.applyEvent_fab (s : State) (l : Nat) (e : FaultEvent) : (s.applyEvent l e).fab = s.fab := by
  unfold State.applyEvent; simp only; split <;> split <;> simp

@[simp] theorem State.applyEvent_wdr (s : State) (l : Nat) (e : FaultEvent) : (s.applyEvent l e).wdr = s.wdr := by
  unfold State.applyEvent; simp only; split <;> split <;> simp

@[simp] theorem State.applyEvent_units (s : State) (l : Nat) (e : FaultEvent) : (s.applyEvent l e).units = s.units := by
  unfold State.applyEvent; simp only; split <;> split <;> simp

@[simp] theorem State.applyEvent_hdr (s : State) (l : Nat) (e : FaultEvent) : (s.applyEvent l e).hdr = s.hdr := by
  unfold State.applyEvent; simp only; split <;> split <;> simp

@[simp] theorem State.applyEvent_pwr (s : State) (l : Nat) (e : FaultEvent) : (s.applyEvent l e).pwr = s.pwr := by
  unfold State.applyEvent; simp only; split <;> split <;> simp

@[simp] theorem State.applyEvent_board (s : State) (l : Nat) (e : FaultEvent) : (s.applyEvent l e).board = s.board := by
  unfold State.applyEvent; simp only; split <;> split <;> simp

@[simp] theorem State.applyEvent_delivered (s : State) (l : Nat) (e : FaultEvent) : (s.applyEvent l e).delivered = s.delivered := by
  unfold State.applyEvent; simp only; split <;> split <;> simp

@[simp] theorem State.applyEvent_heldRefills (s : State) (l : Nat) (e : FaultEvent) : (s.applyEvent l e).heldRefills = s.heldRefills := by
  unfold State.applyEvent; simp only; split <;> split <;> simp

@[simp] theorem State.queueEvent_pending (s : State) (l : Nat) (e : FaultEvent) : (s.queueEvent l e).pending = s.pending := by
  unfold State.queueEvent; split
  · rfl
  · split <;> simp

@[simp] theorem State.queueEvent_hub (s : State) (l : Nat) (e : FaultEvent) : (s.queueEvent l e).hub = s.hub := by
  unfold State.queueEvent; split
  · rfl
  · split <;> simp

@[simp] theorem State.queueEvent_jobs (s : State) (l : Nat) (e : FaultEvent) : (s.queueEvent l e).jobs = s.jobs := by
  unfold State.queueEvent; split
  · rfl
  · split <;> simp

@[simp] theorem State.queueEvent_edge (s : State) (l : Nat) (e : FaultEvent) : (s.queueEvent l e).edge = s.edge := by
  unfold State.queueEvent; split
  · rfl
  · split <;> simp

@[simp] theorem State.queueEvent_pcie (s : State) (l : Nat) (e : FaultEvent) : (s.queueEvent l e).pcie = s.pcie := by
  unfold State.queueEvent; split
  · rfl
  · split <;> simp

@[simp] theorem State.queueEvent_array (s : State) (l : Nat) (e : FaultEvent) : (s.queueEvent l e).array = s.array := by
  unfold State.queueEvent; split
  · rfl
  · split <;> simp

@[simp] theorem State.queueEvent_scalar (s : State) (l : Nat) (e : FaultEvent) : (s.queueEvent l e).scalar = s.scalar := by
  unfold State.queueEvent; split
  · rfl
  · split <;> simp

@[simp] theorem State.queueEvent_scale (s : State) (l : Nat) (e : FaultEvent) : (s.queueEvent l e).scale = s.scale := by
  unfold State.queueEvent; split
  · rfl
  · split <;> simp

@[simp] theorem State.queueEvent_train (s : State) (l : Nat) (e : FaultEvent) : (s.queueEvent l e).train = s.train := by
  unfold State.queueEvent; split
  · rfl
  · split <;> simp

@[simp] theorem State.queueEvent_mem (s : State) (l : Nat) (e : FaultEvent) : (s.queueEvent l e).mem = s.mem := by
  unfold State.queueEvent; split
  · rfl
  · split <;> simp

@[simp] theorem State.queueEvent_dies (s : State) (l : Nat) (e : FaultEvent) : (s.queueEvent l e).dies = s.dies := by
  unfold State.queueEvent; split
  · rfl
  · split <;> simp

@[simp] theorem State.queueEvent_fab (s : State) (l : Nat) (e : FaultEvent) : (s.queueEvent l e).fab = s.fab := by
  unfold State.queueEvent; split
  · rfl
  · split <;> simp

@[simp] theorem State.queueEvent_wdr (s : State) (l : Nat) (e : FaultEvent) : (s.queueEvent l e).wdr = s.wdr := by
  unfold State.queueEvent; split
  · rfl
  · split <;> simp

@[simp] theorem State.queueEvent_units (s : State) (l : Nat) (e : FaultEvent) : (s.queueEvent l e).units = s.units := by
  unfold State.queueEvent; split
  · rfl
  · split <;> simp

@[simp] theorem State.queueEvent_hdr (s : State) (l : Nat) (e : FaultEvent) : (s.queueEvent l e).hdr = s.hdr := by
  unfold State.queueEvent; split
  · rfl
  · split <;> simp

@[simp] theorem State.queueEvent_pwr (s : State) (l : Nat) (e : FaultEvent) : (s.queueEvent l e).pwr = s.pwr := by
  unfold State.queueEvent; split
  · rfl
  · split <;> simp

@[simp] theorem State.queueEvent_board (s : State) (l : Nat) (e : FaultEvent) : (s.queueEvent l e).board = s.board := by
  unfold State.queueEvent; split
  · rfl
  · split <;> simp

@[simp] theorem State.queueEvent_delivered (s : State) (l : Nat) (e : FaultEvent) : (s.queueEvent l e).delivered = s.delivered := by
  unfold State.queueEvent; split
  · rfl
  · split <;> simp

@[simp] theorem State.queueEvent_heldRefills (s : State) (l : Nat) (e : FaultEvent) : (s.queueEvent l e).heldRefills = s.heldRefills := by
  unfold State.queueEvent; split
  · rfl
  · split <;> simp

@[simp] theorem State.poisonEvents_pending (s : State) (sec : Nat) : (s.poisonEvents sec).pending = s.pending := by
  exact foldl_keeps (·.pending) _ (fun s l => by simp) _ _

@[simp] theorem State.poisonEvents_hub (s : State) (sec : Nat) : (s.poisonEvents sec).hub = s.hub := by
  exact foldl_keeps (·.hub) _ (fun s l => by simp) _ _

@[simp] theorem State.poisonEvents_jobs (s : State) (sec : Nat) : (s.poisonEvents sec).jobs = s.jobs := by
  exact foldl_keeps (·.jobs) _ (fun s l => by simp) _ _

@[simp] theorem State.poisonEvents_edge (s : State) (sec : Nat) : (s.poisonEvents sec).edge = s.edge := by
  exact foldl_keeps (·.edge) _ (fun s l => by simp) _ _

@[simp] theorem State.poisonEvents_pcie (s : State) (sec : Nat) : (s.poisonEvents sec).pcie = s.pcie := by
  exact foldl_keeps (·.pcie) _ (fun s l => by simp) _ _

@[simp] theorem State.poisonEvents_array (s : State) (sec : Nat) : (s.poisonEvents sec).array = s.array := by
  exact foldl_keeps (·.array) _ (fun s l => by simp) _ _

@[simp] theorem State.poisonEvents_scalar (s : State) (sec : Nat) : (s.poisonEvents sec).scalar = s.scalar := by
  exact foldl_keeps (·.scalar) _ (fun s l => by simp) _ _

@[simp] theorem State.poisonEvents_scale (s : State) (sec : Nat) : (s.poisonEvents sec).scale = s.scale := by
  exact foldl_keeps (·.scale) _ (fun s l => by simp) _ _

@[simp] theorem State.poisonEvents_train (s : State) (sec : Nat) : (s.poisonEvents sec).train = s.train := by
  exact foldl_keeps (·.train) _ (fun s l => by simp) _ _

@[simp] theorem State.poisonEvents_mem (s : State) (sec : Nat) : (s.poisonEvents sec).mem = s.mem := by
  exact foldl_keeps (·.mem) _ (fun s l => by simp) _ _

@[simp] theorem State.poisonEvents_dies (s : State) (sec : Nat) : (s.poisonEvents sec).dies = s.dies := by
  exact foldl_keeps (·.dies) _ (fun s l => by simp) _ _

@[simp] theorem State.poisonEvents_fab (s : State) (sec : Nat) : (s.poisonEvents sec).fab = s.fab := by
  exact foldl_keeps (·.fab) _ (fun s l => by simp) _ _

@[simp] theorem State.poisonEvents_wdr (s : State) (sec : Nat) : (s.poisonEvents sec).wdr = s.wdr := by
  exact foldl_keeps (·.wdr) _ (fun s l => by simp) _ _

@[simp] theorem State.poisonEvents_units (s : State) (sec : Nat) : (s.poisonEvents sec).units = s.units := by
  exact foldl_keeps (·.units) _ (fun s l => by simp) _ _

@[simp] theorem State.poisonEvents_hdr (s : State) (sec : Nat) : (s.poisonEvents sec).hdr = s.hdr := by
  exact foldl_keeps (·.hdr) _ (fun s l => by simp) _ _

@[simp] theorem State.poisonEvents_pwr (s : State) (sec : Nat) : (s.poisonEvents sec).pwr = s.pwr := by
  exact foldl_keeps (·.pwr) _ (fun s l => by simp) _ _

@[simp] theorem State.poisonEvents_board (s : State) (sec : Nat) : (s.poisonEvents sec).board = s.board := by
  exact foldl_keeps (·.board) _ (fun s l => by simp) _ _

@[simp] theorem State.poisonEvents_delivered (s : State) (sec : Nat) : (s.poisonEvents sec).delivered = s.delivered := by
  exact foldl_keeps (·.delivered) _ (fun s l => by simp) _ _

@[simp] theorem State.poisonEvents_heldRefills (s : State) (sec : Nat) : (s.poisonEvents sec).heldRefills = s.heldRefills := by
  exact foldl_keeps (·.heldRefills) _ (fun s l => by simp) _ _

@[simp] theorem State.settleDev_pending (s : State) : (s.settleDev).pending = s.pending := by
  unfold State.settleDev; split
  · split <;> simp
  · split <;> simp
  · rfl

@[simp] theorem State.settleDev_leas (s : State) : (s.settleDev).leas = s.leas := by
  unfold State.settleDev; split
  · split <;> simp
  · split <;> simp
  · rfl

@[simp] theorem State.settleDev_jobs (s : State) : (s.settleDev).jobs = s.jobs := by
  unfold State.settleDev; split
  · split <;> simp
  · split <;> simp
  · rfl

@[simp] theorem State.settleDev_edge (s : State) : (s.settleDev).edge = s.edge := by
  unfold State.settleDev; split
  · split <;> simp
  · split <;> simp
  · rfl

@[simp] theorem State.settleDev_pcie (s : State) : (s.settleDev).pcie = s.pcie := by
  unfold State.settleDev; split
  · split <;> simp
  · split <;> simp
  · rfl

@[simp] theorem State.settleDev_out (s : State) : (s.settleDev).out = s.out := by
  unfold State.settleDev; split
  · split <;> simp
  · split <;> simp
  · rfl

@[simp] theorem State.settleDev_array (s : State) : (s.settleDev).array = s.array := by
  unfold State.settleDev; split
  · split <;> simp
  · split <;> simp
  · rfl

@[simp] theorem State.settleDev_scalar (s : State) : (s.settleDev).scalar = s.scalar := by
  unfold State.settleDev; split
  · split <;> simp
  · split <;> simp
  · rfl

@[simp] theorem State.settleDev_scale (s : State) : (s.settleDev).scale = s.scale := by
  unfold State.settleDev; split
  · split <;> simp
  · split <;> simp
  · rfl

@[simp] theorem State.settleDev_train (s : State) : (s.settleDev).train = s.train := by
  unfold State.settleDev; split
  · split <;> simp
  · split <;> simp
  · rfl

@[simp] theorem State.settleDev_mem (s : State) : (s.settleDev).mem = s.mem := by
  unfold State.settleDev; split
  · split <;> simp
  · split <;> simp
  · rfl

@[simp] theorem State.settleDev_dies (s : State) : (s.settleDev).dies = s.dies := by
  unfold State.settleDev; split
  · split <;> simp
  · split <;> simp
  · rfl

@[simp] theorem State.settleDev_fab (s : State) : (s.settleDev).fab = s.fab := by
  unfold State.settleDev; split
  · split <;> simp
  · split <;> simp
  · rfl

@[simp] theorem State.settleDev_wdr (s : State) : (s.settleDev).wdr = s.wdr := by
  unfold State.settleDev; split
  · split <;> simp
  · split <;> simp
  · rfl

@[simp] theorem State.settleDev_units (s : State) : (s.settleDev).units = s.units := by
  unfold State.settleDev; split
  · split <;> simp
  · split <;> simp
  · rfl

@[simp] theorem State.settleDev_hdr (s : State) : (s.settleDev).hdr = s.hdr := by
  unfold State.settleDev; split
  · split <;> simp
  · split <;> simp
  · rfl

@[simp] theorem State.settleDev_fw (s : State) : (s.settleDev).fw = s.fw := by
  unfold State.settleDev; split
  · split <;> simp
  · split <;> simp
  · rfl

@[simp] theorem State.settleDev_pwr (s : State) : (s.settleDev).pwr = s.pwr := by
  unfold State.settleDev; split
  · split <;> simp
  · split <;> simp
  · rfl

@[simp] theorem State.settleDev_board (s : State) : (s.settleDev).board = s.board := by
  unfold State.settleDev; split
  · split <;> simp
  · split <;> simp
  · rfl

@[simp] theorem State.settleDev_delivered (s : State) : (s.settleDev).delivered = s.delivered := by
  unfold State.settleDev; split
  · split <;> simp
  · split <;> simp
  · rfl

@[simp] theorem State.settleDev_heldRefills (s : State) : (s.settleDev).heldRefills = s.heldRefills := by
  unfold State.settleDev; split
  · split <;> simp
  · split <;> simp
  · rfl

@[simp] theorem State.settlePeaks_pending (s : State) : (s.settlePeaks).pending = s.pending := rfl

@[simp] theorem State.settlePeaks_leas (s : State) : (s.settlePeaks).leas = s.leas := rfl

@[simp] theorem State.settlePeaks_jobs (s : State) : (s.settlePeaks).jobs = s.jobs := rfl

@[simp] theorem State.settlePeaks_edge (s : State) : (s.settlePeaks).edge = s.edge := rfl

@[simp] theorem State.settlePeaks_pcie (s : State) : (s.settlePeaks).pcie = s.pcie := rfl

@[simp] theorem State.settlePeaks_out (s : State) : (s.settlePeaks).out = s.out := rfl

@[simp] theorem State.settlePeaks_array (s : State) : (s.settlePeaks).array = s.array := rfl

@[simp] theorem State.settlePeaks_scalar (s : State) : (s.settlePeaks).scalar = s.scalar := rfl

@[simp] theorem State.settlePeaks_scale (s : State) : (s.settlePeaks).scale = s.scale := rfl

@[simp] theorem State.settlePeaks_train (s : State) : (s.settlePeaks).train = s.train := rfl

@[simp] theorem State.settlePeaks_mem (s : State) : (s.settlePeaks).mem = s.mem := rfl

@[simp] theorem State.settlePeaks_dies (s : State) : (s.settlePeaks).dies = s.dies := rfl

@[simp] theorem State.settlePeaks_fab (s : State) : (s.settlePeaks).fab = s.fab := rfl

@[simp] theorem State.settlePeaks_units (s : State) : (s.settlePeaks).units = s.units := rfl

@[simp] theorem State.settlePeaks_hdr (s : State) : (s.settlePeaks).hdr = s.hdr := rfl

@[simp] theorem State.settlePeaks_fw (s : State) : (s.settlePeaks).fw = s.fw := rfl

@[simp] theorem State.settlePeaks_pwr (s : State) : (s.settlePeaks).pwr = s.pwr := rfl

@[simp] theorem State.settlePeaks_board (s : State) : (s.settlePeaks).board = s.board := rfl

@[simp] theorem State.settlePeaks_delivered (s : State) : (s.settlePeaks).delivered = s.delivered := rfl

@[simp] theorem State.settlePeaks_heldRefills (s : State) : (s.settlePeaks).heldRefills = s.heldRefills := rfl

@[simp] theorem State.settleShares_pending (s : State) : (s.settleShares).pending = s.pending := rfl

@[simp] theorem State.settleShares_hub (s : State) : (s.settleShares).hub = s.hub := rfl

@[simp] theorem State.settleShares_jobs (s : State) : (s.settleShares).jobs = s.jobs := rfl

@[simp] theorem State.settleShares_edge (s : State) : (s.settleShares).edge = s.edge := rfl

@[simp] theorem State.settleShares_pcie (s : State) : (s.settleShares).pcie = s.pcie := rfl

@[simp] theorem State.settleShares_out (s : State) : (s.settleShares).out = s.out := rfl

@[simp] theorem State.settleShares_array (s : State) : (s.settleShares).array = s.array := rfl

@[simp] theorem State.settleShares_scalar (s : State) : (s.settleShares).scalar = s.scalar := rfl

@[simp] theorem State.settleShares_scale (s : State) : (s.settleShares).scale = s.scale := rfl

@[simp] theorem State.settleShares_train (s : State) : (s.settleShares).train = s.train := rfl

@[simp] theorem State.settleShares_mem (s : State) : (s.settleShares).mem = s.mem := rfl

@[simp] theorem State.settleShares_dies (s : State) : (s.settleShares).dies = s.dies := rfl

@[simp] theorem State.settleShares_fab (s : State) : (s.settleShares).fab = s.fab := rfl

@[simp] theorem State.settleShares_wdr (s : State) : (s.settleShares).wdr = s.wdr := rfl

@[simp] theorem State.settleShares_units (s : State) : (s.settleShares).units = s.units := rfl

@[simp] theorem State.settleShares_hdr (s : State) : (s.settleShares).hdr = s.hdr := rfl

@[simp] theorem State.settleShares_fw (s : State) : (s.settleShares).fw = s.fw := rfl

@[simp] theorem State.settleShares_pwr (s : State) : (s.settleShares).pwr = s.pwr := rfl

@[simp] theorem State.settleShares_board (s : State) : (s.settleShares).board = s.board := rfl

@[simp] theorem State.settleShares_delivered (s : State) : (s.settleShares).delivered = s.delivered := rfl

@[simp] theorem State.settleShares_heldRefills (s : State) : (s.settleShares).heldRefills = s.heldRefills := rfl

@[simp] theorem State.settle_pending (s : State) : (s.settle).pending = s.pending := by
  simp [State.settle]

@[simp] theorem State.settle_jobs (s : State) : (s.settle).jobs = s.jobs := by
  simp [State.settle]

@[simp] theorem State.settle_edge (s : State) : (s.settle).edge = s.edge := by
  simp [State.settle]

@[simp] theorem State.settle_pcie (s : State) : (s.settle).pcie = s.pcie := by
  simp [State.settle]

@[simp] theorem State.settle_out (s : State) : (s.settle).out = s.out := by
  simp [State.settle]

@[simp] theorem State.settle_array (s : State) : (s.settle).array = s.array := by
  simp [State.settle]

@[simp] theorem State.settle_scalar (s : State) : (s.settle).scalar = s.scalar := by
  simp [State.settle]

@[simp] theorem State.settle_scale (s : State) : (s.settle).scale = s.scale := by
  simp [State.settle]

@[simp] theorem State.settle_train (s : State) : (s.settle).train = s.train := by
  simp [State.settle]

@[simp] theorem State.settle_mem (s : State) : (s.settle).mem = s.mem := by
  simp [State.settle]

@[simp] theorem State.settle_dies (s : State) : (s.settle).dies = s.dies := by
  simp [State.settle]

@[simp] theorem State.settle_fab (s : State) : (s.settle).fab = s.fab := by
  simp [State.settle]

@[simp] theorem State.settle_units (s : State) : (s.settle).units = s.units := by
  simp [State.settle]

@[simp] theorem State.settle_hdr (s : State) : (s.settle).hdr = s.hdr := by
  simp [State.settle]

@[simp] theorem State.settle_fw (s : State) : (s.settle).fw = s.fw := by
  simp [State.settle]

@[simp] theorem State.settle_pwr (s : State) : (s.settle).pwr = s.pwr := by
  simp [State.settle]

@[simp] theorem State.settle_board (s : State) : (s.settle).board = s.board := by
  simp [State.settle]

@[simp] theorem State.settle_delivered (s : State) : (s.settle).delivered = s.delivered := by
  simp [State.settle]

@[simp] theorem State.settle_heldRefills (s : State) : (s.settle).heldRefills = s.heldRefills := by
  simp [State.settle]

@[simp] theorem State.flushEvents_pending (s : State) (l : Nat) : (s.flushEvents l).pending = s.pending := by
  unfold State.flushEvents; rw [foldl_keeps (·.pending) _ (fun s e => by simp)]; simp

@[simp] theorem State.flushEvents_hub (s : State) (l : Nat) : (s.flushEvents l).hub = s.hub := by
  unfold State.flushEvents; rw [foldl_keeps (·.hub) _ (fun s e => by simp)]; simp

@[simp] theorem State.flushEvents_jobs (s : State) (l : Nat) : (s.flushEvents l).jobs = s.jobs := by
  unfold State.flushEvents; rw [foldl_keeps (·.jobs) _ (fun s e => by simp)]; simp

@[simp] theorem State.flushEvents_edge (s : State) (l : Nat) : (s.flushEvents l).edge = s.edge := by
  unfold State.flushEvents; rw [foldl_keeps (·.edge) _ (fun s e => by simp)]; simp

@[simp] theorem State.flushEvents_pcie (s : State) (l : Nat) : (s.flushEvents l).pcie = s.pcie := by
  unfold State.flushEvents; rw [foldl_keeps (·.pcie) _ (fun s e => by simp)]; simp

@[simp] theorem State.flushEvents_array (s : State) (l : Nat) : (s.flushEvents l).array = s.array := by
  unfold State.flushEvents; rw [foldl_keeps (·.array) _ (fun s e => by simp)]; simp

@[simp] theorem State.flushEvents_scalar (s : State) (l : Nat) : (s.flushEvents l).scalar = s.scalar := by
  unfold State.flushEvents; rw [foldl_keeps (·.scalar) _ (fun s e => by simp)]; simp

@[simp] theorem State.flushEvents_scale (s : State) (l : Nat) : (s.flushEvents l).scale = s.scale := by
  unfold State.flushEvents; rw [foldl_keeps (·.scale) _ (fun s e => by simp)]; simp

@[simp] theorem State.flushEvents_train (s : State) (l : Nat) : (s.flushEvents l).train = s.train := by
  unfold State.flushEvents; rw [foldl_keeps (·.train) _ (fun s e => by simp)]; simp

@[simp] theorem State.flushEvents_mem (s : State) (l : Nat) : (s.flushEvents l).mem = s.mem := by
  unfold State.flushEvents; rw [foldl_keeps (·.mem) _ (fun s e => by simp)]; simp

@[simp] theorem State.flushEvents_dies (s : State) (l : Nat) : (s.flushEvents l).dies = s.dies := by
  unfold State.flushEvents; rw [foldl_keeps (·.dies) _ (fun s e => by simp)]; simp

@[simp] theorem State.flushEvents_fab (s : State) (l : Nat) : (s.flushEvents l).fab = s.fab := by
  unfold State.flushEvents; rw [foldl_keeps (·.fab) _ (fun s e => by simp)]; simp

@[simp] theorem State.flushEvents_wdr (s : State) (l : Nat) : (s.flushEvents l).wdr = s.wdr := by
  unfold State.flushEvents; rw [foldl_keeps (·.wdr) _ (fun s e => by simp)]; simp

@[simp] theorem State.flushEvents_units (s : State) (l : Nat) : (s.flushEvents l).units = s.units := by
  unfold State.flushEvents; rw [foldl_keeps (·.units) _ (fun s e => by simp)]; simp

@[simp] theorem State.flushEvents_hdr (s : State) (l : Nat) : (s.flushEvents l).hdr = s.hdr := by
  unfold State.flushEvents; rw [foldl_keeps (·.hdr) _ (fun s e => by simp)]; simp

@[simp] theorem State.flushEvents_pwr (s : State) (l : Nat) : (s.flushEvents l).pwr = s.pwr := by
  unfold State.flushEvents; rw [foldl_keeps (·.pwr) _ (fun s e => by simp)]; simp

@[simp] theorem State.flushEvents_board (s : State) (l : Nat) : (s.flushEvents l).board = s.board := by
  unfold State.flushEvents; rw [foldl_keeps (·.board) _ (fun s e => by simp)]; simp

@[simp] theorem State.flushEvents_delivered (s : State) (l : Nat) : (s.flushEvents l).delivered = s.delivered := by
  unfold State.flushEvents; rw [foldl_keeps (·.delivered) _ (fun s e => by simp)]; simp

@[simp] theorem State.flushEvents_heldRefills (s : State) (l : Nat) : (s.flushEvents l).heldRefills = s.heldRefills := by
  unfold State.flushEvents; rw [foldl_keeps (·.heldRefills) _ (fun s e => by simp)]; simp

@[simp] theorem State.beginReset_pending (s : State) (l : Nat) (c : ResetCause) : (s.beginReset l c).pending = s.pending := by
  simp [State.beginReset]

@[simp] theorem State.beginReset_jobs (s : State) (l : Nat) (c : ResetCause) : (s.beginReset l c).jobs = s.jobs := by
  simp [State.beginReset]

@[simp] theorem State.beginReset_edge (s : State) (l : Nat) (c : ResetCause) : (s.beginReset l c).edge = s.edge := by
  simp [State.beginReset]

@[simp] theorem State.beginReset_pcie (s : State) (l : Nat) (c : ResetCause) : (s.beginReset l c).pcie = s.pcie := by
  simp [State.beginReset]

@[simp] theorem State.beginReset_out (s : State) (l : Nat) (c : ResetCause) : (s.beginReset l c).out = s.out := by
  simp [State.beginReset]

@[simp] theorem State.beginReset_scalar (s : State) (l : Nat) (c : ResetCause) : (s.beginReset l c).scalar = s.scalar := by
  simp [State.beginReset]

@[simp] theorem State.beginReset_scale (s : State) (l : Nat) (c : ResetCause) : (s.beginReset l c).scale = s.scale := by
  simp [State.beginReset]

@[simp] theorem State.beginReset_mem (s : State) (l : Nat) (c : ResetCause) : (s.beginReset l c).mem = s.mem := by
  simp [State.beginReset]

@[simp] theorem State.beginReset_dies (s : State) (l : Nat) (c : ResetCause) : (s.beginReset l c).dies = s.dies := by
  simp [State.beginReset]

@[simp] theorem State.beginReset_fab (s : State) (l : Nat) (c : ResetCause) : (s.beginReset l c).fab = s.fab := by
  simp [State.beginReset]

@[simp] theorem State.beginReset_wdr (s : State) (l : Nat) (c : ResetCause) : (s.beginReset l c).wdr = s.wdr := by
  simp [State.beginReset]

@[simp] theorem State.beginReset_units (s : State) (l : Nat) (c : ResetCause) : (s.beginReset l c).units = s.units := by
  simp [State.beginReset]

@[simp] theorem State.beginReset_hdr (s : State) (l : Nat) (c : ResetCause) : (s.beginReset l c).hdr = s.hdr := by
  simp [State.beginReset]

@[simp] theorem State.beginReset_fw (s : State) (l : Nat) (c : ResetCause) : (s.beginReset l c).fw = s.fw := by
  simp [State.beginReset]

@[simp] theorem State.beginReset_pwr (s : State) (l : Nat) (c : ResetCause) : (s.beginReset l c).pwr = s.pwr := by
  simp [State.beginReset]

@[simp] theorem State.beginReset_board (s : State) (l : Nat) (c : ResetCause) : (s.beginReset l c).board = s.board := by
  simp [State.beginReset]

@[simp] theorem State.beginReset_delivered (s : State) (l : Nat) (c : ResetCause) : (s.beginReset l c).delivered = s.delivered := by
  simp [State.beginReset]

@[simp] theorem State.beginReset_heldRefills (s : State) (l : Nat) (c : ResetCause) : (s.beginReset l c).heldRefills = s.heldRefills := by
  simp [State.beginReset]

@[simp] theorem State.applyReset_pending (s : State) (l : Nat) (c : ResetCause) : (s.applyReset l c).pending = s.pending := by
  unfold State.applyReset; split <;> (try split) <;> (try split) <;> simp

@[simp] theorem State.applyReset_jobs (s : State) (l : Nat) (c : ResetCause) : (s.applyReset l c).jobs = s.jobs := by
  unfold State.applyReset; split <;> (try split) <;> (try split) <;> simp

@[simp] theorem State.applyReset_edge (s : State) (l : Nat) (c : ResetCause) : (s.applyReset l c).edge = s.edge := by
  unfold State.applyReset; split <;> (try split) <;> (try split) <;> simp

@[simp] theorem State.applyReset_pcie (s : State) (l : Nat) (c : ResetCause) : (s.applyReset l c).pcie = s.pcie := by
  unfold State.applyReset; split <;> (try split) <;> (try split) <;> simp

@[simp] theorem State.applyReset_out (s : State) (l : Nat) (c : ResetCause) : (s.applyReset l c).out = s.out := by
  unfold State.applyReset; split <;> (try split) <;> (try split) <;> simp

@[simp] theorem State.applyReset_scalar (s : State) (l : Nat) (c : ResetCause) : (s.applyReset l c).scalar = s.scalar := by
  unfold State.applyReset; split <;> (try split) <;> (try split) <;> simp

@[simp] theorem State.applyReset_scale (s : State) (l : Nat) (c : ResetCause) : (s.applyReset l c).scale = s.scale := by
  unfold State.applyReset; split <;> (try split) <;> (try split) <;> simp

@[simp] theorem State.applyReset_mem (s : State) (l : Nat) (c : ResetCause) : (s.applyReset l c).mem = s.mem := by
  unfold State.applyReset; split <;> (try split) <;> (try split) <;> simp

@[simp] theorem State.applyReset_dies (s : State) (l : Nat) (c : ResetCause) : (s.applyReset l c).dies = s.dies := by
  unfold State.applyReset; split <;> (try split) <;> (try split) <;> simp

@[simp] theorem State.applyReset_fab (s : State) (l : Nat) (c : ResetCause) : (s.applyReset l c).fab = s.fab := by
  unfold State.applyReset; split <;> (try split) <;> (try split) <;> simp

@[simp] theorem State.applyReset_wdr (s : State) (l : Nat) (c : ResetCause) : (s.applyReset l c).wdr = s.wdr := by
  unfold State.applyReset; split <;> (try split) <;> (try split) <;> simp

@[simp] theorem State.applyReset_units (s : State) (l : Nat) (c : ResetCause) : (s.applyReset l c).units = s.units := by
  unfold State.applyReset; split <;> (try split) <;> (try split) <;> simp

@[simp] theorem State.applyReset_hdr (s : State) (l : Nat) (c : ResetCause) : (s.applyReset l c).hdr = s.hdr := by
  unfold State.applyReset; split <;> (try split) <;> (try split) <;> simp

@[simp] theorem State.applyReset_fw (s : State) (l : Nat) (c : ResetCause) : (s.applyReset l c).fw = s.fw := by
  unfold State.applyReset; split <;> (try split) <;> (try split) <;> simp

@[simp] theorem State.applyReset_pwr (s : State) (l : Nat) (c : ResetCause) : (s.applyReset l c).pwr = s.pwr := by
  unfold State.applyReset; split <;> (try split) <;> (try split) <;> simp

@[simp] theorem State.applyReset_board (s : State) (l : Nat) (c : ResetCause) : (s.applyReset l c).board = s.board := by
  unfold State.applyReset; split <;> (try split) <;> (try split) <;> simp

@[simp] theorem State.applyReset_delivered (s : State) (l : Nat) (c : ResetCause) : (s.applyReset l c).delivered = s.delivered := by
  unfold State.applyReset; split <;> (try split) <;> (try split) <;> simp

@[simp] theorem State.applyReset_heldRefills (s : State) (l : Nat) (c : ResetCause) : (s.applyReset l c).heldRefills = s.heldRefills := by
  unfold State.applyReset; split <;> (try split) <;> (try split) <;> simp

@[simp] theorem State.flushReset_pending (s : State) (l : Nat) : (s.flushReset l).pending = s.pending := by
  unfold State.flushReset; split <;> simp

@[simp] theorem State.flushReset_jobs (s : State) (l : Nat) : (s.flushReset l).jobs = s.jobs := by
  unfold State.flushReset; split <;> simp

@[simp] theorem State.flushReset_edge (s : State) (l : Nat) : (s.flushReset l).edge = s.edge := by
  unfold State.flushReset; split <;> simp

@[simp] theorem State.flushReset_pcie (s : State) (l : Nat) : (s.flushReset l).pcie = s.pcie := by
  unfold State.flushReset; split <;> simp

@[simp] theorem State.flushReset_out (s : State) (l : Nat) : (s.flushReset l).out = s.out := by
  unfold State.flushReset; split <;> simp

@[simp] theorem State.flushReset_scalar (s : State) (l : Nat) : (s.flushReset l).scalar = s.scalar := by
  unfold State.flushReset; split <;> simp

@[simp] theorem State.flushReset_scale (s : State) (l : Nat) : (s.flushReset l).scale = s.scale := by
  unfold State.flushReset; split <;> simp

@[simp] theorem State.flushReset_mem (s : State) (l : Nat) : (s.flushReset l).mem = s.mem := by
  unfold State.flushReset; split <;> simp

@[simp] theorem State.flushReset_dies (s : State) (l : Nat) : (s.flushReset l).dies = s.dies := by
  unfold State.flushReset; split <;> simp

@[simp] theorem State.flushReset_fab (s : State) (l : Nat) : (s.flushReset l).fab = s.fab := by
  unfold State.flushReset; split <;> simp

@[simp] theorem State.flushReset_wdr (s : State) (l : Nat) : (s.flushReset l).wdr = s.wdr := by
  unfold State.flushReset; split <;> simp

@[simp] theorem State.flushReset_units (s : State) (l : Nat) : (s.flushReset l).units = s.units := by
  unfold State.flushReset; split <;> simp

@[simp] theorem State.flushReset_hdr (s : State) (l : Nat) : (s.flushReset l).hdr = s.hdr := by
  unfold State.flushReset; split <;> simp

@[simp] theorem State.flushReset_fw (s : State) (l : Nat) : (s.flushReset l).fw = s.fw := by
  unfold State.flushReset; split <;> simp

@[simp] theorem State.flushReset_pwr (s : State) (l : Nat) : (s.flushReset l).pwr = s.pwr := by
  unfold State.flushReset; split <;> simp

@[simp] theorem State.flushReset_board (s : State) (l : Nat) : (s.flushReset l).board = s.board := by
  unfold State.flushReset; split <;> simp

@[simp] theorem State.flushReset_delivered (s : State) (l : Nat) : (s.flushReset l).delivered = s.delivered := by
  unfold State.flushReset; split <;> simp

@[simp] theorem State.flushReset_heldRefills (s : State) (l : Nat) : (s.flushReset l).heldRefills = s.heldRefills := by
  unfold State.flushReset; split <;> simp

@[simp] theorem State.respond_pending (s : State) (l : Nat) (st : Status) (rs : List Word) : (s.respond l st rs).pending = s.pending := by
  unfold State.respond; simp only [State.flushReset_pending, State.flushEvents_pending]; split <;> simp

@[simp] theorem State.respond_jobs (s : State) (l : Nat) (st : Status) (rs : List Word) : (s.respond l st rs).jobs = s.jobs := by
  unfold State.respond; simp only [State.flushReset_jobs, State.flushEvents_jobs]; split <;> simp

@[simp] theorem State.respond_edge (s : State) (l : Nat) (st : Status) (rs : List Word) : (s.respond l st rs).edge = s.edge := by
  unfold State.respond; simp only [State.flushReset_edge, State.flushEvents_edge]; split <;> simp

@[simp] theorem State.respond_pcie (s : State) (l : Nat) (st : Status) (rs : List Word) : (s.respond l st rs).pcie = s.pcie := by
  unfold State.respond; simp only [State.flushReset_pcie, State.flushEvents_pcie]; split <;> simp

@[simp] theorem State.respond_scalar (s : State) (l : Nat) (st : Status) (rs : List Word) : (s.respond l st rs).scalar = s.scalar := by
  unfold State.respond; simp only [State.flushReset_scalar, State.flushEvents_scalar]; split <;> simp

@[simp] theorem State.respond_scale (s : State) (l : Nat) (st : Status) (rs : List Word) : (s.respond l st rs).scale = s.scale := by
  unfold State.respond; simp only [State.flushReset_scale, State.flushEvents_scale]; split <;> simp

@[simp] theorem State.respond_mem (s : State) (l : Nat) (st : Status) (rs : List Word) : (s.respond l st rs).mem = s.mem := by
  unfold State.respond; simp only [State.flushReset_mem, State.flushEvents_mem]; split <;> simp

@[simp] theorem State.respond_dies (s : State) (l : Nat) (st : Status) (rs : List Word) : (s.respond l st rs).dies = s.dies := by
  unfold State.respond; simp only [State.flushReset_dies, State.flushEvents_dies]; split <;> simp

@[simp] theorem State.respond_fab (s : State) (l : Nat) (st : Status) (rs : List Word) : (s.respond l st rs).fab = s.fab := by
  unfold State.respond; simp only [State.flushReset_fab, State.flushEvents_fab]; split <;> simp

@[simp] theorem State.respond_wdr (s : State) (l : Nat) (st : Status) (rs : List Word) : (s.respond l st rs).wdr = s.wdr := by
  unfold State.respond; simp only [State.flushReset_wdr, State.flushEvents_wdr]; split <;> simp

@[simp] theorem State.respond_units (s : State) (l : Nat) (st : Status) (rs : List Word) : (s.respond l st rs).units = s.units := by
  unfold State.respond; simp only [State.flushReset_units, State.flushEvents_units]; split <;> simp

@[simp] theorem State.respond_hdr (s : State) (l : Nat) (st : Status) (rs : List Word) : (s.respond l st rs).hdr = s.hdr := by
  unfold State.respond; simp only [State.flushReset_hdr, State.flushEvents_hdr]; split <;> simp

@[simp] theorem State.respond_pwr (s : State) (l : Nat) (st : Status) (rs : List Word) : (s.respond l st rs).pwr = s.pwr := by
  unfold State.respond; simp only [State.flushReset_pwr, State.flushEvents_pwr]; split <;> simp

@[simp] theorem State.respond_board (s : State) (l : Nat) (st : Status) (rs : List Word) : (s.respond l st rs).board = s.board := by
  unfold State.respond; simp only [State.flushReset_board, State.flushEvents_board]; split <;> simp

@[simp] theorem State.respond_delivered (s : State) (l : Nat) (st : Status) (rs : List Word) : (s.respond l st rs).delivered = s.delivered := by
  unfold State.respond; simp only [State.flushReset_delivered, State.flushEvents_delivered]; split <;> simp

@[simp] theorem State.respond_heldRefills (s : State) (l : Nat) (st : Status) (rs : List Word) : (s.respond l st rs).heldRefills = s.heldRefills := by
  unfold State.respond; simp only [State.flushReset_heldRefills, State.flushEvents_heldRefills]; split <;> simp

end Sys2Proof.Machine
end

