-- ==== Sys2Proof/Laws/Mailbox.lean ====
section
/-!
SUPPORT. Laws/Mailbox.lean: what a command does that a free mailbox serves at once, said once for every command: its
request is read back as it was written, and its body's answer becomes the response.
-/

set_option Elab.async false

namespace Sys2Proof.Machine

/-! ## Looking up leas -/

theorem State.lea_modLea_self (s : State) (l : Nat) (f : Lea → Lea) (h : (s.leas.find l).isSome) :
    (s.modLea l f).lea l = f (s.lea l) := by
  obtain ⟨x, hx⟩ := Option.isSome_iff_exists.mp h
  simp [State.modLea, State.lea, hx, Map.getD]

theorem State.lea_modLea_ne (s : State) {l k : Nat} (f : Lea → Lea) (h : k ≠ l) : (s.modLea l f).lea k = s.lea k := by
  unfold State.modLea
  split
  · rfl
  · simp [State.lea, h]

theorem State.find_modLea (s : State) (l k : Nat) (f : Lea → Lea) :
    ((s.modLea l f).leas.find k).isSome = (s.leas.find k).isSome := by
  unfold State.modLea
  split
  · rfl
  · next x hx => by_cases h : k = l <;> simp [h, hx]

/-- Two changes of one lea, one after the other. -/
theorem State.modLea_modLea (s : State) (l : Nat) (f g : Lea → Lea) :
    (s.modLea l f).modLea l g = s.modLea l fun x => g (f x) := by
  unfold State.modLea
  cases h : s.leas.find l with
  | none => simp [h]
  | some x =>
    simp only [Map.find_insert_self]
    congr 1
    generalize s.leas = m
    induction m with
    | nil => simp [Map.insert]
    | cons e rest ih =>
      obtain ⟨j, w⟩ := e
      simp only [Map.insert]
      split
      · simp [Map.insert]
      · split
        · simp [Map.insert]
        · next h1 h2 => simp [Map.insert, h1, h2, ih]

/-- A lea that is not ABSENT is listed. -/
theorem State.listed_of_st (s : State) (l : Nat) (h : (s.lea l).st ≠ .absent) : (s.leas.find l).isSome := by
  cases hf : s.leas.find l with
  | none => simp [State.lea, Map.getD, hf] at h
  | some x => rfl

theorem State.Serves.listed {s : State} {l : Nat} (h : s.Serves l) : (s.leas.find l).isSome := by
  have := h.reach
  simp [State.reachable] at this
  exact s.listed_of_st l this.2

/-! ## The request as it is read back -/

theorem storeWords_getD (m : Map Word) (i : Nat) (l : List Word) (k : Nat) :
    (storeWords m i l).getD k 0 = if i ≤ k ∧ k < i + l.length then l.getD (k - i) 0 else m.getD k 0 := by
  induction l generalizing m i with
  | nil => simp [storeWords] <;> omega
  | cons w rest ih =>
    rw [storeWords, ih]
    by_cases h1 : k = i
    · subst h1
      rw [if_neg (by omega), if_pos (by simp)]
      simp
    · rw [Map.getD_insert_ne _ _ _ h1]
      by_cases h2 : i ≤ k ∧ k < i + (w :: rest).length
      · rw [if_pos (by simp only [List.length_cons] at h2; omega), if_pos h2]
        obtain ⟨n, hn⟩ : ∃ n, k - i = n + 1 := ⟨k - i - 1, by omega⟩
        rw [hn, show k - (i + 1) = n by omega, List.getD_cons_succ]
      · rw [if_neg (by simp only [List.length_cons] at h2; omega), if_neg h2]

/-- The latched words of a request that fits the window are the request's own words, then older ones. -/
theorem taken_latched (m : Mailbox) (code : Nat) (tag : Word) (args : List Word) (hl : args.length ≤ 62) :
    (m.taken code tag args).latched =
      requestWords code tag args ++ ((List.range 64).map (m.request.getD · 0)).drop (2 + args.length) := by
  have hlen : (requestWords code tag args).length = 2 + args.length := by simp [requestWords]; omega
  apply List.ext_getElem
  · simp [Mailbox.taken, hlen]; omega
  · intro k h1 h2
    have hk : k < 64 := by simpa [Mailbox.taken] using h1
    simp only [Mailbox.taken, List.getElem_map, List.getElem_range]
    rw [List.take_of_length_le (by rw [hlen]; omega), storeWords_getD]
    by_cases h : k < 2 + args.length
    · rw [if_pos (by rw [hlen]; omega), List.getElem_append_left (by rw [hlen]; exact h)]
      rw [Nat.sub_zero, List.getD_eq_getElem?_getD, List.getElem?_eq_getElem (by rw [hlen]; exact h), Option.getD_some]
    · rw [if_neg (by rw [hlen]; omega), List.getElem_append_right (by rw [hlen]; omega)]
      simp only [List.getElem_drop, List.getElem_map, List.getElem_range, hlen]
      congr 1
      omega

theorem fld_header (code n : Nat) (hc : code < 2 ^ 16) (hn : n < 2 ^ 8) :
    fld (packFields [(1, 24), (n, 16), (code, 0)]) 31 24 = 1 ∧
    fld (packFields [(1, 24), (n, 16), (code, 0)]) 23 16 = n ∧
    fld (packFields [(1, 24), (n, 16), (code, 0)]) 15 0 = code := by
  have hv : (packFields [(1, 24), (n, 16), (code, 0)]).toNat = 2 ^ 24 + n * 2 ^ 16 + code := by
    simp only [packFields, List.foldl, Nat.shiftLeft_eq, BitVec.toNat_ofNat]
    omega
  simp only [fld, natField, hv, Nat.shiftRight_eq_div_pow]
  refine ⟨?_, ?_, ?_⟩ <;> omega

theorem reqLength_request (code : Nat) (tag : Word) (args rest : List Word) (hc : code < 2 ^ 16)
    (hl : args.length ≤ 62) : reqLength (requestWords code tag args ++ rest) = 2 + args.length := by
  have := (fld_header code (min (2 + args.length) 255) hc (by omega)).2.1
  simp only [reqLength, requestWords, List.cons_append, wordAt, List.getD_cons_zero]
  rw [this]; omega

theorem reqCode_request (code : Nat) (tag : Word) (args rest : List Word) (hc : code < 2 ^ 16) :
    reqCode (requestWords code tag args ++ rest) = code := by
  have := (fld_header code (min (2 + args.length) 255) hc (by omega)).2.2
  simp only [reqCode, requestWords, List.cons_append, wordAt, List.getD_cons_zero]
  exact this

theorem reqArgs_request (code : Nat) (tag : Word) (args rest : List Word) (hc : code < 2 ^ 16)
    (hl : args.length ≤ 62) : reqArgs (requestWords code tag args ++ rest) = args := by
  rw [reqArgs, reqLength_request code tag args rest hc hl]
  simp [requestWords]

/-! ## One command served -/

/-- Checks 1 to 4 of Table 2.8 pass, and the command's own body answers. -/
theorem checkCommand_request (d : CmdDef) (s : State) (l : Nat) (tag : Word) (args rest : List Word)
    (hc : d.code < 2 ^ 16) (hl : args.length ≤ 62) (hw : d.words args ≤ args.length)
    (hi : d.issuer.allows l args = true) (hb : s.hub.dev = .boot → d.code ≤ 3) :
    checkCommand [d] s l (requestWords d.code tag args ++ rest) = d.body s l args := by
  have h0 : fld (wordAt (requestWords d.code tag args ++ rest) 0) 31 24 = 1 := by
    have := (fld_header d.code (min (2 + args.length) 255) hc (by omega)).1
    simp only [requestWords, List.cons_append, wordAt, List.getD_cons_zero]
    exact this
  have hlen := reqLength_request d.code tag args rest hc hl
  unfold checkCommand
  rw [if_neg (by simp [h0]), if_neg (by rw [hlen]; simp; omega)]
  simp only [reqCode_request d.code tag args rest hc, reqArgs_request d.code tag args rest hc hl, hlen,
    List.find?, beq_self_eq_true]
  rw [if_neg (by omega), if_neg (by simp [hi]), if_neg]
  rintro ⟨h1, h2⟩
  have := hb h1
  omega

theorem nextMailbox_of_serves {s t : State} {l : Nat} (h : s.Serves l) (hturn : t.hub.turn = s.hub.turn)
    (hc : t.cihalServes = true) (hl : t.mbxReady (t.lea l) = true)
    (hk : ∀ k, k ≠ l → t.mbxReady (t.lea k) = s.mbxReady (s.lea k)) : t.nextMailbox = some l := by
  have hlt := h.lea_lt
  unfold State.nextMailbox
  rw [if_pos hc, hturn]
  obtain ⟨u, hu⟩ : ∃ u, u = s.hub.turn % 64 := ⟨_, rfl⟩
  have hul : u < 64 := by omega
  rw [List.find?_map, Option.map_eq_some_iff]
  refine ⟨(l + 64 - u) % 64, ?_, ?_⟩
  · rw [List.find?_range_eq_some]
    refine ⟨?_, by simp [Nat.mod_lt], ?_⟩
    · simp only [Function.comp]
      rw [show (s.hub.turn + (l + 64 - u) % 64) % 64 = l by omega]
      exact hl
    · intro j hj
      simp only [Function.comp]
      have hne : (s.hub.turn + j) % 64 ≠ l := by omega
      rw [hk _ hne]
      have := h.turn ((s.hub.turn + j) % 64) (Nat.mod_lt _ (by omega)) hne (by omega)
      simp [this]
  · omega

/-- A command on a free mailbox whose turn it is: Cihal takes it, and its body's answer decides. -/
theorem issue_eq (d : CmdDef) (s : State) (l : Nat) (tag : Word) (args : List Word) (h : s.Serves l)
    (hc : d.code < 2 ^ 16) (hl : args.length ≤ 62) (hw : d.words args ≤ args.length)
    (hi : d.issuer.allows l args = true) (hb : s.hub.dev = .boot → d.code ≤ 3) :
    s.issue d l tag args =
      match d.body (s.taken l d.code tag args) l args with
      | .fail st => (s.taken l d.code tag args).respond l st
      | .done t st rs => t.respond l st rs
      | .defer t df => t.modLea l fun x => { x with mbx := { x.mbx with deferral := some df } } := by
  have hs := h.listed
  unfold State.issue
  rw [if_pos h.reach]
  simp only [State.modLea_modLea]
  obtain ⟨g, hg⟩ : ∃ g : Mailbox → Mailbox, g = fun m =>
      ({ m with request := storeWords m.request 0 ((requestWords d.code tag args).take 64) } : Mailbox).doorbell := ⟨_, rfl⟩
  obtain ⟨f, hf⟩ : ∃ f : Lea → Lea, f = fun x => { x with mbx := g x.mbx } := ⟨_, rfl⟩
  have hsame : (fun x : Lea => { x with mbx := ({ x.mbx with
      request := storeWords x.mbx.request 0 ((requestWords d.code tag args).take 64) } : Mailbox).doorbell }) = f := by
    rw [hf, hg]
  rw [hsame]
  have hself : (s.modLea l f).lea l = f (s.lea l) := s.lea_modLea_self l f hs
  have hready : (s.modLea l f).mbxReady ((s.modLea l f).lea l) = true := by
    have h1 := h.reach
    simp only [State.reachable, Bool.and_eq_true] at h1
    rw [hself]
    simp [State.mbxReady, hf, hg, Mailbox.doorbell, h.free, h.undeferred, h1.2]
  have hnext : (s.modLea l f).nextMailbox = some l := by
    refine nextMailbox_of_serves h (by simp) ?_ hready ?_
    · simpa [State.cihalServes, State.edgeOn] using h.cihal
    · intro k hk
      rw [s.lea_modLea_ne f hk]
      simp [State.mbxReady, State.edgeOn, State.edgeFenced]
  rw [if_pos (by simp [h.free, hnext])]
  have htaken : (let t := (s.modLea l f).modLea l fun x => { x with mbx := { x.mbx with ring := false, deferral := none } }
      { t with hub := { t.hub with turn := (l + 1) % 64 } } : State) = s.taken l d.code tag args := by
    simp only [State.modLea_modLea, State.taken]
    have : (s.modLea l fun x => { (f x) with mbx := { (f x).mbx with ring := false, deferral := none } }) =
        s.modLea l fun x => { x with mbx := x.mbx.taken d.code tag args } := by
      have hb := h.free
      unfold State.modLea
      cases hx : s.leas.find l with
      | none => rfl
      | some x =>
        have hfree : x.mbx.busy = false := by simpa [State.lea, Map.getD, hx] using hb
        simp [hf, hg, Mailbox.doorbell, Mailbox.taken, hfree]
    rw [this]
  have hreq : ((s.modLea l f).lea l).mbx.latched = requestWords d.code tag args ++
      ((List.range 64).map ((s.lea l).mbx.request.getD · 0)).drop (2 + args.length) := by
    rw [hself, ← taken_latched _ _ _ _ hl]
    simp [hf, hg, Mailbox.doorbell, Mailbox.taken, h.free]
  unfold State.serve
  simp only [hreq]
  simp only at htaken
  rw [htaken, checkCommand_request d _ l tag args _ hc hl hw hi (by simpa [State.taken] using hb)] <;> rfl

/-- A command whose body completes it: its status and results are the response. -/
theorem issue_done (d : CmdDef) (s : State) (l : Nat) (tag : Word) (args : List Word) {u : State} {st : Status}
    {rs : List Word} (h : s.Serves l) (hc : d.code < 2 ^ 16) (hl : args.length ≤ 62) (hw : d.words args ≤ args.length)
    (hi : d.issuer.allows l args = true) (hb : s.hub.dev = .boot → d.code ≤ 3)
    (hd : d.body (s.taken l d.code tag args) l args = .done u st rs) :
    s.issue d l tag args = u.respond l st rs := by
  rw [issue_eq d s l tag args h hc hl hw hi hb, hd]

end Sys2Proof.Machine
end

