-- ==== Sys2Proof/Laws/OpLaws.lean ====
section
/-!
SUPPORT. Laws/OpLaws.lean: what the shared operations on a job, on an op and on an op's accesses do: the one they name
changes as they say, and every other one is as it was.
-/

namespace Sys2Proof.Machine

/-- A bound job changed is the job with the change. -/
theorem State.find_modJob {s : State} {jh : Nat} {j : Job} (h : s.jobs.find jh = some j) (f : Job → Job) :
    (s.modJob jh f).jobs.find jh = some (f j) := by
  simp [State.modJob, h]

/-- Every other job is as it was. -/
theorem State.find_modJob_ne (s : State) {jh k : Nat} (hk : k ≠ jh) (f : Job → Job) :
    (s.modJob jh f).jobs.find k = s.jobs.find k := by
  unfold State.modJob
  split
  · rfl
  · simp [hk]

/-- Two changes of a job are one. -/
theorem State.modJob_modJob (s : State) (jh : Nat) (f g : Job → Job) :
    (s.modJob jh f).modJob jh g = s.modJob jh fun j => g (f j) := by
  unfold State.modJob
  cases h : s.jobs.find jh <;> simp [h]

/-- An op in flight changed is the op with the change. -/
theorem State.op_modOp {s : State} {n : Nat} {o : Op} (h : s.op n = some o) (f : Op → Op) : (s.modOp n f).op n = some (f o) := by
  have h' : s.hub.ops.find n = some o := h
  simp [State.op, State.modOp, h']

/-- Every other op is as it was. -/
theorem State.op_modOp_ne (s : State) {n k : Nat} (hk : k ≠ n) (f : Op → Op) : (s.modOp n f).op k = s.op k := by
  unfold State.op State.modOp
  split
  · rfl
  · simp [hk]

/-- An op that runs or waits ends with its status and DETAIL. -/
theorem State.op_endOp {s : State} {n : Nat} {o : Op} (h : s.op n = some o) (hl : o.live) (st : Status) (detail : Nat) :
    (s.endOp n st detail).op n = some { o with phase := .done st detail } := by
  rw [State.endOp, State.op_modOp h, if_pos hl]

/-- An op that has ended does not end again. -/
theorem State.op_endOp_ended {s : State} {n : Nat} {o : Op} (h : s.op n = some o) (hl : o.live = false) (st : Status)
    (detail : Nat) : (s.endOp n st detail).op n = some o := by
  rw [State.endOp, State.op_modOp h, if_neg (by simp [hl])]

/-- An access finds memory as it should be, waits, or fails; the op goes on, waits, or meets the failure. -/
theorem State.withAccess_cases (s : State) (n : Nat) (l : List Span) (k : State → State) :
    (s.spansAccess l = .good ∧ s.withAccess n l k = k s) ∨ (s.spansAccess l = .stall ∧ s.withAccess n l k = s) ∨
    ∃ sec st, s.spansAccess l = .bad sec st ∧ s.withAccess n l k = s.failAccess n sec st := by
  unfold State.withAccess
  cases h : s.spansAccess l with
  | stall => simp
  | bad sec st => exact .inr (.inr ⟨sec, st, rfl, rfl⟩)
  | good => simp

end Sys2Proof.Machine
end

