-- ==== Sys2Proof/Laws/Receive.lean ====
section
/-!
SUPPORT. Laws/Receive.lean: a packet that passes checks 1 to 7 of Table 10.7 goes to what its TYPE does.
-/

namespace Sys2Proof.Machine

/-- A frame that passes goes on with its header, its job and its decrypted content. -/
theorem receive_passes {s : State} {f : RxFrame} {ty jh : Nat} {j : Job} {k : KeySlot} (h : s.HykPasses f ty jh j k)
    (types : List Nat) (ht : types.contains ty = true) (go : State → Packet → State) :
    s.receive f types go = go s { jh := jh, j := j, h := parseHeader f.payload, plain := hykContent f k, ce := false } := by
  have := h.type
  subst this
  simp only [State.receive, h.linked, h.takes, h.whole, ht, h.job, h.peer, h.key, h.tag, h.noCe, hykContent]
  simp

end Sys2Proof.Machine
end

