-- ==== Sys2Proof/Laws/Settles.lean ====
section
/-!
SUPPORT. Laws/Settles.lean: every meaning that answers a next state answers a settled one: what follows a command of itself
(the device state, the PEAK fields and the shares) follows every command.
-/

set_option Elab.async false

namespace Sys2Proof.Machine

/-- An outcome whose next state, if it has one, is some state settled. -/
def Settles (o : Host.Outcome State Fault Refusal) : Prop := ∀ t, o = .next t → ∃ u : State, t = u.settle

theorem finish_settles (s : State) : Settles (finish s) := by
  intro t h
  exact ⟨s, (Host.Outcome.next.inj h).symm⟩

theorem ite_settles {c : Prop} [Decidable c] {a b : Host.Outcome State Fault Refusal} (ha : Settles a) (hb : Settles b) :
    Settles (if c then a else b) := by
  split
  · exact ha
  · exact hb

theorem execColdStart_settles : ∀ c s, Settles (execColdStart c s) := by intros; exact finish_settles _
theorem execPerst_settles : ∀ s, Settles (execPerst s) := by intros; exact finish_settles _
theorem execPcieLinkDown_settles : ∀ s, Settles (execPcieLinkDown s) := by intros; exact finish_settles _
theorem execPcieLinkUp_settles : ∀ width gen s, Settles (execPcieLinkUp width gen s) := by
  intros; unfold execPcieLinkUp; repeat' (first | exact finish_settles _ | split)
theorem execMisalignedRegAccess_settles : ∀ lea offset write s, Settles (execMisalignedRegAccess lea offset write s) := by
  intros; unfold execMisalignedRegAccess; repeat' (first | exact finish_settles _ | split)
theorem execRegisterWrite_settles : ∀ lea offset value s, Settles (execRegisterWrite lea offset value s) := by intros; exact finish_settles _
theorem execRcRead_settles : ∀ lea offset s, Settles (execRcRead lea offset s) := by intros; exact finish_settles _
theorem execLowWordRead_settles : ∀ lea offset s, Settles (execLowWordRead lea offset s) := by intros; exact finish_settles _
theorem execMbxDoorbell_settles : ∀ lea s, Settles (execMbxDoorbell lea s) := by
  intros; unfold execMbxDoorbell; repeat' (first | exact finish_settles _ | split)
theorem execMailboxServe_settles : ∀ s, Settles (execMailboxServe s) := by
  intros; unfold execMailboxServe; repeat' (first | exact finish_settles _ | split)
theorem execQueueDoorbell_settles : ∀ lea q tail s, Settles (execQueueDoorbell lea q tail s) := by
  intros; unfold execQueueDoorbell; repeat' (first | exact finish_settles _ | split)
theorem execCringHeadDoorbell_settles : ∀ lea r head s, Settles (execCringHeadDoorbell lea r head s) := by
  intros; unfold execCringHeadDoorbell; repeat' (first | exact finish_settles _ | split)
theorem execClusterPrivWrite_settles : ∀ die high value s, Settles (execClusterPrivWrite die high value s) := by
  intros; unfold execClusterPrivWrite; repeat' (first | exact finish_settles _ | split)
theorem execMgtRingWrite_settles : ∀ value s, Settles (execMgtRingWrite value s) := by
  intros; unfold execMgtRingWrite; repeat' (first | exact finish_settles _ | split)
theorem execNumvfsWrite_settles : ∀ n s, Settles (execNumvfsWrite n s) := by intros; exact finish_settles _
theorem execAbsentVfAccess_settles : ∀ lea offset write s, Settles (execAbsentVfAccess lea offset write s) := by intros; exact finish_settles _
theorem execVfEnableSet_settles : ∀ s, Settles (execVfEnableSet s) := by
  intros; unfold execVfEnableSet; repeat' (first | exact finish_settles _ | split)
theorem execVfEnableClear_settles : ∀ s, Settles (execVfEnableClear s) := by
  intros; unfold execVfEnableClear; repeat' (first | exact finish_settles _ | split)
theorem execFlrLea_settles : ∀ lea s, Settles (execFlrLea lea s) := by
  intros; unfold execFlrLea; repeat' (first | exact finish_settles _ | split)
theorem execFlrPf_settles : ∀ s, Settles (execFlrPf s) := by intros; exact finish_settles _
theorem execLeaResetOpsStopped_settles : ∀ lea s, Settles (execLeaResetOpsStopped lea s) := by
  intros; unfold execLeaResetOpsStopped; repeat' (first | exact finish_settles _ | split)
theorem execPing_settles : ∀ lea tag args s, Settles (execPing lea tag args s) := by intros; exact finish_settles _
theorem execGetInfo_settles : ∀ lea tag args s, Settles (execGetInfo lea tag args s) := by intros; exact finish_settles _
theorem execGetStatus_settles : ∀ lea tag args s, Settles (execGetStatus lea tag args s) := by intros; exact finish_settles _
theorem execLeaEnable_settles : ∀ lea tag args s, Settles (execLeaEnable lea tag args s) := by intros; exact finish_settles _
theorem execLeaDisable_settles : ∀ lea tag args s, Settles (execLeaDisable lea tag args s) := by intros; exact finish_settles _
theorem execLeaReset_settles : ∀ lea tag args s, Settles (execLeaReset lea tag args s) := by intros; exact finish_settles _
theorem execCringCreate_settles : ∀ lea tag args s, Settles (execCringCreate lea tag args s) := by intros; exact finish_settles _
theorem execCringDestroy_settles : ∀ lea tag args s, Settles (execCringDestroy lea tag args s) := by intros; exact finish_settles _
theorem execQueueCreate_settles : ∀ lea tag args s, Settles (execQueueCreate lea tag args s) := by intros; exact finish_settles _
theorem execQueueStop_settles : ∀ lea tag args s, Settles (execQueueStop lea tag args s) := by intros; exact finish_settles _
theorem execQueueStart_settles : ∀ lea tag args s, Settles (execQueueStart lea tag args s) := by intros; exact finish_settles _
theorem execQueueDestroy_settles : ∀ lea tag args s, Settles (execQueueDestroy lea tag args s) := by intros; exact finish_settles _
theorem execCounterSet_settles : ∀ lea tag args s, Settles (execCounterSet lea tag args s) := by intros; exact finish_settles _
theorem execEdgeRetry_settles : ∀ lea tag args s, Settles (execEdgeRetry lea tag args s) := by intros; exact finish_settles _
theorem execDeviceHalt_settles : ∀ lea tag args s, Settles (execDeviceHalt lea tag args s) := by intros; exact finish_settles _
theorem execSlotFetch_settles : ∀ lea q slot s, Settles (execSlotFetch lea q slot s) := by
  intros; unfold execSlotFetch; repeat' (first | exact finish_settles _ | split | dsimp only)
theorem execOpStart_settles : ∀ n s, Settles (execOpStart n s) := by
  intros; unfold execOpStart; repeat' (first | exact finish_settles _ | split)
theorem execOpCompletion_settles : ∀ n s, Settles (execOpCompletion n s) := by
  intros; unfold execOpCompletion; repeat' (first | exact finish_settles _ | split)
theorem execCompletionRingRoom_settles : ∀ n s, Settles (execCompletionRingRoom n s) := by
  intros; unfold execCompletionRingRoom; repeat' (first | exact finish_settles _ | split)
theorem execScaleFold_settles : ∀ job inst s, Settles (execScaleFold job inst s) := by
  intros; unfold execScaleFold; repeat' (first | exact finish_settles _ | split | dsimp only)
theorem execNextMatrixOpPick_settles : ∀ s, Settles (execNextMatrixOpPick s) := by
  intros; unfold execNextMatrixOpPick; repeat' (first | exact finish_settles _ | split)
theorem execMatrixOp_settles : ∀ s, Settles (execMatrixOp s) := by
  intros; unfold execMatrixOp; repeat' (first | exact finish_settles _ | split)
theorem execArrayPassStart_settles : ∀ s, Settles (execArrayPassStart s) := by intros; exact finish_settles _
theorem execArrayPassEnd_settles : ∀ s, Settles (execArrayPassEnd s) := by intros; exact finish_settles _
theorem execElementwiseOp_settles : ∀ cl s, Settles (execElementwiseOp cl s) := by
  intros; unfold execElementwiseOp; repeat' (first | exact finish_settles _ | split)
theorem execRowDispatch_settles : ∀ cl s, Settles (execRowDispatch cl s) := by
  intros; unfold execRowDispatch; repeat' (first | exact finish_settles _ | split | dsimp only)
theorem execRowEnd_settles : ∀ cl s, Settles (execRowEnd cl s) := by
  intros; unfold execRowEnd; repeat' (first | exact finish_settles _ | split)
theorem execSoftmaxFwd_settles : ∀ cl s, Settles (execSoftmaxFwd cl s) := by intros; exact finish_settles _
theorem execSoftmaxBwd_settles : ∀ cl s, Settles (execSoftmaxBwd cl s) := by intros; exact finish_settles _
theorem execActFwd_settles : ∀ cl s, Settles (execActFwd cl s) := by intros; exact finish_settles _
theorem execActBwd_settles : ∀ cl s, Settles (execActBwd cl s) := by intros; exact finish_settles _
theorem execStashWrite_settles : ∀ cl s, Settles (execStashWrite cl s) := by intros; exact finish_settles _
theorem execConvert_settles : ∀ cl s, Settles (execConvert cl s) := by intros; exact finish_settles _
theorem execNop_settles : ∀ cl f s, Settles (execNop cl f s) := by intros; exact finish_settles _
theorem execHalt_settles : ∀ cl f s, Settles (execHalt cl f s) := by intros; exact finish_settles _
theorem execSetvl_settles : ∀ cl f s, Settles (execSetvl cl f s) := by intros; exact finish_settles _
theorem execSetvlP_settles : ∀ cl f s, Settles (execSetvlP cl f s) := by intros; exact finish_settles _
theorem execBnz_settles : ∀ cl f s, Settles (execBnz cl f s) := by intros; exact finish_settles _
theorem execJmp_settles : ∀ cl f s, Settles (execJmp cl f s) := by intros; exact finish_settles _
theorem execSublen_settles : ∀ cl f s, Settles (execSublen cl f s) := by intros; exact finish_settles _
theorem execAddlen_settles : ∀ cl f s, Settles (execAddlen cl f s) := by intros; exact finish_settles _
theorem execMov_settles : ∀ cl f s, Settles (execMov cl f s) := by intros; exact finish_settles _
theorem execMovi_settles : ∀ cl f s, Settles (execMovi cl f s) := by intros; exact finish_settles _
theorem execUadd_settles : ∀ cl f s, Settles (execUadd cl f s) := by intros; exact finish_settles _
theorem execUsub_settles : ∀ cl f s, Settles (execUsub cl f s) := by intros; exact finish_settles _
theorem execAddmx_settles : ∀ cl f s, Settles (execAddmx cl f s) := by intros; exact finish_settles _
theorem execFadd_settles : ∀ cl f s, Settles (execFadd cl f s) := by intros; exact finish_settles _
theorem execFsub_settles : ∀ cl f s, Settles (execFsub cl f s) := by intros; exact finish_settles _
theorem execFmul_settles : ∀ cl f s, Settles (execFmul cl f s) := by intros; exact finish_settles _
theorem execFma_settles : ∀ cl f s, Settles (execFma cl f s) := by intros; exact finish_settles _
theorem execFmin_settles : ∀ cl f s, Settles (execFmin cl f s) := by intros; exact finish_settles _
theorem execFmax_settles : ∀ cl f s, Settles (execFmax cl f s) := by intros; exact finish_settles _
theorem execFabs_settles : ∀ cl f s, Settles (execFabs cl f s) := by intros; exact finish_settles _
theorem execFneg_settles : ∀ cl f s, Settles (execFneg cl f s) := by intros; exact finish_settles _
theorem execFcmp_settles : ∀ cl f s, Settles (execFcmp cl f s) := by intros; exact finish_settles _
theorem execFsel_settles : ∀ cl f s, Settles (execFsel cl f s) := by intros; exact finish_settles _
theorem execPadd_settles : ∀ cl f s, Settles (execPadd cl f s) := by intros; exact finish_settles _
theorem execPmul_settles : ∀ cl f s, Settles (execPmul cl f s) := by intros; exact finish_settles _
theorem execPfma_settles : ∀ cl f s, Settles (execPfma cl f s) := by intros; exact finish_settles _
theorem execExp2_settles : ∀ cl f s, Settles (execExp2 cl f s) := by intros; exact finish_settles _
theorem execLog2_settles : ∀ cl f s, Settles (execLog2 cl f s) := by intros; exact finish_settles _
theorem execRcp_settles : ∀ cl f s, Settles (execRcp cl f s) := by intros; exact finish_settles _
theorem execRsqrt_settles : ∀ cl f s, Settles (execRsqrt cl f s) := by intros; exact finish_settles _
theorem execTanh_settles : ∀ cl f s, Settles (execTanh cl f s) := by intros; exact finish_settles _
theorem execErf_settles : ∀ cl f s, Settles (execErf cl f s) := by intros; exact finish_settles _
theorem execSigm_settles : ∀ cl f s, Settles (execSigm cl f s) := by intros; exact finish_settles _
theorem execFdiv_settles : ∀ cl f s, Settles (execFdiv cl f s) := by intros; exact finish_settles _
theorem execIadd_settles : ∀ cl f s, Settles (execIadd cl f s) := by intros; exact finish_settles _
theorem execIsub_settles : ∀ cl f s, Settles (execIsub cl f s) := by intros; exact finish_settles _
theorem execImul_settles : ∀ cl f s, Settles (execImul cl f s) := by intros; exact finish_settles _
theorem execAnd_settles : ∀ cl f s, Settles (execAnd cl f s) := by intros; exact finish_settles _
theorem execOr_settles : ∀ cl f s, Settles (execOr cl f s) := by intros; exact finish_settles _
theorem execXor_settles : ∀ cl f s, Settles (execXor cl f s) := by intros; exact finish_settles _
theorem execShl_settles : ∀ cl f s, Settles (execShl cl f s) := by intros; exact finish_settles _
theorem execShr_settles : ∀ cl f s, Settles (execShr cl f s) := by intros; exact finish_settles _
theorem execIcmp_settles : ∀ cl f s, Settles (execIcmp cl f s) := by intros; exact finish_settles _
theorem execRedsum_settles : ∀ cl f s, Settles (execRedsum cl f s) := by intros; exact finish_settles _
theorem execRedmax_settles : ∀ cl f s, Settles (execRedmax cl f s) := by intros; exact finish_settles _
theorem execRedmin_settles : ∀ cl f s, Settles (execRedmin cl f s) := by intros; exact finish_settles _
theorem execBcast_settles : ∀ cl f s, Settles (execBcast cl f s) := by intros; exact finish_settles _
theorem execPerm_settles : ∀ cl f s, Settles (execPerm cl f s) := by intros; exact finish_settles _
theorem execLdF_settles : ∀ cl f s, Settles (execLdF cl f s) := by intros; exact finish_settles _
theorem execStF_settles : ∀ cl f s, Settles (execStF cl f s) := by intros; exact finish_settles _
theorem execLdmx_settles : ∀ cl f s, Settles (execLdmx cl f s) := by intros; exact finish_settles _
theorem execStmx_settles : ∀ cl f s, Settles (execStmx cl f s) := by intros; exact finish_settles _
theorem execStmxS_settles : ∀ cl f s, Settles (execStmxS cl f s) := by intros; exact finish_settles _
theorem execLdm_settles : ∀ cl f s, Settles (execLdm cl f s) := by intros; exact finish_settles _
theorem execLds_settles : ∀ cl f s, Settles (execLds cl f s) := by intros; exact finish_settles _
theorem execSts_settles : ∀ cl f s, Settles (execSts cl f s) := by intros; exact finish_settles _
theorem execAmo_settles : ∀ cl f s, Settles (execAmo cl f s) := by intros; exact finish_settles _
theorem execCvt_settles : ∀ cl f s, Settles (execCvt cl f s) := by intros; exact finish_settles _
theorem execSgd_settles : ∀ n s, Settles (execSgd n s) := by intros; exact finish_settles _
theorem execAdamw_settles : ∀ n s, Settles (execAdamw n s) := by intros; exact finish_settles _
theorem execLion_settles : ∀ n s, Settles (execLion n s) := by intros; exact finish_settles _
theorem execAccumulate_settles : ∀ n s, Settles (execAccumulate n s) := by intros; exact finish_settles _
theorem execPhase_settles : ∀ n s, Settles (execPhase n s) := by
  intros; unfold execPhase; repeat' (first | exact finish_settles _ | split)
theorem execPhaseComplete_settles : ∀ n s, Settles (execPhaseComplete n s) := by
  intros; unfold execPhaseComplete; repeat' (first | exact finish_settles _ | split)
theorem execMark_settles : ∀ n s, Settles (execMark n s) := by
  intros; unfold execMark; repeat' (first | exact finish_settles _ | split)
theorem execNormRead_settles : ∀ n s, Settles (execNormRead n s) := by
  intros; unfold execNormRead; repeat' (first | exact finish_settles _ | split)
theorem execClip_settles : ∀ n s, Settles (execClip n s) := by
  intros; unfold execClip; repeat' (first | exact finish_settles _ | split | dsimp only)
theorem execShardStamp_settles : ∀ n s, Settles (execShardStamp n s) := by
  intros; unfold execShardStamp; repeat' (first | exact finish_settles _ | split)
theorem execShardCheck_settles : ∀ n s, Settles (execShardCheck n s) := by
  intros; unfold execShardCheck; repeat' (first | exact finish_settles _ | split)
theorem execPrefetch_settles : ∀ n s, Settles (execPrefetch n s) := by
  intros; unfold execPrefetch; repeat' (first | exact finish_settles _ | split)
theorem execCopyLocal_settles : ∀ n s, Settles (execCopyLocal n s) := by
  intros; unfold execCopyLocal; repeat' (first | exact finish_settles _ | split)
theorem execCopyPeer_settles : ∀ n s, Settles (execCopyPeer n s) := by
  intros; unfold execCopyPeer; repeat' (first | exact finish_settles _ | split)
theorem execCopyPost_settles : ∀ n s, Settles (execCopyPost n s) := by
  intros; unfold execCopyPost; repeat' (first | exact finish_settles _ | split)
theorem execWindrowOp_settles : ∀ n s, Settles (execWindrowOp n s) := by
  intros; unfold execWindrowOp; repeat' (first | exact finish_settles _ | split)
theorem execWindrowSend_settles : ∀ n s, Settles (execWindrowSend n s) := by
  intros; unfold execWindrowSend; repeat' (first | exact finish_settles _ | split)
theorem execContrib_settles : ∀ s, Settles (execContrib s) := by
  intros; unfold execContrib; repeat' (first | exact finish_settles _ | split)
theorem execResult_settles : ∀ s, Settles (execResult s) := by
  intros; unfold execResult; repeat' (first | exact finish_settles _ | split | dsimp only)
theorem execEscalateReq_settles : ∀ s, Settles (execEscalateReq s) := by
  intros; unfold execEscalateReq; repeat' (first | exact finish_settles _ | split | dsimp only)
theorem execChunkDeadline_settles : ∀ group key s, Settles (execChunkDeadline group key s) := by
  intros; unfold execChunkDeadline; repeat' (first | exact finish_settles _ | split)
theorem execResultLimitExpiry_settles : ∀ n s, Settles (execResultLimitExpiry n s) := by
  intros; unfold execResultLimitExpiry; repeat' (first | exact finish_settles _ | split)
theorem execDispatch_settles : ∀ n s, Settles (execDispatch n s) := by
  intros; unfold execDispatch; repeat' (first | exact finish_settles _ | split)
theorem execReturnRows_settles : ∀ n s, Settles (execReturnRows n s) := by
  intros; unfold execReturnRows; repeat' (first | exact finish_settles _ | split)
theorem execCombine_settles : ∀ n s, Settles (execCombine n s) := by
  intros; unfold execCombine; repeat' (first | exact finish_settles _ | split)
theorem execTokens_settles : ∀ s, Settles (execTokens s) := by
  intros; unfold execTokens; repeat' (first | exact finish_settles _ | split)
theorem execReturnRecords_settles : ∀ s, Settles (execReturnRecords s) := by
  intros; unfold execReturnRecords; repeat' (first | exact finish_settles _ | split)
theorem execSnapshot_settles : ∀ n s, Settles (execSnapshot n s) := by
  intros; unfold execSnapshot; repeat' (first | exact finish_settles _ | split)
theorem execSnapshotCapture_settles : ∀ n s, Settles (execSnapshotCapture n s) := by
  intros; unfold execSnapshotCapture; repeat' (first | exact finish_settles _ | split)
theorem execWeightsSweep_settles : ∀ job s, Settles (execWeightsSweep job s) := by
  intros; unfold execWeightsSweep; repeat' (first | exact finish_settles _ | split | dsimp only)
theorem execLossRecord_settles : ∀ n s, Settles (execLossRecord n s) := by
  intros; unfold execLossRecord; repeat' (first | exact finish_settles _ | split)
theorem execSealImage_settles : ∀ job s, Settles (execSealImage job s) := by
  intros; unfold execSealImage; repeat' (first | exact finish_settles _ | split)
theorem execRestore_settles : ∀ n s, Settles (execRestore n s) := by
  intros; unfold execRestore; repeat' (first | exact finish_settles _ | split | dsimp only)
theorem execLossCheck_settles : ∀ n s, Settles (execLossCheck n s) := by
  intros; unfold execLossCheck; repeat' (first | exact finish_settles _ | split)
theorem execHistorySync_settles : ∀ n s, Settles (execHistorySync n s) := by
  intros; unfold execHistorySync; repeat' (first | exact finish_settles _ | split)
theorem execDigest_settles : ∀ n s, Settles (execDigest n s) := by
  intros; unfold execDigest; repeat' (first | exact finish_settles _ | split | dsimp only)
theorem execFill_settles : ∀ n s, Settles (execFill n s) := by
  intros; unfold execFill; repeat' (first | exact finish_settles _ | split)
theorem execDigestLimitExpiry_settles : ∀ n s, Settles (execDigestLimitExpiry n s) := by
  intros; unfold execDigestLimitExpiry; repeat' (first | exact finish_settles _ | split)
theorem execGetData_settles : ∀ s, Settles (execGetData s) := by
  intros; unfold execGetData; repeat' (first | exact finish_settles _ | split | dsimp only)
theorem execSealed_settles : ∀ s, Settles (execSealed s) := by
  intros; unfold execSealed; repeat' (first | exact finish_settles _ | split | dsimp only)
theorem execRefused_settles : ∀ s, Settles (execRefused s) := by
  intros; unfold execRefused; repeat' (first | exact finish_settles _ | split | dsimp only)
theorem execDigestMsg_settles : ∀ s, Settles (execDigestMsg s) := by
  intros; unfold execDigestMsg; repeat' (first | exact finish_settles _ | split | dsimp only)
theorem execHistory_settles : ∀ s, Settles (execHistory s) := by
  intros; unfold execHistory; repeat' (first | exact finish_settles _ | split)
theorem execFillDone_settles : ∀ s, Settles (execFillDone s) := by
  intros; unfold execFillDone; repeat' (first | exact finish_settles _ | split)
theorem execFillAbort_settles : ∀ s, Settles (execFillAbort s) := by
  intros; unfold execFillAbort; repeat' (first | exact finish_settles _ | split)
theorem execMemUnitConfig_settles : ∀ lea tag args s, Settles (execMemUnitConfig lea tag args s) := by intros; exact finish_settles _
theorem execMemRefillSet_settles : ∀ lea tag args s, Settles (execMemRefillSet lea tag args s) := by intros; exact finish_settles _
theorem execMemRefillClear_settles : ∀ lea tag args s, Settles (execMemRefillClear lea tag args s) := by intros; exact finish_settles _
theorem execMemPin_settles : ∀ lea tag args s, Settles (execMemPin lea tag args s) := by intros; exact finish_settles _
theorem execMemUnpin_settles : ∀ lea tag args s, Settles (execMemUnpin lea tag args s) := by intros; exact finish_settles _
theorem execMemScrubSet_settles : ∀ lea tag args s, Settles (execMemScrubSet lea tag args s) := by intros; exact finish_settles _
theorem execMemPoisonList_settles : ∀ lea tag args s, Settles (execMemPoisonList lea tag args s) := by intros; exact finish_settles _
theorem execMemTgStart_settles : ∀ lea tag args s, Settles (execMemTgStart lea tag args s) := by intros; exact finish_settles _
theorem execMemTgStop_settles : ∀ lea tag args s, Settles (execMemTgStop lea tag args s) := by intros; exact finish_settles _
theorem execTgRunEnd_settles : ∀ ch mismatches pins s, Settles (execTgRunEnd ch mismatches pins s) := by
  intros; unfold execTgRunEnd; repeat' (first | exact finish_settles _ | split)
theorem execHbmUncorrectableRead_settles : ∀ sector s, Settles (execHbmUncorrectableRead sector s) := by
  intros; unfold execHbmUncorrectableRead; repeat' (first | exact finish_settles _ | split)
theorem execRefillTableFree_settles : ∀ s, Settles (execRefillTableFree s) := by
  intros; unfold execRefillTableFree; repeat' (first | exact finish_settles _ | split)
theorem execRefillReqResend_settles : ∀ sector s, Settles (execRefillReqResend sector s) := by
  intros; unfold execRefillReqResend; repeat' (first | exact finish_settles _ | split)
theorem execRefillDeadline_settles : ∀ sector s, Settles (execRefillDeadline sector s) := by
  intros; unfold execRefillDeadline; repeat' (first | exact finish_settles _ | split | dsimp only)
theorem execDetectedReadError_settles : ∀ n sector s, Settles (execDetectedReadError n sector s) := by intros; exact finish_settles _
theorem execRecomputeFinish_settles : ∀ job s, Settles (execRecomputeFinish job s) := by
  intros; unfold execRecomputeFinish; repeat' (first | exact finish_settles _ | split)
theorem execCorrectedReadError_settles : ∀ sector s, Settles (execCorrectedReadError sector s) := by
  intros; unfold execCorrectedReadError; repeat' (first | exact finish_settles _ | split)
theorem execChannelRepair_settles : ∀ ch pin s, Settles (execChannelRepair ch pin s) := by
  intros; unfold execChannelRepair; repeat' (first | exact finish_settles _ | split)
theorem execPatrolScrub_settles : ∀ corrected uncorrectable s, Settles (execPatrolScrub corrected uncorrectable s) := by
  intros; unfold execPatrolScrub; repeat' (first | exact finish_settles _ | split)
theorem execCacheError_settles : ∀ sector correctable s, Settles (execCacheError sector correctable s) := by
  intros; unfold execCacheError; repeat' (first | exact finish_settles _ | split | dsimp only)
theorem execEdpinFault_settles : ∀ stack s, Settles (execEdpinFault stack s) := by intros; exact finish_settles _
theorem execEdgeClockLoss_settles : ∀ dom s, Settles (execEdgeClockLoss dom s) := by
  intros; unfold execEdgeClockLoss; repeat' (first | exact finish_settles _ | split | dsimp only)
theorem execEdgePllRelock_settles : ∀ dom s, Settles (execEdgePllRelock dom s) := by
  intros; unfold execEdgePllRelock; repeat' (first | exact finish_settles _ | split)
theorem execEdgeRelockTimeout_settles : ∀ dom s, Settles (execEdgeRelockTimeout dom s) := by
  intros; unfold execEdgeRelockTimeout; repeat' (first | exact finish_settles _ | split)
theorem execQueuedEdgeRecovery_settles : ∀ s, Settles (execQueuedEdgeRecovery s) := by
  intros; unfold execQueuedEdgeRecovery; repeat' (first | exact finish_settles _ | split)
theorem execRefclkLoss_settles : ∀ s, Settles (execRefclkLoss s) := by
  intros; unfold execRefclkLoss; repeat' (first | exact finish_settles _ | split)
theorem execRefclkReturn_settles : ∀ s, Settles (execRefclkReturn s) := by
  intros; unfold execRefclkReturn; repeat' (first | exact finish_settles _ | split)
theorem execRefclkAbsentTimeout_settles : ∀ s, Settles (execRefclkAbsentTimeout s) := by
  intros; unfold execRefclkAbsentTimeout; repeat' (first | exact finish_settles _ | split)
theorem execStileInvalidCode_settles : ∀ die dir lane s, Settles (execStileInvalidCode die dir lane s) := by
  intros; unfold execStileInvalidCode; repeat' (first | exact finish_settles _ | split)
theorem execStileCrcMismatch_settles : ∀ die s, Settles (execStileCrcMismatch die s) := by
  intros; unfold execStileCrcMismatch; repeat' (first | exact finish_settles _ | split)
theorem execLaneErrorInterval_settles : ∀ s, Settles (execLaneErrorInterval s) := by
  intros; unfold execLaneErrorInterval; repeat' (first | exact finish_settles _ | split)
theorem execGroupStallTimeout_settles : ∀ die dir lanes s, Settles (execGroupStallTimeout die dir lanes s) := by
  intros; unfold execGroupStallTimeout; repeat' (first | exact finish_settles _ | split)
theorem execBundleRepairDone_settles : ∀ die bundle verified s, Settles (execBundleRepairDone die bundle verified s) := by
  intros; unfold execBundleRepairDone; repeat' (first | exact finish_settles _ | split | dsimp only)
theorem execWelxisInternalFault_settles : ∀ die s, Settles (execWelxisInternalFault die s) := by
  intros; unfold execWelxisInternalFault; repeat' (first | exact finish_settles _ | split)
theorem execWelxisSelfTestEnd_settles : ∀ die census s, Settles (execWelxisSelfTestEnd die census s) := by
  intros; unfold execWelxisSelfTestEnd; repeat' (first | exact finish_settles _ | split | dsimp only)
theorem execQueuedWelxisReset_settles : ∀ s, Settles (execQueuedWelxisReset s) := by
  intros; unfold execQueuedWelxisReset; repeat' (first | exact finish_settles _ | split)
theorem execDieRejoin_settles : ∀ die s, Settles (execDieRejoin die s) := by
  intros; unfold execDieRejoin; repeat' (first | exact finish_settles _ | split)
theorem execWxReset_settles : ∀ lea tag args s, Settles (execWxReset lea tag args s) := by intros; exact finish_settles _
theorem execWxFence_settles : ∀ lea tag args s, Settles (execWxFence lea tag args s) := by intros; exact finish_settles _
theorem execWxUnfence_settles : ∀ lea tag args s, Settles (execWxUnfence lea tag args s) := by intros; exact finish_settles _
theorem execStileCensusRead_settles : ∀ lea tag args s, Settles (execStileCensusRead lea tag args s) := by intros; exact finish_settles _
theorem execStileWidthSet_settles : ∀ lea tag args s, Settles (execStileWidthSet lea tag args s) := by intros; exact finish_settles _
theorem execStileRetireClear_settles : ∀ lea tag args s, Settles (execStileRetireClear lea tag args s) := by intros; exact finish_settles _
theorem execFabPortConfig_settles : ∀ lea tag args s, Settles (execFabPortConfig lea tag args s) := by intros; exact finish_settles _
theorem execFabPortEnable_settles : ∀ lea tag args s, Settles (execFabPortEnable lea tag args s) := by intros; exact finish_settles _
theorem execFabPortDisable_settles : ∀ lea tag args s, Settles (execFabPortDisable lea tag args s) := by intros; exact finish_settles _
theorem execFabAddrSet_settles : ∀ lea tag args s, Settles (execFabAddrSet lea tag args s) := by intros; exact finish_settles _
theorem execFabMacsecKey_settles : ∀ lea tag args s, Settles (execFabMacsecKey lea tag args s) := by intros; exact finish_settles _
theorem execHykKeyLoad_settles : ∀ lea tag args s, Settles (execHykKeyLoad lea tag args s) := by intros; exact finish_settles _
theorem execHykKeySwitch_settles : ∀ lea tag args s, Settles (execHykKeySwitch lea tag args s) := by intros; exact finish_settles _
theorem execHykPeerSet_settles : ∀ lea tag args s, Settles (execHykPeerSet lea tag args s) := by intros; exact finish_settles _
theorem execHykPeerReset_settles : ∀ lea tag args s, Settles (execHykPeerReset lea tag args s) := by intros; exact finish_settles _
theorem execHykWindowSet_settles : ∀ lea tag args s, Settles (execHykWindowSet lea tag args s) := by intros; exact finish_settles _
theorem execHykWindowClear_settles : ∀ lea tag args s, Settles (execHykWindowClear lea tag args s) := by intros; exact finish_settles _
theorem execHykCfg_settles : ∀ lea tag args s, Settles (execHykCfg lea tag args s) := by intros; exact finish_settles _
theorem execPortLinkFault_settles : ∀ port uncorrected corrected other s, Settles (execPortLinkFault port uncorrected corrected other s) := by
  intros; unfold execPortLinkFault; repeat' (first | exact finish_settles _ | split)
theorem execPortBringupDone_settles : ∀ port s, Settles (execPortBringupDone port s) := by
  intros; unfold execPortBringupDone; repeat' (first | exact finish_settles _ | split | dsimp only)
theorem execPortHoldExpiry_settles : ∀ port s, Settles (execPortHoldExpiry port s) := by
  intros; unfold execPortHoldExpiry; repeat' (first | exact finish_settles _ | split | dsimp only)
theorem execConnectorDetach_settles : ∀ engine s, Settles (execConnectorDetach engine s) := by
  intros; unfold execConnectorDetach; repeat' (first | exact finish_settles _ | split)
theorem execConnectorLatch_settles : ∀ engine s, Settles (execConnectorLatch engine s) := by
  intros; unfold execConnectorLatch; repeat' (first | exact finish_settles _ | split)
theorem execArpRequest_settles : ∀ port srcMac srcIp target s, Settles (execArpRequest port srcMac srcIp target s) := by
  intros; unfold execArpRequest; repeat' (first | exact finish_settles _ | split | dsimp only)
theorem execNeighborSolicitation_settles : ∀ port srcMac srcIp target s, Settles (execNeighborSolicitation port srcMac srcIp target s) := by
  intros; unfold execNeighborSolicitation; repeat' (first | exact finish_settles _ | split | dsimp only)
theorem execPauseFrame_settles : ∀ port s, Settles (execPauseFrame port s) := by
  intros; unfold execPauseFrame; repeat' (first | exact finish_settles _ | split)
theorem execData_settles : ∀ f s, Settles (execData f s) := by intros; exact finish_settles _
theorem execPost_settles : ∀ f s, Settles (execPost f s) := by intros; exact finish_settles _
theorem execAck_settles : ∀ f s, Settles (execAck f s) := by intros; exact finish_settles _
theorem execNak_settles : ∀ f s, Settles (execNak f s) := by intros; exact finish_settles _
theorem execHeartbeat_settles : ∀ f s, Settles (execHeartbeat f s) := by intros; exact finish_settles _
theorem execRefillReq_settles : ∀ f s, Settles (execRefillReq f s) := by intros; exact finish_settles _
theorem execRefillReqServe_settles : ∀ s, Settles (execRefillReqServe s) := by
  intros; unfold execRefillReqServe; repeat' (first | exact finish_settles _ | split | dsimp only)
theorem execRefillReply_settles : ∀ f s, Settles (execRefillReply f s) := by intros; exact finish_settles _
theorem execAckDelayExpiry_settles : ∀ job chan s, Settles (execAckDelayExpiry job chan s) := by
  intros; unfold execAckDelayExpiry; repeat' (first | exact finish_settles _ | split)
theorem execRetxTimeout_settles : ∀ job chan s, Settles (execRetxTimeout job chan s) := by
  intros; unfold execRetxTimeout; repeat' (first | exact finish_settles _ | split | dsimp only)
theorem execRateWindowEnd_settles : ∀ job rank s, Settles (execRateWindowEnd job rank s) := by
  intros; unfold execRateWindowEnd; repeat' (first | exact finish_settles _ | split)
theorem execRoleResendTimer_settles : ∀ job index s, Settles (execRoleResendTimer job index s) := by
  intros; unfold execRoleResendTimer; repeat' (first | exact finish_settles _ | split)
theorem execRoleResolveTimeout_settles : ∀ job index s, Settles (execRoleResolveTimeout job index s) := by
  intros; unfold execRoleResolveTimeout; repeat' (first | exact finish_settles _ | split)
theorem execWdrGroupSet_settles : ∀ lea tag args s, Settles (execWdrGroupSet lea tag args s) := by intros; exact finish_settles _
theorem execWdrGroupClear_settles : ∀ lea tag args s, Settles (execWdrGroupClear lea tag args s) := by intros; exact finish_settles _
theorem execWdrModeSet_settles : ∀ lea tag args s, Settles (execWdrModeSet lea tag args s) := by intros; exact finish_settles _
theorem execWdrSeqReset_settles : ∀ lea tag args s, Settles (execWdrSeqReset lea tag args s) := by intros; exact finish_settles _
theorem execWdrGroupRead_settles : ∀ lea tag args s, Settles (execWdrGroupRead lea tag args s) := by intros; exact finish_settles _
theorem execJobBind_settles : ∀ lea tag args s, Settles (execJobBind lea tag args s) := by intros; exact finish_settles _
theorem execJobUnbind_settles : ∀ lea tag args s, Settles (execJobUnbind lea tag args s) := by intros; exact finish_settles _
theorem execJobRead_settles : ∀ lea tag args s, Settles (execJobRead lea tag args s) := by intros; exact finish_settles _
theorem execRoleWrite_settles : ∀ lea tag args s, Settles (execRoleWrite lea tag args s) := by intros; exact finish_settles _
theorem execRoleRead_settles : ∀ lea tag args s, Settles (execRoleRead lea tag args s) := by intros; exact finish_settles _
theorem execStepReplay_settles : ∀ lea tag args s, Settles (execStepReplay lea tag args s) := by intros; exact finish_settles _
theorem execShardSet_settles : ∀ lea tag args s, Settles (execShardSet lea tag args s) := by intros; exact finish_settles _
theorem execShardClear_settles : ∀ lea tag args s, Settles (execShardClear lea tag args s) := by intros; exact finish_settles _
theorem execTedSet_settles : ∀ lea tag args s, Settles (execTedSet lea tag args s) := by intros; exact finish_settles _
theorem execTedClear_settles : ∀ lea tag args s, Settles (execTedClear lea tag args s) := by intros; exact finish_settles _
theorem execTedHomeSet_settles : ∀ lea tag args s, Settles (execTedHomeSet lea tag args s) := by intros; exact finish_settles _
theorem execCreditLinkSet_settles : ∀ lea tag args s, Settles (execCreditLinkSet lea tag args s) := by intros; exact finish_settles _
theorem execCreditLinkClear_settles : ∀ lea tag args s, Settles (execCreditLinkClear lea tag args s) := by intros; exact finish_settles _
theorem execBalSet_settles : ∀ lea tag args s, Settles (execBalSet lea tag args s) := by intros; exact finish_settles _
theorem execBalTargetSet_settles : ∀ lea tag args s, Settles (execBalTargetSet lea tag args s) := by intros; exact finish_settles _
theorem execBalRegionSet_settles : ∀ lea tag args s, Settles (execBalRegionSet lea tag args s) := by intros; exact finish_settles _
theorem execBalRegionClear_settles : ∀ lea tag args s, Settles (execBalRegionClear lea tag args s) := by intros; exact finish_settles _
theorem execBalKeyTag_settles : ∀ lea tag args s, Settles (execBalKeyTag lea tag args s) := by intros; exact finish_settles _
theorem execBalObjectSet_settles : ∀ lea tag args s, Settles (execBalObjectSet lea tag args s) := by intros; exact finish_settles _
theorem execBalAbandon_settles : ∀ lea tag args s, Settles (execBalAbandon lea tag args s) := by intros; exact finish_settles _
theorem execBalStateRead_settles : ∀ lea tag args s, Settles (execBalStateRead lea tag args s) := by intros; exact finish_settles _
theorem execLeaQuotaSet_settles : ∀ lea tag args s, Settles (execLeaQuotaSet lea tag args s) := by intros; exact finish_settles _
theorem execLeaQuotaRead_settles : ∀ lea tag args s, Settles (execLeaQuotaRead lea tag args s) := by intros; exact finish_settles _
theorem execLeaShareSet_settles : ∀ lea tag args s, Settles (execLeaShareSet lea tag args s) := by intros; exact finish_settles _
theorem execLeaGrantSet_settles : ∀ lea tag args s, Settles (execLeaGrantSet lea tag args s) := by intros; exact finish_settles _
theorem execLeaGrantClear_settles : ∀ lea tag args s, Settles (execLeaGrantClear lea tag args s) := by intros; exact finish_settles _
theorem execLeaGrantRead_settles : ∀ lea tag args s, Settles (execLeaGrantRead lea tag args s) := by intros; exact finish_settles _
theorem execMgtAddrSet_settles : ∀ lea tag args s, Settles (execMgtAddrSet lea tag args s) := by intros; exact finish_settles _
theorem execMgtSrcSet_settles : ∀ lea tag args s, Settles (execMgtSrcSet lea tag args s) := by intros; exact finish_settles _
theorem execMgtSrcRead_settles : ∀ lea tag args s, Settles (execMgtSrcRead lea tag args s) := by intros; exact finish_settles _
theorem execMgtRingSet_settles : ∀ lea tag args s, Settles (execMgtRingSet lea tag args s) := by intros; exact finish_settles _
theorem execMgtRingClear_settles : ∀ lea tag args s, Settles (execMgtRingClear lea tag args s) := by intros; exact finish_settles _
theorem execMgtHbSet_settles : ∀ lea tag args s, Settles (execMgtHbSet lea tag args s) := by intros; exact finish_settles _
theorem execMgtHbClear_settles : ∀ lea tag args s, Settles (execMgtHbClear lea tag args s) := by intros; exact finish_settles _
theorem execMgtStageArm_settles : ∀ lea tag args s, Settles (execMgtStageArm lea tag args s) := by intros; exact finish_settles _
theorem execMgtStageDisarm_settles : ∀ lea tag args s, Settles (execMgtStageDisarm lea tag args s) := by intros; exact finish_settles _
theorem execHostFrame_settles : ∀ f s, Settles (execHostFrame f s) := by intros; exact finish_settles _
theorem execHdrHeartbeat_settles : ∀ f s, Settles (execHdrHeartbeat f s) := by intros; exact finish_settles _
theorem execHealthReq_settles : ∀ f s, Settles (execHealthReq f s) := by intros; exact finish_settles _
theorem execStage_settles : ∀ f s, Settles (execStage f s) := by intros; exact finish_settles _
theorem execHbInterval_settles : ∀ h s, Settles (execHbInterval h s) := by
  intros; unfold execHbInterval; repeat' (first | exact finish_settles _ | split)
theorem execHdrTransmit_settles : ∀ s, Settles (execHdrTransmit s) := by
  intros; unfold execHdrTransmit; repeat' (first | exact finish_settles _ | split | dsimp only)
theorem execHdrCollision_settles : ∀ s, Settles (execHdrCollision s) := by
  intros; unfold execHdrCollision; repeat' (first | exact finish_settles _ | split | dsimp only)
theorem execHdrBackoffExpiry_settles : ∀ s, Settles (execHdrBackoffExpiry s) := by
  intros; unfold execHdrBackoffExpiry; repeat' (first | exact finish_settles _ | split)
theorem execMediumStuck_settles : ∀ s, Settles (execMediumStuck s) := by
  intros; unfold execMediumStuck; repeat' (first | exact finish_settles _ | split)
theorem execMediumIdle_settles : ∀ s, Settles (execMediumIdle s) := by intros; exact finish_settles _
theorem execTokenBucketRefill_settles : ∀ s, Settles (execTokenBucketRefill s) := by
  intros; unfold execTokenBucketRefill; repeat' (first | exact finish_settles _ | split | dsimp only)
theorem execFwWrite_settles : ∀ lea tag args s, Settles (execFwWrite lea tag args s) := by intros; exact finish_settles _
theorem execFwVerify_settles : ∀ lea tag args s, Settles (execFwVerify lea tag args s) := by intros; exact finish_settles _
theorem execFwActivate_settles : ∀ lea tag args s, Settles (execFwActivate lea tag args s) := by intros; exact finish_settles _
theorem execHandoverAlive_settles : ∀ s, Settles (execHandoverAlive s) := by
  intros; unfold execHandoverAlive; repeat' (first | exact finish_settles _ | split)
theorem execFwAliveTimeout_settles : ∀ s, Settles (execFwAliveTimeout s) := by
  intros; unfold execFwAliveTimeout; repeat' (first | exact finish_settles _ | split)
theorem execColdTrialAliveTimeout_settles : ∀ s, Settles (execColdTrialAliveTimeout s) := by
  intros; unfold execColdTrialAliveTimeout; repeat' (first | exact finish_settles _ | split | dsimp only)
theorem execFwCommit_settles : ∀ lea tag args s, Settles (execFwCommit lea tag args s) := by intros; exact finish_settles _
theorem execFwSvnCommit_settles : ∀ lea tag args s, Settles (execFwSvnCommit lea tag args s) := by intros; exact finish_settles _
theorem execFwInfo_settles : ∀ lea tag args s, Settles (execFwInfo lea tag args s) := by intros; exact finish_settles _
theorem execFwCommitCold_settles : ∀ lea tag args s, Settles (execFwCommitCold lea tag args s) := by intros; exact finish_settles _
theorem execAttest_settles : ∀ lea tag args s, Settles (execAttest lea tag args s) := by intros; exact finish_settles _
theorem execAttestDeferredSign_settles : ∀ s, Settles (execAttestDeferredSign s) := by
  intros; unfold execAttestDeferredSign; repeat' (first | exact finish_settles _ | split)
theorem execStoreRead_settles : ∀ lea tag args s, Settles (execStoreRead lea tag args s) := by intros; exact finish_settles _
theorem execPwrSet_settles : ∀ lea tag args s, Settles (execPwrSet lea tag args s) := by intros; exact finish_settles _
theorem execPwrThermalSet_settles : ∀ lea tag args s, Settles (execPwrThermalSet lea tag args s) := by intros; exact finish_settles _
theorem execPowerWindowEnd_settles : ∀ watts badRails s, Settles (execPowerWindowEnd watts badRails s) := by
  intros; unfold execPowerWindowEnd; repeat' (first | exact finish_settles _ | split)
theorem execThermalSample_settles : ∀ sensor tj s, Settles (execThermalSample sensor tj s) := by
  intros; unfold execThermalSample; repeat' (first | exact finish_settles _ | split)
theorem execOverCurrentWarning_settles : ∀ s, Settles (execOverCurrentWarning s) := by intros; exact finish_settles _
theorem execI3cPrivateRead_settles : ∀ s, Settles (execI3cPrivateRead s) := by
  intros; unfold execI3cPrivateRead; repeat' (first | exact finish_settles _ | split)
theorem execJtagBypass_settles : ∀ s, Settles (execJtagBypass s) := by intros; exact finish_settles _
theorem execJtagIdcode_settles : ∀ s, Settles (execJtagIdcode s) := by intros; exact finish_settles _
theorem execJtagSamplePreload_settles : ∀ s, Settles (execJtagSamplePreload s) := by intros; exact finish_settles _
theorem execJtagExtest_settles : ∀ s, Settles (execJtagExtest s) := by intros; exact finish_settles _
theorem execJtagClamp_settles : ∀ s, Settles (execJtagClamp s) := by intros; exact finish_settles _
theorem execPowerLoss_settles : ∀ cut s, Settles (execPowerLoss cut s) := by intros; exact finish_settles _
theorem execReceivedFrame_settles : ∀ f s, Settles (execReceivedFrame f s) := by intros; exact finish_settles _
theorem execI3cDynamicAddress_settles : ∀ a s, Settles (execI3cDynamicAddress a s) := by
  intros; unfold execI3cDynamicAddress; repeat' (first | exact finish_settles _ | split)

theorem execFillReq_settles : ∀ s, Settles (execFillReq s) := by
  intro s
  unfold execFillReq
  cases s.front .fillReq with
  | none => exact finish_settles _
  | some p =>
    obtain ⟨d, t⟩ := p
    cases h : t.deliveryBaler d with
    | none => simp only [h]; exact finish_settles _
    | some p =>
      obtain ⟨j, b⟩ := p
      simp only [h]
      refine ite_settles (finish_settles _) (ite_settles (finish_settles _) (ite_settles (finish_settles _) ?_))
      generalize t.spansAccess _ = a
      cases a <;> exact finish_settles _
theorem execFillData_settles : ∀ s, Settles (execFillData s) := by
  intro s
  unfold execFillData
  cases s.front .fillData with
  | none => exact finish_settles _
  | some p =>
    obtain ⟨d, t⟩ := p
    cases h : t.deliveryBaler d with
    | none => simp only [h]; exact finish_settles _
    | some p =>
      obtain ⟨j, b⟩ := p
      simp only [h]
      generalize b.fillOf _ = x
      generalize List.find? _ _ = y
      cases x with
      | none => exact finish_settles _
      | some n => cases y with
        | none => exact finish_settles _
        | some e => exact ite_settles (finish_settles _) (finish_settles _)
theorem execOscillatorFailure_settles : ∀ d r s, Settles (execOscillatorFailure d r s) := by
  intros
  unfold execOscillatorFailure
  repeat' (first | exact finish_settles _ | (intro t h; cases h) | split)

/-- What a command answers as its next state is some state settled. -/
theorem exec_settles (i : Instr) (s : State) : Settles (exec i s) := by
  cases i with
  | coldStart c => exact execColdStart_settles c s
  | perst => exact execPerst_settles s
  | pcieLinkDown => exact execPcieLinkDown_settles s
  | pcieLinkUp width gen => exact execPcieLinkUp_settles width gen s
  | misalignedRegAccess lea offset write => exact execMisalignedRegAccess_settles lea offset write s
  | registerWrite lea offset value => exact execRegisterWrite_settles lea offset value s
  | rcRead lea offset => exact execRcRead_settles lea offset s
  | lowWordRead lea offset => exact execLowWordRead_settles lea offset s
  | mbxDoorbell lea => exact execMbxDoorbell_settles lea s
  | mailboxServe => exact execMailboxServe_settles s
  | queueDoorbell lea q tail => exact execQueueDoorbell_settles lea q tail s
  | cringHeadDoorbell lea r head => exact execCringHeadDoorbell_settles lea r head s
  | clusterPrivWrite die high value => exact execClusterPrivWrite_settles die high value s
  | mgtRingWrite value => exact execMgtRingWrite_settles value s
  | numvfsWrite n => exact execNumvfsWrite_settles n s
  | absentVfAccess lea offset write => exact execAbsentVfAccess_settles lea offset write s
  | vfEnableSet => exact execVfEnableSet_settles s
  | vfEnableClear => exact execVfEnableClear_settles s
  | flrLea lea => exact execFlrLea_settles lea s
  | flrPf => exact execFlrPf_settles s
  | leaResetOpsStopped lea => exact execLeaResetOpsStopped_settles lea s
  | ping lea tag args => exact execPing_settles lea tag args s
  | getInfo lea tag args => exact execGetInfo_settles lea tag args s
  | getStatus lea tag args => exact execGetStatus_settles lea tag args s
  | leaEnable lea tag args => exact execLeaEnable_settles lea tag args s
  | leaDisable lea tag args => exact execLeaDisable_settles lea tag args s
  | leaReset lea tag args => exact execLeaReset_settles lea tag args s
  | cringCreate lea tag args => exact execCringCreate_settles lea tag args s
  | cringDestroy lea tag args => exact execCringDestroy_settles lea tag args s
  | queueCreate lea tag args => exact execQueueCreate_settles lea tag args s
  | queueStop lea tag args => exact execQueueStop_settles lea tag args s
  | queueStart lea tag args => exact execQueueStart_settles lea tag args s
  | queueDestroy lea tag args => exact execQueueDestroy_settles lea tag args s
  | counterSet lea tag args => exact execCounterSet_settles lea tag args s
  | edgeRetry lea tag args => exact execEdgeRetry_settles lea tag args s
  | deviceHalt lea tag args => exact execDeviceHalt_settles lea tag args s
  | slotFetch lea q slot => exact execSlotFetch_settles lea q slot s
  | opStart n => exact execOpStart_settles n s
  | opCompletion n => exact execOpCompletion_settles n s
  | completionRingRoom n => exact execCompletionRingRoom_settles n s
  | scaleFold job inst => exact execScaleFold_settles job inst s
  | nextMatrixOpPick => exact execNextMatrixOpPick_settles s
  | matrixOp => exact execMatrixOp_settles s
  | arrayPassStart => exact execArrayPassStart_settles s
  | arrayPassEnd => exact execArrayPassEnd_settles s
  | elementwiseOp cl => exact execElementwiseOp_settles cl s
  | rowDispatch cl => exact execRowDispatch_settles cl s
  | rowEnd cl => exact execRowEnd_settles cl s
  | softmaxFwd cl => exact execSoftmaxFwd_settles cl s
  | softmaxBwd cl => exact execSoftmaxBwd_settles cl s
  | actFwd cl => exact execActFwd_settles cl s
  | actBwd cl => exact execActBwd_settles cl s
  | stashWrite cl => exact execStashWrite_settles cl s
  | convert cl => exact execConvert_settles cl s
  | nop cl f => exact execNop_settles cl f s
  | halt cl f => exact execHalt_settles cl f s
  | setvl cl f => exact execSetvl_settles cl f s
  | setvlP cl f => exact execSetvlP_settles cl f s
  | bnz cl f => exact execBnz_settles cl f s
  | jmp cl f => exact execJmp_settles cl f s
  | sublen cl f => exact execSublen_settles cl f s
  | addlen cl f => exact execAddlen_settles cl f s
  | mov cl f => exact execMov_settles cl f s
  | movi cl f => exact execMovi_settles cl f s
  | uadd cl f => exact execUadd_settles cl f s
  | usub cl f => exact execUsub_settles cl f s
  | addmx cl f => exact execAddmx_settles cl f s
  | fadd cl f => exact execFadd_settles cl f s
  | fsub cl f => exact execFsub_settles cl f s
  | fmul cl f => exact execFmul_settles cl f s
  | fma cl f => exact execFma_settles cl f s
  | fmin cl f => exact execFmin_settles cl f s
  | fmax cl f => exact execFmax_settles cl f s
  | fabs cl f => exact execFabs_settles cl f s
  | fneg cl f => exact execFneg_settles cl f s
  | fcmp cl f => exact execFcmp_settles cl f s
  | fsel cl f => exact execFsel_settles cl f s
  | padd cl f => exact execPadd_settles cl f s
  | pmul cl f => exact execPmul_settles cl f s
  | pfma cl f => exact execPfma_settles cl f s
  | exp2 cl f => exact execExp2_settles cl f s
  | log2 cl f => exact execLog2_settles cl f s
  | rcp cl f => exact execRcp_settles cl f s
  | rsqrt cl f => exact execRsqrt_settles cl f s
  | tanh cl f => exact execTanh_settles cl f s
  | erf cl f => exact execErf_settles cl f s
  | sigm cl f => exact execSigm_settles cl f s
  | fdiv cl f => exact execFdiv_settles cl f s
  | iadd cl f => exact execIadd_settles cl f s
  | isub cl f => exact execIsub_settles cl f s
  | imul cl f => exact execImul_settles cl f s
  | and cl f => exact execAnd_settles cl f s
  | or cl f => exact execOr_settles cl f s
  | xor cl f => exact execXor_settles cl f s
  | shl cl f => exact execShl_settles cl f s
  | shr cl f => exact execShr_settles cl f s
  | icmp cl f => exact execIcmp_settles cl f s
  | redsum cl f => exact execRedsum_settles cl f s
  | redmax cl f => exact execRedmax_settles cl f s
  | redmin cl f => exact execRedmin_settles cl f s
  | bcast cl f => exact execBcast_settles cl f s
  | perm cl f => exact execPerm_settles cl f s
  | ldF cl f => exact execLdF_settles cl f s
  | stF cl f => exact execStF_settles cl f s
  | ldmx cl f => exact execLdmx_settles cl f s
  | stmx cl f => exact execStmx_settles cl f s
  | stmxS cl f => exact execStmxS_settles cl f s
  | ldm cl f => exact execLdm_settles cl f s
  | lds cl f => exact execLds_settles cl f s
  | sts cl f => exact execSts_settles cl f s
  | amo cl f => exact execAmo_settles cl f s
  | cvt cl f => exact execCvt_settles cl f s
  | sgd n => exact execSgd_settles n s
  | adamw n => exact execAdamw_settles n s
  | lion n => exact execLion_settles n s
  | accumulate n => exact execAccumulate_settles n s
  | phase n => exact execPhase_settles n s
  | phaseComplete n => exact execPhaseComplete_settles n s
  | mark n => exact execMark_settles n s
  | normRead n => exact execNormRead_settles n s
  | clip n => exact execClip_settles n s
  | shardStamp n => exact execShardStamp_settles n s
  | shardCheck n => exact execShardCheck_settles n s
  | prefetch n => exact execPrefetch_settles n s
  | copyLocal n => exact execCopyLocal_settles n s
  | copyPeer n => exact execCopyPeer_settles n s
  | copyPost n => exact execCopyPost_settles n s
  | windrowOp n => exact execWindrowOp_settles n s
  | windrowSend n => exact execWindrowSend_settles n s
  | contrib => exact execContrib_settles s
  | result => exact execResult_settles s
  | escalateReq => exact execEscalateReq_settles s
  | chunkDeadline group key => exact execChunkDeadline_settles group key s
  | resultLimitExpiry n => exact execResultLimitExpiry_settles n s
  | dispatch n => exact execDispatch_settles n s
  | returnRows n => exact execReturnRows_settles n s
  | combine n => exact execCombine_settles n s
  | tokens => exact execTokens_settles s
  | returnRecords => exact execReturnRecords_settles s
  | snapshot n => exact execSnapshot_settles n s
  | snapshotCapture n => exact execSnapshotCapture_settles n s
  | weightsSweep job => exact execWeightsSweep_settles job s
  | lossRecord n => exact execLossRecord_settles n s
  | sealImage job => exact execSealImage_settles job s
  | restore n => exact execRestore_settles n s
  | lossCheck n => exact execLossCheck_settles n s
  | historySync n => exact execHistorySync_settles n s
  | digest n => exact execDigest_settles n s
  | fill n => exact execFill_settles n s
  | digestLimitExpiry n => exact execDigestLimitExpiry_settles n s
  | getData => exact execGetData_settles s
  | sealed => exact execSealed_settles s
  | refused => exact execRefused_settles s
  | digestMsg => exact execDigestMsg_settles s
  | history => exact execHistory_settles s
  | fillReq => exact execFillReq_settles s
  | fillData => exact execFillData_settles s
  | fillDone => exact execFillDone_settles s
  | fillAbort => exact execFillAbort_settles s
  | memUnitConfig lea tag args => exact execMemUnitConfig_settles lea tag args s
  | memRefillSet lea tag args => exact execMemRefillSet_settles lea tag args s
  | memRefillClear lea tag args => exact execMemRefillClear_settles lea tag args s
  | memPin lea tag args => exact execMemPin_settles lea tag args s
  | memUnpin lea tag args => exact execMemUnpin_settles lea tag args s
  | memScrubSet lea tag args => exact execMemScrubSet_settles lea tag args s
  | memPoisonList lea tag args => exact execMemPoisonList_settles lea tag args s
  | memTgStart lea tag args => exact execMemTgStart_settles lea tag args s
  | memTgStop lea tag args => exact execMemTgStop_settles lea tag args s
  | tgRunEnd ch mismatches pins => exact execTgRunEnd_settles ch mismatches pins s
  | hbmUncorrectableRead sector => exact execHbmUncorrectableRead_settles sector s
  | refillTableFree => exact execRefillTableFree_settles s
  | refillReqResend sector => exact execRefillReqResend_settles sector s
  | refillDeadline sector => exact execRefillDeadline_settles sector s
  | detectedReadError n sector => exact execDetectedReadError_settles n sector s
  | recomputeFinish job => exact execRecomputeFinish_settles job s
  | correctedReadError sector => exact execCorrectedReadError_settles sector s
  | channelRepair ch pin => exact execChannelRepair_settles ch pin s
  | patrolScrub corrected uncorrectable => exact execPatrolScrub_settles corrected uncorrectable s
  | cacheError sector correctable => exact execCacheError_settles sector correctable s
  | edpinFault stack => exact execEdpinFault_settles stack s
  | edgeClockLoss dom => exact execEdgeClockLoss_settles dom s
  | edgePllRelock dom => exact execEdgePllRelock_settles dom s
  | edgeRelockTimeout dom => exact execEdgeRelockTimeout_settles dom s
  | queuedEdgeRecovery => exact execQueuedEdgeRecovery_settles s
  | refclkLoss => exact execRefclkLoss_settles s
  | refclkReturn => exact execRefclkReturn_settles s
  | refclkAbsentTimeout => exact execRefclkAbsentTimeout_settles s
  | oscillatorFailure dom recovered => exact execOscillatorFailure_settles dom recovered s
  | stileInvalidCode die dir lane => exact execStileInvalidCode_settles die dir lane s
  | stileCrcMismatch die => exact execStileCrcMismatch_settles die s
  | laneErrorInterval => exact execLaneErrorInterval_settles s
  | groupStallTimeout die dir lanes => exact execGroupStallTimeout_settles die dir lanes s
  | bundleRepairDone die bundle verified => exact execBundleRepairDone_settles die bundle verified s
  | welxisInternalFault die => exact execWelxisInternalFault_settles die s
  | welxisSelfTestEnd die census => exact execWelxisSelfTestEnd_settles die census s
  | queuedWelxisReset => exact execQueuedWelxisReset_settles s
  | dieRejoin die => exact execDieRejoin_settles die s
  | wxReset lea tag args => exact execWxReset_settles lea tag args s
  | wxFence lea tag args => exact execWxFence_settles lea tag args s
  | wxUnfence lea tag args => exact execWxUnfence_settles lea tag args s
  | stileCensusRead lea tag args => exact execStileCensusRead_settles lea tag args s
  | stileWidthSet lea tag args => exact execStileWidthSet_settles lea tag args s
  | stileRetireClear lea tag args => exact execStileRetireClear_settles lea tag args s
  | fabPortConfig lea tag args => exact execFabPortConfig_settles lea tag args s
  | fabPortEnable lea tag args => exact execFabPortEnable_settles lea tag args s
  | fabPortDisable lea tag args => exact execFabPortDisable_settles lea tag args s
  | fabAddrSet lea tag args => exact execFabAddrSet_settles lea tag args s
  | fabMacsecKey lea tag args => exact execFabMacsecKey_settles lea tag args s
  | hykKeyLoad lea tag args => exact execHykKeyLoad_settles lea tag args s
  | hykKeySwitch lea tag args => exact execHykKeySwitch_settles lea tag args s
  | hykPeerSet lea tag args => exact execHykPeerSet_settles lea tag args s
  | hykPeerReset lea tag args => exact execHykPeerReset_settles lea tag args s
  | hykWindowSet lea tag args => exact execHykWindowSet_settles lea tag args s
  | hykWindowClear lea tag args => exact execHykWindowClear_settles lea tag args s
  | hykCfg lea tag args => exact execHykCfg_settles lea tag args s
  | portLinkFault port uncorrected corrected other => exact execPortLinkFault_settles port uncorrected corrected other s
  | portBringupDone port => exact execPortBringupDone_settles port s
  | portHoldExpiry port => exact execPortHoldExpiry_settles port s
  | connectorDetach engine => exact execConnectorDetach_settles engine s
  | connectorLatch engine => exact execConnectorLatch_settles engine s
  | arpRequest port srcMac srcIp target => exact execArpRequest_settles port srcMac srcIp target s
  | neighborSolicitation port srcMac srcIp target => exact execNeighborSolicitation_settles port srcMac srcIp target s
  | pauseFrame port => exact execPauseFrame_settles port s
  | data f => exact execData_settles f s
  | post f => exact execPost_settles f s
  | ack f => exact execAck_settles f s
  | nak f => exact execNak_settles f s
  | heartbeat f => exact execHeartbeat_settles f s
  | refillReq f => exact execRefillReq_settles f s
  | refillReqServe => exact execRefillReqServe_settles s
  | refillReply f => exact execRefillReply_settles f s
  | ackDelayExpiry job chan => exact execAckDelayExpiry_settles job chan s
  | retxTimeout job chan => exact execRetxTimeout_settles job chan s
  | rateWindowEnd job rank => exact execRateWindowEnd_settles job rank s
  | roleResendTimer job index => exact execRoleResendTimer_settles job index s
  | roleResolveTimeout job index => exact execRoleResolveTimeout_settles job index s
  | wdrGroupSet lea tag args => exact execWdrGroupSet_settles lea tag args s
  | wdrGroupClear lea tag args => exact execWdrGroupClear_settles lea tag args s
  | wdrModeSet lea tag args => exact execWdrModeSet_settles lea tag args s
  | wdrSeqReset lea tag args => exact execWdrSeqReset_settles lea tag args s
  | wdrGroupRead lea tag args => exact execWdrGroupRead_settles lea tag args s
  | jobBind lea tag args => exact execJobBind_settles lea tag args s
  | jobUnbind lea tag args => exact execJobUnbind_settles lea tag args s
  | jobRead lea tag args => exact execJobRead_settles lea tag args s
  | roleWrite lea tag args => exact execRoleWrite_settles lea tag args s
  | roleRead lea tag args => exact execRoleRead_settles lea tag args s
  | stepReplay lea tag args => exact execStepReplay_settles lea tag args s
  | shardSet lea tag args => exact execShardSet_settles lea tag args s
  | shardClear lea tag args => exact execShardClear_settles lea tag args s
  | tedSet lea tag args => exact execTedSet_settles lea tag args s
  | tedClear lea tag args => exact execTedClear_settles lea tag args s
  | tedHomeSet lea tag args => exact execTedHomeSet_settles lea tag args s
  | creditLinkSet lea tag args => exact execCreditLinkSet_settles lea tag args s
  | creditLinkClear lea tag args => exact execCreditLinkClear_settles lea tag args s
  | balSet lea tag args => exact execBalSet_settles lea tag args s
  | balTargetSet lea tag args => exact execBalTargetSet_settles lea tag args s
  | balRegionSet lea tag args => exact execBalRegionSet_settles lea tag args s
  | balRegionClear lea tag args => exact execBalRegionClear_settles lea tag args s
  | balKeyTag lea tag args => exact execBalKeyTag_settles lea tag args s
  | balObjectSet lea tag args => exact execBalObjectSet_settles lea tag args s
  | balAbandon lea tag args => exact execBalAbandon_settles lea tag args s
  | balStateRead lea tag args => exact execBalStateRead_settles lea tag args s
  | leaQuotaSet lea tag args => exact execLeaQuotaSet_settles lea tag args s
  | leaQuotaRead lea tag args => exact execLeaQuotaRead_settles lea tag args s
  | leaShareSet lea tag args => exact execLeaShareSet_settles lea tag args s
  | leaGrantSet lea tag args => exact execLeaGrantSet_settles lea tag args s
  | leaGrantClear lea tag args => exact execLeaGrantClear_settles lea tag args s
  | leaGrantRead lea tag args => exact execLeaGrantRead_settles lea tag args s
  | mgtAddrSet lea tag args => exact execMgtAddrSet_settles lea tag args s
  | mgtSrcSet lea tag args => exact execMgtSrcSet_settles lea tag args s
  | mgtSrcRead lea tag args => exact execMgtSrcRead_settles lea tag args s
  | mgtRingSet lea tag args => exact execMgtRingSet_settles lea tag args s
  | mgtRingClear lea tag args => exact execMgtRingClear_settles lea tag args s
  | mgtHbSet lea tag args => exact execMgtHbSet_settles lea tag args s
  | mgtHbClear lea tag args => exact execMgtHbClear_settles lea tag args s
  | mgtStageArm lea tag args => exact execMgtStageArm_settles lea tag args s
  | mgtStageDisarm lea tag args => exact execMgtStageDisarm_settles lea tag args s
  | hostFrame f => exact execHostFrame_settles f s
  | hdrHeartbeat f => exact execHdrHeartbeat_settles f s
  | healthReq f => exact execHealthReq_settles f s
  | stage f => exact execStage_settles f s
  | hbInterval h => exact execHbInterval_settles h s
  | hdrTransmit => exact execHdrTransmit_settles s
  | hdrCollision => exact execHdrCollision_settles s
  | hdrBackoffExpiry => exact execHdrBackoffExpiry_settles s
  | mediumStuck => exact execMediumStuck_settles s
  | mediumIdle => exact execMediumIdle_settles s
  | tokenBucketRefill => exact execTokenBucketRefill_settles s
  | fwWrite lea tag args => exact execFwWrite_settles lea tag args s
  | fwVerify lea tag args => exact execFwVerify_settles lea tag args s
  | fwActivate lea tag args => exact execFwActivate_settles lea tag args s
  | handoverAlive => exact execHandoverAlive_settles s
  | fwAliveTimeout => exact execFwAliveTimeout_settles s
  | coldTrialAliveTimeout => exact execColdTrialAliveTimeout_settles s
  | fwCommit lea tag args => exact execFwCommit_settles lea tag args s
  | fwSvnCommit lea tag args => exact execFwSvnCommit_settles lea tag args s
  | fwInfo lea tag args => exact execFwInfo_settles lea tag args s
  | fwCommitCold lea tag args => exact execFwCommitCold_settles lea tag args s
  | attest lea tag args => exact execAttest_settles lea tag args s
  | attestDeferredSign => exact execAttestDeferredSign_settles s
  | storeRead lea tag args => exact execStoreRead_settles lea tag args s
  | pwrSet lea tag args => exact execPwrSet_settles lea tag args s
  | pwrThermalSet lea tag args => exact execPwrThermalSet_settles lea tag args s
  | powerWindowEnd watts badRails => exact execPowerWindowEnd_settles watts badRails s
  | thermalSample sensor tj => exact execThermalSample_settles sensor tj s
  | overCurrentWarning => exact execOverCurrentWarning_settles s
  | i3cPrivateRead => exact execI3cPrivateRead_settles s
  | jtagBypass => exact execJtagBypass_settles s
  | jtagIdcode => exact execJtagIdcode_settles s
  | jtagSamplePreload => exact execJtagSamplePreload_settles s
  | jtagExtest => exact execJtagExtest_settles s
  | jtagClamp => exact execJtagClamp_settles s
  | powerLoss cut => exact execPowerLoss_settles cut s
  | receivedFrame f => exact execReceivedFrame_settles f s
  | i3cDynamicAddress a => exact execI3cDynamicAddress_settles a s

end Sys2Proof.Machine
end

