-- ==== Sys2Proof/Laws/Taken.lean ====
section
/-!
SUPPORT. Laws/Taken.lean: the state from which Cihal has taken a command differs from the state before in that lea's
mailbox and in the turn alone.
-/

set_option Elab.async false

namespace Sys2Proof.Machine

variable (s : State) (l c : Nat) (t : Word) (a : List Word)

@[simp] theorem State.taken_pending : (s.taken l c t a).pending = s.pending := by simp [State.taken]
@[simp] theorem State.taken_jobs : (s.taken l c t a).jobs = s.jobs := by simp [State.taken]
@[simp] theorem State.taken_edge : (s.taken l c t a).edge = s.edge := by simp [State.taken]
@[simp] theorem State.taken_pcie : (s.taken l c t a).pcie = s.pcie := by simp [State.taken]
@[simp] theorem State.taken_out : (s.taken l c t a).out = s.out := by simp [State.taken]
@[simp] theorem State.taken_array : (s.taken l c t a).array = s.array := by simp [State.taken]
@[simp] theorem State.taken_scalar : (s.taken l c t a).scalar = s.scalar := by simp [State.taken]
@[simp] theorem State.taken_scale : (s.taken l c t a).scale = s.scale := by simp [State.taken]
@[simp] theorem State.taken_train : (s.taken l c t a).train = s.train := by simp [State.taken]
@[simp] theorem State.taken_mem : (s.taken l c t a).mem = s.mem := by simp [State.taken]
@[simp] theorem State.taken_dies : (s.taken l c t a).dies = s.dies := by simp [State.taken]
@[simp] theorem State.taken_fab : (s.taken l c t a).fab = s.fab := by simp [State.taken]
@[simp] theorem State.taken_wdr : (s.taken l c t a).wdr = s.wdr := by simp [State.taken]
@[simp] theorem State.taken_units : (s.taken l c t a).units = s.units := by simp [State.taken]
@[simp] theorem State.taken_hdr : (s.taken l c t a).hdr = s.hdr := by simp [State.taken]
@[simp] theorem State.taken_fw : (s.taken l c t a).fw = s.fw := by simp [State.taken]
@[simp] theorem State.taken_pwr : (s.taken l c t a).pwr = s.pwr := by simp [State.taken]
@[simp] theorem State.taken_board : (s.taken l c t a).board = s.board := by simp [State.taken]
@[simp] theorem State.taken_delivered : (s.taken l c t a).delivered = s.delivered := by simp [State.taken]
@[simp] theorem State.taken_heldRefills : (s.taken l c t a).heldRefills = s.heldRefills := by simp [State.taken]

@[simp] theorem State.taken_turn : (s.taken l c t a).hub.turn = (l + 1) % 64 := rfl
@[simp] theorem State.taken_dev : (s.taken l c t a).hub.dev = s.hub.dev := by simp [State.taken]
@[simp] theorem State.taken_ops : (s.taken l c t a).hub.ops = s.hub.ops := by simp [State.taken]

/-- Any lea of the state taken from, but for the mailbox that was served. -/
theorem State.taken_lea (k : Nat) (h : (s.leas.find l).isSome) :
    (s.taken l c t a).lea k = if k = l then { s.lea k with mbx := (s.lea k).mbx.taken c t a } else s.lea k := by
  show (s.modLea l _).lea k = _
  by_cases hk : k = l
  · subst hk; rw [s.lea_modLea_self k _ h, if_pos rfl]
  · rw [s.lea_modLea_ne _ hk, if_neg hk]

theorem State.taken_lea_mbx (h : (s.leas.find l).isSome) : ((s.taken l c t a).lea l).mbx = (s.lea l).mbx.taken c t a := by
  rw [s.taken_lea l c t a l h, if_pos rfl]

/-- Every field of a lea but its mailbox is as before. -/
theorem State.taken_lea_field {β : Type} (k : Nat) (p : Lea → β) (hp : ∀ x m, p { x with mbx := m } = p x) :
    p ((s.taken l c t a).lea k) = p (s.lea k) := by
  show p ((s.modLea l _).lea k) = _
  by_cases hk : k = l
  · subst hk
    cases hf : s.leas.find k with
    | none => simp [State.modLea, hf]
    | some x => rw [s.lea_modLea_self k _ (by simp [hf])]; exact hp _ _
  · rw [s.lea_modLea_ne _ hk]

@[simp] theorem State.taken_lea_st (k : Nat) : ((s.taken l c t a).lea k).st = (s.lea k).st :=
  s.taken_lea_field l c t a k (·.st) fun _ _ => rfl
@[simp] theorem State.taken_lea_changeCount (k : Nat) : ((s.taken l c t a).lea k).changeCount = (s.lea k).changeCount :=
  s.taken_lea_field l c t a k (·.changeCount) fun _ _ => rfl
@[simp] theorem State.taken_lea_badDoorbell (k : Nat) : ((s.taken l c t a).lea k).badDoorbell = (s.lea k).badDoorbell :=
  s.taken_lea_field l c t a k (·.badDoorbell) fun _ _ => rfl
@[simp] theorem State.taken_lea_rejectCount (k : Nat) : ((s.taken l c t a).lea k).rejectCount = (s.lea k).rejectCount :=
  s.taken_lea_field l c t a k (·.rejectCount) fun _ _ => rfl
@[simp] theorem State.taken_lea_queues (k : Nat) : ((s.taken l c t a).lea k).queues = (s.lea k).queues :=
  s.taken_lea_field l c t a k (·.queues) fun _ _ => rfl
@[simp] theorem State.taken_lea_qdb (k : Nat) : ((s.taken l c t a).lea k).qdb = (s.lea k).qdb :=
  s.taken_lea_field l c t a k (·.qdb) fun _ _ => rfl
@[simp] theorem State.taken_lea_rings (k : Nat) : ((s.taken l c t a).lea k).rings = (s.lea k).rings :=
  s.taken_lea_field l c t a k (·.rings) fun _ _ => rfl
@[simp] theorem State.taken_lea_cdb (k : Nat) : ((s.taken l c t a).lea k).cdb = (s.lea k).cdb :=
  s.taken_lea_field l c t a k (·.cdb) fun _ _ => rfl
@[simp] theorem State.taken_lea_counters (k : Nat) : ((s.taken l c t a).lea k).counters = (s.lea k).counters :=
  s.taken_lea_field l c t a k (·.counters) fun _ _ => rfl
@[simp] theorem State.taken_lea_norms (k : Nat) : ((s.taken l c t a).lea k).norms = (s.lea k).norms :=
  s.taken_lea_field l c t a k (·.norms) fun _ _ => rfl
@[simp] theorem State.taken_lea_quotas (k : Nat) : ((s.taken l c t a).lea k).quotas = (s.lea k).quotas :=
  s.taken_lea_field l c t a k (·.quotas) fun _ _ => rfl
@[simp] theorem State.taken_lea_wArray (k : Nat) : ((s.taken l c t a).lea k).wArray = (s.lea k).wArray :=
  s.taken_lea_field l c t a k (·.wArray) fun _ _ => rfl
@[simp] theorem State.taken_lea_wCluster (k : Nat) : ((s.taken l c t a).lea k).wCluster = (s.lea k).wCluster :=
  s.taken_lea_field l c t a k (·.wCluster) fun _ _ => rfl
@[simp] theorem State.taken_lea_wMem (k : Nat) : ((s.taken l c t a).lea k).wMem = (s.lea k).wMem :=
  s.taken_lea_field l c t a k (·.wMem) fun _ _ => rfl
@[simp] theorem State.taken_lea_wFab (k : Nat) : ((s.taken l c t a).lea k).wFab = (s.lea k).wFab :=
  s.taken_lea_field l c t a k (·.wFab) fun _ _ => rfl
@[simp] theorem State.taken_lea_vArray (k : Nat) : ((s.taken l c t a).lea k).vArray = (s.lea k).vArray :=
  s.taken_lea_field l c t a k (·.vArray) fun _ _ => rfl
@[simp] theorem State.taken_lea_vCluster (k : Nat) : ((s.taken l c t a).lea k).vCluster = (s.lea k).vCluster :=
  s.taken_lea_field l c t a k (·.vCluster) fun _ _ => rfl
@[simp] theorem State.taken_lea_readyArray (k : Nat) : ((s.taken l c t a).lea k).readyArray = (s.lea k).readyArray :=
  s.taken_lea_field l c t a k (·.readyArray) fun _ _ => rfl
@[simp] theorem State.taken_lea_readyCluster (k : Nat) : ((s.taken l c t a).lea k).readyCluster = (s.lea k).readyCluster :=
  s.taken_lea_field l c t a k (·.readyCluster) fun _ _ => rfl
@[simp] theorem State.taken_lea_arrayEvents (k : Nat) : ((s.taken l c t a).lea k).arrayEvents = (s.lea k).arrayEvents :=
  s.taken_lea_field l c t a k (·.arrayEvents) fun _ _ => rfl
@[simp] theorem State.taken_lea_clusterEvents (k : Nat) : ((s.taken l c t a).lea k).clusterEvents = (s.lea k).clusterEvents :=
  s.taken_lea_field l c t a k (·.clusterEvents) fun _ _ => rfl
@[simp] theorem State.taken_lea_grants (k : Nat) : ((s.taken l c t a).lea k).grants = (s.lea k).grants :=
  s.taken_lea_field l c t a k (·.grants) fun _ _ => rfl
@[simp] theorem State.taken_lea_pins (k : Nat) : ((s.taken l c t a).lea k).pins = (s.lea k).pins :=
  s.taken_lea_field l c t a k (·.pins) fun _ _ => rfl
@[simp] theorem State.taken_lea_events (k : Nat) : ((s.taken l c t a).lea k).events = (s.lea k).events :=
  s.taken_lea_field l c t a k (·.events) fun _ _ => rfl
@[simp] theorem State.taken_lea_evQueued (k : Nat) : ((s.taken l c t a).lea k).evQueued = (s.lea k).evQueued :=
  s.taken_lea_field l c t a k (·.evQueued) fun _ _ => rfl
@[simp] theorem State.taken_lea_evOverflow (k : Nat) : ((s.taken l c t a).lea k).evOverflow = (s.lea k).evOverflow :=
  s.taken_lea_field l c t a k (·.evOverflow) fun _ _ => rfl
@[simp] theorem State.taken_lea_evIntrEnable (k : Nat) : ((s.taken l c t a).lea k).evIntrEnable = (s.lea k).evIntrEnable :=
  s.taken_lea_field l c t a k (·.evIntrEnable) fun _ _ => rfl
@[simp] theorem State.taken_lea_evDropped (k : Nat) : ((s.taken l c t a).lea k).evDropped = (s.lea k).evDropped :=
  s.taken_lea_field l c t a k (·.evDropped) fun _ _ => rfl
@[simp] theorem State.taken_lea_evQueuedCount (k : Nat) : ((s.taken l c t a).lea k).evQueuedCount = (s.lea k).evQueuedCount :=
  s.taken_lea_field l c t a k (·.evQueuedCount) fun _ _ => rfl
@[simp] theorem State.taken_lea_evSeq (k : Nat) : ((s.taken l c t a).lea k).evSeq = (s.lea k).evSeq :=
  s.taken_lea_field l c t a k (·.evSeq) fun _ _ => rfl
@[simp] theorem State.taken_lea_resetting (k : Nat) : ((s.taken l c t a).lea k).resetting = (s.lea k).resetting :=
  s.taken_lea_field l c t a k (·.resetting) fun _ _ => rfl
@[simp] theorem State.taken_lea_resetCount (k : Nat) : ((s.taken l c t a).lea k).resetCount = (s.lea k).resetCount :=
  s.taken_lea_field l c t a k (·.resetCount) fun _ _ => rfl
@[simp] theorem State.taken_lea_resetCause (k : Nat) : ((s.taken l c t a).lea k).resetCause = (s.lea k).resetCause :=
  s.taken_lea_field l c t a k (·.resetCause) fun _ _ => rfl
@[simp] theorem State.taken_lea_resetDone (k : Nat) : ((s.taken l c t a).lea k).resetDone = (s.lea k).resetDone :=
  s.taken_lea_field l c t a k (·.resetDone) fun _ _ => rfl
@[simp] theorem State.taken_lea_pendingEvents (k : Nat) : ((s.taken l c t a).lea k).pendingEvents = (s.lea k).pendingEvents :=
  s.taken_lea_field l c t a k (·.pendingEvents) fun _ _ => rfl
@[simp] theorem State.taken_lea_pendingReset (k : Nat) : ((s.taken l c t a).lea k).pendingReset = (s.lea k).pendingReset :=
  s.taken_lea_field l c t a k (·.pendingReset) fun _ _ => rfl
@[simp] theorem State.taken_lea_msix (k : Nat) : ((s.taken l c t a).lea k).msix = (s.lea k).msix :=
  s.taken_lea_field l c t a k (·.msix) fun _ _ => rfl
@[simp] theorem State.taken_lea_pba (k : Nat) : ((s.taken l c t a).lea k).pba = (s.lea k).pba :=
  s.taken_lea_field l c t a k (·.pba) fun _ _ => rfl
@[simp] theorem State.taken_lea_latch (k : Nat) : ((s.taken l c t a).lea k).latch = (s.lea k).latch :=
  s.taken_lea_field l c t a k (·.latch) fun _ _ => rfl

@[simp] theorem State.taken_listed (k : Nat) : ((s.taken l c t a).leas.find k).isSome = (s.leas.find k).isSome :=
  s.find_modLea l k _
@[simp] theorem State.taken_live : (s.taken l c t a).live = s.live := by simp [State.live]
@[simp] theorem State.taken_leaOps (k : Nat) : (s.taken l c t a).leaOps k = s.leaOps k := by simp [State.leaOps]
@[simp] theorem State.taken_jobOf (k j : Nat) : (s.taken l c t a).jobOf k j = s.jobOf k j := by simp [State.jobOf]
@[simp] theorem State.taken_jobOps (j : Nat) : (s.taken l c t a).jobOps j = s.jobOps j := by simp [State.jobOps]
@[simp] theorem State.taken_granted (k b n : Nat) (w : Bool) : (s.taken l c t a).granted k b n w = s.granted k b n w :=
  s.taken_lea_field l c t a k (·.granted b n w) fun _ _ => rfl
@[simp] theorem State.taken_edgeOn (d : Nat) : (s.taken l c t a).edgeOn d = s.edgeOn d := by simp [State.edgeOn]
@[simp] theorem State.taken_edgeFenced (d : Nat) : (s.taken l c t a).edgeFenced d = s.edgeFenced d := by
  simp [State.edgeFenced]
@[simp] theorem State.taken_now : (s.taken l c t a).now = s.now := by simp [State.now]
@[simp] theorem State.taken_read (b n : Nat) : (s.taken l c t a).read b n = s.read b n := by simp [State.read]
@[simp] theorem State.taken_readWord (b : Nat) : (s.taken l c t a).readWord b = s.readWord b := by simp [State.readWord]
@[simp] theorem State.taken_readWords (b n : Nat) : (s.taken l c t a).readWords b n = s.readWords b n := by
  simp [State.readWords]
@[simp] theorem State.taken_sectorAccess (k : Nat) : (s.taken l c t a).sectorAccess k = s.sectorAccess k := by
  simp [State.sectorAccess, State.sectorHeld]
@[simp] theorem State.taken_access (b n : Nat) : (s.taken l c t a).access b n = s.access b n := by
  have h : (s.taken l c t a).sectorAccess = s.sectorAccess := funext fun k => s.taken_sectorAccess l c t a k
  rw [State.access, h, State.access]
@[simp] theorem State.taken_port (p : Nat) : (s.taken l c t a).port p = s.port p := by simp [State.port]
@[simp] theorem State.taken_die (d : Nat) : (s.taken l c t a).die d = s.die d := by simp [State.die]
@[simp] theorem State.taken_counter (k i : Nat) : (s.taken l c t a).counter k i = s.counter k i := by simp [State.counter]
@[simp] theorem State.taken_ringOk (k : Nat) (hbm : Bool) (b n al : Nat) (rw : Bool) :
    (s.taken l c t a).ringOk k hbm b n al rw = s.ringOk k hbm b n al rw := by simp [State.ringOk]
@[simp] theorem State.taken_leaJobs (k : Nat) : (s.taken l c t a).leaJobs k = s.leaJobs k := by simp [State.leaJobs]
@[simp] theorem State.taken_leaContexts (k : Nat) : (s.taken l c t a).leaContexts k = s.leaContexts k := by
  simp [State.leaContexts]
@[simp] theorem State.taken_pinnedMib (k : Nat) : ((s.taken l c t a).lea k).pinnedMib = (s.lea k).pinnedMib :=
  s.taken_lea_field l c t a k (·.pinnedMib) fun _ _ => rfl
@[simp] theorem State.taken_quotaUse (k : Nat) : (s.taken l c t a).quotaUse k = s.quotaUse k := by simp [State.quotaUse]
@[simp] theorem State.taken_queueIs (k i : Nat) (b : Bool) : ((s.taken l c t a).lea k).queueIs i b = (s.lea k).queueIs i b :=
  s.taken_lea_field l c t a k (·.queueIs i b) fun _ _ => rfl
@[simp] theorem State.taken_descOwner (d : RefillDesc) : (s.taken l c t a).descOwner d = s.descOwner d := by
  simp [State.descOwner]
@[simp] theorem State.taken_rangeUsed (k b n : Nat) : (s.taken l c t a).rangeUsed k b n = s.rangeUsed k b n := by
  simp [State.rangeUsed]

end Sys2Proof.Machine
end

