-- ==== Sys2Proof/WellFormed.lean ====
section
/-!
DEFINITION. WellFormed.lean: what a command's operands must be for the part to have what they name: its leas, dies, ports,
domains, sectors and the words of a mailbox request. Every meaning is total; on a command that is not well-formed it does
nothing, or what the spec's own check of the operand says.
-/

namespace Sys2Proof

/-! ## The checks, one for each kind of operand -/

/-- Leas 0 to 63 (00, 14). -/
def leaOk (l : Nat) : Bool := l < 64
/-- A request window holds a header, a tag and at most 62 argument words (Table 2.3). -/
def requestOk (args : List Word) : Bool := args.length ≤ 62
/-- Offsets in a BAR of at most 16 MiB (02). -/
def offsetOk (o : Nat) : Bool := o < 2 ^ 24
/-- Queues of a lea (02). -/
def queueOk (q : Nat) : Bool := q < 4096
/-- Completion rings of a lea (02). -/
def ringOk (r : Nat) : Bool := r < 512
/-- An op slot is 128 bytes; a host read that fails brings none. -/
def slotOk (b : List Byte) : Bool := b.isEmpty || b.length == 128
/-- The 256 vector clusters (05). -/
def clusterOk (c : Nat) : Bool := c < 256
/-- The four compute dies. -/
def dieOk (d : Nat) : Bool := d < 4
/-- The bundles of a die (09). -/
def bundleOk (b : Nat) : Bool := b < 32
/-- One direction of a bundle of a die. -/
def directionOk (b : Nat) : Bool := b < 64
/-- A lane of 16 groups of 34 (R231). -/
def laneOk (l : Nat) : Bool := l < 544
/-- Job handles (R316). -/
def jobOk (j : Nat) : Bool := j < 0xFFFF
/-- Instance keys are words. -/
def wordOk (w : Nat) : Bool := w < 2 ^ 32
/-- Windrow groups (R286). -/
def groupOk (g : Nat) : Bool := g < 64
/-- Ranks, and the two store targets (R358). -/
def rankOk (r : Nat) : Bool := r < 65536
/-- HBM channels (R200). -/
def channelOk (c : Nat) : Bool := c < 256
/-- HBM stacks. -/
def stackOk (k : Nat) : Bool := k < 8
/-- Sectors of the 576 class units (R196). -/
def sectorOk (x : Nat) : Bool := x < 576 * 2 ^ 25
/-- Edge domains (Table 1.5). -/
def domainOk (d : Nat) : Bool := d < 40
/-- The domains that can run on the internal oscillator (Table 1.5). -/
def oscillatorOk (d : Nat) : Bool := d == 31 || d == 32
/-- Fabric ports. -/
def portOk (p : Nat) : Bool := p < 16
/-- Optical engines. -/
def engineOk (e : Nat) : Bool := e < 4
/-- MAC addresses. -/
def macOk (b : List Byte) : Bool := b.length == 6
/-- IPv4 and IPv6 addresses. -/
def ipOk : IpAddr → Bool
  | .v4 b => b.length == 4
  | .v6 b => b.length == 16
/-- A received frame's operands. -/
def RxFrame.ok (f : RxFrame) : Bool := portOk f.port && macOk f.dstMac && ipOk f.src && ipOk f.dst && decide (f.udpPort < 65536)
/-- Thermal sensors (16, HOT_SENSOR). -/
def sensorOk (k : Nat) : Bool := k < 92
/-- Rails (Table 17.3). -/
def railOk (r : Nat) : Bool := r < 8
/-- What a census finds: lanes of the die's bundles. -/
def Census.ok (c : Census) : Bool := c.failed.all fun x => directionOk x.1 && laneOk x.2
/-- What a cold start finds: a census of each die. -/
def ColdStart.ok (c : ColdStart) : Bool := c.dies.length == 4 && c.dies.all Census.ok

/-! ## Commands -/

/-- Whether a command names only what the part has. -/
def Instr.wellFormed (i : Instr) : Bool :=
  match i with
  | .ping l _ a | .getInfo l _ a | .getStatus l _ a | .leaEnable l _ a | .leaDisable l _ a | .leaReset l _ a
  | .cringCreate l _ a | .cringDestroy l _ a | .queueCreate l _ a | .queueStop l _ a | .queueStart l _ a
  | .queueDestroy l _ a | .counterSet l _ a | .edgeRetry l _ a | .deviceHalt l _ a | .memUnitConfig l _ a
  | .memRefillSet l _ a | .memRefillClear l _ a | .memPin l _ a | .memUnpin l _ a | .memScrubSet l _ a
  | .memPoisonList l _ a | .memTgStart l _ a | .memTgStop l _ a | .wxReset l _ a | .wxFence l _ a | .wxUnfence l _ a
  | .stileCensusRead l _ a | .stileWidthSet l _ a | .stileRetireClear l _ a | .fabPortConfig l _ a
  | .fabPortEnable l _ a | .fabPortDisable l _ a | .fabAddrSet l _ a | .fabMacsecKey l _ a | .hykKeyLoad l _ a
  | .hykKeySwitch l _ a | .hykPeerSet l _ a | .hykPeerReset l _ a | .hykWindowSet l _ a | .hykWindowClear l _ a
  | .hykCfg l _ a | .wdrGroupSet l _ a | .wdrGroupClear l _ a | .wdrModeSet l _ a | .wdrSeqReset l _ a
  | .wdrGroupRead l _ a | .jobBind l _ a | .jobUnbind l _ a | .jobRead l _ a | .roleWrite l _ a | .roleRead l _ a
  | .stepReplay l _ a | .shardSet l _ a | .shardClear l _ a | .tedSet l _ a | .tedClear l _ a | .tedHomeSet l _ a
  | .creditLinkSet l _ a | .creditLinkClear l _ a | .balSet l _ a | .balTargetSet l _ a | .balRegionSet l _ a
  | .balRegionClear l _ a | .balKeyTag l _ a | .balObjectSet l _ a | .balAbandon l _ a | .balStateRead l _ a
  | .leaQuotaSet l _ a | .leaQuotaRead l _ a | .leaShareSet l _ a | .leaGrantSet l _ a | .leaGrantClear l _ a
  | .leaGrantRead l _ a | .mgtAddrSet l _ a | .mgtSrcSet l _ a | .mgtSrcRead l _ a | .mgtRingSet l _ a
  | .mgtRingClear l _ a | .mgtHbSet l _ a | .mgtHbClear l _ a | .mgtStageArm l _ a | .mgtStageDisarm l _ a
  | .fwWrite l _ a | .fwVerify l _ a | .fwActivate l _ a | .fwCommit l _ a | .fwSvnCommit l _ a | .fwInfo l _ a
  | .fwCommitCold l _ a | .attest l _ a | .storeRead l _ a | .pwrSet l _ a | .pwrThermalSet l _ a =>
    leaOk l && requestOk a
  | .nop c _ | .halt c _ | .setvl c _ | .setvlP c _ | .bnz c _ | .jmp c _ | .sublen c _ | .addlen c _ | .mov c _
  | .movi c _ | .uadd c _ | .usub c _ | .addmx c _ | .fadd c _ | .fsub c _ | .fmul c _ | .fma c _ | .fmin c _
  | .fmax c _ | .fabs c _ | .fneg c _ | .fcmp c _ | .fsel c _ | .padd c _ | .pmul c _ | .pfma c _ | .exp2 c _
  | .log2 c _ | .rcp c _ | .rsqrt c _ | .tanh c _ | .erf c _ | .sigm c _ | .fdiv c _ | .iadd c _ | .isub c _
  | .imul c _ | .and c _ | .or c _ | .xor c _ | .shl c _ | .shr c _ | .icmp c _ | .redsum c _ | .redmax c _
  | .redmin c _ | .bcast c _ | .perm c _ | .ldF c _ | .stF c _ | .ldmx c _ | .stmx c _ | .stmxS c _ | .ldm c _
  | .lds c _ | .sts c _ | .amo c _ | .cvt c _ =>
    clusterOk c
  | .elementwiseOp c | .rowDispatch c | .rowEnd c | .softmaxFwd c | .softmaxBwd c | .actFwd c | .actBwd c
  | .stashWrite c | .convert c =>
    clusterOk c
  | .data f | .post f | .ack f | .nak f | .heartbeat f | .refillReq f | .refillReply f | .receivedFrame f =>
    f.ok
  | .numvfsWrite _ | .opStart _ | .opCompletion _ | .completionRingRoom _ | .sgd _ | .adamw _ | .lion _
  | .accumulate _ | .phase _ | .phaseComplete _ | .mark _ | .normRead _ | .clip _ | .shardStamp _ | .shardCheck _
  | .prefetch _ | .copyLocal _ | .copyPeer _ | .copyPost _ | .windrowOp _ | .windrowSend _ | .resultLimitExpiry _
  | .dispatch _ | .returnRows _ | .combine _ | .snapshot _ | .snapshotCapture _ | .lossRecord _ | .restore _
  | .lossCheck _ | .historySync _ | .digest _ | .fill _ | .digestLimitExpiry _ =>
    true
  | .perst | .pcieLinkDown | .mailboxServe | .vfEnableSet | .vfEnableClear | .flrPf | .nextMatrixOpPick | .matrixOp
  | .arrayPassStart | .arrayPassEnd | .contrib | .result | .escalateReq | .tokens | .returnRecords | .getData
  | .sealed | .refused | .digestMsg | .history | .fillReq | .fillData | .fillDone | .fillAbort | .refillTableFree
  | .queuedEdgeRecovery | .refclkLoss | .refclkReturn | .refclkAbsentTimeout | .laneErrorInterval
  | .queuedWelxisReset | .refillReqServe | .hdrTransmit | .hdrCollision | .hdrBackoffExpiry | .mediumStuck
  | .mediumIdle | .tokenBucketRefill | .handoverAlive | .fwAliveTimeout | .coldTrialAliveTimeout
  | .attestDeferredSign | .overCurrentWarning | .i3cPrivateRead | .jtagBypass | .jtagIdcode | .jtagSamplePreload
  | .jtagExtest | .jtagClamp =>
    true
  | .hostFrame _ | .hdrHeartbeat _ | .healthReq _ | .stage _ =>
    true
  | .coldStart c => c.ok
  | .pcieLinkUp _ _ => true
  | .misalignedRegAccess l o _ | .registerWrite l o _ | .absentVfAccess l o _ => leaOk l && offsetOk o
  | .rcRead l o | .lowWordRead l o => leaOk l && offsetOk o
  | .mbxDoorbell l | .leaResetOpsStopped l => leaOk l
  | .flrLea l => leaOk l && decide (l ≠ 0)
  | .queueDoorbell l q _ => leaOk l && queueOk q
  | .cringHeadDoorbell l r _ => leaOk l && ringOk r
  | .clusterPrivWrite d _ _ => dieOk d
  | .mgtRingWrite _ | .hbInterval _ | .powerLoss _ | .i3cDynamicAddress _ => true
  | .slotFetch l q s => leaOk l && queueOk q && slotOk s
  | .scaleFold j i => jobOk j && wordOk i
  | .chunkDeadline g _ => groupOk g
  | .weightsSweep j | .sealImage j | .recomputeFinish j => jobOk j
  | .tgRunEnd c _ _ => channelOk c
  | .hbmUncorrectableRead x | .refillReqResend x | .refillDeadline x | .correctedReadError x => sectorOk x
  | .detectedReadError _ x => sectorOk x
  | .channelRepair c _ => channelOk c
  | .patrolScrub c u => (c ++ u).all sectorOk
  | .cacheError x _ => sectorOk x
  | .edpinFault k => stackOk k
  | .edgeClockLoss d | .edgePllRelock d | .edgeRelockTimeout d => domainOk d
  | .oscillatorFailure d _ => oscillatorOk d
  | .stileInvalidCode d b l => dieOk d && directionOk b && laneOk l
  | .stileCrcMismatch d | .welxisInternalFault d | .dieRejoin d => dieOk d
  | .groupStallTimeout d b ls => dieOk d && directionOk b && ls.all laneOk
  | .bundleRepairDone d b _ => dieOk d && bundleOk b
  | .welxisSelfTestEnd d c => dieOk d && c.ok
  | .portLinkFault p _ _ _ => portOk p
  | .portBringupDone p | .portHoldExpiry p | .pauseFrame p => portOk p
  | .connectorDetach e | .connectorLatch e => engineOk e
  | .arpRequest p m i t => portOk p && macOk m && ipOk (.v4 i) && ipOk (.v4 t)
  | .neighborSolicitation p m i t => portOk p && macOk m && ipOk (.v6 i) && ipOk (.v6 t)
  | .ackDelayExpiry j _ | .retxTimeout j _ | .roleResendTimer j _ | .roleResolveTimeout j _ => jobOk j
  | .rateWindowEnd j r => jobOk j && rankOk r
  | .powerWindowEnd _ r => r.all railOk
  | .thermalSample k _ => sensorOk k

end Sys2Proof
end

