-- ==== Sys2Proof/Tests/Slice0.lean ====
section
/-!
SUPPORT. Tests/Slice0.lean: for each statement, states and operands that meet the hypotheses of each of its clauses, and
small tests of single steps against the spec's own tables.
-/

set_option Elab.async false

namespace Sys2Proof.Tests

open Sys2Proof Sys2Proof.Machine

/-! ## States that the tests start from -/

/-- Every edge domain online, with the device in READY, the link up and lea 0 enabled with all of HBM granted. -/
def up : State :=
  { hub := { dev := .ready }, pcie := { up := true, width := 4, gen := 5 }, edge := { online := BitVec.allOnes 40 }, pwr := { coreOff := false }
    leas := [(0, { st := .enabled, quotas := Quotas.leaZero, grants := [(0, { base := 0, len := 2 ^ 29, rw := true })] })] }

/-- `up` with lea 0 changed. -/
def upLea (f : Lea → Lea) : State := up.modLea 0 f

/-- The same with lea 1 disabled. -/
def up1 : State := { up with leas := up.leas ++ [(1, { st := .disabled })] }

theorem serves_of (s : State) (h : (s.reachable 0 && !(s.lea 0).mbx.busy && (s.lea 0).mbx.deferral.isNone && s.cihalServes &&
    s.hub.turn == 0) = true) : s.Serves 0 := by
  simp only [Bool.and_eq_true, Bool.not_eq_true', Option.isNone_iff_eq_none, beq_iff_eq] at h
  obtain ⟨⟨⟨⟨h1, h2⟩, h3⟩, h4⟩, h5⟩ := h
  refine ⟨h1, by decide, h2, h3, h4, ?_⟩
  intro k hk hk0 h
  rw [h5] at h
  omega

/-! ## Witnesses: the host interface -/

theorem witness_LinkAndFunctionEvents :
    up.reachable 0 ∧ (up.lea 1).st = .absent ∧ (up.pcie.vfEnable = false ∧ 63 ≤ 63) ∧
    { up with pcie := { up.pcie with vfEnable := true } }.pcie.vfEnable = true := by decide

/-- A lea 0 with a queue and a ring of 16 slots. -/
def queued : State := upLea fun x => { x with
  queues := [(3, { hbm := true, base := 0x1000, log2 := 4, cring := 2, prio := 0, fabPost := false, job := 0xFFFF
                   stopped := false, head := 0 })]
  rings := [(2, { hbm := true, base := 0x2000, log2 := 4, write := 0, phase := true })] }

theorem witness_DoorbellWrites :
    (up.reachable 0 ∧ (up.lea 0).mbx.busy = false) ∧
    (∃ k, queued.reachable 0 ∧ 3 < 4096 ∧ (queued.lea 0).st ≠ .resetting ∧ (queued.lea 0).queues.find 3 = some k ∧
      (15 : Word).toNat < 2 ^ k.log2 ∧ k.log2 ≤ 16) ∧
    (∃ k, (queued.lea 0).queues.find 3 = some k ∧ 2 ^ k.log2 ≤ (16 : Word).toNat) ∧
    (∃ k, (queued.lea 0).rings.find 2 = some k ∧ (15 : Word).toNat < 2 ^ k.log2 ∧ k.log2 ≤ 16) ∧
    (∃ k, (queued.lea 0).rings.find 2 = some k ∧ 2 ^ k.log2 ≤ (16 : Word).toNat) := by
  refine ⟨by decide, ⟨_, by decide, by decide, by decide, rfl, by decide, by decide⟩, ⟨_, rfl, by decide⟩,
    ⟨_, rfl, by decide, by decide⟩, ⟨_, rfl, by decide⟩⟩

theorem witness_HostQueryAnswers : up.Serves 0 ∧ Fits 0 [] ∧ Fits 1 [0] ∧ ZeroOrSelf 0 [0] ∧ up.hub.dev ≠ .boot ∧
    argN [0] 0 < 64 ∧ (up.lea (argN [0] 0)).st ≠ .absent := ⟨serves_of _ (by decide), by decide⟩

/-- `queued` with its queue stopped. -/
def stopped : State := upLea fun _ => { (queued.lea 0) with
  queues := (queued.lea 0).queues.mapVals fun _ q => { q with stopped := true } }

/-- Lea 0 with a ring that no queue names. -/
def ringed : State := upLea fun x => { x with rings := (queued.lea 0).rings }

theorem witness_RingAndQueueCommands :
    (up1.Serves 0 ∧ up1.hub.dev ≠ .boot ∧ Fits 1 [1] ∧ argN [1] 0 < 64 ∧ (up1.lea (argN [1] 0)).st = .disabled ∧ up1.live) ∧
    (queued.Serves 0 ∧ queued.hub.dev ≠ .boot ∧ ∀ a ∈ [[511, 1, 0x4000, 0, 16]], Fits 5 a ∧ argN a 0 < 512 ∧ argN a 1 ≤ 1 ∧
      argAddrOk a 2 ∧ 4 ≤ argN a 4 ∧ argN a 4 ≤ 16 ∧
      queued.ringOk 0 (argN a 1 == 1) (argAddr a 2) (16 * 2 ^ argN a 4) 16 true ∧ argN a 0 < (queued.lea 0).quotas.rings ∧
      (queued.lea 0).st = .enabled ∧ (queued.lea 0).rings.has (argN a 0) = false) ∧
    (ringed.Serves 0 ∧ Fits 1 [2] ∧ argN [2] 0 < 512 ∧ (ringed.lea 0).rings.has 2 = true ∧
      ∀ e ∈ (ringed.lea 0).queues, e.2.cring ≠ 2) ∧
    (∀ a ∈ [[4095, 1, 0x4000, 0, 16, 2, 3, 0, 0]], Fits 9 a ∧ argN a 0 < 4096 ∧ argN a 1 ≤ 1 ∧ argAddrOk a 2 ∧ 4 ≤ argN a 4 ∧
      argN a 4 ≤ 16 ∧ argN a 5 < 512 ∧ argN a 6 < 4 ∧ argN a 7 ≤ 1 ∧ (argN a 7 = 1 → argN a 1 = 1) ∧
      queued.ringOk 0 (argN a 1 == 1) (argAddr a 2) (128 * 2 ^ argN a 4) 128 (argN a 7 == 1) ∧
      (argN a 7 = 1 → (queued.jobOf 0 (argN a 8)).isSome) ∧ (queued.lea 0).queues.length < (queued.lea 0).quotas.queues ∧
      (queued.lea 0).queues.has (argN a 0) = false ∧ (queued.lea 0).rings.has (argN a 5) = true) ∧
    (∃ k, argN [3] 0 < 4096 ∧ (queued.lea 0).queues.find (argN [3] 0) = some k ∧ k.stopped = false) ∧
    (∃ k, stopped.Serves 0 ∧ Fits 1 [3] ∧ (stopped.lea 0).queues.find (argN [3] 0) = some k ∧ k.stopped = true ∧
      ∀ e ∈ stopped.hub.ops, e.2.lea = 0 → e.2.queue ≠ argN [3] 0) := by
  refine ⟨⟨serves_of _ (by decide), by decide⟩, ⟨serves_of _ (by decide), by decide⟩,
    ⟨serves_of _ (by decide), by decide⟩, by decide, ⟨_, by decide, rfl, by decide⟩, ⟨_, serves_of _ (by decide), by decide, rfl, by decide⟩⟩

theorem witness_CounterQuotaShareGrantCommands :
    up1.Serves 0 ∧ up1.hub.dev ≠ .boot ∧ (Fits 2 [4095, 9] ∧ argN [4095, 9] 0 < (up1.lea 0).quotas.counters) ∧
    (∀ a ∈ [[1, 0x101, 16, 2]], Fits (2 + (onesBelow (argN a 1) 32).length) a ∧ argN a 0 < 64 ∧ argN a 1 < 512 ∧
      ∀ new ∈ [maskedQuotas (up1.lea (argN a 0)).quotas.list (argN a 1) 0 (a.drop 2)], (∀ p ∈ List.zip new quotaMax, p.1 ≤ p.2) ∧
      (∀ i < 9, ∀ tot ∈ quotaTotal.getD i none, (argN a 1).testBit i → up1.leas.foldl (fun n e => n +
        (if e.1 = argN a 0 then 0 else e.2.quotas.list.getD i 0)) 0 + new.getD i 0 ≤ tot) ∧
      (up1.lea (argN a 0)).st ≠ .absent ∧ (up1.lea (argN a 0)).st ≠ .resetting ∧
      ∀ i < 9, (argN a 1).testBit i → (up1.quotaUse (argN a 0)).getD i 0 ≤ new.getD i 0) ∧
    (∀ a ∈ [[1, 255, 0, 1, 2]], Fits 5 a ∧ argN a 0 < 64 ∧ argN a 1 < 256 ∧ argN a 2 < 256 ∧ argN a 3 < 256 ∧ argN a 4 < 256 ∧
      (up1.lea (argN a 0)).st ≠ .absent) ∧
    (∀ a ∈ [[0, 0x10000, 0, 0x10000, 1, 1]], Fits 6 a ∧ argN a 0 < 64 ∧ argAddrOk a 1 ∧ argAddr a 1 % 2 ^ 16 = 0 ∧
      argN a 3 % 2 ^ 16 = 0 ∧ 0 < argN a 3 ∧ up1.mem.inUsable (argAddr a 1) (argN a 3) ∧ argN a 4 ≤ 1 ∧ argN a 5 ≤ 1 ∧
      (up1.lea (argN a 0)).grants.length < (up1.lea (argN a 0)).quotas.grants ∧
      (up1.lea (argN a 0)).grants.freeFrom 0 16 = some 1) ∧
    (∃ g, Fits 2 [0, 0] ∧ (up1.lea 0).grants.find 0 = some g ∧ (∀ e ∈ up1.hub.ops, e.2.lea ≠ 0) ∧
      up1.rangeUsed 0 g.base g.len = false ∧ (up1.lea 0).st ≠ .resetting) :=
  ⟨serves_of _ (by decide), by decide, by decide, by decide, by decide, by decide, ⟨_, by decide, rfl, by decide, by decide⟩⟩

/-! ## Witnesses: power, start-up and firmware -/

theorem witness_PowerAndThermalLimits :
    up.pmActs ∧ up.pwr.cap < 1201 ∧ 1179 + up.pwr.hyst < up.pwr.cap ∧ (up.pwr.cap ≤ 1180 + up.pwr.hyst ∧ 1180 ≤ up.pwr.cap) ∧
    up.edgeOn 36 ∧ 16 * (up.pwr.throttle : Int) ≤ 1520 ∧ 1471 < 16 * ((up.pwr.throttle : Int) - 3) ∧
    (16 * ((up.pwr.throttle : Int) - 3) ≤ 1472 ∧ 1519 < 16 * (up.pwr.throttle : Int)) ∧ up.pwr.tripped = false := by decide

/-- `up` with a dynamic I3C address. -/
def addressed : State := { up with board := { up.board with i3cAddr := some 0x10 } }

theorem witness_SidebandAndPowerCommands :
    addressed.edgeFenced 35 = false ∧ addressed.board.i3cAddr.isSome ∧ addressed.edgeFenced 34 = false ∧ up.Serves 0 ∧ up.live ∧
    (∀ a ∈ [[580, 500, 1, 5], [850, 1200, 255, 255]], Fits 4 a ∧ 580 ≤ argN a 0 ∧ argN a 0 ≤ 850 ∧ argN a 0 % 5 = 0 ∧
      500 ≤ argN a 1 ∧ argN a 1 ≤ 1200 ∧ 1 ≤ argN a 2 ∧ argN a 2 ≤ 255 ∧ 5 ≤ argN a 3 ∧ argN a 3 ≤ 255) ∧
    (∀ a ∈ [[80], [100]], Fits 1 a ∧ 80 ≤ argN a 0 ∧ argN a 0 ≤ 100) :=
  ⟨by decide, by decide, by decide, serves_of _ (by decide), by decide⟩

/-- Firmware in its ROM, with erased banks of which one is marked, and at the start of a cold trial. -/
def marked : State := { up with fw := { up.fw with verified := some 0 } }
@[inherit_doc marked] def cold : State := { up with fw := { up.fw with coldTrial := true } }
/-- A handover that runs, with the firmware at its alive limit, and one that goes back. -/
def handing : State := { up with fw := { up.fw with
  fwAlive := 0, handover := some { bank := 0, since := 0, reverting := false } } }
@[inherit_doc handing] def reverting : State := { up with fw := { up.fw with
  handover := some { bank := 1, since := 0, reverting := true } } }

/-- Lea 0 with an ATTEST that waits, and the firmware with its last signature one interval ago, and one count less. -/
def signing : State := { upLea (fun x => { x with mbx := { x.mbx with busy := true, deferral := some .attest } }) with
  fw := { up.fw with attestArgs := some (List.replicate 10 0), lastSign := some 0 }
  edge := { up.edge with count := 2 ^ 25 } }
@[inherit_doc signing] def signed : State := { up with
  fw := { up.fw with lastSign := some 0 }, edge := { up.edge with count := 2 ^ 25 } }
@[inherit_doc signing] def signedLate : State := { up with
  fw := { up.fw with lastSign := some 0 }, edge := { up.edge with count := 2 ^ 25 - 1 } }

theorem witness_FirmwareAndAttestation :
    (up.Serves 0 ∧ up.hub.dev ≠ .boot ∧ (∀ a ∈ [[0x1FFF000, 0x1000, 0x1000, 0]], Fits 4 a ∧ argN a 0 % 4096 = 0 ∧
      argN a 1 % 4096 = 0 ∧ 0 < argN a 1 ∧ argN a 0 + argN a 1 ≤ 0x02000000 ∧ argAddrOk a 2 ∧
      up.mem.inUsable (argAddr a 2) (argN a 1) ∧ up.granted 0 (argAddr a 2) (argN a 1) false ∧ up.fw.writable = some 0 ∧
      up.hdr.staging = none ∧ up.edgeOn 33 ∧ up.access (argAddr a 2) (argN a 1) = .good) ∧ Fits 0 [] ∧
      up.fw.bankValid 0 = false ∧ up.fw.trial = false ∧ up.edgeOn 38) ∧
    (marked.Serves 0 ∧ marked.hub.dev ≠ .boot ∧ marked.fw.verified = some 0 ∧ marked.fw.trial = false ∧
      marked.fw.writable = some 0 ∧ marked.fw.bankRunstate 0 = marked.fw.bankRunstate marked.fw.running ∧ marked.edgeOn 33) ∧
    (cold.Serves 0 ∧ cold.hub.dev ≠ .boot ∧ cold.edgeOn 33 ∧ cold.fw.coldTrial = true) ∧
    (up.live ∧ ∀ a ∈ [[0x1000, 0]], Fits 2 a ∧ argAddrOk a 0 ∧ up.mem.inUsable (argAddr a 0) 4644 ∧
      up.granted 0 (argAddr a 0) 4644 true ∧ up.writeAccess (argAddr a 0) 4644 = .good) ∧
    (∀ a ∈ [List.replicate 8 0 ++ [0x1000, 0]], Fits 10 a ∧ argAddrOk a 8 ∧ up.mem.inUsable (argAddr a 8) 5652 ∧
      up.granted 0 (argAddr a 8) 5652 true ∧ up.fw.leafUnknown = false ∧ up.fw.fuses.keygen < 4 ∧ up.fw.nextLeaf < 2 ^ 30) ∧
    (signed.Serves 0 ∧ signed.live ∧ (∀ t, signed.fw.lastSign = some t → 2 ^ 25 ≤ signed.elapsed t) ∧ signed.edgeOn 33 ∧
      signed.writeAccess 0x1000 5652 = .good) ∧
    (signedLate.Serves 0 ∧ signedLate.live ∧ signedLate.fw.lastSign = some 0 ∧ signedLate.elapsed 0 < 2 ^ 25) ∧
    ((signing.lea 0).mbx.deferral = some .attest ∧ signing.fw.attestArgs = some (List.replicate 10 0) ∧
      (∀ t, signing.fw.lastSign = some t → 2 ^ 25 ≤ signing.elapsed t) ∧ signing.cihalServes ∧ signing.edgeOn 33) ∧
    (∃ h, handing.fw.handover = some h ∧ handing.edgeOn 31 ∧ h.reverting = false ∧ handing.fw.fwAlive ≤ handing.elapsed h.since) ∧
    (∃ h, reverting.fw.handover = some h ∧ reverting.edgeOn 31 ∧ h.reverting = true) := by
  refine ⟨⟨serves_of _ (by decide), by decide, by decide +kernel, by decide, by decide +kernel, by decide +kernel, by decide⟩,
    ⟨serves_of _ (by decide), by decide, rfl, by decide +kernel, by decide +kernel, rfl, by decide⟩,
    ⟨serves_of _ (by decide), by decide⟩, by decide +kernel, by decide +kernel,
    ⟨serves_of _ (by decide), by decide, ?_, by decide, by decide +kernel⟩,
    ⟨serves_of _ (by decide), by decide, rfl, by decide⟩, ⟨rfl, rfl, ?_, by decide⟩,
    ⟨_, rfl, by decide, rfl, by decide⟩, ⟨_, rfl, by decide, rfl⟩⟩
  · intro t h
    cases h
    decide
  · intro t h
    cases h
    decide

/-! ## A vendor image that verifies

`image` builds the signature first and the keys from it, so that its verification needs no hash to be evaluated. -/

theorem shaRound_length (v : List (BitVec 32)) (k w : BitVec 32) (h : v.length = 8) : (shaRound v k w).length = 8 := by
  unfold shaRound
  split <;> simp_all

theorem shaRounds_length (ks w v : List (BitVec 32)) (h : v.length = 8) : (shaRounds ks w v).length = 8 := by
  induction ks generalizing w v with
  | nil => exact h
  | cons k ks ih => exact ih _ _ (shaRound_length v k _ h)

theorem shaBlocks_length (n : Nat) (h : List (BitVec 32)) (l : List Byte) (hl : h.length = 8) :
    (shaBlocks n h l).length = 8 := by
  induction n generalizing h l with
  | zero => exact hl
  | succ n ih => exact ih _ _ (by simp [shaBlock, shaRounds_length, hl])

theorem natToBE_length (n v : Nat) : (natToBE n v).length = n := by
  have : ∀ n v, (natToLE n v).length = n := by
    intro n
    induction n with
    | zero => intro v; rfl
    | succ n ih => intro v; simp [natToLE, ih]
  simp [natToBE, this]

theorem sha256_length (l : List Byte) : (sha256 l).length = 32 := by
  have h : ∀ ws : List (BitVec 32), (ws.flatMap fun w => natToBE 4 w.toNat).length = 4 * ws.length := by
    intro ws
    induction ws with
    | nil => rfl
    | cons w ws ih => simp [List.flatMap_cons, natToBE_length, ih]; omega
  simp only [sha256, h, shaBlocks_length _ shaInit _ (by decide)]

theorem lmsRoot_length (ident : List Byte) (h node : Nat) (path x : List Byte) (hx : x.length = 32) :
    (lmsRoot ident h node path x).length = 32 := by
  induction h generalizing node path x with
  | zero => exact hx
  | succ h ih => exact ih _ _ _ (sha256_length _)

/-- A run of zero bytes. -/
def zeros (n : Nat) : List Byte := List.replicate n 0

theorem zeros_length (n : Nat) : (zeros n).length = n := by simp only [zeros, List.length_replicate]

theorem slice_append_left (a b : List Byte) (i n : Nat) (h : i + n ≤ a.length) : slice (a ++ b) i n = slice a i n := by
  simp only [slice]
  rw [List.drop_append_of_le_length (by omega), List.take_append_of_le_length (by simp; omega)]

theorem slice_append_right (a b : List Byte) (i j n : Nat) (h : i = a.length + j) : slice (a ++ b) i n = slice b j n := by
  subst h
  simp only [slice]
  rw [List.drop_append, List.drop_eq_nil_of_le (by omega)]
  simp

theorem slice_all (a : List Byte) (n : Nat) (h : a.length = n) : slice a 0 n = a := by
  simp [slice, ← h]

/-- An LM-OTS signature of zeros. -/
def zeroOts : List Byte := [0, 0, 0, 3] ++ zeros 2176

/-- An LMS signature over leaf `q` with chains of zeros and a path, of type code `lms`. -/
def lmsSig (lms q : Nat) (path : List Byte) : List Byte :=
  [0, 0, 0, BitVec.ofNat 8 q] ++ zeroOts ++ [0, 0, 0, BitVec.ofNat 8 lms] ++ path

/-- The leaf that its chains give for a message. -/
def leafFor (h q : Nat) (msg : List Byte) : List Byte :=
  sha256 (zeros 16 ++ natToBE 4 (2 ^ h + q) ++ natToBE 2 0x8282 ++ otsCandidate (zeros 16) q zeroOts msg)

/-- The public key under which it verifies for a message. -/
def keyFor (lms h q : Nat) (path msg : List Byte) : List Byte :=
  [0, 0, 0, BitVec.ofNat 8 lms, 0, 0, 0, 3] ++ zeros 16 ++ lmsRoot (zeros 16) h (2 ^ h + q) path (leafFor h q msg)

theorem keyFor_length (lms h q : Nat) (path msg : List Byte) : (keyFor lms h q path msg).length = 56 := by
  simp [keyFor, lmsRoot_length, sha256_length, zeros_length, leafFor]

theorem lmsSig_length (lms q : Nat) (path : List Byte) : (lmsSig lms q path).length = 2188 + path.length := by
  simp [lmsSig, zeroOts, zeros_length]
  omega

theorem beToNat_small (n : Nat) (h : n < 256) : beToNat [0, 0, 0, BitVec.ofNat 8 n] = n := by
  simp only [beToNat, leToNat, List.reverse_cons, List.reverse_nil, List.nil_append, List.cons_append, BitVec.toNat_ofNat,
    show (0 : Byte).toNat = 0 from rfl]
  omega

theorem lms_verifies (lms h q : Nat) (path msg : List Byte) (hl : lms < 256) (hp : path.length = 32 * h) (hq : q < 2)
    (hh : 1 ≤ h) : lmsVerify lms h (keyFor lms h q path msg) msg (lmsSig lms q path) = true := by
  have h0 : slice (lmsSig lms q path) 0 4 = [0, 0, 0, BitVec.ofNat 8 q] := rfl
  have h4 : slice (lmsSig lms q path) 4 4 = [0, 0, 0, 3] := rfl
  have hk0 : slice (keyFor lms h q path msg) 0 4 = [0, 0, 0, BitVec.ofNat 8 lms] := rfl
  have hk4 : slice (keyFor lms h q path msg) 4 4 = [0, 0, 0, 3] := rfl
  have hk8 : slice (keyFor lms h q path msg) 8 16 = zeros 16 := rfl
  have hots : slice (lmsSig lms q path) 4 2180 = zeroOts := by
    rw [lmsSig, slice_append_left _ _ _ _ (by simp [zeros_length, zeroOts]),
      slice_append_left _ _ _ _ (by simp [zeros_length, zeroOts]), slice_append_right _ _ _ 0 _ (by simp)]
    exact slice_all _ _ (by simp [zeroOts, zeros_length])
  have hk24 : slice (keyFor lms h q path msg) 24 32 = lmsRoot (zeros 16) h (2 ^ h + q) path (leafFor h q msg) := by
    rw [keyFor, slice_append_right _ _ _ 0 _ (by simp [zeros_length])]
    exact slice_all _ 32 (lmsRoot_length _ _ _ _ _ (sha256_length _))
  have hlms : slice (lmsSig lms q path) 2184 4 = [0, 0, 0, BitVec.ofNat 8 lms] := by
    rw [lmsSig, slice_append_left _ _ _ _ (by simp [zeros_length, zeroOts]),
      slice_append_right _ _ _ 0 _ (by simp [zeros_length, zeroOts])]
    rfl
  have hpath : slice (lmsSig lms q path) 2188 (32 * h) = path := by
    rw [lmsSig, slice_append_right _ _ _ 0 _ (by simp [zeros_length, zeroOts])]
    exact slice_all _ _ hp
  have hlt : q < 2 ^ h := Nat.lt_of_lt_of_le hq (by
    calc 2 = 2 ^ 1 := rfl
      _ ≤ 2 ^ h := Nat.pow_le_pow_right (by omega) hh)
  simp only [lmsVerify, h0, h4, hk0, hk4, hk8, hk24, hots, lmsSig_length, hlms, hpath, hp, beToNat_small _ hl,
    beToNat_small q (by omega), keyFor_length, show beToNat [0, 0, 0, 3] = 3 from rfl, beq_self_eq_true, hlt, leafFor,
    Bool.and_true, decide_true]

/-- The signed head of an image of no bytes, with its RUNSTATE. -/
def imageHead (r : Nat) : List Byte :=
  [1, 0, 0, 0, 0, 0, 0, 0, 0, 0, 0, 0, 0, 0, BitVec.ofNat 8 r, 0, 0, 0, 0, 0] ++ zeros 12 ++ sha256 []

/-- The path of leaf `r` in a tree whose first two leaves sign the heads with RUNSTATE 0 and 1. -/
def imagePath (r : Nat) : List Byte := leafFor 10 (1 - r) (imageHead (1 - r)) ++ zeros 288

/-- The lower key, and the vendor key over it. -/
def lowerKey (r : Nat) : List Byte := keyFor 6 10 r (imagePath r) (imageHead r)
@[inherit_doc lowerKey] def vendorKey : List Byte := [0, 0, 0, 2] ++ keyFor 8 20 0 (zeros 640) (lowerKey 0)

theorem lmsRoot_pair (ident p a b : List Byte) (h n : Nat) (ha : a.length = 32) (hb : b.length = 32) :
    lmsRoot ident (h + 1) (2 * n + 1) (a ++ p) b = lmsRoot ident (h + 1) (2 * n) (b ++ p) a := by
  have ht : ∀ x : List Byte, x.length = 32 → (x ++ p).take 32 = x ∧ (x ++ p).drop 32 = p := fun x hx => by
    rw [← hx]
    exact ⟨List.take_left, List.drop_left⟩
  rw [lmsRoot, lmsRoot, (ht a ha).1, (ht a ha).2, (ht b hb).1, (ht b hb).2, show (2 * n + 1) / 2 = n by omega,
    show 2 * n / 2 = n by omega, if_pos (by omega), if_neg (by omega)]

theorem lowerKey_one : lowerKey 1 = lowerKey 0 := by
  simp only [lowerKey, keyFor, imagePath]
  have h := lmsRoot_pair (zeros 16) (zeros 288) (leafFor 10 0 (imageHead 0)) (leafFor 10 1 (imageHead 1)) 9 512
    (sha256_length _) (sha256_length _)
  exact congrArg _ h

/-- The signature of the image with RUNSTATE `r`. -/
def imageSig (r : Nat) : List Byte := [0, 0, 0, 1] ++ lmsSig 8 0 (zeros 640) ++ lowerKey 0 ++ lmsSig 6 r (imagePath r)

theorem hss_verifies (k mid s1 s2 msg : List Byte) (hk : k.length = 56) (hm : mid.length = 56) (h1 : s1.length = 2828)
    (h2 : s2.length = 2508) (v1 : lmsVerify 8 20 k mid s1 = true) (v2 : lmsVerify 6 10 mid msg s2 = true) :
    hssVerify ([0, 0, 0, 2] ++ k) msg ([0, 0, 0, 1] ++ s1 ++ mid ++ s2) = true := by
  have e1 : slice ([0, 0, 0, 1] ++ s1 ++ mid ++ s2) 2832 56 = mid := by
    rw [slice_append_left _ _ _ _ (by simp [h1, hm]), slice_append_right _ _ _ 0 _ (by simp [h1])]
    exact slice_all _ _ hm
  have e2 : slice ([0, 0, 0, 1] ++ s1 ++ mid ++ s2) 4 2828 = s1 := by
    rw [slice_append_left _ _ _ _ (by simp [h1, hm]), slice_append_left _ _ _ _ (by simp [h1]),
      slice_append_right _ _ _ 0 _ (by simp)]
    exact slice_all _ _ h1
  have e3 : slice ([0, 0, 0, 1] ++ s1 ++ mid ++ s2) 2888 2508 = s2 := by
    rw [slice_append_right _ _ _ 0 _ (by simp [h1, hm])]
    exact slice_all _ _ h2
  have e4 : slice ([0, 0, 0, 2] ++ k) 4 56 = k := by
    rw [slice_append_right _ _ _ 0 _ (by simp)]
    exact slice_all _ _ hk
  have e5 : beToNat (slice ([0, 0, 0, 2] ++ k) 0 4) = 2 := rfl
  have e6 : beToNat (slice ([0, 0, 0, 1] ++ s1 ++ mid ++ s2) 0 4) = 1 := rfl
  have l1 : ([0, 0, 0, 2] ++ k).length = 60 := by simp [hk]
  have l2 : ([0, 0, 0, 1] ++ s1 ++ mid ++ s2).length = 5396 := by simp [h1, h2, hm]
  simp only [hssVerify, e1, e2, e3, e4, e5, e6, l1, l2, v1, v2, beq_self_eq_true, Bool.and_true]

theorem image_verifies (r : Nat) (h : r < 2) : hssVerify vendorKey (imageHead r) (imageSig r) = true := by
  have hp : (imagePath r).length = 320 := by simp [imagePath, leafFor, sha256_length, zeros_length]
  have hv := lms_verifies 6 10 r (imagePath r) (imageHead r) (by omega) hp h (by omega)
  have hl : keyFor 6 10 r (imagePath r) (imageHead r) = lowerKey 0 := by
    rw [← lowerKey]
    rcases (show r = 0 ∨ r = 1 by omega) with hr | hr <;> rw [hr]
    exact lowerKey_one
  rw [hl] at hv
  have ht := lms_verifies 8 20 0 (zeros 640) (lowerKey 0) (by omega) (zeros_length _) (by omega) (by omega)
  have h1 : (lmsSig 8 0 (zeros 640)).length = 2828 := by rw [lmsSig_length, zeros_length]
  have h2 : (lmsSig 6 r (imagePath r)).length = 2508 := by rw [lmsSig_length, hp]
  rw [vendorKey, imageSig]
  exact hss_verifies _ _ _ _ _ (keyFor_length _ _ _ _ _) (keyFor_length _ _ _ _ _) h1 h2 ht hv

/-- The bytes of a bank with the image, without and with the CRC; bank 0 has the higher SEQ. -/
def bankHead (r : Nat) : List Byte :=
  imageHead r ++ vendorKey ++ imageSig r ++ zeros 2660 ++ [BitVec.ofNat 8 (1 - r), 0, 0, 0, 0, 0, 0, 0]
@[inherit_doc bankHead] def bankBytes (r : Nat) : List Byte := bankHead r ++ natToLE 4 (crc32 (bankHead r)).toNat

/-- Flash cells that hold bytes from an address on. -/
def cellsAt (a : Nat) : List Byte → List Host.Cell
  | [] => []
  | b :: rest => (a, b) :: cellsAt (a + 1) rest

theorem getD_cellsAt (l : List Byte) (m : List Host.Cell) (a k : Nat) (d : Byte) :
    Map.getD (cellsAt a l ++ m) k d = if a ≤ k ∧ k < a + l.length then l.getD (k - a) 0 else Map.getD m k d := by
  induction l generalizing a with
  | nil => simp [cellsAt] <;> omega
  | cons b l ih =>
    by_cases h : a = k
    · simp [cellsAt, Map.getD, Map.find, h]
    · have hi := ih (a + 1)
      simp only [Map.getD] at hi
      simp only [cellsAt, Map.getD, List.cons_append, Map.find, if_neg h, hi, List.length_cons]
      by_cases h2 : a + 1 ≤ k ∧ k < a + 1 + l.length
      · rw [if_pos h2, if_pos (by omega), show k - a = (k - (a + 1)) + 1 by omega]
        rfl
      · rw [if_neg h2, if_neg (by omega)]

/-- Firmware whose banks hold the image with RUNSTATE 0 and 1, that runs bank 0. -/
def vendorFw : Firmware :=
  { flash := cellsAt (bankBase 0) (bankBytes 0) ++ cellsAt (bankBase 1) (bankBytes 1), rom := false
    fuses := { keyHash := sha256 vendorKey } }

theorem imageSig_length (r : Nat) : (imageSig r).length = 5396 := by
  have hp : (imagePath r).length = 320 := by simp [imagePath, leafFor, sha256_length, zeros_length]
  have hk : (lowerKey 0).length = 56 := keyFor_length _ _ _ _ _
  simp only [imageSig, List.length_append, lmsSig_length, hp, hk, zeros_length, List.length_cons, List.length_nil]

theorem imageHead_length (r : Nat) : (imageHead r).length = 64 := by
  simp only [imageHead, List.length_append, zeros_length, sha256_length, List.length_cons, List.length_nil]

theorem vendorKey_length : vendorKey.length = 60 := by
  rw [vendorKey, List.length_append, keyFor_length]
  rfl

theorem bankHead_length (r : Nat) : (bankHead r).length = 8188 := by
  rw [bankHead, List.length_append, List.length_append, List.length_append, List.length_append, imageHead_length,
    imageSig_length, vendorKey_length, zeros_length]
  rfl

theorem natToLE_length (n v : Nat) : (natToLE n v).length = n := by
  have h := natToBE_length n v
  rwa [natToBE, List.length_reverse] at h

theorem bankBytes_length (r : Nat) : (bankBytes r).length = 8192 := by
  rw [bankBytes, List.length_append, bankHead_length, natToLE_length]

theorem range'_length (a n : Nat) : (range' a n).length = n := by
  induction n generalizing a with
  | zero => rfl
  | succ n ih => simp [range', ih]

theorem range'_getElem? (a n i : Nat) (h : i < n) : (range' a n)[i]? = some (a + i) := by
  induction n generalizing a i with
  | zero => omega
  | succ n ih =>
    match i with
    | 0 => rfl
    | i + 1 =>
      rw [range', List.getElem?_cons_succ, ih _ _ (by omega)]
      congr 1
      omega

theorem vendor_bank (r off n : Nat) (hr : r < 2) (h : off + n ≤ 8192) :
    vendorFw.bank r off n = slice (bankBytes r) off n := by
  have hl := bankBytes_length r
  apply List.ext_getElem?
  intro i
  by_cases hi : i < n
  · have hg : (slice (bankBytes r) off n)[i]? = some ((bankBytes r).getD (off + i) 0) := by
      have hlt : off + i < (bankBytes r).length := by omega
      simp only [slice, List.getElem?_take, hi, if_true, List.getElem?_drop, List.getD_eq_getElem?_getD,
        List.getElem?_eq_getElem hlt, Option.getD_some]
    rw [hg, Firmware.bank, List.getElem?_map, range'_getElem? _ _ _ hi, Option.map_some]
    congr 1
    have h0 : (bankBytes 0).length = 8192 := bankBytes_length 0
    have h1 : (bankBytes 1).length = 8192 := bankBytes_length 1
    rw [vendorFw, getD_cellsAt, h0]
    rcases (show r = 0 ∨ r = 1 by omega) with hr | hr
    · subst hr
      rw [if_pos (by omega), show bankBase 0 + off + i - bankBase 0 = off + i by omega]
    · subst hr
      have hb : bankBase 1 = bankBase 0 + 0x02000000 := rfl
      rw [if_neg (by omega), ← List.append_nil (cellsAt _ (bankBytes 1)), getD_cellsAt, h1, if_pos (by omega),
        show bankBase 1 + off + i - bankBase 1 = off + i by omega]
  · rw [List.getElem?_eq_none (by simp only [Firmware.bank, List.length_map, range'_length]; omega),
      List.getElem?_eq_none (by simp only [slice, List.length_take, List.length_drop]; omega)]

theorem leToNat_natToLE (v : Nat) (h : v < 2 ^ 32) : leToNat (natToLE 4 v) = v := by
  simp only [natToLE, leToNat, BitVec.toNat_ofNat]
  omega

theorem vendor_fields (r : Nat) (hr : r < 2) : vendorFw.bank r 0 64 = imageHead r ∧ vendorFw.bank r 64 60 = vendorKey ∧
    vendorFw.bank r 124 5396 = imageSig r ∧ vendorFw.bank r 0 8188 = bankHead r ∧ vendorFw.bank r 32 32 = sha256 [] ∧
    vendorFw.bank r 8188 4 = natToLE 4 (crc32 (bankHead r)).toNat ∧
    vendorFw.bank r 8180 4 = [BitVec.ofNat 8 (1 - r), 0, 0, 0] ∧ vendorFw.bank r 8184 1 = [0] := by
  have hi := imageHead_length r
  have hk := vendorKey_length
  have hs := imageSig_length r
  have hh := bankHead_length r
  have hz := zeros_length 2660
  have hb : ∀ off n, off + n ≤ 8188 → slice (bankBytes r) off n = slice (bankHead r) off n := fun off n h => by
    rw [bankBytes, slice_append_left _ _ _ _ (by omega)]
  have hx : ∀ j n, j + n ≤ 8 → slice (bankBytes r) (8180 + j) n = slice [BitVec.ofNat 8 (1 - r), 0, 0, 0, 0, 0, 0, 0] j n :=
    fun j n h => by
      rw [hb _ _ (by omega), bankHead, slice_append_right _ _ _ j _ (by simp only [List.length_append, hi, hk, hs, hz])]
  refine ⟨?_, ?_, ?_, ?_, ?_, ?_, ?_, ?_⟩ <;> rw [vendor_bank _ _ _ hr (by omega)]
  · rw [hb _ _ (by omega), bankHead, List.append_assoc, List.append_assoc, List.append_assoc,
      slice_append_left _ _ _ _ (by omega), slice_all _ _ hi]
  · rw [hb _ _ (by omega), bankHead, List.append_assoc, List.append_assoc, List.append_assoc,
      slice_append_right _ _ _ 0 _ (by omega), slice_append_left _ _ _ _ (by omega), slice_all _ _ hk]
  · rw [hb _ _ (by omega), bankHead, List.append_assoc, List.append_assoc, List.append_assoc,
      slice_append_right _ _ _ 60 _ (by omega), slice_append_right _ _ _ 0 _ (by omega),
      slice_append_left _ _ _ _ (by omega), slice_all _ _ hs]
  · rw [hb _ _ (by omega), slice_all _ _ hh]
  · rw [hb _ _ (by omega), bankHead, List.append_assoc, List.append_assoc, List.append_assoc,
      slice_append_left _ _ _ _ (by omega), imageHead,
      slice_append_right _ _ _ 0 _ (by simp only [List.length_append, zeros_length, List.length_cons, List.length_nil]),
      slice_all _ _ (sha256_length _)]
  · rw [bankBytes, slice_append_right _ _ _ 0 _ (by omega), slice_all _ _ (natToLE_length _ _)]
  · rw [hx 0 4 (by omega)]
    rfl
  · rw [hx 4 1 (by omega)]
    rfl

theorem vendor_head (r off n : Nat) (hr : r < 2) (h : off + n ≤ 64) : vendorFw.bank r off n = slice (imageHead r) off n := by
  have hi := imageHead_length r
  have hh := bankHead_length r
  rw [vendor_bank _ _ _ hr (by omega), bankBytes, slice_append_left _ _ _ _ (by omega), bankHead, List.append_assoc,
    List.append_assoc, List.append_assoc, slice_append_left _ _ _ _ (by omega)]

theorem vendor_valid (r : Nat) (hr : r < 2) : vendorFw.bankValid r = true := by
  obtain ⟨h1, h2, h3, h4, h5, h6, h7, h8⟩ := vendor_fields r hr
  have hcrc : (crc32 (bankHead r)).toNat < 2 ^ 32 := (crc32 (bankHead r)).isLt
  have e1 : vendorFw.bankN r 0 4 = 1 := by
    rw [Firmware.bankN, vendor_head _ _ _ hr (by omega)]
    rfl
  have e2 : vendorFw.bankN r 16 4 = 0 := by
    rw [Firmware.bankN, vendor_head _ _ _ hr (by omega)]
    rfl
  have e3 : vendorFw.bankN r 8 4 = 0 := by
    rw [Firmware.bankN, vendor_head _ _ _ hr (by omega)]
    rfl
  have e4 : vendorFw.bankN r 12 2 = 0 := by
    rw [Firmware.bankN, vendor_head _ _ _ hr (by omega)]
    rfl
  have e5 : vendorFw.bankN r 8188 4 = (crc32 (bankHead r)).toNat := by rw [Firmware.bankN, h6, leToNat_natToLE _ hcrc]
  have e6 : vendorFw.bankTrial r = 0 := by
    rw [Firmware.bankTrial, Firmware.bankN, h8]
    rfl
  have e7 : vendorFw.bank r 8192 0 = [] := by simp only [Firmware.bank, range', List.map_nil]
  have e8 : vendorFw.fuses.keyHash = sha256 vendorKey := by simp only [vendorFw]
  have e9 := image_verifies r hr
  have e10 : vendorFw.fuses.minSvn = 0 := by simp only [vendorFw]
  simp only [Firmware.bankValid, Firmware.bankAuthentic, Firmware.bankAllowed, Firmware.bankDigest, Firmware.bankSvn, e1, e2, e3,
    e4, e5, e6, e7, e8, e10, h1, h2, h3, h4, h5, e9, beq_self_eq_true, Nat.zero_le, decide_true, Bool.and_true,
    show ((0 : Nat) != 2) = true from rfl]

theorem winner_of (f : Firmware) (h0 : f.bankValid 0 = true) (h1 : f.bankValid 1 = true) (hs : f.bankSeq 1 ≤ f.bankSeq 0) :
    f.winner = some 0 := by
  simp only [Firmware.winner, h0, h1, if_neg (Nat.not_lt.mpr hs)]

theorem writable_of (f : Firmware) (hw : f.winner = some 0) (h1 : f.coldTrial = false) (h2 : f.rom = false) (h3 : f.running = 0)
    (h4 : f.coldPending = false) : f.writable = some 1 := by
  simp only [Firmware.writable, Firmware.trial, hw, h1, h2, h3, h4]
  decide

theorem vendor_seq (r : Nat) (hr : r < 2) : vendorFw.bankSeq r = 1 - r := by
  rw [Firmware.bankSeq, Firmware.bankN, (vendor_fields r hr).2.2.2.2.2.2.1]
  simp only [leToNat, BitVec.toNat_ofNat, show (0 : Byte).toNat = 0 from rfl]
  omega

theorem vendor_winner : vendorFw.winner = some 0 :=
  winner_of _ (vendor_valid 0 (by omega)) (vendor_valid 1 (by omega))
    (by rw [vendor_seq 0 (by omega), vendor_seq 1 (by omega)]; omega)

theorem vendor_writable : vendorFw.writable = some 1 :=
  writable_of _ vendor_winner (by simp only [vendorFw]) (by simp only [vendorFw]) (by simp only [vendorFw])
    (by simp only [vendorFw])

theorem vendor_runstate (r : Nat) (hr : r < 2) : vendorFw.bankRunstate r = r := by
  rw [Firmware.bankRunstate, Firmware.bankN, vendor_head _ _ _ hr (by omega)]
  rcases (show r = 0 ∨ r = 1 by omega) with h | h <;> subst h <;> rfl

theorem bankValid_congr (f g : Firmware) (b : Nat) (h1 : f.flash = g.flash) (h2 : f.fuses = g.fuses) :
    f.bankValid b = g.bankValid b := by
  cases f
  cases g
  simp only at h1 h2
  subst h1 h2
  rfl

theorem winner_congr (f g : Firmware) (h1 : f.flash = g.flash) (h2 : f.fuses = g.fuses) : f.winner = g.winner := by
  cases f
  cases g
  simp only at h1 h2
  subst h1 h2
  rfl

theorem runstate_congr (f g : Firmware) (b : Nat) (h1 : f.flash = g.flash) : f.bankRunstate b = g.bankRunstate b := by
  simp only [Firmware.bankRunstate, Firmware.bankN, Firmware.bank, h1]

theorem trial_of (f : Firmware) (hw : f.winner = some 0) (h1 : f.rom = false) (h2 : f.running = 1) : f.trial = true := by
  simp only [Firmware.trial, hw, h1, h2]
  exact Bool.or_true _

/-- What a cold start meets where everything comes up. -/
def census : ColdStart := { cut := .nothing, refclk := true, entropy := true, seed := 1, xspi := true, alive := true
                            dies := List.replicate 4 { failed := [], selfTest := true, rate := 1 }, stacksOk := 255, tj := 400 }

/-- `up` with this firmware. -/
def withFw (f : Firmware) : State := { up with fw := f }

theorem withFw_serves (f : Firmware) (h : f.handover = none) : (withFw f).Serves 0 := by
  have hc : (withFw f).cihalServes = true := by
    simp only [State.cihalServes, withFw, h]
    exact (by decide : (up.edgeOn 31 && true) = true)
  exact serves_of _ (by rw [hc]; rfl)

theorem witness_ColdStartAndPowerLoss :
    (census.refclk ∧ census.xspi ∧ ((withFw vendorFw).fw.cutShort census.cut).winner = some 0 ∧
      ((withFw vendorFw).fw.cutShort census.cut).bankTrial 0 ≠ 1) ∧
    (∃ s : State, s.fw.coldWait = some census ∧ s.fw.coldTrial = true ∧ s.fw.fwAlive ≤ s.elapsed s.fw.coldSince ∧
      s.fw.winner = some 0) := by
  have h : ∀ f : Firmware, f.winner = some 0 → ∃ s : State, s.fw.coldWait = some census ∧ s.fw.coldTrial = true ∧
      s.fw.fwAlive ≤ s.elapsed s.fw.coldSince ∧ s.fw.winner = some 0 := fun f hf =>
    ⟨withFw { f with coldWait := some census, coldTrial := true, fwAlive := 0 }, rfl, rfl, Nat.zero_le _,
      (winner_congr _ f rfl rfl).trans hf⟩
  have h8 : vendorFw.bankTrial 0 ≠ 1 := by
    rw [Firmware.bankTrial, Firmware.bankN, (vendor_fields 0 (by omega)).2.2.2.2.2.2.2]
    decide
  have hw := vendor_winner
  generalize vendorFw = f at *
  exact ⟨⟨rfl, rfl, hw, h8⟩, h _ hw⟩

theorem witness_FirmwareWithVendorImages :
    ((withFw vendorFw).Serves 0 ∧ (withFw vendorFw).fw.writable = some 1 ∧ (withFw vendorFw).hdr.staging = none ∧
      (withFw vendorFw).edgeOn 33 ∧ (withFw vendorFw).fw.bankValid 1 = true) ∧
    (∃ s : State, s.Serves 0 ∧ s.edgeOn 33 ∧ s.fw.coldTrial = false ∧ s.fw.trial = true ∧ s.fw.winner = some 0) ∧
    (∃ s : State, s.Serves 0 ∧ s.edgeOn 33 ∧ s.fw.writable = some 1 ∧ s.fw.winner = some 0 ∧ s.fw.verified = some 1 ∧
      s.fw.bankRunstate 1 ≠ s.fw.bankRunstate s.fw.running) := by
  have he : ∀ f, (withFw f).edgeOn 33 = true := fun f => by
    simp only [State.edgeOn, withFw]
    decide
  have h1 : vendorFw.coldTrial = false := by simp only [vendorFw]
  have h2 : vendorFw.rom = false := by simp only [vendorFw]
  have h3 : vendorFw.running = 0 := by simp only [vendorFw]
  have h4 : vendorFw.coldPending = false := by simp only [vendorFw]
  have h5 : vendorFw.handover = none := by simp only [vendorFw]
  have hr : vendorFw.bankRunstate 1 ≠ vendorFw.bankRunstate 0 := by
    rw [vendor_runstate 1 (by omega), vendor_runstate 0 (by omega)]
    decide
  have hw := vendor_winner
  have hv := vendor_valid 1 (by omega)
  have hwr := vendor_writable
  generalize vendorFw = f at *
  have hc : ∀ g : Firmware, g.flash = f.flash → g.fuses = f.fuses → g.winner = some 0 := fun g a b =>
    (winner_congr g f a b).trans hw
  have hw1 : ({ f with running := 1 } : Firmware).winner = some 0 := hc { f with running := 1 } rfl rfl
  have hw2 : ({ f with verified := some 1 } : Firmware).winner = some 0 := hc { f with verified := some 1 } rfl rfl
  have ht : ({ f with running := 1 } : Firmware).trial = true := trial_of { f with running := 1 } hw1 h2 rfl
  have hwr2 : ({ f with verified := some 1 } : Firmware).writable = some 1 :=
    writable_of { f with verified := some 1 } hw2 h1 h2 h3 h4
  have hr2 : ({ f with verified := some 1 } : Firmware).bankRunstate 1 ≠
      ({ f with verified := some 1 } : Firmware).bankRunstate f.running := by
    rw [runstate_congr { f with verified := some 1 } f 1 rfl, runstate_congr { f with verified := some 1 } f f.running rfl, h3]
    exact hr
  exact ⟨⟨withFw_serves f h5, hwr, rfl, he _, hv⟩,
    ⟨withFw { f with running := 1 }, withFw_serves _ h5, he _, h1, ht, hw1⟩,
    ⟨withFw { f with verified := some 1 }, withFw_serves _ h5, he _, hwr2, hw2, rfl, hr2⟩⟩

/-! ## Witnesses: edge domains and dies -/

/-- `up` with its reference clock, and with its edge state changed. -/
def clocked (f : Edge → Edge) : State := { up with edge := f { up.edge with refPresent := true } }

theorem witness_EdgeClockLossRecovery :
    (monitored 31 ∧ (clocked id).edgeOn 31 ∧ (clocked id).edgeFenced 31 = false ∧ (clocked id).edge.refPresent ∧
      ((clocked id).edge.recovery.any fun r => r.dom == 31) = false ∧
      (31 = 31 → (clocked id).edgeOn 32 ∨ (clocked id).edgeFenced 32) ∧ (clocked id).edge.recovery = none ∧
      (clocked id).edge.returning = []) ∧
    (∃ r s, s = clocked (fun e => { e with recovery := some r }) ∧ monitored 5 ∧ s.edgeOn 5 ∧ s.edge.refPresent ∧
      (s.edge.recovery.any fun r => r.dom == 5) = false ∧ s.edge.recovery.isSome) ∧
    (∃ r s, s = clocked (fun e => { e with recovery := some r }) ∧ monitored 4 ∧ s.edge.recovery = some r ∧ r.dom = 4 ∧
      r.retry = false ∧ 4 ≠ 31 ∧ 4 ≠ 32) := by
  refine ⟨by decide, ⟨{ dom := 4, retry := false, failed := 0, since := 0 }, _, rfl, by decide⟩,
    ⟨{ dom := 4, retry := false, failed := 0, since := 0 }, _, rfl, by decide⟩⟩

/-- A recovery that runs, at a count. -/
def recovering (d failed : Nat) (c : BitVec 64) : State := clocked fun e => { e with
  recovery := some { dom := d, retry := false, failed := failed, since := 0 }, count := c }

/-- The reference clock lost, with domains 31 and 32 on the oscillator and domain 3 fenced. -/
def lostClock : State := { up with edge := { online := (1#40 <<< 31) ||| (1#40 <<< 32), fenced := 1#40 <<< 3, pmOsc := true
                                             cihOsc := true, refLostAt := some 0, count := 10000000 } }

/-- The reference clock back, with domain 31 still on the oscillator. -/
def onOscillator : State := clocked fun e => { e with cihOsc := true }

theorem witness_EdgeRecoveryAndReferenceClock :
    (∃ r, (recovering 39 0 20000).edge.recovery = some r ∧ r.dom = 39 ∧ (recovering 39 0 20000).edge.refPresent ∧
      (recovering 39 0 20000).elapsed r.since ≤ 20000 ∧ (recovering 39 0 20000).fw.handover = none) ∧
    (∃ r, (recovering 39 1 20000).edge.recovery = some r ∧ 20000 ≤ (recovering 39 1 20000).elapsed r.since ∧ r.failed < 2) ∧
    (∃ r, (recovering 39 2 20000).edge.recovery = some r ∧ 20000 ≤ (recovering 39 2 20000).elapsed r.since ∧ 2 ≤ r.failed ∧
      r.retry = false) ∧
    (∃ s, s = clocked (fun e => { e with queued := [4] }) ∧ s.edge.recovery = none ∧ s.edge.refPresent ∧
      s.edge.returning = [] ∧ s.edge.queued = 4 :: []) ∧
    (clocked id).edge.refPresent ∧
    (lostClock.edge.refPresent = false ∧ lostClock.fw.coldWait = none ∧ ((List.range 40).filter fun d =>
      !lostClock.edgeFenced d && (!lostClock.edgeOn d || d == 31 || d == 32)).head? = some 0) ∧
    (lostClock.edge.refLostAt = some 0 ∧ 10000000 ≤ lostClock.elapsed 0 ∧ lostClock.edge.absentReported = false) ∧
    (onOscillator.onOsc 31 ∧ onOscillator.edge.refPresent) ∧
    (∃ s, s = clocked (fun e => { e with fenced := BitVec.allOnes 40 }) ∧ s.Serves 0 ∧ s.live ∧ s.edge.recovery = none ∧
      s.edge.returning = [] ∧ ∀ d ∈ [[39], [34], [35]], Fits 1 d ∧ argN d 0 < 40 ∧ s.edgeFenced (argN d 0)) := by
  refine ⟨⟨_, rfl, by decide⟩, ⟨_, rfl, by decide⟩, ⟨_, rfl, by decide⟩, ⟨_, rfl, by decide⟩, by decide, by decide, by decide,
    by decide, ⟨_, rfl, serves_of _ (by decide), by decide⟩⟩

theorem witness_OscillatorFailureStops : lostClock.onOsc 31 ∧ lostClock.onOsc 32 ∧ lostClock.edge.refPresent = false := by
  decide

/-- `up` with its four dies in service, and die 3 changed. -/
def dies (f : Die → Die) (g : Dies → Dies := id) : State := { up with
  dies := g { up.dies with die := [(0, { st := .inService }), (1, { st := .inService }), (2, { st := .inService }),
                                   (3, f { st := .inService })] } }

theorem witness_DieResetAndRecovery :
    ((dies id).die 3).st = .inService ∧ (dies id).dies.window = none ∧
    ((dies fun d => { d with st := .rejoining }).die 3).st = .rejoining ∧
    (dies id fun d => { d with window := some 0 }).dies.window.isSome ∧
    (((dies (fun d => { d with st := .resetting }) fun d => { d with window := some 3 }).die 3).st = .resetting ∧
      (dies (fun d => { d with st := .resetting }) fun d => { d with window := some 3 }).dies.window = some 3) ∧
    (∃ s c, s = dies (fun d => { d with st := .resetting }) (fun d => { d with window := some 3 }) ∧
      s.dies.window = some 3 ∧ c = { failed := [(62, 543)], selfTest := true, rate := 1 : Census } ∧ c.selfTest = true ∧
      ((s.census 3 c.failed).die 3).narrow = false ∧ s.fourthReset 3 = false) ∧
    (∃ s c, s = dies (fun d => { d with st := .resetting }) (fun d => { d with window := some 3 }) ∧
      s.dies.window = some 3 ∧ c = { failed := [], selfTest := false, rate := 1 : Census } ∧ c.selfTest = false) ∧
    ((dies (fun d => { d with st := .queued }) fun d => { d with waiting := [3] }).dies.waiting = 3 :: []) ∧
    (((dies fun d => { d with st := .rejoining }).die 3).st = .rejoining ∧
      (dies fun d => { d with st := .rejoining }).array.run = none) := by
  refine ⟨rfl, rfl, rfl, rfl, by decide, ⟨_, _, rfl, rfl, rfl, rfl, by decide +kernel, by decide⟩,
    ⟨_, _, rfl, rfl, rfl, rfl⟩, rfl, rfl, rfl⟩

/-- Die 3 with a lane that fails, its interval past, and a bundle under repair. -/
def failing : State := { dies (fun d => { d with repairing := [31] }) with edge := { up.edge with count := 2 ^ 20 } }

theorem witness_StileAndDieCommands :
    (543 < 544 ∧ 63 < 64 ∧ ((dies id).die 3).st ≠ .fenced) ∧ failing.dies.interval < failing.interval ∧
    31 ∈ (failing.die 3).repairing ∧ (dies id).Serves 0 ∧ (dies id).hub.dev ≠ .boot ∧ (dies id).live ∧
    (Fits 1 [3] ∧ ((dies id).die (argN [3] 0)).st = .inService ∧ (dies id).dies.window = none ∧ 2 ≠ argN [3] 0 ∧
      ((dies id).die 2).st ≠ .fenced) ∧
    ((dies fun d => { d with st := .fenced }).Serves 0 ∧ (dies fun d => { d with st := .fenced }).live ∧
      ((dies fun d => { d with st := .fenced }).die (argN [3] 0)).st = .fenced) ∧
    (∀ a ∈ [[3, 31, 1]], Fits 3 a ∧ argN a 0 < 4 ∧ argN a 1 < 32 ∧ argN a 2 < 2) ∧
    (∀ a ∈ [[3, 31, 2]], Fits 3 a ∧ argN a 0 < 4 ∧ argN a 1 < 32 ∧ 0 < argN a 2 ∧ argN a 2 < 3 ∧
      ((dies id).die (argN a 0)).allowed (argN a 1) ≤ argN a 2) ∧
    ((dies id).edgeOn 33 ∧ (dies id).edgeFenced 33 = false) := by
  refine ⟨by decide, by decide, by decide, serves_of _ (by decide), by decide, by decide, by decide,
    ⟨serves_of _ (by decide), by decide⟩, by decide, by decide +kernel, by decide⟩

/-! ## Witnesses: the Hedgerow port -/

/-- The part's own Hedgerow address and a peer's. -/
def ownMac : List Byte := [2, 0, 0, 0, 0, 1]
def peerMac : List Byte := [2, 0, 0, 0, 0, 2]

/-- A frame on the segment, padded and with its FCS. -/
def onWire (b : List Byte) : HdrRx := { bytes := wireFrame b, symbolErr := false, odd := false }

/-- A Hedgerow frame of type `k` with this body (Table 15.2). -/
def hdgFrame (k : Nat) (body : List Byte) : List Byte :=
  ownMac ++ peerMac ++ natToBE 2 0x88B5 ++ [BitVec.ofNat 8 (16 + k), 0] ++ natToBE 2 body.length ++ natToBE 4 7 ++ body

/-- A job of lea 0 with a key. -/
def keyed : Job := { lea := 0, jobId := 0x11223344, rank := 0, ranks := 2, seed := 1, scaleRegion := 0, stepRegion := 0
                     mapRegion := 0, keys := [(0, { key := List.replicate 32 0x5A, senderId := 0 })] }

/-- `up` with this port and that job. -/
def port15 (f : Hedgerow → Hedgerow := id) : State := { up with
  jobs := [(0, keyed)], hdr := f { mac := ownMac, rxRing := some { hbm := true, base := 0, log2 := 4 }, interval := 0
                                   hb := [(0, { job := 0, rank := 1, mac := peerMac, path := .hedgerow, since := 0 })] } }

/-- The heartbeat of rank 1 of that job. -/
def beat : List Byte :=
  let b := hdgFrame 1 (natToBE 4 0x11223344 ++ natToBE 2 1 ++ natToBE 2 0 ++ natToBE 2 1 ++ [0, 0] ++ natToBE 4 9 ++ natToBE 4 5 ++
    natToBE 4 0 ++ natToBE 4 0 ++ List.replicate 16 0)
  b.take 50 ++ gcmTag (List.replicate 32 0x5A) (hbNonce 1 0x11223344 9) (b.take 50) []

theorem passes15 (f : Hedgerow → Hedgerow) (b : List Byte) (h : ((port15 f).edgeOn 30 && (hdrFaults (onWire b)).2.isNone &&
    (port15 f).hdr.forUs ((onWire b).bytes.take 6) && slice (onWire b).bytes 6 6 != (port15 f).hdr.mac &&
    !groupMac (slice (onWire b).bytes 6 6) &&
    !((port15 f).hdr.source (slice (onWire b).bytes 6 6)).any (fun e => e.2.blocked) &&
    (port15 f).hdr.hasToken (slice (onWire b).bytes 6 6)) = true) : (port15 f).HdrPasses (onWire b) := by
  simp only [Bool.and_eq_true, Bool.not_eq_true', Option.isNone_iff_eq_none, bne_iff_ne] at h
  obtain ⟨⟨⟨⟨⟨⟨h1, h2⟩, h3⟩, h4⟩, h5⟩, h6⟩, h7⟩ := h
  exact ⟨h1, h2, h3, h4, h5, h6, h7⟩

/-- Staging armed for that peer, with a bank to write. -/
def stageFrame : List Byte := hdgFrame 4 (natToBE 4 0x99 ++ natToBE 4 0 ++ [1, 2, 3, 4])

def staging15 : State := { port15 (fun h => { h with staging := some { armId := 0x99, mac := peerMac, len := 4 } }) with fw := vendorFw }

theorem witness_HedgerowFrames :
    (∃ f r, (port15 id).HdrPasses f ∧ slice f.bytes 12 2 ≠ natToBE 2 0x88B5 ∧ (port15 id).hdr.rxRing = some r ∧
      (port15 id).rxRoom r) ∧
    (∃ f h j i e k, (port15 id).HdrPasses f ∧ isHedgerow f 1 ∧ 44 ≤ beToNat (slice f.bytes 16 2) ∧
      ((port15 id).jobs.find? fun x => x.2.jobId.toNat == beToNat (slice f.bytes 22 4)) = some (h, j) ∧
      (port15 id).hdr.hbOf h (beToNat (slice f.bytes 26 2)) = some (i, e) ∧ (port15 id).hdr.hb.find i = some e ∧
      (port15 id).jobs.find h = some j ∧ j.keys.find (beToNat (slice f.bytes 32 1) / 128) = some k ∧
      beToNat (slice f.bytes 28 2) = j.rank ∧
      gcmTag k.key (hbNonce (beToNat (slice f.bytes 30 2)) j.jobId (beToNat (slice f.bytes 34 4))) (f.bytes.take 50) [] =
        slice f.bytes 50 16 ∧
      (j.hb.getD (beToNat (slice f.bytes 32 1) / 128) {}).accepted.getD e.rank 0 < beToNat (slice f.bytes 34 4)) ∧
    (∃ f, (port15 id).HdrPasses f ∧ isHedgerow f 2 ∧ (port15 id).hdr.healthEn ∧ (port15 id).cihalServes ∧
      (port15 id).hdr.healthSent < (port15 id).hdr.healthRate) ∧
    (∃ f g, staging15.HdrPasses f ∧ isHedgerow f 4 ∧ staging15.hdr.staging = some g ∧ g.mac = slice f.bytes 6 6 ∧
      g.armId.toNat = beToNat (slice f.bytes 22 4) ∧ 9 ≤ beToNat (slice f.bytes 16 2) ∧
      beToNat (slice f.bytes 16 2) ≤ 1032 ∧ staging15.edgeOn 33 ∧ staging15.fw.writable = some 1 ∧
      beToNat (slice f.bytes 26 4) = g.next ∧
      g.next + (slice f.bytes 30 (beToNat (slice f.bytes 16 2) - 8)).length ≤ g.len) ∧
    ((port15 id).edgeOn 30 ∧ (port15 id).hdr.deliverBad = false ∧ (hdrFaults { onWire [] with odd := true }).2.isSome ∧
      (port15 id).hdr.forUs ((onWire (peerMac ++ ownMac)).bytes.take 6) = false) := by
  refine ⟨⟨onWire (ownMac ++ peerMac ++ [8, 0]), _, passes15 _ _ (by decide +kernel), by decide +kernel, rfl, by decide +kernel⟩,
    ⟨onWire beat, 0, _, 0, _, _, passes15 _ _ (by decide +kernel), ?_, by decide +kernel, rfl, rfl, rfl, rfl, rfl,
      by decide +kernel⟩,
    ⟨onWire (hdgFrame 2 []), passes15 _ _ (by decide +kernel), ?_, by decide +kernel⟩,
    ⟨onWire stageFrame, _, ?_, ?_, rfl, by decide +kernel, by decide +kernel, by decide +kernel, by decide +kernel,
      by decide +kernel, vendor_writable, by decide +kernel⟩, by decide +kernel⟩
  · unfold isHedgerow; decide +kernel
  · unfold isHedgerow; decide +kernel
  · refine ⟨?_, ?_, ?_, ?_, ?_, ?_, ?_⟩ <;> decide +kernel
  · unfold isHedgerow; decide +kernel

/-- A queued frame of the second tier. -/
def queued15 (a : Nat) (b : Option Nat) : HdrFrame := { tier := 2, bytes := ownMac, attempts := a, backoff := b }

/-- `port15` with a frame queued. -/
def sending15 (a : Nat) (b : Option Nat) : State := port15 fun h => { h with queue := [queued15 a b] }

theorem witness_HedgerowSendingAndTimers :
    (∀ a ∈ [0, 14, 15], (sending15 a none).edgeOn 30 ∧ (sending15 a none).hdr.txEn ∧ (sending15 a none).hdr.mediumStuck = false ∧
      (sending15 a none).hdr.txRing = none ∧ (sending15 a none).hdr.nextFrame = some (queued15 a none) ∧
      (queued15 a none).backoff = none) ∧
    (∃ s r, s = { port15 (fun h => { h with txRing := some { hbm := true, base := 0, log2 := 4 }, txTail := 1 }) with
        mem := { hbm := [(0, 14)] } } ∧ s.edgeOn 30 ∧ s.hdr.txEn ∧ s.hdr.mediumStuck = false ∧ s.hdr.queue = [] ∧
      s.hdr.txRing = some r ∧ r.hbm = true ∧ s.txWaiting r ∧ (s.txEntry r).2 = true) ∧
    (((sending15 1 (some 3)).hdr.queue.find? fun g => g.backoff.isSome) = some (queued15 1 (some 3))) ∧
    ((port15 id).edgeOn 30 ∧ (port15 id).hdr.mediumStuck = false) ∧
    (∃ s, s = { port15 id with edge := { up.edge with count := 2 ^ 20 } } ∧ s.hdr.interval < s.interval ∧
      ∃ e, s.hdr.hb.find 0 = some e ∧ e.interval ≤ s.elapsed e.since) ∧
    ((port15 id).reachable 0 ∧ (port15 id).edgeOn 30) := by
  refine ⟨by decide +kernel, ⟨_, _, rfl, by decide, by decide, by decide, by decide, rfl, by decide +kernel⟩, by decide, by decide,
    ⟨_, rfl, by decide +kernel, _, rfl, by decide +kernel⟩, by decide⟩

theorem witness_HedgerowCommands :
    (port15 id).Serves 0 ∧ (port15 id).hub.dev ≠ .boot ∧ (port15 id).live ∧
    (Fits 10 [1, 0x0200, 0, 0, 0, 0, 0, 0, 0, 0] ∧ ∀ i ∈ [1, 3, 5, 7, 9],
      argN [1, 0xFFFF, 0, 0, 0, 0, 0, 0, 0, 0] i < 2 ^ 16) ∧
    (∀ a ∈ [[15, 1, 0xFFFF, 7, 255, 1], [0, 1, 0, 7, 1, 0]], Fits 6 a ∧ argN a 0 < 16 ∧ argN a 2 < 2 ^ 16 ∧ argN a 5 < 2 ∧
      (argN a 1 ≠ 0 ∨ argN a 2 ≠ 0) ∧ 1 ≤ argN a 4 ∧ argN a 4 ≤ 255) ∧
    Fits 0 [] ∧
    (∀ a ∈ [[1, 1, 0, 0, 4], [1, 0, 0, 0, 12], [1, 1, 0, 0, 12]], Fits 5 a ∧ argN a 0 ≤ 1 ∧ argN a 1 ≤ 1 ∧ argAddrOk a 2 ∧
      4 ≤ argN a 4 ∧ argN a 4 ≤ 12 ∧ (argN a 1 = 1 → (port15 id).mem.inUsable (argAddr a 2) (2048 * 2 ^ argN a 4) ∧
      (port15 id).granted 0 (argAddr a 2) (2048 * 2 ^ argN a 4) (argN a 0 != 1)) ∧ (argN a 0 = 0 → (port15 id).hdr.rxRing = none) ∧
      (argN a 0 = 1 → (port15 id).hdr.txRing = none)) ∧
    (∀ a ∈ [[0]], Fits 1 a ∧ argN a 0 ≤ 1 ∧ (argN a 0 = 0 → (port15 id).hdr.rxRing.isSome) ∧
      (argN a 0 = 1 → (port15 id).hdr.txRing.isSome)) ∧
    (∃ j, ∀ a ∈ [[15, 0, 1, 2, 0, 2, 10000, 2], [1, 0, 0, 2, 0xFFFF, 0, 0x80000000, 255]], Fits 8 a ∧
      (port15 id).jobOf 0 (argN a 1) = some j ∧ argN a 0 < 16 ∧ argN a 2 < j.ranks ∧ argN a 4 < 2 ^ 16 ∧ argN a 5 ≤ 2 ∧
      10000 ≤ argN a 6 ∧ argN a 6 ≤ 2 ^ 31 ∧ 2 ≤ argN a 7 ∧ argN a 7 ≤ 255 ∧ (port15 id).hdr.hb.length < 16 ∧
      (port15 id).hdr.hb.has (argN a 0) = false ∧ j.keys ≠ []) ∧
    (∃ j e, Fits 2 [0, 0] ∧ (port15 id).jobOf 0 (argN [0, 0] 0) = some j ∧ argN [0, 0] 1 < 16 ∧
      (port15 id).hdr.hb.find (argN [0, 0] 1) = some e ∧ e.job = argN [0, 0] 0) ∧
    (∃ s, s = { port15 id with fw := vendorFw } ∧ s.Serves 0 ∧ s.hub.dev ≠ .boot ∧ s.fw.writable = some 1 ∧ s.hdr.staging = none ∧
      s.edgeOn 33 ∧ ∀ a ∈ [[1, 1, 0xFFFF, 0x02000000], [1, 1, 0, 1]], Fits 4 a ∧ argN a 2 < 2 ^ 16 ∧ 1 ≤ argN a 3 ∧
      argN a 3 ≤ 0x02000000) ∧
    (staging15.Serves 0 ∧ staging15.hdr.staging.isSome) := by
  have hs : staging15.Serves 0 := by
    have h : (port15 id).Serves 0 := serves_of _ (by decide)
    refine ⟨by decide, by decide, by decide, by decide, by decide +kernel, ?_⟩
    exact fun k hk hk0 h' => absurd h' (by show ¬ _ < (0 + 64 - 0 % 64) % 64; omega)
  have hf : ({ port15 id with fw := vendorFw } : State).Serves 0 := by
    refine ⟨by decide, by decide, by decide, by decide, by decide +kernel, ?_⟩
    exact fun k hk hk0 h' => absurd h' (by show ¬ _ < (0 + 64 - 0 % 64) % 64; omega)
  refine ⟨serves_of _ (by decide), by decide, by decide, ⟨by decide, by decide +kernel⟩, by decide +kernel, by decide, by decide +kernel, by decide,
    ⟨keyed, by decide +kernel⟩, ⟨_, _, by decide, rfl, by decide, rfl, rfl⟩, ⟨_, rfl, hf, by decide, vendor_writable, by decide, by decide, by decide⟩, hs, by decide⟩

/-! ## Witnesses: memory -/

/-- A job of two ranks: this device is worker 0 and rank 1 its partner; the keys are loaded and the peer is active. -/
def team : Job := { lea := 0, jobId := 0x11223344, rank := 0, ranks := 2, seed := 1, scaleRegion := 0x200000, stepRegion := 0x300000
                    mapRegion := 0x100000, mapHdr := [0, 1, 0, 1], keys := [(0, { key := List.replicate 32 0x5A, senderId := 0 })]
                    sendSlot := some 0, peers := [(1, { addr := .v4 [10, 0, 0, 1], mac := [2, 0, 0, 0, 0, 2], ports := 1 })] }

/-- `up` with that job; its role table says that rank 1 is partner 0, at EPOCH 5. -/
def teamed (m : Memory → Memory := id) : State := { up with
  jobs := [(0, team)], mem := m { hbm := [(0x100028, 1), (0x10002C, 5)], channels := [(255, { sparePins := 1, spareRows := 1 })]
                                  descs := [(0, { base := 0x400000, len := 65536, job := 0, object := 0 })] } }

/-- Sector 0x20000 waits for the partner. -/
def asking : State := { teamed fun m => { m with errs := [(0x20000, .poisoned)],
                                                 refills := [(0x20000, { desc := 0, wait := .partner 5 0 0 0 })], waiting := [0x20001] } with
  edge := { up.edge with count := 20000000 } }

theorem witness_MemoryErrorsAndRefills :
    (∀ x ∈ [0, 576 * 2 ^ 25 - 1], x / 2 ^ 25 < 576 ∧ ((teamed id).mem.unit (x / 2 ^ 25)).detect = false ∧
      (teamed id).mem.lostSector x = false ∧ (teamed id).mem.errs.has x = false ∧ (teamed id).mem.refills.length < 256 ∧
      (teamed id).mem.dirty.contains x = false) ∧
    ((teamed id).mem.parityServes 0 = false ∧ (teamed id).mem.descOf 0 = none) ∧
    (∃ s, s = teamed (fun m => { m with refills := (range' 1 256).map fun k => (k, { desc := 0, wait := .resolve 0 0 }) }) ∧
      0 / 2 ^ 25 < 576 ∧ (s.mem.unit (0 / 2 ^ 25)).detect = false ∧ s.mem.lostSector 0 = false ∧ s.mem.errs.has 0 = false ∧
      256 ≤ s.mem.refills.length) ∧
    (∃ s, s = teamed (fun m => { m with dirty := [7], units := [(0, { detect := true })] }) ∧ s.mem.dirty.contains 7 = true ∧
      7 / 2 ^ 25 < 576 ∧ (s.mem.unit (7 / 2 ^ 25)).detect = true) ∧
    (asking.mem.scrubRate ≠ 0 ∧ 2 ^ 20 ≤ asking.elapsed asking.mem.lastScrub ∧ (asking.mem.unit (9 / 2 ^ 25)).detect = false) ∧
    (255 < 256 ∧ 0 < ((teamed id).mem.channels.getD 255 {}).spareRows) ∧
    (asking.mem.waiting = 0x20001 :: [] ∧ asking.mem.refills.length < 256) ∧
    (∃ e d r, asking.mem.refills.find 0x20000 = some e ∧ e.wait = .partner 5 0 0 0 ∧ asking.mem.descs.find e.desc = some d ∧
      asking.fab.rtoCounts ≤ asking.elapsed 0 ∧ asking.refillPartner d = some (2, 0, r) ∧
      asking.mem.deadline.toNat ≤ asking.elapsed 0 ∧ asking.units.objects.find d.object.toNat = none) ∧
    (∃ s h r data, s = { teamed id with heldRefills := [h] } ∧ h = { job := 0, rank := 1, sectorReq := natToBE 8 0x400000 ++ natToBE 4 0, epoch := 0 } ∧
      s.heldRefills = [h] ∧
      s.refillAnswer (beToNat (h.sectorReq.take 8) / 32) (BitVec.ofNat 32 (beToNat (h.sectorReq.drop 8))) = some (r, data)) ∧
    (7 < 8 ∧ (teamed id).mem.stackLost.getLsbD 7 = false) := by
  refine ⟨by decide +kernel, by decide +kernel, ⟨_, rfl, by decide +kernel⟩, ⟨_, rfl, by decide⟩, by decide +kernel, by decide,
    by decide, ⟨_, _, { rank := 1, aux := 0, epoch := 5 }, rfl, rfl, rfl, by decide +kernel⟩,
    ⟨_, _, 0, List.replicate 32 0, rfl, rfl, rfl, by decide +kernel⟩, by decide⟩

/-- `teamed` with a pin, a run of the channel's generator, and no grants of the units that are configured. -/
def tested (lost : BitVec 8) : State := { teamed (fun m => { m with
    stackLost := lost, channels := [(0, { tgRun := some (false, 0, 4, 0) })] }) with
  leas := [(0, { st := .enabled, quotas := Quotas.leaZero, pins := [{ base := 0x10000, len := 65536 }]
                 grants := [(0, { base := 0, len := 2 ^ 29, rw := true })] })] }

theorem witness_MemoryCommandsAndTests :
    (tested 0).Serves 0 ∧ (tested 0).hub.dev ≠ .boot ∧ (tested 0).live ∧
    (∀ a ∈ [[1, 575, 1, 1], [575, 1, 0, 1]], Fits 4 a ∧ 1 ≤ argN a 1 ∧ argN a 0 + argN a 1 ≤ 576 ∧ argN a 2 ≤ 1 ∧ argN a 3 ≤ 1 ∧
      (tested 0).mem.stackLost = 0 ∧
      (∀ e ∈ (tested 0).leas, ∀ g ∈ e.2.grants, overlaps g.2.base g.2.len (argN a 0 * 2 ^ 30) (argN a 1 * 2 ^ 30) = false) ∧
      (∀ e ∈ (tested 0).leas, ∀ p ∈ e.2.pins, overlaps p.base p.len (argN a 0 * 2 ^ 30) (argN a 1 * 2 ^ 30) = false)) ∧
    ((tested 0).mem.units.Pairwise (fun a b => a.1 < b.1)) ∧
    (∀ a ∈ [[0x500000, 0, 65536, 0, 255], [0x20000, 0, 131072, 0xFFFF, 0]], Fits 5 a ∧ argAddrOk a 0 ∧ 0 < argN a 2 ∧
      argN a 2 % 2 ^ 16 = 0 ∧ argN a 4 < 256 ∧ (argN a 3 = 0xFFFF ∨ (tested 0).jobs.has (argN a 3) = true) ∧
      (tested 0).mem.inCorrected (argAddr a 0) (argN a 2) ∧
      (∀ e ∈ (tested 0).mem.descs, overlaps e.2.base e.2.len (argAddr a 0) (argN a 2) = false)) ∧
    (∀ a ∈ [[0x400000, 0]], Fits 2 a ∧ argAddrOk a 0 ∧ ∃ e ∈ (tested 0).mem.descs, e.2.base = argAddr a 0) ∧
    (∀ a ∈ [[0x30000, 0, 65536]], Fits 3 a ∧ argAddrOk a 0 ∧ argAddr a 0 % 2 ^ 16 = 0 ∧ 0 < argN a 2 ∧ argN a 2 % 2 ^ 16 = 0 ∧
      ceilDiv (((tested 0).lea 0).pins.foldl (fun n p => n + p.len) (argN a 2)) (2 ^ 20) ≤ ((tested 0).lea 0).quotas.pinMib ∧
      ceilDiv ((tested 0).leas.foldl (fun n e => n + e.2.pins.foldl (fun n p => n + p.len) 0) (argN a 2)) (2 ^ 20) ≤ 256 ∧
      (tested 0).mem.inUsable (argAddr a 0) (argN a 2) ∧ (tested 0).granted 0 (argAddr a 0) (argN a 2) false) ∧
    (∀ a ∈ [[0x10000, 0, 65536]], Fits 3 a ∧ argAddrOk a 0 ∧
      { base := argAddr a 0, len := argN a 2 } ∈ ((tested 0).lea 0).pins) ∧
    (∀ a ∈ [[0], [65535]], Fits 1 a ∧ argN a 0 < 65536) ∧ (Fits 0 [] ∧ ((tested 0).lea 0).st = .enabled) ∧
    ((tested 0x80).Serves 0 ∧ (tested 0x80).hub.dev ≠ .boot ∧ ∀ a ∈ [[1, 0, 3, 28, 9], [255, 1, 0, 4, 0]], Fits 5 a ∧
      argN a 0 < 256 ∧ argN a 1 ≤ 1 ∧ argN a 2 < 4 ∧ 4 ≤ argN a 3 ∧ argN a 3 ≤ 28 ∧
      ((tested 0x80).mem.channels.getD (argN a 0) {}).tgRun = none ∧
      (argN a 1 = 1 → (tested 0x80).mem.stackLost.getLsbD (argN a 0 / 32) = true)) ∧
    (Fits 1 [0] ∧ argN [0] 0 < 256 ∧ ((tested 0).mem.channels.getD (argN [0] 0) {}).tgRun.isSome) := by
  refine ⟨serves_of _ (by decide), by decide, by decide, by decide +kernel, by decide, by decide +kernel, by decide +kernel, by decide +kernel,
    by decide, by decide, by decide, ⟨serves_of _ (by decide), by decide +kernel⟩, by decide⟩

/-! ## Witnesses: jobs, roles and mapping -/

/-- `teamed` with the job's shard, window, Tedder configuration and credit link. -/
def mapped : State := { teamed id with jobs := [(0, { team with
  shards := [(3, (0x500000, 64))], windows := [(1, { base := 0x600000, len := 0x100000, data := true, refill := true })]
  links := [(7, { watch := 1, roleKind := 2, roleIndex := 0, window := 1, offset := 0, remote := 1, channel := 0 })]
  tedder := some { firstWorker := 0, sources := 1, cap := 1, d := 32, fmt := 3, topK := 1, homeSlots := 1, staging := 1, returnWin := 1
                   retRows := 1, channel := 0 } })] }

/-- `up` with three region headers (Table 6.1, Table 7.1, Table 12.3). -/
def headers : State := (((up.writeWords 0x200000 [0x01000A00]).writeWords 0x300000 [0x01000A08]).writeWords 0x100000
  [0x01000000, 1, 0, 1])

/-- The arguments of a JOB_BIND over them. -/
def bindWords : List Word := [0xAABBCCDD, 0, 2, 1, 0, 0x200000, 0, 0x300000, 0, 0x100000, 0, 1, 1, 4096, 1, 0]

theorem witness_JobRoleAndMappingCommands :
    (headers.Serves 0 ∧ headers.hub.dev ≠ .boot ∧ Fits 16 bindWords ∧ bindArgsOk bindWords ∧
      ∃ j, j = headers.bound 0 bindWords ∧ headers.regionOk 0 j.scaleRegion 32 ∧ headers.regionOk 0 j.stepRegion 32 ∧
      headers.regionOk 0 j.mapRegion 32 ∧ headers.access j.scaleRegion 32 = .good ∧ headers.access j.stepRegion 32 = .good ∧
      headers.access j.mapRegion 32 = .good ∧ headers.headersOk j ∧ headers.jobs.length < 256 ∧
      (headers.leaJobs 0).length < (headers.lea 0).quotas.jobs ∧ (headers.lea 0).st = .enabled ∧
      (∀ e ∈ headers.jobs, e.2.jobId ≠ j.jobId) ∧ headers.jobs.freeFrom 0 257 = some 0) ∧
    (mapped.Serves 0 ∧ mapped.hub.dev ≠ .boot) ∧
    (∃ j, mapped.jobOf 0 0 = some j ∧
      (Fits 1 [0] ∧ argN [0] 0 = 0 ∧ ∀ e ∈ mapped.hub.ops, e.2.job ≠ argN [0] 0) ∧
      (∀ a ∈ [[0, 1, 0, 1], [0, 2, 0, 1]], Fits 4 a ∧ argN a 0 = 0 ∧ j.rolesOk a ∧
        mapped.access (j.roleBase a) (8 * argN a 3) = .good) ∧
      (∀ a ∈ [[0, 2, 0, 1, 1, 6]], Fits (4 + 2 * argN a 3) a ∧ argN a 0 = 0 ∧ j.rolesOk a ∧
        mapped.access (j.roleBase a) (8 * argN a 3) = .good ∧
        ∀ i < argN a 3, signedLess (mapped.readWord (j.roleBase a + 8 * i + 4)) (wordAt a (5 + 2 * i)) = true) ∧
      (∀ a ∈ [[0, 2, 0, 1, 1, 5]], Fits (4 + 2 * argN a 3) a ∧ argN a 0 = 0 ∧ j.rolesOk a ∧ 0 < argN a 3 ∧
        signedLess (mapped.readWord (j.roleBase a + 8 * 0 + 4)) (wordAt a (5 + 2 * 0)) = false) ∧
      (∀ a ∈ [[0, 65535, 0x500100, 0, 64], [0, 0, 0x500100, 0, 0]], Fits 5 a ∧ argN a 0 = 0 ∧ argN a 1 < 65536 ∧ argAddrOk a 2 ∧
        mapped.mem.inUsable (argAddr a 2) (32 + argN a 4) ∧ mapped.granted 0 (argAddr a 2) (32 + argN a 4) true ∧
        j.shards.has (argN a 1) = false ∧ mapped.writeAccess (argAddr a 2) 32 = .good) ∧
      (Fits 2 [0, 3] ∧ argN [0, 3] 1 < 65536 ∧ j.shards.has (argN [0, 3] 1) = true) ∧
      (∀ a ∈ [[0, 0, 1, 2, 32, 3, 1, 1, 1, 1, 1, 4095], [0, 0, 1, 1, 16384, 4, 8, 1, 1, 1, 8, 0]], Fits 12 a ∧
        j.tedOk (tedArgs a)) ∧
      mapped.tedderBusy 0 = false ∧
      (∃ t, j.tedder = some t ∧ ∀ a ∈ [[0, 0, 65534, 0x700000, 0, 0x700100, 0, 0x700200, 0, 0x700300, 0, 0x700400, 0, 4094]],
        Fits 14 a ∧ argN a 1 < t.homeSlots ∧ (tedHomeArgs a).expert < 65535 ∧
        (tedHomeArgs a).counter + 1 < (mapped.lea 0).quotas.counters ∧ (∀ i ∈ [3, 5, 7, 9, 11], argAddrOk a i = true) ∧
        mapped.granted 0 (tedHomeArgs a).data0 (t.sources * t.cap * t.d) true ∧
        mapped.granted 0 (tedHomeArgs a).scale0 (t.sources * t.cap * (t.d / 32)) true ∧
        mapped.granted 0 (tedHomeArgs a).data1 (t.sources * t.cap * t.d) true ∧
        mapped.granted 0 (tedHomeArgs a).scale1 (t.sources * t.cap * (t.d / 32)) true ∧
        mapped.granted 0 (tedHomeArgs a).returns (2 * t.sources * 8) true) ∧
      (∀ a ∈ [[0, 255, 4095, 4, 0xFFFFFF, 255, 32, 4095, 4095], [0, 0, 0, 1, 0, 0, 0, 0, 0]], Fits 9 a ∧ argN a 1 < 256 ∧
        argN a 2 < (mapped.lea 0).quotas.counters ∧ argN a 2 < 4096 ∧ 1 ≤ argN a 3 ∧ argN a 3 ≤ 4 ∧ argN a 4 < 2 ^ 24 ∧
        argN a 5 < 256 ∧ argN a 6 % 32 = 0 ∧ argN a 7 < 4096 ∧ argN a 8 < 4096 ∧ j.links.has (argN a 1) = false) ∧
      (Fits 2 [0, 7] ∧ argN [0, 7] 1 < 256 ∧ j.links.has (argN [0, 7] 1) = true)) := by
  refine ⟨⟨serves_of _ (by decide), by decide, by decide, by decide, _, rfl, by decide +kernel⟩, ⟨serves_of _ (by decide), by decide⟩,
    ⟨_, rfl, by decide, by decide +kernel, by decide +kernel, by decide +kernel, by decide +kernel, by decide, by decide +kernel,
      by decide, ⟨_, rfl, by decide +kernel⟩, by decide +kernel, by decide⟩⟩

/-! ## Witnesses: optical ports and the transport's configuration -/

/-- `mapped` with one port, on engine 0. -/
def ported (f : Port → Port := id) (g : Fabric → Fabric := id) : State := { mapped with
  fab := g { ports := [(0, f { st := .up, configured := true, engine := 0, firstLane := 0, lanes := 8, lasers := true, frame := 9216
                               mac := [2, 0, 0, 0, 0, 9], ipv4 := [10, 0, 0, 9], ipv6 := List.replicate 16 1 })] }
  edge := { up.edge with count := 2 ^ 31 } }

theorem witness_PortEvents :
    (0 < 16 ∧ ((ported id).port 0).st = .up ∧
      (((ported id).port 0).faults.filter fun t => ((ported id).edge.count - t).toNat < 2 ^ 30).length < 7 ∧
      0 ≤ (ported id).fab.fecLimit) ∧
    (∃ s, s = ported (fun p => { p with faults := List.replicate 7 (2 ^ 31 - 1) }) ∧ (s.port 0).st = .up ∧
      7 ≤ ((s.port 0).faults.filter fun t => (s.edge.count - t).toNat < 2 ^ 30).length) ∧
    (∃ s, s = ported (fun p => { p with st := .training }) ∧ (s.port 0).st = .training ∧ (s.port 0).lasers ∧ s.edgeOn (8 + 0) ∧
      s.edgeOn (24 + (s.port 0).engine) ∧ s.fab.detached.contains (s.port 0).engine = false) ∧
    (∃ s, s = ported (fun p => { p with st := .hold }) ∧ (s.port 0).st = .hold ∧
      s.fab.holdCounts ≤ s.elapsed (s.port 0).holdSince) ∧
    (∃ x, 0 < 4 ∧ (ported id).fab.detached.contains 0 = false ∧ (ported id).fab.ports.find 0 = some x ∧ x.configured ∧
      x.engine = 0 ∧ x.active = true ∧ (ported id).edgeFenced 39 = false) ∧
    ((ported id).port 0).linked ∧
    (((ported id).port 0).ipv4 ≠ [] ∧ ((ported id).port 0).ipv6 ≠ [] ∧ (ported id).mayReply ((ported id).port 0)) := by
  refine ⟨by decide, ⟨_, rfl, by decide⟩, ⟨_, rfl, by decide⟩, ⟨_, rfl, by decide⟩, ⟨_, by decide, by decide, rfl, by decide⟩, by decide,
    by decide⟩

theorem witness_PortAndHykanCommands :
    ((ported id).Serves 0 ∧ (ported id).hub.dev ≠ .boot ∧ (ported id).live) ∧
    (∀ a ∈ [[15, 3, 8, 8, 0, 9216, 4094, 63, 2], [1, 0, 8, 1, 1, 1518, 0, 0, 1]], Fits 9 a ∧ argN a 0 < 16 ∧ argN a 1 < 4 ∧
      argN a 3 ∈ [1, 2, 4, 8] ∧ argN a 2 % argN a 3 = 0 ∧ argN a 2 + argN a 3 ≤ 16 ∧ argN a 4 ≤ 1 ∧ 1518 ≤ argN a 5 ∧
      argN a 5 ≤ 9216 ∧ argN a 6 ≤ 4094 ∧ argN a 7 < 64 ∧ argN a 8 < 3 ∧
      (argN a 8 = 1 → (configPort ((ported id).port (argN a 0)) a).gbps ≤ 200) ∧
      (∀ e ∈ (ported id).fab.ports, e.1 ≠ argN a 0 → e.2.sharesLane (configPort ((ported id).port (argN a 0)) a) = false) ∧
      ((ported id).port (argN a 0)).st = .disabled) ∧
    (∃ s, s = ported (fun p => { p with st := .faulted }) ∧ s.Serves 0 ∧ s.hub.dev ≠ .boot ∧ Fits 1 [0] ∧ argN [0] 0 < 16 ∧
      (s.port (argN [0] 0)).st = .faulted ∧ (s.port (argN [0] 0)).configured ∧ s.edgeOn (8 + argN [0] 0) ∧
      s.edgeOn (24 + (s.port (argN [0] 0)).engine)) ∧
    (Fits 1 [0] ∧ argN [0] 0 < 16 ∧ ((ported id).port (argN [0] 0)).st ≠ .disabled) ∧
    (∀ a ∈ [[15, 2, 9, 0, 0, 0, 0, 0, 65535]], Fits 9 a ∧ argN a 0 < 16 ∧ argN a 2 < 65536 ∧ argN a 8 < 65536 ∧
      ((ported id).port (argN a 0)).st = .disabled) ∧
    (∀ k ∈ [1, 2], ∃ s, s = ported (fun p => { p with suite := k }) ∧ s.Serves 0 ∧ s.hub.dev ≠ .boot ∧
      ∀ a ∈ [[0, 1, 3, 0, 0, 0, 0, 0, 0, 0, 0, 1, 2, 3, 4], [0, 0, 0, 0, 0, 0, 0, 0, 0, 0, 0, 1, 2, 3, 4]], Fits 11 a ∧ argN a 0 < 16 ∧
      argN a 1 ≤ 1 ∧ argN a 2 < 4 ∧ (s.port (argN a 0)).configured ∧
      ((s.port (argN a 0)).suite = 1 ∨ ((s.port (argN a 0)).suite = 2 ∧ 15 ≤ a.length))) ∧
    (∃ j, (ported id).jobOf 0 0 = some j ∧
      (∀ a ∈ [[0, 1, 0, 0, 0, 0, 0, 0, 0, 0, 65535]], Fits 11 a ∧ argN a 0 = 0 ∧ argN a 1 < 2 ∧ argN a 10 < 65536 ∧
        j.sendSlot ≠ some (argN a 1)) ∧
      (Fits 2 [0, 0] ∧ argN [0, 0] 1 < 2 ∧ j.keys.has (argN [0, 0] 1) = true) ∧
      (∀ a ∈ [[0, 1023, 0, 0, 0, 0, 0, 1, 65535, 65535], [0, 0, 1, 0, 0, 0, 0, 1, 0, 1]], Fits 10 a ∧ argN a 0 = 0 ∧ argN a 1 < 1024 ∧
        argN a 8 < 65536 ∧ argN a 9 < 65536 ∧ j.peers.find (argN a 1) = none) ∧
      (Fits 2 [0, 1] ∧ argN [0, 1] 1 < 1024 ∧ (j.peer (argN [0, 1] 1)).isSome) ∧
      (∀ a ∈ [[0, 255, 0x700000, 0, 32, 3], [0, 0, 0x700000, 0, 64, 1]], Fits 6 a ∧ argN a 0 = 0 ∧ argN a 1 < 256 ∧ argAddrOk a 2 ∧
        argAddr a 2 % 32 = 0 ∧ argN a 4 % 32 = 0 ∧ 0 < argN a 4 ∧ 1 ≤ argN a 5 ∧ argN a 5 ≤ 3 ∧
        (ported id).mem.inUsable (argAddr a 2) (argN a 4) ∧
        (ported id).granted 0 (argAddr a 2) (argN a 4) (bit (wordAt a 5) 0) ∧ j.windows.has (argN a 1) = false) ∧
      (Fits 2 [0, 1] ∧ argN [0, 1] 1 < 256 ∧ j.windows.has (argN [0, 1] 1) = true ∧ j.placing (argN [0, 1] 1) = false)) ∧
    (∀ a ∈ [[1024, 1, 2, 3, 4, 5, 6, 7, 8], [8192, 0, 0, 0, 0, 0, 0, 0, 0]], Fits 9 a ∧ argN a 0 ∈ [1024, 2048, 4096, 8192] ∧
      ∀ e ∈ (ported id).fab.ports, e.2.configured → argN a 0 + 130 + (if e.2.vlan = 0 then 0 else 4) +
        (if e.2.suite = 0 then 0 else 32) ≤ e.2.frame) := by
  refine ⟨⟨serves_of _ (by decide), by decide⟩, by decide +kernel, ⟨_, rfl, serves_of _ (by decide), by decide⟩, by decide, by decide, ?_,
    ⟨_, rfl, by decide, by decide, by decide, by decide, by decide +kernel, by decide⟩, by decide⟩
  · intro k hk
    refine ⟨_, rfl, serves_of _ ?_, ?_, ?_⟩
    · simp only [List.mem_cons, List.not_mem_nil, or_false] at hk
      rcases hk with rfl | rfl <;> decide
    · simp only [List.mem_cons, List.not_mem_nil, or_false] at hk
      rcases hk with rfl | rfl <;> decide
    · simp only [List.mem_cons, List.not_mem_nil, or_false] at hk
      rcases hk with rfl | rfl <;> decide +kernel

/-! ## Witnesses: the transport -/

/-- A key and a frame of rank 1 under it. -/
def key10 : List Byte := List.replicate 32 0x5A
def header10 (ty : Nat) (last : Bool) : HykHeader :=
  { type := ty, slot := 0, last := last, jobId := 0x11223344, src := 1, dst := 0, senderId := 1, txSeq := 0 }
def frame10 (payload : List Byte) : RxFrame :=
  { port := 0, fcsOk := true, dstMac := [2, 0, 0, 0, 0, 9], vlan := none, macsecOk := true, udp := true, ipPlain := true
    src := .v4 [10, 0, 0, 1], dst := .v4 [10, 0, 0, 9], ce := false, udpSumOk := true, udpPort := 0xB60E, payload := payload }
def packet10 (ty : Nat) (last : Bool) (n x : Nat) : RxFrame := frame10 ((header10 ty last).bytes ++ natToBE n x)
def slot10 : KeySlot := { key := key10, senderId := 0 }

/-- The tag of a packet is right under the key. -/
abbrev TagOk (f : RxFrame) : Prop :=
  gcmTag key10 (parseHeader f.payload).nonce (f.payload.take 36) ((f.payload.drop 36).take (f.payload.length - 52)) =
    f.payload.drop (f.payload.length - 16)

/-- A job that receives: a window, a heartbeat entry and a channel with a packet that is not acknowledged. -/
def taker (f : Job → Job := id) : Job := f { team with windows := [(1, { base := 0x400000, len := 0x10000, data := true, refill := true })] }
def takes10 (f : Job → Job := id) (g : State → State := id) : State := g { ported id with
  jobs := [(0, taker f)], mem := { hbm := (ported id).mem.hbm } }

/-- A packet in flight to rank 1. -/
def sent10 : TxPacket := { psn := 0, last := false, post := false, pl := ⟨0, 0, false, 0, 0⟩, src := .bytes [1], owner := .copy 0, step := 0
                           roleKind := 0, roleIndex := 0, roleEpoch := 0 }

/-- A placement and its data. -/
def placed (t n i : Nat) (sig : Bool) : List Byte := (Placement.bytes ⟨t, 0, sig, i, 1⟩ n) ++ List.replicate n 7

theorem witness_HykanCheckOrder :
    (∃ f, ((ported fun p => { p with st := .disabled }).port (frame10 []).port).linked = false ∧ f = frame10 [] ∧
      ((ported id).port f.port).linked ∧ f.fcsOk ∧ ((ported id).port f.port).suite = 0 ∧ ((ported id).port f.port).takes f ∧
      wellFormedPacket f.payload = false ∧ ((ported id).port { f with vlan := some 5 }.port).takes { f with vlan := some 5 } = false ∧
      { f with fcsOk := false }.fcsOk = false ∧
      ((ported fun p => { p with suite := 1 }).port { f with macsecOk := false }.port).suite ≠ 0) ∧
    (∀ x ∈ [(1, 13), (2, 140), (3, 16), (4, 12), (5, 16), (6, 16), (7, 48)], ∃ f, f = frame10 ((header10 x.1 true).bytes ++
      List.replicate (x.2 + 16) 0) ∧ ((takes10 id).port f.port).linked ∧ ((takes10 id).port f.port).takes f ∧ wellFormedPacket f.payload ∧
      (parseHeader f.payload).type = x.1 ∧
      ({ takes10 id with jobs := [] } : State).packetJob (parseHeader f.payload) = none ∧
      (takes10 id).packetJob (parseHeader f.payload) = some (0, taker id) ∧
      ((taker fun j => { j with peers := [] }).peer (parseHeader f.payload).src).any (fun x => x.st == .active && x.addr == f.src) = false ∧
      ((taker id).peer (parseHeader f.payload).src).any (fun x => x.st == .active && x.addr == f.src) = true ∧
      (taker fun j => { j with keys := [] }).keys.find (parseHeader f.payload).slot = none ∧
      (taker id).keys.find (parseHeader f.payload).slot = some slot10) ∧
    gcmTag key10 (parseHeader (frame10 ((header10 3 true).bytes ++ List.replicate 32 0)).payload).nonce
      ((frame10 ((header10 3 true).bytes ++ List.replicate 32 0)).payload.take 36)
      (((frame10 ((header10 3 true).bytes ++ List.replicate 32 0)).payload.drop 36).take 16) ≠ List.replicate 16 0 := by
  refine ⟨⟨_, by decide, rfl, by decide +kernel⟩, ?_, by decide +kernel⟩
  intro x hx
  refine ⟨_, rfl, ?_⟩
  revert x
  decide +kernel

/-- A DATA packet, and one that ends its message with a signal. -/
def dataPacket : RxFrame := packet10 1 false 60
  0x4a2d23c188ec027d112e52f3ebc078bfb2dd1eef3c43a288f5fe0e953a648a0d3704b35a3f1cab92e780032b9db16fe99956957a7dd6b778a2cac034
def lastPacket : RxFrame := packet10 1 true 60
  0x4a2d23c188ec027d9ed152f3ebc078bfb2dd1eef3c43a288f5fe0e953a648a0d3704b35a3f1cab92e780032bea1dca4933d37b5ec135acd09b4aeaea
/-- A POST packet. -/
def postPacket : RxFrame := packet10 2 true 156
  0x4a2e236188ec027d112e52f3ebc078bfb2dd1eef3c43a288f5fe0e953a648a0d3704b35a3f1cab92e780032b546c9c04137ca90b549aff1ddbbdd1e6818500ac5039dcbff935cc2149546ef2fe0e6c7adf20764557bf052f7645a1dd48474c8df2fe5f9843b96488ff24ba5951c0cb18c7ac8cf0663df77e6c9ece25404868ea2666e22d83a9b0e243a33fc2e060d738afb6caafbf1e9af57e91a42c
/-- An ACK, a NAK, a heartbeat, two refill requests and a refill reply. -/
def ackPacket : RxFrame := packet10 3 false 32
  0x4a2c23e088ec027d112e53f3ecce7fb8ec801c640226b3e2462b6f347cb700fb
def nakPacket : RxFrame := packet10 4 false 28
  0x4a2c23e189e4027d112e53f3af83f24351117bcba28779ea319959e2
def beatPacket : RxFrame := packet10 5 false 32
  0x4a2c23e888ec027d112e53f3ecc77fb82f6172545709c8cf7833cfa7cb04b73d
def askPacket : RxFrame := packet10 6 false 32
  0x4a2c23e188ac027d112e53f6ecc77fb871b9c9c2f50b81a2f65e1a9dac2f6621
def laterPacket : RxFrame := packet10 6 false 32
  0x4a2c23e188ac027d112e53f5ecc77fb82d6edc627d134eba62a809d3405de503
def replyPacket : RxFrame := packet10 7 false 64
  0x4a2c23e188ac007d112e53f3ecc77fb8b2dd1eef3c43a288f5fe0e953a648a0d3704b35a3f1cab92e780032b546c9c04f54690b829f4da87e4ffa397b20bfb37
theorem dataPacket_tag : TagOk dataPacket := by decide +kernel
theorem dataPacket_content : hykContent dataPacket slot10 = placed 1 32 0 false := by decide +kernel
theorem lastPacket_tag : TagOk lastPacket := by decide +kernel
theorem lastPacket_content : hykContent lastPacket slot10 = placed 1 32 4095 true := by decide +kernel
theorem postPacket_tag : TagOk postPacket := by decide +kernel
theorem postPacket_content : hykContent postPacket slot10 = placed 2 128 0 false := by decide +kernel
theorem ackPacket_tag : TagOk ackPacket := by decide +kernel
theorem ackPacket_content : hykContent ackPacket slot10 = natToBE 4 1 ++ List.replicate 8 0 ++ natToBE 2 9 ++ natToBE 2 0 := by decide +kernel
theorem nakPacket_tag : TagOk nakPacket := by decide +kernel
theorem nakPacket_content : hykContent nakPacket slot10 = natToBE 4 0 ++ natToBE 2 Status.noResource.code ++ List.replicate 6 0 := by decide +kernel
theorem beatPacket_tag : TagOk beatPacket := by decide +kernel
theorem beatPacket_content : hykContent beatPacket slot10 = natToBE 4 9 ++ List.replicate 12 0 := by decide +kernel
theorem askPacket_tag : TagOk askPacket := by decide +kernel
theorem askPacket_content : hykContent askPacket slot10 = natToBE 8 0x400000 ++ natToBE 4 5 ++ List.replicate 4 0 := by decide +kernel
theorem laterPacket_tag : TagOk laterPacket := by decide +kernel
theorem laterPacket_content : hykContent laterPacket slot10 = natToBE 8 0x400000 ++ natToBE 4 6 ++ List.replicate 4 0 := by decide +kernel
theorem replyPacket_tag : TagOk replyPacket := by decide +kernel
theorem replyPacket_content : hykContent replyPacket slot10 = natToBE 8 0x400200 ++ List.replicate 8 0 ++ List.replicate 32 7 := by decide +kernel

theorem dataPacket_passes : (takes10 id).HykPasses dataPacket 1 0 (taker id) slot10 :=
  ⟨by decide +kernel, by decide +kernel, by decide +kernel, by decide +kernel, by decide +kernel, rfl, by decide +kernel, rfl, dataPacket_tag, rfl⟩
theorem lastPacket_passes : (takes10 id).HykPasses lastPacket 1 0 (taker id) slot10 :=
  ⟨by decide +kernel, by decide +kernel, by decide +kernel, by decide +kernel, by decide +kernel, rfl, by decide +kernel, rfl, lastPacket_tag, rfl⟩

/-- `takes10` with a queue that takes POSTs. -/
def posted10 : State := takes10 id fun s => s.modLea 0 fun l => { l with
  queues := [(2, { hbm := true, base := 0x800000, log2 := 6, cring := 0, prio := 0, fabPost := true, job := 0 })] }

theorem witness_HykanPlacement :
    (∃ d w, (takes10 id).HykPasses dataPacket 1 0 (taker id) slot10 ∧ (taker id).InOrder dataPacket {} ∧
      hykContent dataPacket slot10 = d ∧ parsePlacement d = (⟨1, 0, false, 0, 1⟩, 32) ∧ 32 = d.length - 12 ∧
      (parseHeader dataPacket.payload).last = false ∧ (parseHeader dataPacket.payload).src = 1 ∧
      (taker id).windows.find 1 = some w ∧ w.data ∧ 0 + 32 ≤ w.len ∧ (takes10 id).writeAccess (w.base + 0) 32 ≠ .stall) ∧
    (∃ d, (takes10 id).HykPasses lastPacket 1 0 (taker id) slot10 ∧ (taker id).InOrder lastPacket {} ∧
      hykContent lastPacket slot10 = d ∧ parsePlacement d = (⟨1, 0, true, 4095, 1⟩, 32) ∧ 32 = d.length - 12 ∧
      (parseHeader lastPacket.payload).last ∧ 4095 < ((takes10 id).lea 0).quotas.counters ∧ (takes10 id).mem.descs = [] ∧
      (∀ e ∈ (takes10 id).jobs, e.2.shards = []) ∧ (takes10 id).wdr.groups = [] ∧ (taker id).tedder = none ∧
      (takes10 id).watchers 0 4095 = []) ∧
    (∃ d q, posted10.HykPasses postPacket 2 0 (taker id) slot10 ∧ (taker id).InOrder postPacket {} ∧
      hykContent postPacket slot10 = d ∧ parsePlacement d = (⟨2, 0, false, 0, 1⟩, 128) ∧ 128 = d.length - 12 ∧
      (parseHeader postPacket.payload).last ∧ posted10.postRefusal 0 (taker id) 2 = none ∧
      (posted10.lea 0).queues.find 2 = some q) := by
  refine ⟨⟨_, { base := 0x400000, len := 0x10000, data := true, refill := true }, dataPacket_passes, ⟨rfl, by decide +kernel, rfl, rfl, by decide, by decide +kernel, by decide +kernel⟩,
      dataPacket_content, by decide +kernel⟩,
    ⟨_, lastPacket_passes, ⟨rfl, by decide +kernel, rfl, rfl, by decide, by decide +kernel, by decide +kernel⟩, lastPacket_content, by decide +kernel⟩,
    ⟨_, _, ⟨by decide +kernel, by decide +kernel, by decide +kernel, by decide +kernel, by decide +kernel, rfl, by decide +kernel, rfl, postPacket_tag, rfl⟩, ⟨rfl, by decide +kernel, rfl, rfl, by decide, by decide +kernel, by decide +kernel⟩, postPacket_content, by decide +kernel, by decide +kernel, by decide +kernel, by decide +kernel, rfl⟩⟩

/-- What the clauses of HykanAnswers and HykanTimers start from. -/
def answering : State := takes10 (fun j => { j with
    tx := [(4096, { next := 1, unacked := [sent10] }), (4097, { unacked := [{ sent10 with owner := .copy 1 }], expiries := 7 })]
    rx := [(4096, { cum := 3, unackedCount := 2, oldest := some 0 })]
    peers := [(1, { addr := .v4 [10, 0, 0, 1], mac := [2, 0, 0, 0, 0, 2], ports := 1, rate := some 50 }),
              (2, { addr := .v4 [10, 0, 0, 3], mac := [2, 0, 0, 0, 0, 3], ports := 1, rate := some 50, ceSeen := true })]
    waits := [{ owner := .copy 9, key := 4096, firstNak := 0, epoch := 0, resendAt := some 0 }] })
  fun s => { s with mem := { s.mem with descs := [(0, { base := 0x400000, len := 65536, job := 0, object := 0, lastStep := 5 })]
                                        errs := [(0x20010, .poisoned)]
                                        refills := [(0x20010, { desc := 0, wait := .partner 5 0 0 0 })] }
                    hdr := (port15 id).hdr }

def job10 : Job := (answering.jobs.find 0).getD team

theorem witness_HykanAnswers :
    (∃ d c, answering.HykPasses ackPacket 3 0 job10 slot10 ∧ hykContent ackPacket slot10 = d ∧ beToNat ((d.drop 14).take 2) = 0 ∧
      job10.tx.find (chanKey (parseHeader ackPacket.payload).src (parseHeader ackPacket.payload).channel) = some c ∧ c.queued = [] ∧
      c.unacked ≠ [] ∧ ∀ p ∈ c.unacked, signedLess p.psn (BitVec.ofNat 32 (beToNat (d.take 4))) = true ∧ p.last = false) ∧
    (∃ d c p, answering.HykPasses nakPacket 4 0 job10 slot10 ∧ hykContent nakPacket slot10 = d ∧
      beToNat ((d.drop 4).take 2) = Status.noResource.code ∧
      job10.tx.find (chanKey (parseHeader nakPacket.payload).src (parseHeader nakPacket.payload).channel) = some c ∧ p ∈ c.unacked ∧
      p.psn = BitVec.ofNat 32 (beToNat (d.take 4))) ∧
    (∃ i e, answering.HykPasses beatPacket 5 0 job10 slot10 ∧
      answering.hdr.hbOf 0 (parseHeader beatPacket.payload).src = some (i, e)) ∧
    (∀ f ∈ [(askPacket, some (0, List.replicate 32 (0 : Byte))), (laterPacket, none)], ∃ d, answering.HykPasses f.1 6 0 job10 slot10 ∧
      hykContent f.1 slot10 = d ∧ beToNat (d.take 8) / 32 = 0x20000 ∧ (parseHeader f.1.payload).roleKind = 0 ∧
      job10.refillSource 0x20000 ∧ answering.refillAnswer 0x20000 (BitVec.ofNat 32 (beToNat ((d.drop 8).take 4))) = f.2) ∧
    (∃ d e x, answering.HykPasses replyPacket 7 0 job10 slot10 ∧ hykContent replyPacket slot10 = d ∧
      beToNat (d.take 8) / 32 = 0x20010 ∧ d.length = 48 ∧ beToNat ((d.drop 8).take 1) = 0 ∧
      answering.mem.refills.find 0x20010 = some e ∧ e.wait = .partner 5 0 0 0 ∧ answering.mem.descs.find e.desc = some x ∧
      x.job = 0) := by
  refine ⟨⟨_, { next := 1, unacked := [sent10] }, ⟨by decide +kernel, by decide +kernel, by decide +kernel, by decide +kernel, by decide +kernel, rfl, by decide +kernel, rfl, ackPacket_tag, rfl⟩,
      ackPacket_content, by decide +kernel⟩,
    ⟨_, { next := 1, unacked := [sent10] }, sent10, ⟨by decide +kernel, by decide +kernel, by decide +kernel, by decide +kernel, by decide +kernel, rfl, by decide +kernel, rfl, nakPacket_tag, rfl⟩,
      nakPacket_content, by decide +kernel⟩,
    ⟨0, { job := 0, rank := 1, mac := peerMac, path := .hedgerow, since := 0 }, ⟨by decide +kernel, by decide +kernel, by decide +kernel, by decide +kernel, by decide +kernel, rfl, by decide +kernel, rfl, beatPacket_tag, rfl⟩,
      by decide +kernel⟩, ?_,
    ⟨_, _, _, ⟨by decide +kernel, by decide +kernel, by decide +kernel, by decide +kernel, by decide +kernel, rfl, by decide +kernel, rfl, replyPacket_tag, rfl⟩,
      replyPacket_content, by decide +kernel, by decide +kernel, by decide +kernel, rfl, rfl, rfl, rfl⟩⟩
  intro f hf
  simp only [List.mem_cons, List.not_mem_nil, or_false] at hf
  rcases hf with rfl | rfl
  · exact ⟨_, ⟨by decide +kernel, by decide +kernel, by decide +kernel, by decide +kernel, by decide +kernel, rfl, by decide +kernel, rfl, askPacket_tag, rfl⟩,
      askPacket_content, by decide +kernel⟩
  · exact ⟨_, ⟨by decide +kernel, by decide +kernel, by decide +kernel, by decide +kernel, by decide +kernel, rfl, by decide +kernel, rfl, laterPacket_tag, rfl⟩,
      laterPacket_content, by decide +kernel⟩

theorem witness_HykanTimers :
    (answering.jobs.find 0 = some job10) ∧
    (∃ c, job10.rx.find 4096 = some c ∧ c.oldest = some 0 ∧ 2000 ≤ answering.elapsed 0) ∧
    (∃ c, job10.tx.find 4096 = some c ∧ (c.unacked.any fun p => !p.sacked && !job10.waitsFor p.owner) ∧
      answering.rto c ≤ answering.elapsed c.since ∧ c.expiries + 1 < answering.fab.retryLimit) ∧
    (∃ c, job10.tx.find 4097 = some c ∧ (c.unacked.any fun p => !p.sacked && !job10.waitsFor p.owner) ∧
      answering.rto c ≤ answering.elapsed c.since ∧ answering.fab.retryLimit ≤ c.expiries + 1) ∧
    (∃ p, job10.peer 1 = some p ∧ p.rate = some 50 ∧ p.rateAt < answering.rateWindowNow ∧ p.ceSeen = false ∧
      answering.peerPortRate job10 1 p = some 1600) ∧
    (∃ p, job10.peer 2 = some p ∧ p.rate = some 50 ∧ p.rateAt < answering.rateWindowNow ∧ p.ceSeen = true) ∧
    (∃ w, job10.waits[0]? = some w ∧ w.resendAt = some 0 ∧ answering.fab.rtoCounts ≤ answering.elapsed 0 ∧
      job10.resolveCounts ≤ answering.elapsed w.firstNak) := by
  refine ⟨rfl, ⟨_, rfl, by decide⟩, ⟨_, rfl, by decide⟩, ⟨_, rfl, by decide⟩, ⟨_, rfl, rfl, by decide⟩, ⟨_, rfl, rfl, by decide⟩,
    ⟨_, rfl, by decide⟩⟩

/-! ## Witnesses: the scalar cores -/

/-- An element-wise op: entry, AMO, and rows. -/
def eltOp (entry : Nat) (amo : Bool) (limit : Nat := 100) (rows : Nat := 1) : Op :=
  { lea := 0, queue := 0, slot := 0, hdr := [0x02010000, 0, 0xFFFF, 7, 0, 0, 0, 0], phase := .running
    body := [0x100, BitVec.ofNat 32 (entry * 65536), BitVec.ofNat 32 rows, 32, BitVec.ofNat 32 (b2n amo * 2 ^ 20), 0x700000, 0,
             BitVec.ofNat 32 limit] ++ (List.range 16).map (BitVec.ofNat 32) }

/-- Op 0 runs a row on cluster 0: two lanes, with a0 to a3 set. -/
def row11 (o : Op) (f : Cluster → Cluster := id) (g : State → State := id) : State := g { up with
  hub := { up.hub with ops := [(0, o)], nextOp := 1 }, array := { inService := 1 }
  scalar := { clusters := [(0, f { op := some 0, len := 2, pc := 0x100, a := [(0, 0x500000), (1, 0x501000)]
                                   u := [(0, 1)], d := [(64, 0x3F800000), (65, 0x40000000)] })], runs := [(0, { op := 0 })] } }

/-- An instruction's fields. -/
def ops11 (dst s1 s2 s3 pred : Nat) (imm : Option Word) : IFields :=
  ⟨BitVec.ofNat 5 dst, BitVec.ofNat 5 s1, BitVec.ofNat 5 s2, BitVec.ofNat 5 s3, BitVec.ofNat 2 pred, imm⟩

theorem row11_runs (amo : Bool) : (row11 (eltOp 0 amo)).RunsRow 0 0 (eltOp 0 amo) := by
  cases amo <;> exact ⟨by decide, by decide, by decide⟩

theorem witness_UniformInstructionEffects :
    (row11 (eltOp 0 false)).RunsRow 0 0 (eltOp 0 false) ∧
    (∃ x, mxPair (ops11 22 0 0 3 0 none).dst.toNat = some 6 ∧ iBlockFmt (ops11 22 0 0 3 0 none) = some x) ∧
    (∀ i ∈ [0, 15, 16, 23], i < 24) ∧
    ((row11 (eltOp 0 false 1)).rowOn 0 = some (0, eltOp 0 false 1) ∧ (eltOp 0 false 1).entry = 0 ∧
      (eltOp 0 false 1).instrLimit ≤ ((row11 (eltOp 0 false 1)).cluster 0).instrs + 1) ∧
    mxPair (ops11 17 0 0 3 0 none).dst.toNat = none ∧ (up.cluster 0).op = none := by
  refine ⟨row11_runs _, ⟨_, by decide, rfl⟩, by decide, by decide, by decide, by decide⟩

theorem witness_RowRunsAndProgramFetch :
    (∃ s, s = row11 (eltOp 0 false) id (fun s => s.writeWords 0x100 [0x01000000]) ∧ s.RunsRow 0 0 (eltOp 0 false) ∧
      s.granted 0 (s.cluster 0).pc 4 false ∧ s.access (s.cluster 0).pc 4 = .good ∧
      fld (s.readWord (s.cluster 0).pc) 31 24 = 1 ∧ bit (s.readWord (s.cluster 0).pc) 1 = false ∧
      bit (s.readWord (s.cluster 0).pc) 0 = false) ∧
    (∃ s, s = row11 (eltOp 0 false) (fun k => { k with pc := 2 ^ 40 }) ∧ s.RunsRow 0 0 (eltOp 0 false) ∧
      s.granted 0 (s.cluster 0).pc 4 false = false) ∧
    (∃ t x, (row11 (eltOp 0 false)).fetchRun (eltOp 0 false) ((row11 (eltOp 0 false)).cluster 0) = .go t x ∧ x.st = .running) ∧
    (∃ s r, s = row11 (eltOp 0 false) (fun _ => {}) ∧ s.clusterOn 0 = true ∧ (s.cluster 0).op = none ∧
      pickLea ((s.leas.filter fun x => (s.rowPool 0).any fun e => e.2.lea == x.1).map fun x =>
        (x.1, x.2.wCluster, x.2.vCluster)) = some 0 ∧
      s.firstByPrio ((s.rowPool 0).filter fun e => e.2.lea == 0) = some 0 ∧ s.op 0 = some (eltOp 0 false) ∧
      s.scalar.runs.find 0 = some r ∧ r.rerun = []) ∧
    (up.clusterOn 0 = false) ∧
    (∃ s r, s = row11 (eltOp 0 false 100 2) (fun k => { k with st := .ended }) ∧ (s.cluster 0).op = some 0 ∧
      s.op 0 = some (eltOp 0 false 100 2) ∧ (s.cluster 0).st = .ended ∧ s.scalar.runs.find 0 = some r ∧
      r.doneRows + 1 < (eltOp 0 false 100 2).rows ∧ r.fail = none ∧ r.cancelled = false ∧ (s.cluster 0).mxElems = 0 ∧
      (s.cluster 0).underflow = 0) ∧
    (∃ s, s = row11 (eltOp 0 false) ∧ (s.cluster 0).op = some 0 ∧ s.op 0 = some (eltOp 0 false) ∧ (s.cluster 0).st = .running) := by
  refine ⟨⟨_, rfl, ⟨by decide +kernel, by decide +kernel, by decide +kernel⟩, by decide +kernel⟩,
    ⟨_, rfl, ⟨by decide, by decide, by decide⟩, by decide⟩, ⟨_, _, rfl, rfl⟩,
    ⟨_, _, rfl, by decide, by decide, by decide +kernel, by decide, by decide, rfl, rfl⟩, by decide,
    ⟨_, _, rfl, by decide, by decide, by decide, rfl, by decide⟩, ⟨_, rfl, by decide⟩⟩

theorem witness_LaneInstructions : ∃ k, (row11 (eltOp 0 false)).RunsRow 0 0 (eltOp 0 false) ∧ k = (row11 (eltOp 0 false)).cluster 0 ∧
    0 < k.len ∧ ∀ l < 64, k.lane 1 l = k.lane (ops11 2 1 1 1 0 none).s1.toNat l := ⟨_, row11_runs _, rfl, by decide, fun _ _ => rfl⟩

theorem witness_LaneMemoryInstructions :
    (∃ s k f x, s = row11 (eltOp 0 false) ∧ s.RunsRow 0 0 (eltOp 0 false) ∧ k = s.cluster 0 ∧ f = ops11 2 16 1 2 0 none ∧
      iPlainFmt f = some x ∧ Cells.wf s.mem.hbm ∧
      s.spansGranted 0 ((k.lanes f).map fun l => { base := k.base f + l * fmtUnitBytes x, len := fmtUnitBytes x }) ∧
      s.spansAccess ((k.lanes f).map fun l => { base := k.base f + l * fmtUnitBytes x, len := fmtUnitBytes x }) = .good ∧
      ∀ w, w = joinRuns ((k.lanes f).map fun l =>
          (k.base f + l * fmtUnitBytes x, natToLE (fmtUnitBytes x) (encodeVal x (fp32 (k.lane2 f l))).1)) →
        s.spansGranted 0 (w.map fun y => { base := y.1, len := y.2.length, write := true }) ∧
        s.spansAccess (w.map fun y => { base := y.1, len := y.2.length, write := true }) = .good) ∧
    (∃ s k f x, s = row11 (eltOp 0 false) (fun k => { k with a := [(0, 2 ^ 40)] }) ∧ s.RunsRow 0 0 (eltOp 0 false) ∧ k = s.cluster 0 ∧
      f = ops11 2 16 1 2 0 none ∧ iPlainFmt f = some x ∧
      s.spansGranted 0 ((k.lanes f).map fun l => { base := k.base f + l * fmtUnitBytes x, len := fmtUnitBytes x }) = false) ∧
    (∃ s k f x, s = row11 (eltOp 0 false) ∧ s.RunsRow 0 0 (eltOp 0 false) ∧ k = s.cluster 0 ∧ f = ops11 2 16 1 3 0 none ∧
      mxPair f.s1.toNat = some 0 ∧ iBlockFmt f = some x ∧ s.spansGranted 0 (k.strip 0 x false) ∧
      s.spansAccess (k.strip 0 x false) = .good ∧ 1 = ceilDiv k.len 8 ∧ s.spansGranted 0 [{ base := k.base f, len := 1 }] ∧
      s.spansAccess [{ base := k.base f, len := 1 }] = .good ∧ 0 < k.len ∧ k.len ≤ 64 ∧
      k.addrReg 0 + 2 * fmtUnitBytes x ≤ k.addrReg 1 ∧
      ∀ fix ∈ [none, some (k.uniform f.dst.toNat % 256)], ∀ w, w = joinRuns (((chunks32 3 (k.stored f)).map (storedBlock x fix)).zipIdx.map (fun b =>
          (k.addrReg 0 + b.2 * fmtUnitBytes x, packBlock x b.1.2.1)) ++
          ((chunks32 3 (k.stored f)).map (storedBlock x fix)).zipIdx.map fun b => (k.addrReg 1 + b.2, [BitVec.ofNat 8 b.1.1])) →
        s.spansGranted 0 (w.map fun y => { base := y.1, len := y.2.length, write := true }) ∧
        s.spansAccess (w.map fun y => { base := y.1, len := y.2.length, write := true }) = .good) ∧
    (∀ w ∈ [0, 1, 13], ∃ s k f, s = row11 (eltOp 0 true) (fun k => { k with len := 1 }) ∧ s.RunsRow 0 0 (eltOp 0 true) ∧ k = s.cluster 0 ∧
      f = ops11 2 16 3 1 0 (some w) ∧ f.imm = some w ∧ (eltOp 0 true).amo = true ∧ fld w 3 0 < 0xE ∧ 16 ≤ f.s1.toNat ∧
      f.s1.toNat ≤ 23 ∧ (∀ l ∈ k.lanes f, (k.base f + (k.lane f.s2.toNat l).toNat) % amoBytes (fld w 3 0) = 0) ∧
      s.spansGranted 0 ((k.lanes f).map fun l =>
        { base := k.base f + (k.lane f.s2.toNat l).toNat, len := amoBytes (fld w 3 0), write := true }) ∧
      s.spansAccess ((k.lanes f).map fun l =>
        { base := k.base f + (k.lane f.s2.toNat l).toNat, len := amoBytes (fld w 3 0) }) = .good ∧ k.lanes f = [0]) ∧
    (eltOp 0 false).amo = false ∧ (∀ q, up.mem.lostSector q = false) := by
  refine ⟨⟨_, _, _, .fp32, rfl, row11_runs _, rfl, rfl, by decide +kernel, by decide +kernel, by decide +kernel, by decide +kernel, ?_⟩,
    ⟨_, _, _, .fp32, rfl, ⟨by decide, by decide, by decide⟩, rfl, rfl, by decide +kernel⟩,
    ⟨_, _, _, .e4m3, rfl, row11_runs _, rfl, rfl, by decide +kernel, by decide +kernel, by decide +kernel, by decide +kernel, by decide +kernel,
      by decide +kernel, by decide +kernel, by decide +kernel, by decide +kernel, by decide +kernel, ?_⟩, ?_, by decide, ?_⟩
  · intro w hw
    subst hw
    decide +kernel
  · intro fix hf w hw
    subst hw
    simp only [List.mem_cons, List.not_mem_nil, or_false] at hf
    rcases hf with rfl | rfl <;> decide +kernel
  · intro w hw
    simp only [List.mem_cons, List.not_mem_nil, or_false] at hw
    rcases hw with rfl | rfl | rfl <;>
      exact ⟨_, _, _, rfl, ⟨by decide, by decide, by decide⟩, rfl, rfl, rfl, by decide +kernel⟩
  · intro q
    simp only [Memory.lostSector, Bool.and_eq_false_imp]
    intro h
    exact absurd h (by simp [up])

/-- The argument record of a library row, and the stash header that it reads (Table 5.7, Table 5.9, Table 5.11). -/
def libRecord (entry : Nat) : List Word :=
  if entry ≤ 2 then [0x22000000, 0x3F800000, 0, 0x600000, 0, 0, 128, 0x601000, 0, 0, 128, 0, 0, 0, 0, 0, 0, 0, 0, 0, 0x602000]
  else [0x22000000, 0x3F000000, 0x600000, 0, 0, 128, 0x601000, 0, 0, 128, 0x602000, 0, 0x30000000]

def lib11 (entry : Nat) : State :=
  let o := eltOp entry false
  row11 o id fun s => (s.writeWords 0x700000 (libRecord entry)).writeWords 0x602000
    (({ base := 0x602000, fmt := .e4m3, fixed := none, kind := 0, layer := 0, rowLen := 32 } : StashOut).header o)

def libArgs11 (entry : Nat) : LibArgs :=
  { entry := entry, words := (lib11 entry).argRecord (eltOp entry false), rows := 1, len := 32 }

theorem lib11_ready (e : Nat) (h : e ∈ [0x0001, 0x0002, 0x0010, 0x0011, 0x0020, 0x0021]) :
    (lib11 e).LibReady 0 0 e (eltOp e false) (libArgs11 e) := by
  simp only [List.mem_cons, List.not_mem_nil, or_false] at h
  rcases h with rfl | rfl | rfl | rfl | rfl | rfl <;>
    exact ⟨by decide +kernel, by decide, rfl, by decide +kernel, by decide +kernel, by decide +kernel, by decide +kernel, by decide +kernel⟩

theorem witness_LibraryRowResults :
    (∀ e ∈ [0x0001, 0x0002, 0x0010, 0x0011, 0x0020, 0x0021], (lib11 e).LibReady 0 0 e (eltOp e false) (libArgs11 e)) ∧
    ([((0x7FC00000 : Word), false)].any FV.nan) ∧
    (∃ a : LibArgs, a = { entry := 1, words := [0, 0x3F800000], rows := 1, len := 1 } ∧ [((0x3F800000 : Word), false)].any FV.nan = false ∧
      ∀ e ∈ smT a 0 [true] [((0x3F800000 : Word), false)], e = none) :=
  ⟨lib11_ready, by decide +kernel, _, rfl, by decide +kernel, fun e h => by
    have k : ∀ e : Option FV, e.isNone → e = none := fun e h => by simpa using h
    exact k e (List.all_eq_true.mp (by decide +kernel : (smT { entry := 1, words := [0, 0x3F800000], rows := 1, len := 1 } 0 [true]
      [((0x3F800000 : Word), false)]).all Option.isNone = true) e h)⟩

/-! ## Witnesses: ops -/

/-- An op of lea 0 and job `j`. -/
def op12 (cls func : Nat) (j : Nat) (w0 : Nat) (body : List Word) (phase : OpPhase := .waiting) : Op :=
  { lea := 0, queue := 0, slot := 0, phase := phase, body := body ++ List.replicate (24 - body.length) 0
    hdr := [BitVec.ofNat 32 (cls * 2 ^ 24 + func * 2 ^ 16 + w0 + 1), 0x77, BitVec.ofNat 32 j, 5, 1, 0x00100201, 5, 0] }

/-- A job in training, with its step region's and mapping region's headers. -/
def trainer (f : Job → Job := id) : Job := f { team with
  scaleHdr := [0x01000A00, 0], stepHdr := [0x01000A08], mapHdr := [0x01000100, 1, 0, 1], stepRegion := 0x300000 }

/-- `up` with that job, a queue in host memory with room in its ring, and one op. -/
def flight (o : Op) (f : Job → Job := id) (g : State → State := id) : State := g { up with
  jobs := [(0, trainer f)], hub := { up.hub with ops := [(0, o)], nextOp := 1 }, array := { inService := 1 }
  fab := (ported id).fab, edge := (ported id).edge
  leas := [(0, { (up.lea 0) with
    queues := [(0, { hbm := false, base := 0, log2 := 6, cring := 0, prio := 0, fabPost := false, job := 0 }),
               (1, { hbm := true, base := 0x800000, log2 := 6, cring := 0, prio := 0, fabPost := false, job := 0 })]
    qdb := [(0, 1), (1, 1)], rings := [(0, { hbm := false, base := 0x1000, log2 := 4 })], counters := [(1, { failed := true })] })] }

/-- A slot that holds a LOCAL copy of 64 bytes. -/
def slot12 (version : Nat) : List Byte := wordsToBytes ([BitVec.ofNat 32 (0x03020000 + version), 9, 0xFFFF, 0, 0, 0, 0, 0, 0, 64, 0x1000, 0, 0, 0x2000] ++
  List.replicate 18 0)

/-- The ops that the clauses of SlotFetchAndOpStart start. -/
def ready12 (j w0 : Nat) (back : Bool) : State := flight (op12 3 2 j w0 [0, 64, 0x1000, 0, 0, 0x2000])
  fun j => { j with backward := back }

theorem begins12 (s : State) (n : Nat) (o : Op) (h : (s.op n == some o && s.live && s.mayStart n o && !s.depFailed o && s.waitMet o &&
    s.unitFree n o && !s.phaseRefuses o && !s.updateRefused o) = true) : s.MayBegin n o := by
  simp only [Bool.and_eq_true, Bool.not_eq_true', beq_iff_eq] at h
  obtain ⟨⟨⟨⟨⟨⟨⟨h1, h2⟩, h3⟩, h4⟩, h5⟩, h6⟩, h7⟩, h8⟩ := h
  exact ⟨h1, h2, h3, h4, h5, h6, h7, h8⟩

theorem witness_SlotFetchAndOpStart :
    (∃ s k u, s = flight (op12 8 1 0 0 []) ∧ (s.lea 0).queues.find 0 = some k ∧ s.mayFetch 0 0 k = true ∧
      u = (s.modLea 0 fun x => x.passSlot 0) ∧ k.hbm = false ∧ (slot12 1).length = 128 ∧
      u.headerStatus (Op.ofSlot 0 0 k.head (slot12 1)) = none ∧
      u.headerStatus (Op.ofSlot 0 0 k.head (slot12 2)) = some .badVersion ∧ ([] : List Byte).length ≠ 128) ∧
    (∃ s k u slot, s = flight (op12 8 1 0 0 []) id (fun s => s.write 0x800000 (slot12 1)) ∧ (s.lea 0).queues.find 1 = some k ∧
      s.mayFetch 0 1 k = true ∧ u = (s.modLea 0 fun x => x.passSlot 1) ∧ k.hbm = true ∧
      s.access (k.base + 128 * k.head) 128 = .good ∧ slot = s.read (k.base + 128 * k.head) 128 ∧
      u.headerStatus (Op.ofSlot 0 1 k.head slot) = none) ∧
    (∃ s o, s = ready12 0xFFFF 0 false ∧ s.MayBegin 0 o ∧ o.cls ∈ [3, 4, 5] ∧ s.jobs.find o.job = none) ∧
    (∀ b, ∃ s o j, s = ready12 0 0 b ∧ s.MayBegin 0 o ∧ o.cls ∈ [3, 4, 5] ∧ s.jobs.find o.job = some j ∧ j.backward = b) ∧
    (∃ s o, s = ready12 0 2048 false ∧ s.op 0 = some o ∧ s.live ∧ s.mayStart 0 o ∧ s.depFailed o) ∧
    (∃ s o, s = (ready12 0 2048 false).modLea 0 (fun x => { x with counters := [] }) ∧ s.op 0 = some o ∧ s.depFailed o = false ∧
      s.waitMet o = false) := by
  refine ⟨⟨_, _, _, rfl, rfl, by decide, rfl, rfl, by decide +kernel⟩,
    ⟨_, { hbm := true, base := 0x800000, log2 := 6, cring := 0, prio := 0, fabPost := false, job := 0 }, _, _, rfl, by decide +kernel,
      by decide +kernel, rfl, rfl, by decide +kernel, rfl, by decide +kernel⟩,
    ⟨_, _, rfl, begins12 _ _ (op12 3 2 0xFFFF 0 [0, 64, 0x1000, 0, 0, 0x2000]) (by decide +kernel), by decide, by decide⟩,
    ?_, ⟨_, op12 3 2 0 2048 [0, 64, 0x1000, 0, 0, 0x2000], rfl, by decide +kernel⟩,
    ⟨_, op12 3 2 0 2048 [0, 64, 0x1000, 0, 0, 0x2000], rfl, by decide +kernel⟩⟩
  intro b
  refine ⟨_, op12 3 2 0 0 [0, 64, 0x1000, 0, 0, 0x2000], trainer (fun j => { j with backward := b }), rfl, begins12 _ _ _ ?_, by decide, ?_, ?_⟩ <;> revert b <;> decide +kernel

theorem witness_OpCompletion :
    (∃ s o k, s = flight (op12 3 2 0xFFFF 0 [] (.entryHeld .ok 3)) ∧ s.op 0 = some o ∧ (s.lea o.lea).st ≠ .resetting ∧
      s.opRing o = some (0, k) ∧ k.hbm = false ∧ s.pcie.up ∧ bit (wordAt o.hdr 0) 10 = false ∧ bit (wordAt o.hdr 0) 9 = false ∧
      o.phase = .entryHeld .ok 3 ∧ s.ringFull o.lea 0 k = false) ∧
    (∃ s o k, s = flight (op12 3 2 0xFFFF 0 [] (.entryHeld .ok 3)) id (fun s => s.modLea 0 fun x => { x with
        rings := [(0, { hbm := false, base := 0x1000, log2 := 4, write := 15 })] }) ∧ s.op 0 = some o ∧
      s.opRing o = some (0, k) ∧ s.ringFull o.lea 0 k = true) ∧
    (∃ s o k, s = flight (op12 3 2 0xFFFF 4096 [] (.done .ok 3)) ∧ s.op 0 = some o ∧ s.opRing o = some (0, k) ∧
      o.phase = .done .ok 3 ∧ bit (wordAt o.hdr 0) 12 = true ∧ s.watchers o.lea (fld (wordAt o.hdr 5) 19 8) = [] ∧
      s.jobs.find o.job = none ∧ o.cls ≠ 7 ∧ s.ringFull o.lea 0 k = false ∧ s.hub.ops.Pairwise (fun a b => a.1 < b.1)) ∧
    (∃ s o k, s = flight (op12 3 2 0xFFFF 0 [] (.done .ok 3)) id (fun s => s.modLea 0 fun x => { x with
        rings := [(0, { hbm := false, base := 0x1000, log2 := 4, write := 15 })] }) ∧ s.op 0 = some o ∧ o.phase = .done .ok 3 ∧
      s.opRing o = some (0, k) ∧ bit (wordAt o.hdr 0) 12 = false ∧ s.jobs.find o.job = none ∧ o.cls ≠ 7 ∧
      s.ringFull o.lea 0 k = true) := by
  refine ⟨⟨_, _, _, rfl, rfl, by decide, rfl, by decide⟩, ⟨_, _, _, rfl, rfl, rfl, by decide⟩,
    ⟨_, _, _, rfl, rfl, rfl, rfl, by decide⟩, ⟨_, _, _, rfl, rfl, rfl, rfl, by decide⟩⟩

/-- A matrix op of one 1 × 1 tile over 32 elements of BF16, in the array. -/
def matrix12 (f : MatrixRun → MatrixRun := id) : State :=
  flight { op12 1 3 0 0 [1, 1, 32, 0x00000000, 0, 0x500000, 0, 0, 64, 0x501000, 0, 0, 64, 0x502000, 0, 0, 64] .running with
      hdr := [0x01030001, 0, 0, 5, 0, 0, 0xFFFFFFFF, 0] } id
    fun s => { s.writeWords 0x500000 [0x00003F80] |>.writeWords 0x501000 [0x00004000] with
      array := { inService := 1, run := some (f { op := 0, dies := [0], start := none }) } }

def matOp : Op := ((matrix12 id).op 0).getD (op12 1 3 0 0 [])

theorem done_of (x : Drained) (h : (match x with | .done _ _ => true | _ => false) = true) : ∃ u r, x = .done u r := by
  cases x with
  | done u r => exact ⟨u, r, rfl⟩
  | waits => cases h
  | failed s r sec st => cases h

theorem witness_ArrayPassesAndOverflow :
    (∃ s, s = flight (op12 8 1 0 0 []) ∧ s.array.run = none ∧ s.pickStands = false ∧ s.array.inService ≠ 0 ∧ s.inArray = none) ∧
    ((matrix12 id).array.run.isSome) ∧
    (∃ r r' p, (matrix12 id).inArray = some (matOp, r) ∧ r.cancelled = false ∧ r.pass = none ∧ r.take matOp.mat = (r', some p)) ∧
    (∃ s r p u r', s = matrix12 (fun r => { r with drain := some p }) ∧ s.inArray = some (matOp, r) ∧ r.drain = some p ∧
      s.drainPass matOp { r with drain := none } false p = .done u r') ∧
    (∃ r x r' cells, (matrix12 fun r => { r with tiles := [(0, { t0 := -100 })] }).inArray = some (matOp, r) ∧
      (matrix12 id).tileNow matOp.mat (r.fill 0 0 ((matrix12 id).panelOf matOp.mat r 0 0)) (0, 0) = (x, r') ∧
      cells = matOp.mat.cells (readByte (matrix12 id).mem.hbm) x.t0 0 ((matrix12 id).panelOf matOp.mat r 0 0) ∧
      x.recomputed = false ∧ (cells.any fun row => row.any (Cell.over x.t0)) = true) := by
  refine ⟨⟨_, rfl, by decide⟩, by decide +kernel,
    ⟨{ op := 0, dies := [0], start := none }, { op := 0, dies := [0], start := none, next := 1 }, { band := 0, tiles := [(0, 0)] },
      by decide +kernel, by decide, by decide, by decide +kernel⟩, ?_,
    ⟨{ op := 0, dies := [0], start := none, tiles := [(0, { t0 := -100 })] }, { t0 := -100 },
      { op := 0, dies := [0], start := none, tiles := [(0, { t0 := -100 })] }, _, by decide +kernel, by decide +kernel, rfl, by decide,
      by decide +kernel⟩⟩
  obtain ⟨u, r', h⟩ := done_of ((matrix12 fun r => { r with drain := some { band := 0, tiles := [(0, 0)] } }).drainPass matOp
    { op := 0, dies := [0], start := none } false { band := 0, tiles := [(0, 0)] }) (by decide +kernel)
  exact ⟨_, { op := 0, dies := [0], start := none, drain := some { band := 0, tiles := [(0, 0)] } }, _, u, r', rfl, by decide +kernel, rfl, h⟩

theorem witness_MatrixOpOfOneTile : ∃ (t0 : Int) (cells : List (List Cell)) (enc : List EncOut),
    (matrix12 id).inArray = some (matOp, { op := 0, dies := [0], start := none, events := 0 }) ∧ matOp.mat.mt = 1 ∧ matOp.mat.nt = 1 ∧
    (matrix12 id).NoNotes ∧ matOp.inHistory = false ∧ matOp.mat.normEn = false ∧
    (matrix12 id).spansAccess (matOp.mat.a.segReads (matOp.mat.segA 0) ++ matOp.mat.b.segReads (matOp.mat.segB 0)) = .good ∧
    t0 = matOp.mat.bound (readByte (matrix12 id).mem.hbm) (0, 0) ∧
    cells = matOp.mat.cells (readByte (matrix12 id).mem.hbm) t0 0 (matOp.mat.panel (readByte (matrix12 id).mem.hbm) 0) ∧
    (cells.any fun row => row.any (Cell.over t0)) = false ∧ enc = matOp.mat.encode t0 0 0 cells ∧
    (matrix12 id).spansAccess (encSpans enc) = .good ∧ Cells.wf (matrix12 id).mem.hbm := by
  refine ⟨_, _, _, by decide +kernel, by decide +kernel, by decide +kernel, ⟨by decide +kernel, by decide +kernel⟩, by decide +kernel, by decide +kernel,
    by decide +kernel, rfl, rfl, by decide +kernel, rfl, by decide +kernel, by decide +kernel⟩

/-- A history entry of instance 5 that is pending. -/
def entry12 (est : Int) (o : Option Int) : HistEntry :=
  { inst := 5, pendStep := 4, estimate := est, valid := true, used := true, pend := true, pendObs := o, pendRecomputes := 0
    pendUnderflow := 0, pendElements := 0, foldedStep := 3, overflowSteps := 0 }

theorem witness_ScaleHistoryFold :
    (entry12 0 (some 0)).estimate ≤ 256 * 0 ∧ (256 * (-1) < (entry12 0 (some (-1))).estimate) ∧ (entry12 0 none).pendObs = none ∧
    (∀ x ∈ [(4, 0), (8, 1)], ∃ e : HistEntry, e = { entry12 300 (some 1) with pendUnderflow := x.2, pendElements := 1023 } ∧
      e.pendObs = some 1 ∧ e.valid = true ∧ 256 * 1 < e.estimate ∧ (x.1 = 8 ↔ e.pendElements < e.pendUnderflow * 2 ^ 10)) ∧
    (∃ s j e h mine, s = flight (op12 1 3 0 0 []) id (fun s => s.writeWords ((trainer id).slotAddr 5) (entry12 0 (some 2)).words) ∧
      s.jobs.find 0 = some j ∧ s.histSlot j (BitVec.ofNat 32 5) = some 5 ∧ e = s.histEntry j 5 ∧
      mine = (s.hub.ops.filter fun x => x.2.job == 0 && x.2.inHistory && x.2.inst == BitVec.ofNat 32 5) ∧
      (mine.find? fun x => x.2.phase == .waiting && signedLess e.pendStep x.2.step) = some h ∧
      (mine.any fun x => x.2.step == e.pendStep && !x.2.completed) = false) ∧ up.jobs.find 0 = none := by
  refine ⟨by decide, by decide, rfl, ?_, ⟨_, _, _, (0, op12 1 3 0 0 []), _, rfl, rfl, by decide +kernel, rfl, rfl, by decide +kernel,
    by decide +kernel⟩, rfl⟩
  intro x hx
  simp only [List.mem_cons, List.not_mem_nil, or_false] at hx
  rcases hx with rfl | rfl <;> exact ⟨_, rfl, by decide⟩

/-- An update op of a mode over two elements, with a norm entry. -/
def updOp (mode : Nat) : Op := op12 7 3 0 0
  [BitVec.ofNat 32 (mode * 2 ^ 28 + 2 ^ 26), 0, 2, 0x500000, 0, 0x501000, 0, 0x502000, 0, 0x503000, 0] .running
def update12 (mode : Nat) : State := flight (updOp mode)

theorem witness_UpdateOps : ∀ p ∈ [(0, UpdMode.sgd), (1, .adamw), (2, .lion), (8, .accumulate)], ∃ o j, (update12 p.1).RunsFor 0 7 o j ∧
    o.updMode = some p.2 ∧ (update12 p.1).spansAccess o.updSpans = .good ∧ (update12 p.1).NoNotes ∧
    Cells.wf (update12 p.1).mem.hbm := by
  intro p hp
  refine ⟨updOp p.1, trainer id, ?_⟩
  simp only [List.mem_cons, List.not_mem_nil, or_false] at hp
  rcases hp with rfl | rfl | rfl | rfl <;>
    exact ⟨ ⟨by decide +kernel, rfl⟩, by decide +kernel, by decide +kernel, ⟨rfl, by decide⟩, by decide⟩

theorem witness_StochasticRounding : (fp32 0x7F800001).isNan = true ∧ (fp32 0xFF800000).isInf = true ∧
    ((fp32 0x3F808000).isNan = false ∧ (fp32 0x3F808000).isInf = false ∧ (fp32 (BitVec.ofNat 32 (0x3F81 * 65536))).isInf = false) ∧
    ((fp32 0xFF7F8000).isNan = false ∧ (fp32 0xFF7F8000).isInf = false ∧
      0xFF80 = (if 0 < fld (0xFF7F8000 : Word) 15 0 then fld (0xFF7F8000 : Word) 31 16 + 1 else fld (0xFF7F8000 : Word) 31 16) ∧
      (fp32 (BitVec.ofNat 32 (0xFF80 * 65536))).isInf = true) ∧ (1 : BitVec 64) ≠ 0 := by decide +kernel

theorem witness_PhaseAndMark :
    (∃ s o j, s = flight (op12 8 1 0 0 [0x01000001]) ∧ s.MayBegin 0 o ∧ o.cls = 8 ∧ o.func = 1 ∧ s.jobs.find o.job = some j) ∧
    (∀ w, ∃ s o j h, s = flight (op12 8 1 0 0 [0x01000001] .running) (fun j => { j with hold := some { op := some 0, awaits := w } })
        (fun s => { s with hub := { s.hub with ops := s.hub.ops ++ [(1, op12 8 1 0 0 [])], nextOp := 2 } }) ∧ s.RunsFor 0 8 o j ∧
      o.func = 1 ∧ j.hold = some h ∧ h.op = some 0 ∧ (w = [] → s.holdOver h = true) ∧ (w = [1] → s.holdOver h = false)) ∧
    (∃ s o j h, s = flight (op12 8 1 0 0 []) (fun j => { j with hold := some { op := some 1, awaits := [2] } }) ∧ s.op 0 = some o ∧
      s.jobs.find o.job = some j ∧ j.hold = some h ∧ h.op = some 1 ∧ 0 ∉ h.awaits) ∧
    (∀ x ∈ [0xFFFF0000, 0x00030000], ∃ s o j, s = flight (op12 8 1 0 0 [0x02000001, x, 0x600000, 0, 4096]) ∧ s.MayBegin 0 o ∧
      o.cls = 8 ∧ o.func = 2 ∧ s.jobs.find o.job = some j ∧ j.dirOk (o.f 0 15 0) ∧
      (o.f 1 31 16 = 0xFFFF ∨ j.dirOk (o.f 1 31 16) = true)) := by
  refine ⟨⟨_, op12 8 1 0 0 [0x01000001], trainer id, rfl, begins12 _ _ _ (by decide +kernel), by decide, by decide, rfl⟩, ?_,
    ⟨_, op12 8 1 0 0 [], _, _, rfl, rfl, rfl, rfl, rfl, by decide⟩, ?_⟩
  · intro w
    refine ⟨_, op12 8 1 0 0 [0x01000001] .running, trainer (fun j => { j with hold := some { op := some 0, awaits := w } }), _, rfl,
      ⟨rfl, rfl⟩, by decide, rfl, rfl, ?_, ?_⟩ <;> intro h <;> subst h <;> decide
  · intro x hx
    refine ⟨_, op12 8 1 0 0 [0x02000001, x, 0x600000, 0, 4096], trainer id, rfl, begins12 _ _ _ ?_, ?_, ?_, ?_, ?_, ?_⟩ <;>
      simp only [List.mem_cons, List.not_mem_nil, or_false] at hx <;> rcases hx with rfl | rfl <;> decide +kernel

/-- A job with one gather entry, whose buffer holds shard `sh` under its STEP and VERSION. -/
def gathers (func sh : Nat) (stamp : Word) : State := flight (op12 8 1 0 0 [BitVec.ofNat 32 (func * 2 ^ 24 + 1), 0] .running) id fun s =>
  (s.writeWords ((trainer id).gatherAddr 0) [stamp ||| 3, 0x600000, 0, 8, 9]).writeWords 0x600000 [BitVec.ofNat 32 (0x01000000 + sh), 8, 9]

theorem witness_NormShardAndPrefetchOps :
    (∃ s o, s = flight (op12 8 1 0 0 [0x03000001, 0, 0, 0] .running) ∧ s.runs 0 8 = some o ∧ o.func = 3 ∧ o.addr 2 = 0) ∧
    (∃ s o, s = flight (op12 8 1 0 0 [0x03000001, 0, 0x600000, 0] .running) ∧ s.NoNotes ∧ s.runs 0 8 = some o ∧ o.func = 3 ∧
      o.addr 2 ≠ 0 ∧ o.normCount = 1 ∧ s.writeAccess (o.addr 2) 8 = .good ∧
      s.writeAccess (o.addr 2) (8 * o.normCount) ≠ .stall ∧ Cells.wf s.mem.hbm) ∧
    (∀ x ∈ [false, true], ∃ s o q u, s = flight (op12 8 1 0 0 [0x04000001, 0x00010000, 0x3F800000, 0x3F800000, 0x00010001, 2] .running) id
        (fun s => s.modLea 0 fun l => { l with norms := [(0, { nan := x })] }) ∧ s.NoNotes ∧ s.runs 0 8 = some o ∧ o.func = 4 ∧
      (s.lea o.lea).queues.find (o.f 1 27 16) = some q ∧ q.hbm ∧ q.stopped = false ∧
      (s.lea o.lea).qdb.getD (o.f 1 27 16) 0 = o.f 4 31 16 ∧ (o.f 4 31 16 + o.f 4 15 0) % 2 ^ q.log2 = o.f 5 15 0 ∧
      s.clipStalls o q = false ∧ (∀ i ∈ range' (o.f 1 15 0) (o.f 0 15 0), (s.norm o.lea i).nan = x ∧ (s.norm o.lea i).inf = false) ∧
      0 ∈ range' (o.f 1 15 0) (o.f 0 15 0) ∧
      s.clipSlots q (clipScale ((range' (o.f 1 15 0) (o.f 0 15 0)).foldl (fun a i => a + (s.norm o.lea i).sum) 0) (o.w 2) (o.w 3))
        (o.f 4 15 0) (o.f 4 31 16) = (u, none)) ∧
    (∀ p ∈ [(0x20, 3, 0), (0x20, 4, 0), (0x21, 3, 0x80000000), (0x21, 3, 0)], ∃ o j, (gathers p.1 p.2.1 p.2.2).RunsFor 0 8 o j ∧ o.func = p.1 ∧
      (gathers p.1 p.2.1 p.2.2).spansAccess ((gathers p.1 p.2.1 p.2.2).gatherSpans (o.gatherEntries j)) = .good ∧
      o.gatherEntries j = [j.gatherAddr 0] ∧
      ((fld ((gathers p.1 p.2.1 p.2.2).readWord ((gathers p.1 p.2.1 p.2.2).gatherBuffer (j.gatherAddr 0))) 15 0 =
        fld ((gathers p.1 p.2.1 p.2.2).readWord (j.gatherAddr 0)) 15 0) ↔ p.2.1 = 3) ∧
      ((gathers p.1 p.2.1 p.2.2).stampHolds (j.gatherAddr 0) = true ↔ p.2.2 = 0x80000000)) ∧
    (∃ s o j, s = flight (op12 8 1 0 0 [0x22000000, 0x600000, 0, 128] .running) ∧ s.RunsFor 0 8 o j ∧ o.func = 0x22 ∧
      s.spansAccess [{ base := o.addr 1, len := (o.w 3).toNat }] = .good) := by
  refine ⟨⟨_, op12 8 1 0 0 [0x03000001, 0, 0, 0] .running, rfl, by decide⟩,
    ⟨_, op12 8 1 0 0 [0x03000001, 0, 0x600000, 0] .running, rfl, ⟨rfl, by decide⟩, by decide +kernel⟩, ?_, ?_,
    ⟨_, op12 8 1 0 0 [0x22000000, 0x600000, 0, 128] .running, trainer id, rfl, ⟨by decide, rfl⟩, by decide, by decide +kernel⟩⟩
  · intro x hx
    simp only [List.mem_cons, List.not_mem_nil, or_false] at hx
    rcases hx with rfl | rfl <;>
      refine ⟨_, op12 8 1 0 0 [0x04000001, 0x00010000, 0x3F800000, 0x3F800000, 0x00010001, 2] .running, _, _, rfl, ⟨rfl, by decide⟩, by decide +kernel, by decide, rfl,
        by decide, by decide, by decide +kernel, by decide +kernel, by decide +kernel, by decide +kernel, by decide, rfl⟩
  · intro p hp
    refine ⟨op12 8 1 0 0 [BitVec.ofNat 32 (p.1 * 2 ^ 24 + 1), 0] .running, trainer id, ?_⟩
    simp only [List.mem_cons, List.not_mem_nil, or_false] at hp
    rcases hp with rfl | rfl | rfl | rfl <;> refine ⟨⟨by decide +kernel, by decide +kernel⟩, by decide +kernel⟩

theorem witness_CopyOps :
    (∃ s o, s = flight (op12 3 2 0xFFFF 0 [0, 64, 0x1000, 0, 0, 0x2000] .running) ∧ s.copyRun 0 0 = some o ∧ s.spansAccess o.cSpans = .good ∧
      s.NoNotes ∧ s.openImage o.job = none ∧ (∀ q, s.mem.lostSector q = false) ∧ Cells.wf s.mem.hbm) ∧
    (∃ s o j, s = flight (op12 3 2 0 0 [0x40000000, 64, 0x1000, 0, 1, 0x2000] .running) ∧ s.copyRun 0 1 = some o ∧
      s.jobs.find o.job = some j ∧ j.outstanding (.copy 0) = false ∧ s.copyRefusal o j = none ∧ s.spansAccess [o.cSrc] = .good) ∧
    (∃ s o j, s = flight (op12 3 2 0 0 [0x80000000, 128, 0x1000, 0, 1, 0] .running) ∧ s.copyRun 0 2 = some o ∧
      s.jobs.find o.job = some j ∧ j.outstanding (.post 0) = false ∧ s.copyRefusal o j = none ∧ s.spansAccess [o.cSrc] = .good) ∧
    (∃ s o j, s = flight (op12 3 2 0 0 [0x80000000, 128, 0x1000, 0, 7, 0] .running) ∧ s.jobs.find o.job = some j ∧
      s.copyRefusal o j = some .stateMismatch ∧ s.copyRun 0 2 = some o ∧ j.outstanding (.post 0) = false) := by
  refine ⟨⟨_, op12 3 2 0xFFFF 0 [0, 64, 0x1000, 0, 0, 0x2000] .running, rfl, by decide, by decide +kernel, ⟨rfl, by decide⟩, rfl, ?_, by decide⟩,
    ⟨_, op12 3 2 0 0 [0x40000000, 64, 0x1000, 0, 1, 0x2000] .running, trainer id, rfl, by decide +kernel⟩,
    ⟨_, op12 3 2 0 0 [0x80000000, 128, 0x1000, 0, 1, 0] .running, trainer id, rfl, by decide +kernel⟩,
    ⟨_, op12 3 2 0 0 [0x80000000, 128, 0x1000, 0, 7, 0] .running, trainer id, rfl, by decide +kernel⟩⟩
  intro q
  simp only [Memory.lostSector, Bool.and_eq_false_imp]
  intro h
  exact absurd h (by simp [flight, up])

/-! ## Witnesses: Windrow -/

theorem witness_WindrowChunks :
    (0 < 1 ∧ 0 < 1 ∧ 0 < 1024 ∧ 2 ^ 28 - 1 < 2 ^ 28) ∧
    (∃ (k : Chunk) (l m : List (Nat × Contribution)), k.rankOrder = true ∧ k.taken = [] ∧ k.waiting = [] ∧ l.Perm m ∧ l ≠ m ∧
      (l.map (·.1)).Perm (List.range 2)) ∧
    (∃ k : Chunk, k.rankOrder = true ∧ k.taken = [0] ∧ k.waiting.find k.taken.length = none ∧ k.taken.length < 2 ∧
      k.waiting.find (k.taken.length + 1) = none) := by
  refine ⟨by decide, ⟨{ step := 5, bucket := 0, count := 16, act := false, divide := false, fmt := 2, rankOrder := true, scale := 0 },
    [(1, ⟨[1], 1⟩), (0, ⟨[2], 1⟩)], [(0, ⟨[2], 1⟩), (1, ⟨[1], 1⟩)], rfl, rfl, rfl, List.Perm.swap _ _ _, by decide,
    List.Perm.swap _ _ _⟩, { step := 5, bucket := 0, count := 16, act := false, divide := false, fmt := 2, rankOrder := true, scale := 0, taken := [0] },
    rfl, rfl, rfl, by decide, rfl⟩

/-- A group of two workers, of which this device is the first. -/
def group13 (f : WGroup → WGroup := id) : WGroup := f
  { job := 0, memBase := 0x900000, members := [0, 1], own := 0, roleKind := 1, channel := 1, reduceEvery := 1, baseStep := 5
    modeRank := false, rankUntil := 0, quorum := 1, window := 3, slotSets := 2, slotBytes := 512, recBase := 0x910000, log2Rec := 4
    gseq0 := 0, gseq := 0, expectBase := 0 }

/-- A bucket of 16 elements in FP32. -/
def wOp (last : Bool) (bucket : Nat) (phase : OpPhase := .running) : Op := op12 4 3 0 0
  [BitVec.ofNat 32 (0x02120000 + b2n last * 2 ^ 15), BitVec.ofNat 32 (bucket * 65536), 16, 0x920000, 0, 0x930000, 0, 0x940000, 0, 1, 0] phase

/-- `flight` with that group and, for a member, a run. -/
def reduce13 (o : Op) (f : WGroup → WGroup) (runs : Map WRun) (ds : List Delivery := []) : State := flight o
  (fun j => { j with mapHdr := [0x01000100, 2, 0, 1], windows := [(3, { base := 0xA00000, len := 0x10000, data := true, refill := false })] })
  fun s => { s with mem := { hbm := [(0x100028, 1)] }, wdr := { groups := [(0, group13 f)], runs := runs }, delivered := ds }

def run13 : WRun := { group := 0 }

theorem witness_WindrowSending :
    (∃ s o g, s = reduce13 (wOp false 0) (fun g => { g with reduceEvery := 2 }) [] ∧ s.runs 0 4 = some o ∧ s.wdr.groups.find o.wGroup = some g ∧
      s.wdr.runs.find 0 = none ∧ g.reduces o.step = false ∧ g.ownIndex.isSome ∧ o.wLast = false ∧
      s.spansAccess (g.sourceSpans o) = .good ∧ s.NoNotes ∧ Cells.wf s.mem.hbm) ∧
    (∃ s o g, s = reduce13 (wOp false 1) id [] ∧ s.runs 0 4 = some o ∧ s.wdr.groups.find o.wGroup = some g ∧ s.wdr.runs.find 0 = none ∧
      g.reduces o.step = true ∧ g.turn o = .later ∧ o.wBucket ≠ 0) ∧
    (∀ x ∈ [(some 5, 0, SendTurn.later), (some 6, 0, .before), (some 5, 1, .now)], ∃ s o g,
      s = reduce13 (wOp false 1) (fun g => { g with sendStep := x.1, sendBucket := x.2.1 }) [(0, run13)] ∧ s.runs 0 4 = some o ∧
      s.wdr.groups.find o.wGroup = some g ∧ s.wdr.runs.find 0 = some run13 ∧ run13.group = o.wGroup ∧ run13.gseq = none ∧
      g.turn o = x.2.2 ∧ s.slotFree run13.group g = true ∧ g.ownIndex.isSome ∧ s.spansAccess (g.sourceSpans o) = .good) ∧
    (∃ s o g, s = reduce13 (wOp true 0) (fun g => { g with members := [0x80000000, 0, 1] }) [(0, run13)] ∧ s.runs 0 4 = some o ∧
      s.wdr.groups.find o.wGroup = some g ∧ s.wdr.runs.find 0 = some run13 ∧ run13.group = o.wGroup ∧ run13.gseq = none ∧
      g.turn o = .now ∧ s.slotFree run13.group g = true ∧ g.ownIndex = none ∧ g.early = [] ∧ run13.whole = none ∧
      ∃ c ∈ g.chunksOf o, run13.results.has c = false) ∧
    (∃ s o g r, s = reduce13 (wOp false 0) id [(0, r)] ∧ r = { run13 with gseq := some 0 } ∧ s.runs 0 4 = some o ∧
      s.wdr.groups.find o.wGroup = some g ∧ s.wdr.runs.find 0 = some r ∧ r.group = o.wGroup ∧ r.gseq.isSome ∧ r.unacked = [] ∧
      g.resultLimit ≤ s.elapsed r.waitSince ∧ ∃ c ∈ g.chunksOf o, r.results.has c = false) := by
  refine ⟨⟨_, wOp false 0, _, rfl, by decide +kernel, rfl, by decide +kernel, by decide, by decide, by decide, by decide +kernel, ⟨rfl, by decide⟩,
      by decide +kernel⟩,
    ⟨_, wOp false 1, _, rfl, by decide +kernel, rfl, rfl, by decide⟩, ?_,
    ⟨_, wOp true 0, _, rfl, by decide +kernel, rfl, rfl, rfl, rfl, by decide, by decide, by decide, rfl, rfl, 0, by decide, by decide⟩,
    ⟨_, wOp false 0, _, _, rfl, rfl, by decide +kernel, rfl, rfl, rfl, by decide, rfl, by decide, 0, by decide, by decide⟩⟩
  intro x hx
  refine ⟨_, wOp false 1, group13 (fun g => { g with sendStep := x.1, sendBucket := x.2.1 }), rfl, ?_⟩
  simp only [List.mem_cons, List.not_mem_nil, or_false] at hx
  rcases hx with rfl | rfl | rfl <;> decide +kernel

/-- A message of rank 1 for chunk 0 of GSEQ 0. -/
def header13 (ty : Nat) : WHeader := { type := ty, fmt := 2, rank := false, escalate := false, act := false, divide := false, group := 0, gseq := 0
                                       step := 5, bucket := 0, chunk := 0, count := 16, weight := 1 }
def message13 (k : MsgKind) (ty : Nat) : Delivery :=
  { kind := k, job := 0, rank := 1, channel := 1, target := 3, offset := 512, roleKind := 1, roleIndex := 0, step := 5
    body := (header13 ty).bytes ++ wordsToBytes ((List.range 8).map (BitVec.ofNat 32)) }

/-- An owned chunk that is open. -/
def chunk13 (taken : List Nat) : Chunk := { step := 5, bucket := 0, count := 16, act := false, divide := false, fmt := 2, rankOrder := false
                                            scale := 0, taken := taken, sum := List.replicate 8 0 }

theorem witness_WindrowMessages :
    (∃ s t0 d g h, s = reduce13 (wOp false 0) id [] [message13 .contrib 1] ∧ s.front .contrib = some (d, t0) ∧ s.groupAt d = some (0, g) ∧
      s.wdr.groups.find 0 = some g ∧ h = WHeader.parse d.body ∧ 1 = g.slotIndex d.offset ∧ 1 < g.count ∧
      (chunkSpan h.count g.count h.chunk).2 ≠ 0 ∧ h.chunk < 1024 ∧ g.expect.getD 1 g.expectBase = h.gseq ∧ g.chunks = [] ∧
      h.rank = false ∧ h.act = false ∧ h.escalate = false ∧ 2 ≤ g.count ∧ ∀ c, s.contributorGone g c = false) ∧
    (∃ s t0 d g r o h, s = reduce13 (wOp false 0) id [(0, r)] [message13 .result 2] ∧ r = { run13 with gseq := some 0 } ∧
      s.front .result = some (d, t0) ∧ s.groupAt d = some (0, g) ∧ s.wdr.groups.find 0 = some g ∧ h = WHeader.parse d.body ∧
      s.runOf 0 h.gseq = some (0, r) ∧ s.op 0 = some o ∧ s.wdr.runs.find 0 = some r ∧ r.group = 0 ∧ h.chunk ∈ g.chunksOf o ∧
      r.results.find h.chunk = none ∧ r.whole = none ∧ (∃ x ∈ g.chunksOf o, x ≠ h.chunk ∧ r.results.has x = false) ∧
      h.status = Status.ok.code ∧ s.spansAccess [o.wChunkSpan g.count h.chunk] = .good ∧ Cells.wf s.mem.hbm ∧
      (resultCodes o.wResFmt (decodeChunk h.fmt (chunkSpan o.wCount g.count h.chunk).2 (d.body.drop 256))).1.length =
        (chunkSpan o.wCount g.count h.chunk).2) ∧
    (∃ s t0 d g r h, s = reduce13 (wOp false 0) id [(0, r)] [message13 .escalateReq 3] ∧ r = { run13 with gseq := some 0 } ∧
      s.front .escalateReq = some (d, t0) ∧ s.groupAt d = some (0, g) ∧ h = WHeader.parse d.body ∧
      s.runOf 0 h.gseq = some (0, r) ∧ r.fp32.contains h.chunk = false ∧ r.results.has h.chunk = false) ∧
    (∀ x ∈ [([], 0), ([1], 1)], ∃ s g k, s = reduce13 (wOp false 0) (fun g => { g with chunks := [(0, chunk13 x.1)] }) [] ∧
      s.wdr.groups.find 0 = some g ∧ g.chunks.find 0 = some k ∧ 0 / 1024 < 2 ^ 32 ∧ k.st = .opened ∧ k.act = false ∧
      k.rankOrder = false ∧ g.deadline ≤ s.elapsed k.openAt ∧ (x.2 = 1 → g.quorum ≤ k.taken.length) ∧
      (x.2 = 0 → k.taken.length < g.quorum ∧ (∃ i < g.count, i ∉ k.taken) ∧ ∀ c, s.contributorGone g c = false)) := by
  have gone : ∀ o f r d, f (group13 id) = f (group13 id) → (f (group13 id)).members = [0, 1] → (f (group13 id)).job = 0 →
      (f (group13 id)).roleKind = 1 → ∀ c, (reduce13 o f r d).contributorGone (f (group13 id)) c =
        (reduce13 o f r d).contributorGone (f (group13 id)) (if c = 1 then 1 else 0) := by
    intro o f r d _ hm hj hr c
    rcases c with _ | _ | c
    · rfl
    · rfl
    · have h1 : (f (group13 id)).contributors = [0, 1] := by simp only [WGroup.contributors, hm]; decide
      simp only [State.contributorGone, h1]
      rfl
  refine ⟨⟨_, _, message13 .contrib 1, group13 id, _, rfl, rfl, by decide +kernel, by decide +kernel, rfl, by decide +kernel, by decide +kernel,
      by decide +kernel, by decide +kernel, by decide +kernel, by decide +kernel, by decide +kernel, by decide +kernel, by decide +kernel, by decide +kernel, ?_⟩,
    ⟨_, _, message13 .result 2, group13 id, _, wOp false 0, _, rfl, rfl, rfl, by decide +kernel, by decide +kernel, rfl, by decide +kernel,
      by decide +kernel, rfl, rfl, by decide +kernel, by decide +kernel, rfl, ⟨1, by decide +kernel⟩, by decide +kernel, by decide +kernel, by decide +kernel,
      by decide +kernel⟩,
    ⟨_, _, message13 .escalateReq 3, group13 id, _, _, rfl, rfl, rfl, by decide +kernel, rfl, by decide +kernel⟩, ?_⟩
  · intro c
    refine (gone _ id _ _ rfl rfl rfl rfl c).trans ?_
    split <;> decide +kernel
  · intro x hx
    refine ⟨_, group13 (fun g => { g with chunks := [(0, chunk13 x.1)] }), chunk13 x.1, rfl, ?_⟩
    simp only [List.mem_cons, List.not_mem_nil, or_false] at hx
    rcases hx with rfl | rfl
    · refine ⟨by decide +kernel, by decide +kernel, by decide, rfl, rfl, rfl, by decide +kernel, by decide, fun _ => ⟨by decide, ⟨0, by decide⟩, fun c => ?_⟩⟩
      refine (gone _ (fun g => { g with chunks := [(0, chunk13 [])] }) _ _ rfl rfl rfl rfl c).trans ?_
      split <;> decide +kernel
    · exact ⟨by decide +kernel, by decide +kernel, by decide, rfl, rfl, rfl, by decide +kernel, fun _ => by decide, fun h => absurd h (by decide)⟩

/-- The arguments of a WDR_GROUP_SET. -/
def setWords : List Word := [63, 0, 0x900000, 0, 2, 1, 1, 1, 64, 5, 1, 9, 0, 0, 0, 3, 2, 512, 0x910000, 0, 16, 7]

theorem witness_WindrowCommands :
    (∃ s w g, s = reduce13 (wOp false 0) id [] ∧ s.Serves 0 ∧ s.hub.dev ≠ .boot ∧ Fits 22 setWords ∧
      (s.jobOf 0 (argN setWords 1)).isSome ∧ s.groupArgsOk 0 setWords ∧
      s.access (argAddr setWords 2) (4 * argN setWords 4) = .good ∧ g = s.groupArgs setWords ∧ (∀ m ∈ g.members, memberOk m = true) ∧
      1 ≤ g.count ∧ (s.jobOf 0 (argN setWords 1)).any (fun j => j.windows.find g.window == some w) ∧
      2 * g.slotSets * g.count * g.slotBytes ≤ w.len ∧ w.data ∧ s.wdr.groups.has (argN setWords 0) = false) ∧
    (∃ s g, s = reduce13 (op12 8 1 0 0 []) id [] ∧ s.Serves 0 ∧ s.hub.dev ≠ .boot ∧ (s.jobOf 0 (argN [0, 0, 1, 9] 0)).isSome ∧
      argN [0, 0, 1, 9] 1 < 64 ∧ s.wdr.groups.find (argN [0, 0, 1, 9] 1) = some g ∧ g.job = argN [0, 0, 1, 9] 0 ∧
      Fits 2 [0, 0, 1, 9] ∧ Fits 3 [0, 0, 1, 9] ∧ Fits 4 [0, 0, 1, 9] ∧ argN [0, 0, 1, 9] 2 < 2 ∧
      s.groupBusy (argN [0, 0, 1, 9] 1) = false) := by
  have hm : ((reduce13 (wOp false 0) id []).groupArgs setWords).members = [0, 0] := by decide +kernel
  have hc : ((reduce13 (wOp false 0) id []).groupArgs setWords).count = 2 := by
    rw [WGroup.count, WGroup.contributors, hm]
    decide
  refine ⟨⟨_, { base := 0xA00000, len := 0x10000, data := true, refill := false }, _, rfl, serves_of _ (by decide +kernel), by decide, by decide,
      by decide +kernel, by decide +kernel, by decide +kernel, rfl, ?_, ?_, by decide +kernel, ?_, rfl, by decide⟩,
    ⟨_, group13 id, rfl, serves_of _ (by decide +kernel), by decide, by decide +kernel⟩⟩
  · rw [hm]
    intro m h
    have h0 : m = 0 := by simpa using h
    rw [h0]
    decide
  · rw [hc]
    decide
  · rw [hc]
    decide +kernel

/-! ## Witnesses: Tedder -/

/-- A Tedder op of function `f`, of one token. -/
def tOp (f : Nat) (phase : OpPhase := .running) : Op := op12 5 2 0 0
  [BitVec.ofNat 32 (f * 2 ^ 28 + (if f = 2 then 3 * 2 ^ 24 else 0)), 1, 0x700000, 0, 0x710000, 0, 0x720000, 0, 64, 0x730000, 0, 64] phase

/-- `flight` with one expert, a home slot and the cells `m`. -/
def routed (o : Op) (f : Tedder → Tedder) (m : List Host.Cell) (ds : List Delivery := []) : State := flight o
  (fun j => { j with
    mapHdr := [0x01000100, 1, 0x00010000, 1], windows := [(1, { base := 0xA00000, len := 0x10000, data := true, refill := false })]
    tedder := some (f { firstWorker := 0, sources := 1, cap := 1, d := 32, fmt := 3, topK := 1, homeSlots := 1, staging := 2, returnWin := 1
                        retRows := 1, channel := 0, homes := [(0, ⟨0, 0x740000, 0x741000, 0x742000, 0x743000, 0x744000, 1⟩)] }) })
  fun s => { s with mem := { hbm := m }, delivered := ds }

/-- A TOKENS message from source 0 for expert `e`, with `count` rows. -/
def tokens14 (e count : Nat) : Delivery :=
  { kind := .tokens, job := 0, rank := 1, channel := 0, target := 2, offset := 0, roleKind := 4, roleIndex := 0, step := 5
    body := wordsToBytes ([BitVec.ofNat 32 (0x01130000 + e), 5, 0, 0, 0, 32, BitVec.ofNat 32 count] ++ List.replicate 9 0) ++ List.replicate 33 7 }

theorem witness_TedderOpsAndMessages :
    (∀ m ∈ [[], [((0x100030, 2) : Host.Cell)]], ∃ s o j t, s = routed (tOp 1) id m ∧ s.tedRun 0 1 = some (o, j, t) ∧
      s.units.tedRuns.has 0 = false ∧ s.sourceIndex j t = some 0 ∧ s.spansAccess (o.tSpans t) = .good ∧
      (m ≠ [] → 0 < j.experts ∧ ∀ e < j.experts, s.holderOk j 4 e = false)) ∧
    (∃ s o j t h, s = routed (tOp 2) id [] ∧ s.tedRun 0 2 = some (o, j, t) ∧ s.units.tedRuns.has 0 = false ∧
      t.homes.find o.tHome = some h ∧
      s.spansAccess ({ base := h.returns + o.tBank * t.sources * 8, len := t.sources * 8 } :: o.tSpans t) = .good ∧
      (∀ i < t.sources, (s.returnEntry t h o.tBank i).1 = 0) ∧ s.tedOutstanding 0 o = false) ∧
    (∀ x ∈ [0, 1], ∃ s o j t w, s = routed (tOp 3) (fun t => { t with expected := [(0, 1)], returned := [(0, x)] }) [] ∧
      s.tedRun 0 3 = some (o, j, t) ∧ t.expected.find o.tBank = some 1 ∧ j.windows.find t.returnWin = some w ∧
      t.returned.getD o.tBank 0 = x ∧ s.NoNotes ∧ Cells.wf s.mem.hbm ∧
      s.spansAccess ({ base := w.base + o.tBank * t.retRows * t.recBytes, len := t.retRows * t.recBytes } :: o.tSpans t) = .good ∧
      ∃ a, ∀ k < o.tTokens, ∀ y ∈ ((o.tOut t).encodeSeg none k 0 (s.combineRow t (w.base + o.tBank * t.retRows * t.recBytes)
        (keptPairs (s.routes o t j.experts) t.cap k (bit (o.w 0) 18)))).writes, a < y.1 ∨ y.1 + y.2.length ≤ a) ∧
    (∀ x ∈ [(0, 1), (1, 1), (0, 2)], ∃ s u d j t h w, s = routed (tOp 1) id [] [tokens14 x.1 x.2] ∧ s.front .tokens = some (d, u) ∧
      s.tokensStall d.job d.offset = false ∧ s.jobs.find d.job = some j ∧ j.tedder = some t ∧ t.stagingSlot d.offset = (0, 0, 0) ∧
      w = bytesToWords 16 d.body ∧ t.homes.find 0 = some h ∧
      (x = (0, 1) → fld (wordAt w 0) 31 20 = 0x011 ∧ fld (wordAt w 0) 15 0 = h.expert ∧ fld (wordAt w 3) 31 16 = 0 ∧
        fld (wordAt w 2) 15 0 % 2 = 0 ∧ (wordAt w 5).toNat = t.d ∧ (wordAt w 6).toNat ≤ t.cap) ∧
      (x ≠ (0, 1) → fld (wordAt w 0) 15 0 ≠ h.expert ∨ t.cap < (wordAt w 6).toNat)) ∧
    (∃ s u d j t, s = routed (tOp 1) id [] [{ tokens14 0 1 with kind := .returnRecords, target := 1 }] ∧
      s.front .returnRecords = some (d, u) ∧ s.jobs.find d.job = some j ∧ j.tedder = some t ∧
      0 = d.offset / max (t.retRows * t.recBytes) 1) := by
  refine ⟨?_, ⟨_, tOp 2, _, _, _, rfl, rfl, by decide, rfl, by decide +kernel⟩, ?_, ?_, ⟨_, _, _, _, _, rfl, rfl, rfl, rfl, by decide⟩⟩
  · intro m hm
    simp only [List.mem_cons, List.not_mem_nil, or_false] at hm
    rcases hm with rfl | rfl <;> exact ⟨_, tOp 1, _, _, rfl, rfl, by decide, by decide +kernel⟩
  · intro x hx
    simp only [List.mem_cons, List.not_mem_nil, or_false] at hx
    rcases hx with rfl | rfl <;>
      exact ⟨_, tOp 3, _, _, { base := 0xA00000, len := 0x10000, data := true, refill := false }, rfl, rfl, by decide, rfl, by decide,
        ⟨rfl, by decide⟩, by decide, by decide +kernel, 0, by decide +kernel⟩
  · intro x hx
    simp only [List.mem_cons, List.not_mem_nil, or_false] at hx
    rcases hx with rfl | rfl | rfl <;>
      exact ⟨_, _, tokens14 _ _, _, _, _, _, rfl, rfl, by decide +kernel, rfl, rfl, by decide, rfl, rfl, by decide +kernel⟩

/-! ## Witnesses: Baler -/

/-- A Baler op of function `f` on `kind`, at 0x600000 or unit 0, for partner 0. -/
def bOp (f kind w1 w2 : Nat) (phase : OpPhase := .running) : Op := op12 6 1 0 0
  [BitVec.ofNat 32 (f * 2 ^ 28 + kind * 2 ^ 20 + (if f = 3 then 2 ^ 14 else 0)), BitVec.ofNat 32 w1, BitVec.ofNat 32 w2, 0x02000000, 3] phase

/-- A Baler with one region of WEIGHTS and one MOMENT region, and a NEAR target. -/
def bal15 : Baler :=
  { area := 0xB00000, areaLen := 0x100000, channel := 9, farEvery := 0, farRate := 800, ckptSeq := 7
    regions := [⟨0, 1, 0, 0x500000, 4096⟩], near := some { addr := .v4 [10, 0, 0, 8], mac := [2, 0, 0, 0, 0, 8], ports := 1 } }

/-- `flight` with that Baler; rank 1 is partner 0. -/
def baled (o : Op) (f : Baler → Baler := id) (g : Job → Job := id) (ds : List Delivery := []) : State := flight o
  (fun j => g { j with scaleHdr := [0x01000000], stepHdr := [0x01000000], baler := some (f bal15) })
  fun s => { s with mem := { hbm := [(0x100028, 1)] }, delivered := ds }

/-- A section of WEIGHTS, and an image that holds it. -/
def sect15 : Section := { kind := 1, ordinal := 0, source := 0, base := 0x500000, len := 4096, offset := 4096 }
def image15 (f : Image → Image := id) : Image :=
  f { ckptSeq := 8, step := 5, noRoom := false, sections := [sect15], windrow := [], bitmap := 0xB80000 }

theorem witness_BalerSnapshots :
    (∃ s o j b, s = baled (bOp 1 0 0 0 .waiting) ∧ s.MayBegin 0 o ∧ o.cls = 6 ∧ o.bFunc = 1 ∧ s.jobs.find o.job = some j ∧
      j.baler = some b ∧ b.st = .idle ∧ j.replayPending = false ∧ j.peerActive (storeRank false) = true ∧
      (∀ e ∈ s.jobGroups o.job, s.groupBlocks e.1 e.2 o.step = false) ∧ b.holds (s.planSections o.job j b true) = true) ∧
    (∃ s o j b, s = baled (bOp 1 0 0 0 .waiting) (fun b => { b with st := .paused }) ∧ s.MayBegin 0 o ∧ o.cls = 6 ∧ o.bFunc = 1 ∧
      s.jobs.find o.job = some j ∧ j.baler = some b ∧ b.st = .paused) ∧
    (∀ l ∈ [[], [0]], ∃ s o j b h, s = baled (bOp 1 0 0 0) (fun b => { b with st := .paused, snapshotOp := some 0 })
        (fun j => { j with hold := some { op := some 0, awaits := l } }) ∧ s.balRun 0 1 = some (o, j, b) ∧ j.hold = some h ∧
      h.op = some 0 ∧ b.image = none ∧ b.holds (s.planSections o.job j b false) = true ∧ s.holdOver h = l.isEmpty ∧
      s.spansAccess (pauseSpans (s.planSections o.job j b false).1) = .good ∧ Cells.wf s.mem.hbm) ∧
    (∃ s j b m x, s = baled (bOp 2 0 0x600000 0) (fun b => { b with st := .capturing, image := some (image15 id) }) ∧
      s.openImage 0 = some (j, b, m) ∧ m.sections[0]? = some x) ∧
    (∃ s j b m us, s = baled (bOp 2 0 0x600000 0) (fun b => { b with
        st := .capturing, image := some (image15 fun m => { m with loss := some [] }) }) ∧ s.openImage 0 = some (j, b, m) ∧
      us = m.uncaptured (s.sweeps 0 m) ∧ us = [(0, 0, 0x500000)] ∧ b.st = .capturing ∧
      s.spansAccess (us.map fun x => { base := x.2.2, len := 4096 }) = .good) := by
  refine ⟨⟨_, bOp 1 0 0 0 .waiting, _, _, rfl, begins12 _ _ _ (by decide +kernel), by decide, by decide, rfl, rfl, rfl, rfl, by decide +kernel,
      by decide +kernel, by decide +kernel⟩,
    ⟨_, bOp 1 0 0 0 .waiting, _, _, rfl, begins12 _ _ _ (by decide +kernel), by decide, by decide, rfl, rfl, rfl⟩, ?_,
    ⟨_, _, _, _, _, rfl, rfl, rfl⟩,
    ⟨_, _, _, _, _, rfl, rfl, rfl, by decide +kernel, rfl, by decide +kernel⟩⟩
  intro l hl
  simp only [List.mem_cons, List.not_mem_nil, or_false] at hl
  rcases hl with rfl | rfl <;> exact ⟨_, bOp 1 0 0 0, _, _, _, rfl, rfl, rfl, rfl, rfl, by decide +kernel⟩

/-- A store message for the open image, of `units` units of zeros, from the NEAR target. -/
def storeMsg15 (k : MsgKind) (units : Nat) : Delivery :=
  { kind := k, job := 0, rank := storeRank false, channel := 9, target := 0xFFFF, offset := 0, roleKind := 0, roleIndex := 0, step := 0
    body := wordsToBytes [0, 0x11223344, BitVec.ofNat 32 units, 8, 0, 0, 0, 0] ++ List.replicate (4096 * units) 0 }

theorem witness_BalerImages :
    (∃ s o j b m, s = baled (bOp 2 0 0x600000 0) (fun b => { b with
        st := .capturing, image := some (image15 fun m => { m with op := some 0 }) }) ∧ s.balRun 0 2 = some (o, j, b) ∧
      b.image = some m ∧ m.op = some 0 ∧ m.loss = none ∧ s.access (o.addr 1) 32 = .good) ∧
    (∀ x ∈ [none, some [0]], ∃ s j b m i k, s = baled (bOp 2 0 0x600000 0) (fun b => { b with
        st := .capturing, image := some (image15 fun m => { m with sections := [{ sect15 with leaves := [(0, [])] }], loss := x }) }) ∧
      s.openImage 0 = some (j, b, m) ∧ j.sendKey = some (i, k) ∧ m.loss = x ∧ m.manifest = [] ∧
      (∀ x ∈ m.sections, x.whole = true) ∧ j.putsOut false (fun _ => true) = false) ∧
    (∃ s t d j b m o, s = baled (bOp 2 0 0x600000 0) (fun b => { b with
        st := .capturing, image := some (image15 fun m => { m with op := some 0, manifest := [0] }) }) id [storeMsg15 .sealed 0] ∧
      s.front .sealed = some (d, t) ∧ t.deliveryBaler d = some (j, b) ∧ d.storeMsg.far = false ∧ b.image = some m ∧
      m.manifest ≠ [] ∧ d.storeMsg.names j.jobId j.rank m.ckptSeq = true ∧ b.farEvery = 0 ∧ m.op = some 0 ∧ s.op 0 = some o ∧
      o.live) ∧
    (∃ s t d j b m, s = baled (bOp 2 0 0x600000 0) (fun b => { b with st := .capturing, image := some (image15 id) }) id
        [storeMsg15 .refused 0] ∧ s.front .refused = some (d, t) ∧ t.deliveryBaler d = some (j, b) ∧ b.gets = [] ∧
      d.storeMsg.far = false ∧ b.image = some m ∧ d.storeMsg.names j.jobId j.rank m.ckptSeq = true) ∧
    (∀ u ∈ [GetUse.restore, .relay, .refill 0], ∃ s t d j b g, s = baled (bOp 3 0 8 0) (fun b => { b with
        gets := [{ far := false, jobId := 0x11223344, rank := 0, ckptSeq := 8, offset := 0, units := 1, use := u }] }) id
        [storeMsg15 .getData 1] ∧ s.front .getData = some (d, t) ∧ t.deliveryBaler d = some (j, b) ∧ b.gets = [g] ∧
      d.storeMsg.answers g = true ∧ g.units = d.storeMsg.units ∧ d.storeMsg.data.length = 4096 * g.units) ∧
    (∀ k ∈ [MsgKind.getData, .sealed, .refused], ∃ s t d j b, s = baled (bOp 3 0 8 0) id id [storeMsg15 k 0] ∧
      s.front k = some (d, t) ∧ t.deliveryBaler d = some (j, b) ∧ b.gets = [] ∧ b.image = none ∧ b.relay = none) := by
  refine ⟨⟨_, bOp 2 0 0x600000 0, _, _, _, rfl, rfl, rfl, rfl, rfl, by decide +kernel⟩, ?_,
    ⟨_, _, storeMsg15 .sealed 0, _, _, _, _, rfl, rfl, rfl, by decide +kernel, rfl, by decide, by decide +kernel, rfl, rfl, rfl, by decide⟩,
    ⟨_, _, storeMsg15 .refused 0, _, _, _, rfl, rfl, rfl, rfl, by decide +kernel, rfl, by decide +kernel⟩, ?_, ?_⟩
  · intro x hx
    simp only [List.mem_cons, List.not_mem_nil, or_false] at hx
    rcases hx with rfl | rfl <;> exact ⟨_, _, _, _, _, _, rfl, rfl, rfl, rfl, rfl, by decide, by decide⟩
  · intro u hu
    simp only [List.mem_cons, List.not_mem_nil, or_false] at hu
    rcases hu with rfl | rfl | rfl <;> exact ⟨_, _, storeMsg15 .getData 1, _, _, _, rfl, rfl, rfl, rfl, by decide +kernel, by decide +kernel, by decide +kernel⟩
  · intro k hk
    simp only [List.mem_cons, List.not_mem_nil, or_false] at hk
    rcases hk with rfl | rfl | rfl <;> exact ⟨_, _, _, _, _, rfl, rfl, rfl, rfl, rfl, rfl⟩

theorem witness_BalerOps :
    (∃ s o j b, s = baled (bOp 3 0 8 0) ∧ s.balRun 0 3 = some (o, j, b) ∧ b.restore = none ∧ false = (o.bTarget == 2) ∧
      j.peerActive (storeRank false) = true) ∧
    (∃ s o j b, s = baled (bOp 3 0 8 0) (fun b => { b with near := none }) ∧ s.balRun 0 3 = some (o, j, b) ∧ b.restore = none ∧
      false = (o.bTarget == 2) ∧ j.peerActive (storeRank false) = false) ∧
    (∀ x ∈ [(0 : Byte), 1], ∃ s o j b, s = baled (bOp 4 0 0x600000 0) (fun b => { b with st := .verifying, loss := List.replicate 32 x }) ∧
      s.balRun 0 4 = some (o, j, b) ∧ s.access (o.addr 1) 32 = .good ∧ (s.read (o.addr 1) 32 = b.loss ↔ x = 0)) ∧
    (∀ x ∈ [true, false], ∃ s o j b h, s = baled (bOp 5 0 0 0) id (fun j => { j with
        hold := some { op := some 0, awaits := [] }, peers := if x then j.peers else [] }) ∧ s.balRun 0 5 = some (o, j, b) ∧
      j.hold = some h ∧ h.op = some 0 ∧ s.holdOver h = true ∧ s.access j.scaleRegion j.scaleLen = .good ∧
      (s.peerOfRole j o.bRole).isSome = x) ∧
    (∀ x ∈ [true, false], ∃ s o j b, s = baled (bOp 6 1 0 1) id (fun j => { j with peers := if x then j.peers else [] }) ∧
      s.balRun 0 6 = some (o, j, b) ∧ b.digestRuns = [] ∧ s.access (o.digestSpan j b).base (o.digestSpan j b).len = .good ∧
      s.peerOfRole j o.bRole = (if x then some 1 else none) ∧ b.digests = []) ∧
    (∀ x ∈ [0, 2 ^ 31], ∃ s o j b r, s = baled (bOp 6 1 0 1) (fun b => { b with
        digestRuns := [{ op := 0, digest := [], since := BitVec.ofNat 64 x }] }) ∧ s.balRun 0 6 = some (o, j, b) ∧
      b.digestRuns = [r] ∧ r.op = 0 ∧ (b.digestLimit ≤ s.elapsed r.since ↔ x = 0)) ∧
    (∀ x ∈ [true, false], ∃ s o j b, s = baled (bOp 7 0 0 0) id (fun j => { j with peers := if x then j.peers else [] }) ∧
      s.balRun 0 7 = some (o, j, b) ∧ b.fills.has 0 = false ∧ (s.peerOfRole j o.bRole).isSome = x) := by
  refine ⟨⟨_, bOp 3 0 8 0, _, _, rfl, rfl, rfl, by decide, by decide⟩, ⟨_, bOp 3 0 8 0, _, _, rfl, rfl, rfl, by decide, by decide⟩, ?_, ?_, ?_, ?_, ?_⟩ <;>
    intro x hx <;> simp only [List.mem_cons, List.not_mem_nil, or_false] at hx
  · rcases hx with rfl | rfl <;> exact ⟨_, bOp 4 0 0x600000 0, _, _, rfl, rfl, by decide +kernel⟩
  · rcases hx with rfl | rfl <;> exact ⟨_, bOp 5 0 0 0, _, _, _, rfl, rfl, rfl, rfl, by decide +kernel⟩
  · rcases hx with rfl | rfl <;> exact ⟨_, bOp 6 1 0 1, _, _, rfl, rfl, rfl, by decide +kernel⟩
  · rcases hx with rfl | rfl <;> exact ⟨_, bOp 6 1 0 1, _, _, _, rfl, rfl, rfl, rfl, by decide +kernel⟩
  · rcases hx with rfl | rfl <;> exact ⟨_, bOp 7 0 0 0, _, _, rfl, rfl, by decide +kernel⟩

/-- A peer message of type `ty` from rank 1 for set 0. -/
def balMsg15 (k : MsgKind) (ty : Nat) (units : Nat) (body : List Byte) : Delivery :=
  { kind := k, job := 0, rank := 1, channel := 9, target := 0xFF00, offset := 0, roleKind := 2, roleIndex := 0, step := 5
    body := ({ type := ty, kind := 1, step := 5, units := units, rangeId := 3, digest := List.replicate 32 0 } : BalMsg).bytes ++ body }

theorem lost_of (m : Memory) (h : m.stackLost = 0) (q : Nat) : m.lostSector q = false := by
  simp [Memory.lostSector, h]

theorem witness_BalerMessages :
    (∀ x ∈ [(0 : Byte), 1], ∃ s t d j b m e r o, s = baled (bOp 6 1 0 1) (fun b => { b with
        digestRuns := [{ op := 0, digest := List.replicate 32 x, since := 0 }] }) id [balMsg15 .digest 1 1 []] ∧
      s.front .digest = some (d, t) ∧ t.deliveryBaler d = some (j, b) ∧ m = BalMsg.parse d.body ∧
      e = (⟨d.rank, m.step, m.rangeId, m.kind, m.ordinal, m.offset, m.units, m.digest⟩ : EarlyDigest) ∧ b.digestRuns = [r] ∧
      t.op r.op = some o ∧ o.job = d.job ∧ o.live ∧ o.digestMatches e = true ∧
      (t.role j o.bRole.1 o.bRole.2).any (fun h => h.rank == d.rank) = true ∧ (r.digest = m.digest ↔ x = 0)) ∧
    (∀ x ∈ [0, 16], ∃ s t d j b, s = baled (bOp 3 0 8 0) (fun b => { b with
        digests := List.replicate x ⟨1, 5, 3, 1, 0, 0, 1, []⟩ }) id [balMsg15 .digest 1 1 []] ∧ s.front .digest = some (d, t) ∧
      t.deliveryBaler d = some (j, b) ∧ b.digestRuns = [] ∧ b.digests.length = x) ∧
    (∃ s t d j b r, s = baled (bOp 3 0 8 0) (fun b => { b with
        regions := [⟨2, 5, 0, 0x900000, 4096⟩], mirrors := [(2, 0)] }) id [balMsg15 .history 2 1 (List.replicate 64 1)] ∧
      s.front .history = some (d, t) ∧ t.deliveryBaler d = some (j, b) ∧ b.mirrors = [(2, d.roleIndex)] ∧
      b.regions.find? (fun x => x.set == 2 && x.kind == 5) = some r ∧
      t.writeAccess r.base (min r.len (d.body.length - 64)) ≠ .stall) ∧
    (∃ s t d j b, s = baled (bOp 3 0 8 0) id id [{ balMsg15 .fillReq 3 1 [] with target := 0xFF01 }] ∧
      s.front .fillReq = some (d, t) ∧ t.deliveryBaler d = some (j, b) ∧ b.hasSet d.balSet = false) ∧
    (∃ s t d j b m, s = baled (bOp 3 0 8 0) id id [balMsg15 .fillReq 3 2 (layoutBytes [(1, 0, 0, 4096), (8, 0, 0, 64)])] ∧
      s.front .fillReq = some (d, t) ∧ t.deliveryBaler d = some (j, b) ∧ m = BalMsg.parse d.body ∧ b.hasSet d.balSet = true ∧
      sameLayout (layoutBytes (j.fillLayout b d.balSet)) ((d.body.drop 64).take (16 * m.units)) = true ∧
      (∀ e ∈ t.jobs, ∀ x, e.2.baler = some x → x.serves = []) ∧
      t.spansAccess ((j.fillLayout b d.balSet).map fun e => { base := e.2.2.1, len := e.2.2.2 }) = .good) ∧
    (∃ s t d j b m e, s = baled (bOp 7 0 0 0) (fun b => { b with fills := [(0, 0)] }) id
        [balMsg15 .fillData 4 1 (List.replicate 4096 1)] ∧ s.front .fillData = some (d, t) ∧ t.deliveryBaler d = some (j, b) ∧
      m = BalMsg.parse d.body ∧ b.fillOf d.balSet = some 0 ∧
      (j.fillLayout b d.balSet).find? (fun e => e.1 == m.kind && e.2.1 == m.ordinal) = some e ∧
      t.writeAccess (e.2.2.1 + 4096 * m.offset)
        ((d.body.drop 64).take (min (4096 * m.units) (e.2.2.2 - 4096 * m.offset))).length = .good ∧ Cells.wf s.mem.hbm ∧
      ∀ q, s.mem.lostSector q = false) ∧
    (∃ s t d j b o, s = baled (bOp 7 0 0 0) (fun b => { b with fills := [(0, 0)] }) id [balMsg15 .fillDone 5 0 []] ∧
      s.front .fillDone = some (d, t) ∧ t.deliveryBaler d = some (j, b) ∧ b.fillOf d.balSet = some 0 ∧ t.op 0 = some o ∧ o.live) ∧
    (∃ s t d j b, s = baled (bOp 7 0 0 0) (fun b => { b with fills := [(0, 0)] }) id [balMsg15 .fillAbort 6 0 []] ∧
      s.front .fillAbort = some (d, t) ∧ t.deliveryBaler d = some (j, b) ∧ b.fillOf d.balSet = some 0) := by
  refine ⟨?_, ?_, ⟨_, _, balMsg15 .history 2 1 (List.replicate 64 1), _, _, ⟨2, 5, 0, 0x900000, 4096⟩, rfl, rfl, rfl, rfl, by decide, by decide +kernel⟩,
    ⟨_, _, _, _, _, rfl, rfl, rfl, rfl⟩,
    ⟨_, _, balMsg15 .fillReq 3 2 (layoutBytes [(1, 0, 0, 4096), (8, 0, 0, 64)]), _, _, _, rfl, rfl, rfl, rfl, by decide +kernel,
      by decide +kernel, ?_, by decide +kernel⟩,
    ⟨_, _, balMsg15 .fillData 4 1 (List.replicate 4096 1), _, _, _, (1, 0, 0x500000, 4096), rfl, rfl, rfl, rfl, by decide, by decide +kernel, by decide +kernel,
      by decide +kernel, lost_of _ rfl⟩,
    ⟨_, _, _, _, _, _, rfl, rfl, rfl, by decide, rfl, by decide⟩, ⟨_, _, _, _, _, rfl, rfl, rfl, by decide⟩⟩
  · intro x hx
    simp only [List.mem_cons, List.not_mem_nil, or_false] at hx
    rcases hx with rfl | rfl <;>
      exact ⟨_, _, balMsg15 .digest 1 1 [], _, _, _, _, _, bOp 6 1 0 1, rfl, rfl, rfl, rfl, rfl, rfl, rfl, by decide +kernel⟩
  · intro x hx
    exact ⟨_, _, _, _, _, rfl, rfl, rfl, rfl, List.length_replicate⟩
  · intro e he x h
    simp only [baled, flight, List.mem_cons, List.not_mem_nil, or_false] at he
    rw [he] at h
    cases h
    rfl

theorem witness_BalerCommands :
    ((baled (bOp 3 0 8 0)).Serves 0 ∧ (baled (bOp 3 0 8 0)).hub.dev ≠ .boot ∧ ∀ a ∈ [[1, 1, 0x11223344, 65535, 8, 15, 0x500000, 0],
        [255, 2, 0, 0, 0, 0, 0, 0]], Fits 8 a ∧ 1 ≤ argN a 0 ∧ argN a 0 < 256 ∧ (argN a 1 = 1 ∨ argN a 1 = 2) ∧ argN a 3 < 65536 ∧
      argN a 5 < 16 ∧ argAddrOk a 6 ∧ argAddr a 6 % 4096 = 0) ∧
    (∀ e ∈ (baled (bOp 3 0 8 0)).jobs, ∀ b, e.2.baler = some b → b.image = none) ∧
    (∀ a ∈ [[0, 0xB00000, 0, 0x100000, 4095, 255, 1600, 1, 7], [0, 0, 0, 0, 0, 0, 1, 7, 0]], ∃ s j, s = baled (bOp 3 0 8 0) id
        (fun j => { j with baler := none }) ∧ s.Serves 0 ∧ s.hub.dev ≠ .boot ∧ s.jobOf 0 (argN a 0) = some j ∧ Fits 9 a ∧ argAddrOk a 1 ∧
      argAddr a 1 % 4096 = 0 ∧ argN a 3 % 4096 = 0 ∧ s.granted 0 (argAddr a 1) (argN a 3) true ∧ argN a 4 < 4096 ∧ argN a 5 < 256 ∧
      1 ≤ argN a 6 ∧ argN a 6 ≤ 1600 ∧ argN a 7 ≠ 0 ∧ j.baler = none) ∧
    (∃ s j b, s = baled (bOp 3 0 8 0) (fun b => { b with st := .paused }) ∧ s.Serves 0 ∧ s.hub.dev ≠ .boot ∧ s.jobOf 0 0 = some j ∧
      j.baler = some b ∧ b.st ≠ .idle ∧ Fits 1 [0] ∧ b.st = .paused) ∧
    (∃ s j b, s = baled (bOp 3 0 8 0) ∧ s.jobOf 0 0 = some j ∧ j.baler = some b ∧ b.relay = none ∧ b.st = .idle ∧
      (∀ a ∈ [[0, 1, 0, 0, 0, 0, 0, 1, 65535, 65535], [0, 2, 0, 0, 0, 0, 0, 0, 0, 0]], Fits 10 a ∧ argN a 0 = 0 ∧
        (argN a 1 = 1 ∨ argN a 1 = 2) ∧ argN a 8 < 65536 ∧ argN a 9 < 65536) ∧
      b.serves = [] ∧ b.fills = [] ∧
      (∀ a ∈ [[0, 0, 1, 0]], Fits 4 a ∧ argN a 0 = 0 ∧ ∃ r ∈ b.regions, r.set = argN a 1 ∧ r.kind = argN a 2 ∧ r.ordinal = argN a 3 ∧
        argN a 1 < 16 ∧ 1 ≤ argN a 2 ∧ argN a 2 ≤ 5 ∧ argN a 3 ≤ 13) ∧
      (Fits 3 [0, 0, 9] ∧ argN [0, 0, 9] 1 < 2 ∧ (j.keys.find (argN [0, 0, 9] 1)).isSome)) ∧
    (∃ s j b, s = baled (bOp 3 0 8 0) (fun b => { b with regions := [] }) ∧ s.jobOf 0 0 = some j ∧ j.baler = some b ∧ b.regions = [] ∧
      b.serves = [] ∧ b.fills = [] ∧ b.st = .idle ∧
      ∀ a ∈ [[0, 0, 0, 4, 13, 0x500000, 0, 4096], [0, 15, 0xFFFFFF, 5, 0, 0x500000, 0, 0x10000]], ∃ r : BRegion, r =
        ⟨argN a 1, argN a 3, argN a 4, argAddr a 5, argN a 7⟩ ∧ Fits 8 a ∧ argN a 0 = 0 ∧ r.set < 16 ∧ argN a 2 < 2 ^ 24 ∧ 1 ≤ r.kind ∧
        r.kind ≤ (if r.set = 0 then 4 else 5) ∧ r.ordinal ≤ 13 ∧ argAddrOk a 5 ∧ r.base % 4096 = 0 ∧ r.len % 4096 = 0 ∧ 0 < r.len ∧
        s.mem.inCorrected r.base r.len ∧ s.granted 0 r.base r.len true) ∧
    (∀ x ∈ [[], [(5 : Word)]], ∃ s j, s = { baled (bOp 3 0 8 0) id (fun j => { j with updateSteps := x }) with hub := { up.hub with ops := [] } } ∧
      s.Serves 0 ∧ s.hub.dev ≠ .boot ∧ s.jobOf 0 0 = some j ∧ Fits 2 [0, 5] ∧ s.access j.scaleRegion j.scaleLen = .good ∧
      s.access j.stepRegion j.stepLen = .good ∧ s.access j.gatherBase (32 * 2 ^ j.log2Gather) = .good ∧
      s.mayReplay (argN [0, 5] 0) j (wordAt [0, 5] 1) = x.isEmpty) := by
  refine ⟨⟨serves_of _ (by decide +kernel), by decide, by decide⟩, ?_, ?_,
    ⟨_, _, _, rfl, serves_of _ (by decide +kernel), by decide, rfl, rfl, by decide, by decide, rfl⟩,
    ⟨_, _, _, rfl, rfl, rfl, rfl, rfl, by decide, rfl, rfl, by decide, by decide⟩,
    ⟨_, _, _, rfl, rfl, rfl, rfl, rfl, rfl, rfl, ?_⟩, ?_⟩
  · intro e he b h
    simp only [baled, flight, List.mem_cons, List.not_mem_nil, or_false] at he
    rw [he] at h
    cases h
    rfl
  · intro a ha
    simp only [List.mem_cons, List.not_mem_nil, or_false] at ha
    rcases ha with rfl | rfl <;> exact ⟨_, _, rfl, serves_of _ (by decide +kernel), by decide, rfl, by decide +kernel⟩
  · intro a ha
    simp only [List.mem_cons, List.not_mem_nil, or_false] at ha
    rcases ha with rfl | rfl <;> exact ⟨_, rfl, by decide +kernel⟩
  · intro x hx
    simp only [List.mem_cons, List.not_mem_nil, or_false] at hx
    rcases hx with rfl | rfl <;> exact ⟨_, _, rfl, serves_of _ (by decide +kernel), by decide, rfl, by decide +kernel⟩

/-! ## Witnesses: recompute, lea resets and register accesses -/

/-- A running copy op of a job in BACKWARD; sector 0x28000 is in error, and entry 0 of the directory covers it, with PREV. -/
def broken16 (prev : Byte) (valid : Byte) (g : State → State := id) : State := flight (op12 3 2 0 0 [] .running)
  (fun j => { j with stepHdr := [0x01000000], backward := true }) fun s => g { s with
    mem := { errs := [(0x28000, .detected)]
             hbm := ([(0x300004, 1), (0x3000A2, prev), (0x3000A3, prev), (0x3000A4, 5), (0x3000AE, 0x50), (0x3000B3, valid), (0x3000B4, 64),
                      (0x3000B8, 1)].filter fun c => c.2 != 0) } }

theorem witness_RecomputeEvents :
    (∃ s, s = flight (op12 3 2 0 0 [] .waiting) ∧ ∀ o, s.op 0 = some o → o.running = false) ∧
    (∃ s o, s = broken16 0xFF 0 ∧ s.op 0 = some o ∧ o.running ∧ (s.lea o.lea).st ≠ .resetting ∧
      s.sectorAccess 0x28000 = .bad 0x28000 .unitFault ∧ s.recomputeTarget o 0x28000 = none ∧ 3 ≤ o.cls) ∧
    (∃ s o j, s = broken16 0 0x80 ∧ s.op 0 = some o ∧ s.recomputeTarget o 0x28000 = some (j, 0) ∧ s.train.recomputes = [] ∧
      s.chainTo j (2 ^ j.log2Dir + 1) 0 [] = none ∧ 3 ≤ o.cls) ∧
    (∃ s o j l es v, s = broken16 0xFF 0x80 ∧ s.op 0 = some o ∧ o.running ∧ (s.lea o.lea).st ≠ .resetting ∧
      s.sectorAccess 0x28000 = .bad 0x28000 .unitFault ∧ s.recomputeTarget o 0x28000 = some (j, 0) ∧ s.train.recomputes = [] ∧
      s.chainTo j (2 ^ j.log2Dir + 1) 0 [] = some l ∧ es = l.map (s.dirEntry j) ∧ s.spansAccess (State.chainSpans j l es) = .good ∧
      s.replayChain j (l.zip es) [] (l.length + 1) (l.length - 1) = .done v) ∧
    (∀ x ∈ [0, 1], ∃ s j r, s = broken16 0xFF 0x80 (fun s => { s with
        train := { s.train with recomputes := [{ job := 0, op := x, target := 0, resumed := true }] } }) ∧
      s.jobs.find 0 = some j ∧ s.train.recomputes = [r] ∧ r.job = 0 ∧ r.resumed = true ∧
      (x = 1 → s.op r.op = none) ∧ (x = 0 → ∃ o, s.op r.op = some o ∧ o.live)) := by
  refine ⟨⟨_, rfl, ?_⟩, ⟨_, op12 3 2 0 0 [] .running, rfl, by decide +kernel⟩,
    ⟨_, op12 3 2 0 0 [] .running, _, rfl, rfl, by rfl, rfl, by decide +kernel, by decide⟩,
    ⟨_, op12 3 2 0 0 [] .running, _, [0], _, broken16 0xFF 0x80, rfl, rfl, by decide, by decide, by decide +kernel, by rfl, rfl, by decide +kernel, rfl,
      by decide +kernel, by decide +kernel⟩, ?_⟩
  · intro o h
    cases h
    decide
  · intro x hx
    simp only [List.mem_cons, List.not_mem_nil, or_false] at hx
    rcases hx with rfl | rfl
    · exact ⟨_, _, _, rfl, rfl, rfl, rfl, rfl, by decide, fun _ => ⟨_, rfl, by decide⟩⟩
    · exact ⟨_, _, _, rfl, rfl, rfl, rfl, rfl, by decide, by decide⟩

/-- `up` with lea 1 in a state, and VF Enable. -/
def two (st : LeaSt) (r : Option LeaReset := none) : State := { up with
  pcie := { up.pcie with vfEnable := true }, leas := up.leas ++ [(1, { st := st, resetting := r })] }

theorem witness_LeaResets :
    ((two .enabled).Serves 0 ∧ (two .enabled).hub.dev ≠ .boot ∧ (∀ a ∈ [[0], [1]], Fits 1 a ∧ argN a 0 < 64 ∧
      ((two .enabled).lea (argN a 0)).st = .enabled) ∧ Fits 0 [] ∧ (two .enabled).live) ∧
    (((two .enabled).lea 1).st = .enabled ∧ ((two .enabled).lea 1).inCommand = false ∧ (up.lea 63).st = .absent ∧
      (up.lea 63).inCommand = false) ∧
    (up.pcie.vfEnable = false ∧ (two .enabled).pcie.vfEnable = true ∧ ((two .disabled).lea 1).st = .disabled ∧
      ((two .disabled).lea 1).inCommand = false) ∧
    (∀ c ∈ [ResetCause.leaReset, .flr], ∃ s r, s = two .resetting (some { cause := c, entries := true, returned := true }) ∧
      (s.lea 1).resetting = some r ∧ r.returned = true ∧ s.cihalServes = true ∧ (r.cause = .leaReset ∨ r.cause = .flr) ∧
      (s.lea 1).pendingReset = none ∧ (s.lea 1).st = .resetting) := by
  refine ⟨⟨serves_of _ (by decide), by decide⟩, by decide, by decide, ?_⟩
  intro c hc
  simp only [List.mem_cons, List.not_mem_nil, or_false] at hc
  rcases hc with rfl | rfl <;> exact ⟨_, _, rfl, rfl, by decide⟩

theorem witness_RegisterAccesses :
    (∀ x ∈ [(0, 0), (1, 0), (1, 0xFC), (0, 0x920), (0, 0x410), (0, 0xA18)], (two .enabled).reachable x.1 = true ∧ x.2 < barSize x.1 ∧
      x.2 % 4 = 0) ∧
    (regAt 0 0x200 = none ∧ 0x200 < barSize 0 ∧ 0x200 % 4 = 0) ∧ (∃ r high, regAt 0 0x108 = some (r, high)) ∧
    (∃ s w, s = upLea (fun x => { x with latch := [(0x10000, 7)] }) ∧ s.reachable 0 = true ∧ (s.lea 0).latch.find 0x10000 = some w) ∧
    (up.reachable 0 = true ∧ 3 < 4) ∧
    (∀ x ∈ [(1, 3), (2, 4), (4, 6)], ∃ s, s = { up with pcie := {} } ∧ s.pcie.up = false ∧ s.edgeOn 28 ∧ s.edgeOn 29 ∧ 3 ≤ x.2 ∧ x.2 ≤ 6 ∧
      (x.1 = 1 ∨ x.1 = 2 ∨ x.1 = 4) ∧ s.hub.ops = []) := by
  refine ⟨by decide, ?_, ?_, ⟨_, _, rfl, by decide, rfl⟩, by decide, ?_⟩
  · refine ⟨Option.isNone_iff_eq_none.mp (by decide +kernel), by decide, by decide⟩
  · obtain ⟨⟨r, h⟩, e⟩ := Option.isSome_iff_exists.mp (show (regAt 0 0x108).isSome = true by decide +kernel)
    exact ⟨r, h, e⟩
  · intro x hx
    exact ⟨_, rfl, by revert x; decide⟩

/-- `up`, in BOOT or not, with a request in lea 1's mailbox. -/
def asked (dev : DevState) (req : List Word) : State := { two .enabled with
  hub := { (two .enabled).hub with dev := dev }
  leas := up.leas ++ [(1, { st := .enabled, mbx := { ring := true, busy := true, latched := req } })] }

theorem witness_MailboxCheckOrder :
    up.nextMailbox = none ∧
    (∀ x ∈ [([0x02020001, 0], 0), ([0x01410001, 0], 1), ([0x01010001, 0], 1), ([0x0102FFFF, 0], 2), ([0x01020012, 0], 3),
        ([0x01020050, 0], 4), ([0x01020001, 0], 6)], ∃ s l req, s = asked .ready x.1 ∧ s.nextMailbox = some l ∧
      req = (s.lea l).mbx.latched ∧ (x.2 = 0 ↔ fld (wordAt req 0) 31 24 ≠ 1) ∧ (x.2 = 1 ↔ fld (wordAt req 0) 31 24 = 1 ∧
        (reqLength req < 2 ∨ 64 < reqLength req)) ∧ (x.2 = 2 → ∀ d ∈ allCommands, d.code ≠ reqCode req) ∧
      (x.2 = 6 → reqCode req = 1) ∧
      (3 ≤ x.2 → ((allCommands.find? fun d => d.code == reqCode req).any fun d =>
        if x.2 = 3 then decide (reqLength req < 2 + d.words (reqArgs req))
        else decide (2 + d.words (reqArgs req) ≤ reqLength req) && (d.issuer.allows l (reqArgs req) == (x.2 == 6))) = true)) ∧
    (∃ s l req, s = asked .boot [0x01030012, 0, 1] ∧ s.nextMailbox = some l ∧ req = (s.lea l).mbx.latched ∧
      s.hub.dev = .boot ∧ fld (wordAt req 0) 31 24 = 1 ∧ 2 ≤ reqLength req ∧ reqLength req ≤ 64 ∧
      (allCommands.find? fun d => d.code == reqCode req).any (fun d => decide (2 + d.words (reqArgs req) ≤ reqLength req) &&
        d.issuer.allows l (reqArgs req) && decide (3 < d.code)) = true) := by
  refine ⟨by decide, ?_, ⟨_, 1, _, rfl, by decide, rfl, by decide +kernel⟩⟩
  intro x hx
  refine ⟨_, 1, x.1, rfl, ?_⟩
  revert x
  decide +kernel

theorem witness_ResponseAndSettleFrame :
    (({ latched := List.replicate 64 0 } : Mailbox).latched.length = 64 ∧ 0 < [(7 : Word)].length) ∧
    ((up.leas.find 0).isSome ∧ (up.lea 0).pendingEvents = [] ∧ (up.lea 0).pendingReset = none) := by decide

theorem witness_MemoryWritesRead : ∃ s : State, s = up ∧ Cells.wf s.mem.hbm ∧ (∀ x ∈ sectorsOf 0x1F 2, s.mem.lostSector x = false) ∧
    ∃ t : State, t = { up with mem := { up.mem with stackLost := 1 } } ∧ t.mem.lostSector (0 / 32) = true :=
  ⟨_, rfl, by decide, by decide +kernel, _, rfl, by decide +kernel⟩

theorem witness_StepRunsFrontCommand : up.pending = [] := rfl

theorem witness_StepKeepsSettled : State.reset.Settled ∧ ∃ t, step State.reset = .next t :=
  ⟨⟨by decide, by decide, by decide, by decide, by decide⟩, _, rfl⟩

/-! ## The spec's worked examples -/

/-- A value of FP32. -/
abbrev f (w : Nat) : Val := fp32 (BitVec.ofNat 32 w)

/-- 03, one FP32 block into MXFP8 E4M3: 470.0, 4.25, 0.01, −0.0015 and zeros. -/
theorem test_e4m3_block : encodeBlock .e4m3 none ([f 0x43EB0000, f 0x40880000, f 0x3C23D70A, f 0xBAC49BA6] ++ List.replicate 28 (f 0)) =
    (0x80, [0x77, 0x40, 0x03, 0x80] ++ List.replicate 28 0, false, false, 1) := by decide +kernel

/-- Table 3.7: MXFP4 halfway; MXINT8 with and without the increment. -/
theorem test_edge_blocks :
    encodeBlock .e2m1 none [f 0x40A00000] = (0x7F, [0x6], false, false, 0) ∧
    encodeBlock .mxint8 none [f 0x3FFF5C29] = (0x80, [0x40], false, false, 0) ∧
    encodeBlock .mxint8 none [f 0x3FFEB852] = (0x7F, [0x7F], false, false, 0) := by decide +kernel

/-- Table 3.7: infinities in E5M2 and E4M3, and a block of −0. -/
theorem test_infinite_blocks :
    (encodeBlock .e5m2 none [.inf false, f 0x40400000]).1 = 0x71 ∧ (encodeBlock .e5m2 none [.inf false, f 0x40400000]).2.1 = [0x7C, 0x7A] ∧
    encodeBlock .e4m3 none [.inf false, f 0x40400000] = (0xFF, [0, 0], false, true, 0) ∧
    encodeBlock .e2m3 none [f 0x80000000] = (0, [0x20], false, false, 0) := by decide +kernel

/-- Table 3.7: FP32 to BF16 half way, beyond FP16's range, half of FP16's smallest subnormal, and a decode that saturates. -/
theorem test_scalar_edges : encodeVal .bf16 (f 0x3F808000) = (0x3F80, false) ∧ encodeVal .bf16 (f 0x3F818000) = (0x3F82, false) ∧
    encodeVal .fp16 (f 0x4788B800) = (0x7BFF, true) ∧ encodeVal .fp16 (f 0xB3000000) = (0x8000, false) ∧
    encodeVal .fp32 (decodeMx .e4m3 0x7E 0xFE) = (0x7F7FFFFF, true) := by decide +kernel

/-- Table 6.4. -/
theorem test_generator :
    (laneSeed 0 0 0 0 0 = 1 ∧ laneNext 1 = 0x40822041 ∧ laneOut (laneNext 1) = 0x60C3 ∧ laneNext 0x40822041 = 0x100041060C011441 ∧
      laneOut 0x100041060C011441 = 0x7148 ∧ laneNext 0x100041060C011441 = 0x9B1E842F6E862629 ∧ laneOut 0x9B1E842F6E862629 = 0xB3FC) ∧
    laneSeed 0 3 0 5 2 = 0x0003000500000002 ∧ laneNext 0x0003000500000002 = 0x2E49B3458B044082 ∧
    laneOut 0x2E49B3458B044082 = 0xAD14 := by decide

/-- 06, one stochastic write. -/
theorem test_stochastic_write : stochBf16 0x3F81C000 0xAD14 = (0x3F82, false) ∧ stochBf16 0x3F81C000 0xC000 = (0x3F81, false) := by
  decide +kernel

/-- 06, four small additions of 2^−9 to the pair 1.0. -/
theorem test_pair_additions : pairAdd 0x00003F80 (f 0x3B000000) = (0x3B003F80, false) ∧
    pairAdd 0x3B003F80 (f 0x3B000000) = (0x3B803F80, false) ∧ pairAdd 0x3B803F80 (f 0x3B000000) = (0xBB003F81, false) ∧
    pairAdd 0xBB003F81 (f 0x3B000000) = (0x00003F81, false) := by decide +kernel

/-- A scale history entry with an estimate and a pending report. -/
def entry18 (h : Int) (o : Int) (r uf : Nat) : HistEntry :=
  { inst := 0xA3C, pendStep := 100, estimate := h, valid := true, used := true, pend := true, pendObs := some o, pendRecomputes := r
    pendUnderflow := uf, pendElements := 1000000, foldedStep := 99, overflowSteps := 0 }

/-- 06, one overflow and the descent after it. -/
theorem test_scale_folds : ((entry18 2304 18 1 0).fold 10).estimate = 4608 ∧ ((entry18 2304 18 1 0).fold 10).overflowSteps = 1 ∧
    ((entry18 4608 17 0 40).fold 10).estimate = 4576 ∧ ((entry18 4576 17 0 40).fold 10).estimate = 4548 ∧
    ((entry18 4548 17 0 2000).fold 10).estimate = 4499 ∧ ((entry18 4499 17 0 40).fold 10).estimate = 4480 := by decide

/-- 08, decoding the address 0x0001_2345_6780. -/
theorem test_address : ({} : Memory).stackOf (0x123456780 / 32) = 3 ∧ channelOfLine (({} : Memory).lineOf 0x123456780) = 99 := by
  decide +kernel

/-- 02, the header of a matrix op, and its completion entry. -/
theorem test_op_header : ∃ o : Op, o = Op.ofSlot 0 2 0 (wordsToBytes ([0x01031A01, 0x2F41, 7, 0x4E2, 3, 0x01201301, 0xA3C, 5] ++
      List.replicate 24 0)) ∧ o.cls = 1 ∧ o.job = 7 ∧ o.step = 1250 ∧ o.microbatch = 5 ∧ o.segment = 0 ∧ o.inst = 0xA3C :=
  ⟨_, rfl, by decide +kernel⟩

/-- 16, a cap of 900 W: eight steps down, three steps down, hold. -/
theorem test_power_cap : ∃ p : Power, p = { cap := 900, gain := 10, hyst := 20, vCap := 750, target := 750 } ∧
    (p.capRule 1060).vCap = 710 ∧ ({ p with vCap := 710 }.capRule 929).vCap = 695 ∧
    ({ p with vCap := 695 }.capRule 884).vCap = 695 := ⟨_, rfl, by decide⟩

/-- The pairs of 12's routing of four tokens, in order. -/
def routes18 : List Route := [⟨0, 0, 2, 0⟩, ⟨0, 1, 0, 0⟩, ⟨1, 0, 2, 0⟩, ⟨1, 1, 1, 0⟩, ⟨2, 0, 2, 0⟩, ⟨2, 1, 3, 0⟩, ⟨3, 0, 0, 0⟩, ⟨3, 1, 2, 0⟩]

/-- 12, routing four tokens. -/
theorem test_routing : ((List.range 4).map fun e => (keptOf routes18 2 e).map fun r => (r.t, r.k)) =
      [[(0, 1), (3, 0)], [(1, 1)], [(0, 0), (1, 0)], [(2, 1)]] ∧ (List.range 4).map (returnRow routes18 2) = [0, 2, 3, 5] ∧
    droppedPairs routes18 2 4 = 2 ∧ (keptPairs routes18 2 0 true).map (·.1) = [3, 0] := by decide

/-- 11, why the order shows: 1.0, 2^−24, 2^−24 in rank order, and 2^−24, 2^−24, 1.0. -/
theorem test_sum_order : (fadd (fadd 0x3F800000 0x33800000).1 0x33800000).1 = 0x3F800000 ∧
    (fadd (fadd 0x33800000 0x33800000).1 0x3F800000).1 = 0x3F800001 := by decide +kernel

/-- 04, a short, narrow MXFP8 product: 14,014 planned events on four dies. -/
theorem test_planned_events : ∃ d : MatDesc, d = ({ op12 1 3 0 0 [2048, 1024, 4096, 0x33000000] with lea := 0 } : Op).mat ∧
    State.plannedEvents { up with array := { inService := 15 } } d = 14014 := ⟨_, rfl, by decide +kernel⟩

/-! ## Commands that are not well-formed -/

/-- A frame that a check of WellFormed refuses, and one that it takes. -/
def frame18 (g : RxFrame → RxFrame) : RxFrame := g (frame10 [])

theorem test_well_formed_frames : (frame18 id).ok = true ∧ (frame18 fun x => { x with port := 16 }).ok = false ∧
    (frame18 fun x => { x with dstMac := [] }).ok = false ∧ (frame18 fun x => { x with src := .v4 [1] }).ok = false ∧
    (frame18 fun x => { x with dst := .v6 [1] }).ok = false ∧ (frame18 fun x => { x with udpPort := 65536 }).ok = false := by decide

theorem test_refused_requests : (Instr.ping 64 0 []).wellFormed = false ∧ (Instr.ping 0 0 (List.replicate 63 0)).wellFormed = false ∧
    (Instr.ping 63 0 []).wellFormed = true ∧ (Instr.registerWrite 0 0x1000000 0).wellFormed = false ∧
    (Instr.queueDoorbell 0 4096 0).wellFormed = false ∧ (Instr.cringHeadDoorbell 0 512 0).wellFormed = false ∧
    (Instr.slotFetch 0 0 [0]).wellFormed = false ∧ (Instr.flrLea 0).wellFormed = false := by decide

theorem test_refused_places : (Instr.rowDispatch 256).wellFormed = false ∧ (Instr.dieRejoin 4).wellFormed = false ∧
    (Instr.bundleRepairDone 0 32 true).wellFormed = false ∧ (Instr.stileInvalidCode 0 64 0).wellFormed = false ∧
    (Instr.stileInvalidCode 0 0 544).wellFormed = false ∧ (Instr.sealImage 0xFFFF).wellFormed = false ∧
    (Instr.scaleFold 0 0x100000000).wellFormed = false ∧ (Instr.chunkDeadline 64 0).wellFormed = false ∧
    (Instr.rateWindowEnd 0 65536).wellFormed = false ∧ (Instr.channelRepair 256 true).wellFormed = false ∧
    (Instr.edpinFault 8).wellFormed = false ∧ (Instr.cacheError (576 * 2 ^ 25) true).wellFormed = false ∧
    (Instr.edgeClockLoss 40).wellFormed = false ∧ (Instr.oscillatorFailure 30 true).wellFormed = false ∧
    (Instr.pauseFrame 16).wellFormed = false ∧ (Instr.connectorLatch 4).wellFormed = false := by decide

theorem test_refused_operands : (Instr.arpRequest 0 [] [1, 2, 3, 4] [1, 2, 3, 4]).wellFormed = false ∧
    (Instr.neighborSolicitation 0 [1, 2, 3, 4, 5, 6] [1] [1]).wellFormed = false ∧ (Instr.thermalSample 92 0).wellFormed = false ∧
    (Instr.powerWindowEnd 0 [8]).wellFormed = false ∧ Census.ok ⟨[(64, 0)], true, 0⟩ = false ∧
    ColdStart.ok { cut := .nothing, refclk := true, entropy := true, seed := 0, xspi := true, alive := true, dies := [], stacksOk := 0
                   tj := 0 } = false := by decide

end Sys2Proof.Tests
end

section
/-!
PROOF. The PCIe link and function events (O1): which fields each event writes, and which leas setting VF Enable creates.
-/

namespace Sys2Proof.Machine

/-! ## Settling and the lea states -/

/-- Settling writes the shares of a lea and nothing else of it, so its state stays. -/
@[simp] theorem State.lea_settle_st (s : State) (l : Nat) : (s.settle.lea l).st = (s.lea l).st := by
  simp only [State.settle, State.settleShares, State.lea, Map.getD, Map.find_mapVals, State.settlePeaks_leas,
    State.settleDev_leas]
  cases s.leas.find l with
  | none => rfl
  | some x => rfl

/-! ## The leas that VF Enable creates (R389) -/

/-- The model's run of numbers is the library's. -/
theorem range'_eq_listRange' (a n : Nat) : range' a n = List.range' a n := by
  induction n generalizing a with
  | zero => rfl
  | succ n ih => rw [range', ih, List.range'_succ]

@[simp] theorem Lea.goto_st (x : Lea) (st : LeaSt) : (x.goto st).st = st := by
  unfold Lea.goto
  split
  · assumption
  · rfl

@[simp] theorem State.createLea_pcie (s : State) (l : Nat) : (s.createLea l).pcie = s.pcie := by
  unfold State.createLea
  split
  · rfl
  · split <;> rfl

@[simp] theorem State.foldl_createLea_pcie (ls : List Nat) (s : State) : (ls.foldl State.createLea s).pcie = s.pcie := by
  induction ls generalizing s with
  | nil => rfl
  | cons l ls ih => rw [List.foldl_cons, ih, State.createLea_pcie]

/-- Creating lea `l` leaves every other lea as it was. -/
theorem State.lea_createLea_ne (s : State) {l k : Nat} (h : k ≠ l) : (s.createLea l).lea k = s.lea k := by
  unfold State.createLea
  split
  · simp [State.lea, h]
  · split
    · simp [State.lea, h]
    · rfl

/-- Creating lea `l` takes it from ABSENT to DISABLED, and leaves it in any other state. -/
theorem State.lea_createLea_self_st (s : State) (l : Nat) :
    ((s.createLea l).lea l).st = if (s.lea l).st = .absent then .disabled else (s.lea l).st := by
  unfold State.createLea
  split
  · next hnone => simp [State.lea, Map.getD, hnone]
  · next x hsome =>
    by_cases habs : x.st = .absent <;> simp [State.lea, Map.getD, hsome, habs]

/-- A lea created a second time is not ABSENT any more, so the order and the repeats of the list do not matter. -/
theorem State.lea_foldl_createLea_st (ls : List Nat) (s : State) (k : Nat) :
    ((ls.foldl State.createLea s).lea k).st =
      if (s.lea k).st = .absent ∧ k ∈ ls then .disabled else (s.lea k).st := by
  induction ls generalizing s with
  | nil => simp
  | cons l ls ih =>
    rw [List.foldl_cons, ih]
    by_cases hkl : k = l
    · subst hkl
      by_cases habs : (s.lea k).st = .absent <;> simp [State.lea_createLea_self_st, habs]
    · simp [State.lea_createLea_ne s hkl, hkl]

/-! ## What each event answers -/

/-- R32: the link goes down. -/
theorem exec_pcieLinkDown (s : State) : exec .pcieLinkDown s = .next s.linkDown.settle := rfl

/-- R437: PERST reaches the endpoint alone, so it does what a link that goes down does. -/
theorem exec_perst (s : State) : exec .perst s = .next s.linkDown.settle := rfl

/-- R6: the completion with Completer Abort is all that a misaligned access leaves behind. -/
theorem exec_misalignedRegAccess (s : State) (lea offset : Nat) (w : Bool) (h : s.reachable lea) :
    exec (.misalignedRegAccess lea offset w) s = .next (State.settle { s with pcie := { s.pcie with lastAbort := true } }) :=
  if_pos h

/-- R389: a request to an ABSENT function causes no action; the model needs no look at the lea's state. -/
theorem exec_absentVfAccess (s : State) (lea offset : Nat) (w : Bool) :
    exec (.absentVfAccess lea offset w) s = .next s.settle := rfl

/-- R389: NumVFs takes a value up to TotalVFs while VF Enable is clear. -/
theorem exec_numvfsWrite_of_clear (s : State) (n : Nat) (hclear : s.pcie.vfEnable = false) (hn : n ≤ 63) :
    exec (.numvfsWrite n) s = .next (State.settle { s with pcie := { s.pcie with numVfs := n } }) := by
  show execNumvfsWrite n s = _
  simp [execNumvfsWrite, finish, hclear, Nat.not_lt.mpr hn]

/-- R389: a write of NumVFs while VF Enable is set is ignored. -/
theorem exec_numvfsWrite_of_set (s : State) (n : Nat) (hset : s.pcie.vfEnable = true) :
    exec (.numvfsWrite n) s = .next s.settle := by
  show execNumvfsWrite n s = _
  simp [execNumvfsWrite, finish, hset]

/-- R389: setting VF Enable creates leas 1 to NumVFs. -/
theorem exec_vfEnableSet (s : State) (h : s.pcie.vfEnable = false) : exec .vfEnableSet s =
    .next ((List.range' 1 s.pcie.numVfs).foldl State.createLea { s with pcie := { s.pcie with vfEnable := true } }).settle := by
  show execVfEnableSet s = _
  simp only [execVfEnableSet, h, finish, range'_eq_listRange', Bool.false_eq_true, if_false]

/-! ## The obligation -/

/-- Settles O1: the link and register events answer one settled write each; the states of the leas after VF_ENABLE_SET
are those of the fold over leas 1 to NumVFs, which settling keeps. -/
theorem linkAndFunctionEvents : Obligations.LinkAndFunctionEvents := by
  unfold Obligations.LinkAndFunctionEvents
  refine ⟨exec_pcieLinkDown, exec_perst, exec_misalignedRegAccess, fun s lea offset w _ => exec_absentVfAccess s lea offset w,
    exec_numvfsWrite_of_clear, exec_numvfsWrite_of_set,
    fun s hclear => ⟨_, exec_vfEnableSet s hclear, by simp, fun l => ?leaState⟩⟩
  case leaState =>
    have hmem : l ∈ List.range' 1 s.pcie.numVfs ↔ 1 ≤ l ∧ l ≤ s.pcie.numVfs := by
      rw [List.mem_range'_1]; omega
    rw [State.lea_settle_st, State.lea_foldl_createLea_st]
    exact ite_congr (propext (and_congr_right fun _ => hmem)) (fun _ => rfl) fun _ => rfl

end Sys2Proof.Machine
end

section
/-!
PROOF. The doorbells (O2): what a write to a mailbox, queue or ring doorbell changes, as an equation per case.
-/

namespace Sys2Proof.Machine

/-! ## Settling leaves the ops and the mailboxes -/

@[simp] theorem State.setDev_hub_ops (s : State) (d : DevState) : (s.setDev d).hub.ops = s.hub.ops := by
  unfold State.setDev; split <;> rfl

@[simp] theorem State.settleDev_hub_ops (s : State) : s.settleDev.hub.ops = s.hub.ops := by
  unfold State.settleDev; split
  · split <;> simp
  · split <;> simp
  · rfl

@[simp] theorem State.settle_hub_ops (s : State) : s.settle.hub.ops = s.hub.ops :=
  s.settleDev_hub_ops

/-- Settling writes the shares of a lea and nothing else of it (R400). -/
theorem State.lea_settle (s : State) (l : Nat) : ∃ a c v w, s.settle.lea l =
    { s.lea l with readyArray := a, readyCluster := c, vArray := v, vCluster := w } := by
  simp only [State.settle, State.settleShares, State.lea, Map.getD, Map.find_mapVals, State.settlePeaks_leas,
    State.settleDev_leas]
  cases s.leas.find l with
  | none => exact ⟨_, _, _, _, rfl⟩
  | some x => exact ⟨_, _, _, _, rfl⟩

@[simp] theorem State.lea_settle_mbx (s : State) (l : Nat) : (s.settle.lea l).mbx = (s.lea l).mbx := by
  obtain ⟨a, c, v, w, h⟩ := s.lea_settle l
  rw [h]

/-! ## Leas that the host reaches -/

theorem State.listed_of_reachable {s : State} {l : Nat} (h : s.reachable l) : (s.leas.find l).isSome := by
  simp only [State.reachable, Bool.and_eq_true, bne_iff_ne] at h
  exact s.listed_of_st l h.2

/-- Two changes of a lea that agree on it as it stands are the same change. -/
theorem State.modLea_congr {s : State} {l : Nat} {f g : Lea → Lea} (h : f (s.lea l) = g (s.lea l)) :
    s.modLea l f = s.modLea l g := by
  unfold State.modLea
  cases hx : s.leas.find l with
  | none => rfl
  | some x =>
    have hlea : s.lea l = x := by simp [State.lea, Map.getD, hx]
    rw [hlea] at h
    simp only [h]

/-! ## The mailbox doorbell (R34, R35, R37) -/

theorem Mailbox.doorbell_of_free {m : Mailbox} (h : m.busy = false) : m.doorbell =
    { m with latched := (List.range 64).map (m.request.getD · 0), busy := true, done := false, ring := true } := by
  simp [Mailbox.doorbell, h]

theorem Mailbox.doorbell_of_busy {m : Mailbox} (h : m.busy = true) :
    m.doorbell = { m with overrun := true, overrunCount := m.overrunCount + 1 } := by
  simp [Mailbox.doorbell, h]

theorem exec_mbxDoorbell {s : State} {l : Nat} (h : s.reachable l) :
    exec (.mbxDoorbell l) s = .next (s.modLea l fun x => { x with mbx := x.mbx.doorbell }).settle :=
  if_pos h

/-! ## The queue and ring doorbells (R44, R496) -/

/-- A tail or head below a slot count of at most 2^16 leaves the reserved bits 31 to 16 zero. -/
theorem fld_31_16_of_lt_slots {v : Word} {k : Nat} (hv : v.toNat < 2 ^ k) (hk : k ≤ 16) : fld v 31 16 = 0 := by
  have hlt : v.toNat < 2 ^ 16 := Nat.lt_of_lt_of_le hv (Nat.pow_le_pow_right (by omega) hk)
  simp only [fld, natField, Nat.shiftRight_eq_div_pow, Nat.div_eq_of_lt hlt, Nat.zero_mod]

theorem Lea.queueBell_of_open {x : Lea} {q : Nat} {v : Word} {k : Queue} (hst : x.st ≠ .resetting)
    (hk : x.queues.find q = some k) (hv : v.toNat < 2 ^ k.log2) (hlog : k.log2 ≤ 16) :
    x.queueBell q v = { x with qdb := x.qdb.insert q v.toNat } := by
  simp [Lea.queueBell, hst, hk, hv, fld_31_16_of_lt_slots hv hlog]

theorem Lea.queueBell_ignored {x : Lea} {q : Nat} {v : Word}
    (h : x.st = .resetting ∨ ∀ k, x.queues.find q = some k → 2 ^ k.log2 ≤ v.toNat) : x.queueBell q v = x.badBell := by
  by_cases hst : x.st = .resetting
  · simp [Lea.queueBell, hst]
  · have hbad := h.resolve_left hst
    cases hk : x.queues.find q with
    | none => simp [Lea.queueBell, hst, hk]
    | some k => simp [Lea.queueBell, hst, hk, Nat.not_lt.mpr (hbad k hk)]

theorem Lea.ringBell_of_open {x : Lea} {r : Nat} {v : Word} {k : CRing} (hst : x.st ≠ .resetting)
    (hk : x.rings.find r = some k) (hv : v.toNat < 2 ^ k.log2) (hlog : k.log2 ≤ 16) :
    x.ringBell r v = { x with cdb := x.cdb.insert r v.toNat } := by
  simp [Lea.ringBell, hst, hk, hv, fld_31_16_of_lt_slots hv hlog]

theorem Lea.ringBell_ignored {x : Lea} {r : Nat} {v : Word}
    (h : x.st = .resetting ∨ ∀ k, x.rings.find r = some k → 2 ^ k.log2 ≤ v.toNat) : x.ringBell r v = x.badBell := by
  by_cases hst : x.st = .resetting
  · simp [Lea.ringBell, hst]
  · have hbad := h.resolve_left hst
    cases hk : x.rings.find r with
    | none => simp [Lea.ringBell, hst, hk]
    | some k => simp [Lea.ringBell, hst, hk, Nat.not_lt.mpr (hbad k hk)]

/-- A queue doorbell is the change that `queueBell` makes to the lea as it stands. -/
theorem exec_queueDoorbell {s : State} {l q : Nat} {v : Word} {f : Lea → Lea} (hr : s.reachable l) (hq : q < 4096)
    (hf : (s.lea l).queueBell q v = f (s.lea l)) : exec (.queueDoorbell l q v) s = .next (s.modLea l f).settle := by
  rw [← State.modLea_congr (f := fun x => x.queueBell q v) hf]
  exact if_pos (by simp [hr, hq])

/-- A ring's head doorbell is the change that `ringBell` makes to the lea as it stands. -/
theorem exec_cringHeadDoorbell {s : State} {l r : Nat} {v : Word} {f : Lea → Lea} (hr : s.reachable l) (hring : r < 512)
    (hf : (s.lea l).ringBell r v = f (s.lea l)) : exec (.cringHeadDoorbell l r v) s = .next (s.modLea l f).settle := by
  rw [← State.modLea_congr (f := fun x => x.ringBell r v) hf]
  exact if_pos (by simp [hr, hring])

/-! ## The obligation -/

/-- Settles O2: each doorbell is one change of its lea, followed by settling, which leaves mailboxes, memory and ops; the
cases are those of `Mailbox.doorbell`, `Lea.queueBell` and `Lea.ringBell`. -/
theorem doorbellWrites : Obligations.DoorbellWrites := by
  unfold Obligations.DoorbellWrites
  refine ⟨fun s l hr => ⟨_, exec_mbxDoorbell hr, ?accepted, ?overrun, fun k hk => ?otherLeas, by simp, by simp⟩,
    fun s l q v k hr hq hst hk hv hlog => exec_queueDoorbell hr hq (Lea.queueBell_of_open hst hk hv hlog),
    fun s l q v hr hq hbad => exec_queueDoorbell hr hq (Lea.queueBell_ignored hbad),
    fun s l r v k hr hring hst hk hv hlog => exec_cringHeadDoorbell hr hring (Lea.ringBell_of_open hst hk hv hlog),
    fun s l r v hr hring hbad => exec_cringHeadDoorbell hr hring (Lea.ringBell_ignored hbad)⟩
  case accepted =>
    intro hfree
    rw [State.lea_settle_mbx, s.lea_modLea_self _ _ (State.listed_of_reachable hr)]
    exact Mailbox.doorbell_of_free hfree
  case overrun =>
    intro hbusy
    rw [State.lea_settle_mbx, s.lea_modLea_self _ _ (State.listed_of_reachable hr)]
    exact Mailbox.doorbell_of_busy hbusy
  case otherLeas => rw [State.lea_settle_mbx, s.lea_modLea_ne _ hk]

end Sys2Proof.Machine
end

section
/-!
PROOF. The fold of a scale-history entry (O36, R148 and R150): an equation per case of the estimate, and what SCALE_FOLD
answers.
-/

namespace Sys2Proof.Machine

/-! ## What a write to memory leaves of the jobs and the hub -/

@[simp] theorem State.writeWords_jobs (s : State) (base : Nat) (ws : List Word) : (s.writeWords base ws).jobs = s.jobs :=
  foldl_keeps (·.jobs) _ State.poisonEvents_jobs _ _

@[simp] theorem State.writeWords_hub (s : State) (base : Nat) (ws : List Word) : (s.writeWords base ws).hub = s.hub :=
  foldl_keeps (·.hub) _ State.poisonEvents_hub _ _

@[simp] theorem State.putHist_jobs (s : State) (j : Job) (i : Nat) (e : HistEntry) : (s.putHist j i e).jobs = s.jobs :=
  s.writeWords_jobs _ _

@[simp] theorem State.putHist_hub (s : State) (j : Job) (i : Nat) (e : HistEntry) : (s.putHist j i e).hub = s.hub :=
  s.writeWords_hub _ _

/-! ## The estimate after a fold (R150) -/

/-- OVERFLOW_STEPS after a fold: one more where the pending step recomputed a tile, saturating (Table 6.2). -/
def HistEntry.overflowAfter (e : HistEntry) : Nat :=
  if 0 < e.pendRecomputes then min (e.overflowSteps + 1) 65535 else e.overflowSteps

/-- How far a lower observation pulls the estimate down: a `k`-th of the gap, rounded up. -/
def HistEntry.descent (e : HistEntry) (o k : Int) : Int := (e.estimate - 256 * o + k - 1) / k

theorem HistEntry.fold_of_no_observation {e : HistEntry} (u : Nat) (h : e.pendObs = none) :
    e.fold u = { e with overflowSteps := e.overflowAfter } := by
  by_cases hr : 0 < e.pendRecomputes
  · simp [fold, overflowAfter, satNat, h, hr]
  · simp only [fold, overflowAfter, h, hr, if_false]
    rw [← h]

theorem HistEntry.fold_of_no_lower {e : HistEntry} {o : Int} (u : Nat) (h : e.pendObs = some o)
    (hup : e.valid = false ∨ e.estimate ≤ 256 * o) :
    e.fold u = { e with estimate := 256 * o, valid := true, overflowSteps := e.overflowAfter } := by
  by_cases hr : 0 < e.pendRecomputes <;> simp [fold, overflowAfter, satNat, h, hup, hr]

theorem HistEntry.fold_of_lower {e : HistEntry} {o : Int} (u : Nat) (h : e.pendObs = some o) (hv : e.valid = true)
    (hlow : 256 * o < e.estimate) : e.fold u = { e with
      estimate := e.estimate - e.descent o (if e.pendElements < e.pendUnderflow * 2 ^ u then 4 else 8)
      overflowSteps := e.overflowAfter } := by
  have hnot : ¬ e.estimate ≤ 256 * o := Int.not_le.mpr hlow
  by_cases hr : 0 < e.pendRecomputes <;> by_cases hf : e.pendElements < e.pendUnderflow * 2 ^ u <;>
    simp [fold, overflowAfter, descent, satNat, h, hv, hnot, hr, hf]

theorem HistEntry.fold_overflowSteps (e : HistEntry) (u : Nat) : (e.fold u).overflowSteps = e.overflowAfter := by
  cases h : e.pendObs with
  | none => rw [fold_of_no_observation u h]
  | some o =>
    by_cases hup : e.valid = false ∨ e.estimate ≤ 256 * o
    · rw [fold_of_no_lower u h hup]
    · obtain ⟨hv, hlow⟩ := not_or.mp hup
      rw [fold_of_lower u h (by simpa using hv) (Int.not_le.mp hlow)]

/-- The rounding up moves the estimate by at least one unit, and never past the observation. -/
theorem HistEntry.descent_bounds {e : HistEntry} {o k : Int} (hk : 0 < k) (hlow : 256 * o < e.estimate) :
    0 < e.descent o k ∧ e.descent o k ≤ e.estimate - 256 * o := by
  have hd : 0 < e.estimate - 256 * o := by omega
  generalize hgap : e.estimate - 256 * o = d at hd
  simp only [descent, hgap]
  constructor
  · exact Int.le_ediv_of_mul_le hk (by omega)
  · have hgrow : d * 1 ≤ d * k := Int.mul_le_mul_of_nonneg_left hk (Int.le_of_lt hd)
    have hlt : d + k - 1 < (d + 1) * k := by rw [Int.add_mul, Int.one_mul]; omega
    exact Int.lt_add_one_iff.mp (Int.ediv_lt_of_lt_mul hk hlt)

/-! ## What SCALE_FOLD answers (R148) -/

theorem exec_scaleFold_of_no_job {s : State} {jh : Nat} (inst : Nat) (h : s.jobs.find jh = none) :
    exec (.scaleFold jh inst) s = .next s.settle := by
  show execScaleFold jh inst s = _
  simp only [execScaleFold, h, finish]

/-- R148: the pending report is folded and discarded, and the entry goes on to the STEP of the first held op. -/
theorem exec_scaleFold_of_held {s : State} {jh inst i : Nat} {j : Job} {e : HistEntry} {h : Nat × Op} {mine : Map Op}
    (hj : s.jobs.find jh = some j) (hi : s.histSlot j (BitVec.ofNat 32 inst) = some i) (he : e = s.histEntry j i)
    (hmine : mine = s.hub.ops.filter fun x => x.2.job == jh && x.2.inHistory && x.2.inst == BitVec.ofNat 32 inst)
    (hheld : (mine.find? fun x => x.2.phase == .waiting && signedLess e.pendStep x.2.step) = some h)
    (hdone : (mine.any fun x => x.2.step == e.pendStep && !x.2.completed) = false) {u : State}
    (hu : u = s.putHist j i { (e.fold j.ufLog2).discard with foldedStep := e.pendStep, pendStep := h.2.step }) :
    exec (.scaleFold jh inst) s = .next (State.settle { u with scale := { u.scale with folds := s.scale.folds + 1 } }) := by
  subst he hmine hu
  show execScaleFold jh inst s = _
  simp only [execScaleFold, hj, hi, hheld, hdone, finish, Bool.false_eq_true, if_false]

/-! ## The obligation -/

/-- Settles O36: the three cases of the estimate are the equations of `HistEntry.fold`, and SCALE_FOLD writes the folded
entry to memory and leaves the jobs and the ops. -/
theorem scaleHistoryFold : Obligations.ScaleHistoryFold := by
  unfold Obligations.ScaleHistoryFold
  refine ⟨fun e u o h hup => ?noLower, fun e u o d sh h hv hlow hd hsh => ?lower, fun e u h => ?noObservation,
    fun e u => e.fold_overflowSteps u, fun s jh inst i j e e' h mine hj hi he hmine hheld hdone he' => ?folded,
    fun s jh inst h => exec_scaleFold_of_no_job inst h⟩
  case noLower =>
    rw [HistEntry.fold_of_no_lower u h hup]
    exact ⟨rfl, rfl⟩
  case lower =>
    have hpos : 0 < sh := by rw [hsh]; split <;> decide
    have hstep : (d + sh - 1) / sh = e.descent o sh := by rw [hd, HistEntry.descent]
    obtain ⟨hmoves, hstops⟩ := HistEntry.descent_bounds hpos hlow
    rw [HistEntry.fold_of_lower u h hv hlow, ← hsh, hstep]
    exact ⟨rfl, by dsimp only; omega, by dsimp only; omega, hv⟩
  case noObservation =>
    rw [HistEntry.fold_of_no_observation u h]
    exact ⟨rfl, rfl⟩
  case folded =>
    exact ⟨_, exec_scaleFold_of_held hj hi he hmine hheld hdone rfl, by simp [he'], by simp, by simp, by simp⟩

end Sys2Proof.Machine
end

section
/-!
PROOF. Stochastic rounding (O38, R162 and R163): which words are NaNs and infinities, the cases of the conversion, and that
no step of a generator comes to zero.
-/

namespace Sys2Proof.Machine

/-! ## The NaNs and infinities of FP32 (Table 3.4) -/

/-- In a format with infinities, the magnitude of a code, its sign apart, says which kind of value the code is. -/
theorem decodeElem_kind {f : Fmt} {code mag : Nat} (hf : f ≠ .mxint8) (hinf : fmtHasInf f = true)
    (hmag : mag = code % 2 ^ (fmtBits f - 1)) :
    (fmtMaxCode f + 1 < mag ∧ decodeElem f code = .nan) ∨
    (mag = fmtMaxCode f + 1 ∧ ∃ neg, decodeElem f code = .inf neg) ∨
    (mag ≤ fmtMaxCode f ∧ ∃ neg m e, decodeElem f code = .fin neg m e) := by
  simp only [decodeElem, if_neg hf, hinf, ← hmag, Bool.true_and, decide_eq_true_eq]
  rcases Nat.lt_trichotomy mag (fmtMaxCode f + 1) with hlt | heq | hgt
  · refine .inr (.inr ⟨Nat.le_of_lt_succ hlt, code.testBit (fmtBits f - 1), ?_⟩)
    rw [if_neg (by omega)]
    by_cases hsub : mag >>> fmtMant f = 0
    · exact ⟨_, _, if_pos hsub⟩
    · exact ⟨_, _, if_neg hsub⟩
  · exact .inr (.inl ⟨heq, _, by rw [if_pos (by omega), if_pos heq]⟩)
  · exact .inl ⟨hgt, by rw [if_pos (by omega), if_neg (by omega)]⟩

theorem fp32_kind (w : Word) : (0x7F800000 < w.toNat % 2 ^ 31 ∧ fp32 w = .nan) ∨
    (w.toNat % 2 ^ 31 = 0x7F800000 ∧ ∃ neg, fp32 w = .inf neg) ∨
    (w.toNat % 2 ^ 31 < 0x7F800000 ∧ ∃ neg m e, fp32 w = .fin neg m e) := by
  obtain h | h | ⟨hle, h⟩ := decodeElem_kind (f := .fp32) (code := w.toNat) (by decide) rfl rfl
  · exact .inl h
  · exact .inr (.inl h)
  · exact .inr (.inr ⟨Nat.lt_succ_of_le hle, h⟩)

theorem fp32_isInf_iff (w : Word) : (fp32 w).isInf = true ↔ w.toNat % 2 ^ 31 = 0x7F800000 := by
  obtain ⟨hm, hv⟩ | ⟨hm, neg, hv⟩ | ⟨hm, neg, m, e, hv⟩ := fp32_kind w
  · exact iff_of_false (by simp [hv, Val.isInf]) (by omega)
  · exact iff_of_true (by simp [hv, Val.isInf]) hm
  · exact iff_of_false (by simp [hv, Val.isInf]) (by omega)

/-- A word is finite only where its magnitude lies below that of the infinities. -/
theorem magnitude_lt_of_fp32_finite {w : Word} (hnan : (fp32 w).isNan = false) (hinf : (fp32 w).isInf = false) :
    w.toNat % 2 ^ 31 < 0x7F800000 := by
  obtain ⟨-, hv⟩ | ⟨-, neg, hv⟩ | ⟨hm, -⟩ := fp32_kind w
  · simp [hv, Val.isNan] at hnan
  · simp [hv, Val.isInf] at hinf
  · exact hm

/-- A BF16 code is an infinity's where the FP32 word that it widens to is one. -/
theorem fp32_isInf_widened_iff (code : Nat) :
    (fp32 (BitVec.ofNat 32 (code * 65536))).isInf = true ↔ code % 0x8000 = 0x7F80 := by
  rw [fp32_isInf_iff, BitVec.toNat_ofNat]
  omega

theorem fld_31_16_eq_div (w : Word) : fld w 31 16 = w.toNat / 65536 := by
  have := w.isLt
  simp only [fld, natField, Nat.shiftRight_eq_div_pow]
  omega

/-! ## The conversion (R162) -/

theorem stochBf16_of_nan {f : Word} (r : Nat) (h : (fp32 f).isNan = true) : stochBf16 f r = (0x7FC0, false) :=
  if_pos h

theorem Val.isNan_of_isInf {v : Val} (h : v.isInf = true) : v.isNan = false := by
  cases v with
  | inf neg => rfl
  | nan => contradiction
  | fin neg m e => rfl

theorem stochBf16_of_inf {f : Word} (r : Nat) (h : (fp32 f).isInf = true) : stochBf16 f r = (fld f 31 16, false) := by
  simp [stochBf16, Val.isNan_of_isInf h, h]

/-- The code of a finite value: the bits kept, or the next code from zero where the draw is below the bits cut off. -/
def stochCode (f : Word) (r : Nat) : Nat := if r < fld f 15 0 then fld f 31 16 + 1 else fld f 31 16

theorem stochBf16_of_finite {f : Word} (r : Nat) (hnan : (fp32 f).isNan = false) (hinf : (fp32 f).isInf = false) :
    stochBf16 f r =
      if stochCode f r % 0x8000 = 0x7F80 then (stochCode f r - 1, true) else (stochCode f r, false) := by
  by_cases hr : r < fld f 15 0 <;> simp [stochBf16, stochCode, hnan, hinf, hr]

/-- The code of a finite value is an infinity's only where it was rounded up, from the largest finite code of its sign. -/
theorem stochCode_of_overflow {f : Word} {r : Nat} (hnan : (fp32 f).isNan = false) (hinf : (fp32 f).isInf = false)
    (hover : stochCode f r % 0x8000 = 0x7F80) : stochCode f r - 1 = fld f 31 16 := by
  have hmag := magnitude_lt_of_fp32_finite hnan hinf
  have hlt := f.isLt
  by_cases hr : r < fld f 15 0
  · rw [stochCode, if_pos hr, Nat.add_sub_cancel]
  · rw [stochCode, if_neg hr, fld_31_16_eq_div] at hover
    omega

/-! ## The generator (R163) -/

/-- Bit `i` of a word equal to its own left shift is its bit `i - k`, and so on down to the zeros shifted in. -/
theorem eq_zero_of_eq_shiftLeft {n k : Nat} {x : BitVec n} (hk : 0 < k) (h : x = x <<< k) : x = 0 := by
  have hbit : ∀ i, x.getLsbD i = false := by
    intro i
    induction i using Nat.strongRecOn with
    | _ i ih =>
      rw [h, BitVec.getLsbD_shiftLeft]
      by_cases hik : i < k
      · simp [hik]
      · rw [ih (i - k) (by omega), Bool.and_false]
  exact BitVec.eq_of_getLsbD_eq fun i _ => by rw [hbit]; simp

/-- A right shift by at least one bit makes any word but zero smaller. -/
theorem eq_zero_of_eq_ushiftRight {n k : Nat} {x : BitVec n} (hk : 0 < k) (h : x = x >>> k) : x = 0 := by
  have hdiv : x.toNat / 2 ^ k = x.toNat := by
    rw [← Nat.shiftRight_eq_div_pow, ← BitVec.toNat_ushiftRight, ← h]
  have hpow : 2 ^ k ≠ 1 := Nat.ne_of_gt (Nat.one_lt_two_pow (Nat.ne_of_gt hk))
  exact BitVec.eq_of_toNat_eq ((Nat.div_eq_self.mp hdiv).resolve_right hpow)

theorem xor_shiftLeft_ne_zero {n k : Nat} {x : BitVec n} (hk : 0 < k) (hx : x ≠ 0) : x ^^^ (x <<< k) ≠ 0 :=
  fun h => hx (eq_zero_of_eq_shiftLeft hk (BitVec.xor_eq_zero_iff.mp h))

theorem xor_ushiftRight_ne_zero {n k : Nat} {x : BitVec n} (hk : 0 < k) (hx : x ≠ 0) : x ^^^ (x >>> k) ≠ 0 :=
  fun h => hx (eq_zero_of_eq_ushiftRight hk (BitVec.xor_eq_zero_iff.mp h))

theorem laneNext_ne_zero {x : BitVec 64} (hx : x ≠ 0) : laneNext x ≠ 0 :=
  xor_shiftLeft_ne_zero (by decide) (xor_ushiftRight_ne_zero (by decide) (xor_shiftLeft_ne_zero (by decide) hx))

/-- A seed that comes to zero is replaced by one. -/
theorem laneSeed_ne_zero (seed layer part lane : Nat) (step : Word) : laneSeed seed layer part lane step ≠ 0 := by
  unfold laneSeed
  intro h
  dsimp only at h
  split at h
  · exact absurd h (by decide)
  · contradiction

/-! ## The obligation -/

/-- Settles O38: the three kinds of value are the branches of the conversion, and each of a generator's three shifts keeps
a word other than zero from coming to zero. -/
theorem stochasticRounding : Obligations.StochasticRounding := by
  unfold Obligations.StochasticRounding
  refine ⟨fun f r h => stochBf16_of_nan r h, fun f r h => stochBf16_of_inf r h, fun f r code hnan hinf hcode => ?finite,
    fun x hx => laneNext_ne_zero hx, laneSeed_ne_zero⟩
  case finite =>
    obtain rfl : code = stochCode f r := hcode
    rw [stochBf16_of_finite r hnan hinf]
    constructor
    · intro hfin
      exact if_neg (mt (fp32_isInf_widened_iff _).mpr (by simp [hfin]))
    · intro hover
      have hcodeInf := (fp32_isInf_widened_iff _).mp hover
      rw [if_pos hcodeInf, stochCode_of_overflow hnan hinf hcodeInf]

end Sys2Proof.Machine
end

section
/-!
PROOF. PHASE and MARK ops (O39, R175 and R181): what each of the two ops answers, and why the statement about the set that
a PHASE op awaits fails for the handle 0xFFFF, which names no job.
-/

namespace Sys2Proof.Map

/-- An insertion leaves the entries at other indexes. -/
theorem mem_insert_of_ne {α : Type} {m : Map α} {k : Nat} {v : α} {e : Nat × α} (he : e ∈ m) (hne : e.1 ≠ k) :
    e ∈ m.insert k v := by
  induction m with
  | nil => cases he
  | cons a rest ih =>
    obtain ⟨i, w⟩ := a
    rw [Map.insert]
    split
    · exact List.mem_cons_of_mem _ he
    · rcases List.mem_cons.mp he with rfl | hrest
      · rw [if_neg (Ne.symm hne)]
        exact List.mem_cons_self
      · split
        · exact List.mem_cons_of_mem _ hrest
        · exact List.mem_cons_of_mem _ (ih hrest)

end Sys2Proof.Map

namespace Sys2Proof.Machine

/-! ## The start of a sync op (R50) -/

/-- Op `n` as its start leaves it, before its unit has done anything. -/
def State.started (s : State) (n : Nat) : State := s.modOp n fun x => { x with phase := .running, stepped := true }

theorem State.op_started {s : State} {n : Nat} {o : Op} (h : s.op n = some o) :
    (s.started n).op n = some { o with phase := .running, stepped := true } :=
  State.op_modOp h _

/-- Every other op stays in flight as it was. -/
theorem State.mem_started_of_ne {s : State} {n : Nat} {e : Nat × Op} (he : e ∈ s.hub.ops) (hne : e.1 ≠ n) :
    e ∈ (s.started n).hub.ops := by
  unfold State.started State.modOp
  split
  · exact he
  · exact Map.mem_insert_of_ne he hne

@[simp] theorem State.started_jobs (s : State) (n : Nat) : (s.started n).jobs = s.jobs :=
  s.modOp_jobs n _

@[simp] theorem State.started_dirEntry (s : State) (n : Nat) (j : Job) (i : Nat) :
    (s.started n).dirEntry j i = s.dirEntry j i := by
  simp [State.started, State.dirEntry, State.readWords, State.read]

@[simp] theorem State.started_anyUnreplayable (s : State) (n : Nat) (j : Job) (o : Op) (first last : Word) :
    (s.started n).anyUnreplayable j o first last = s.anyUnreplayable j o first last := by
  simp [State.started, State.anyUnreplayable, State.logSlot, State.readWords, State.read]

/-- An op that nothing keeps back begins. -/
theorem State.startOp_of_mayBegin {s : State} {n : Nat} {o : Op} (h : s.MayBegin n o) : s.startOp n o = s.beginOp n o := by
  simp [State.startOp, h.live, h.may, h.fine, h.met, h.free, h.phase, h.update]

/-- R180: a sync op is not logged, so one that its unit does not refuse leaves what the unit leaves. -/
theorem State.beginOp_of_sync {s u : State} {n : Nat} {o : Op} (hcls : o.cls = 8) (hu : (s.started n).startUnit n o = u)
    (htaken : u.startRefused n = false) : s.beginOp n o = u := by
  have hdef : s.beginOp n o = if ((s.started n).startUnit n o).startRefused n then ((s.started n).startUnit n o).completeOp n
      else ((s.started n).startUnit n o).logForward o := rfl
  rw [hdef, hu, htaken, State.logForward, if_pos hcls]
  rfl

/-! ## PHASE holds its job (R175) -/

/-- The ops of a job that have not completed, but for the op that takes the hold. -/
def State.inFlightOf (s : State) (jh : Nat) (op : Option Nat) : List Nat :=
  ((s.jobOps jh).filter fun e => some e.1 != op && !e.2.completed).map (·.1)

/-- A job that is held awaits those of its ops that are in flight. -/
theorem State.find_takeHold {s : State} {jh : Nat} {j : Job} (h : s.jobs.find jh = some j) (op : Option Nat) :
    ∃ since, (s.takeHold jh op).jobs.find jh =
      some { j with hold := some { op := op, awaits := s.inFlightOf jh op, since := since } } :=
  ⟨_, State.find_modJob h _⟩

theorem State.op_takeHold (s : State) (jh n : Nat) (op : Option Nat) : (s.takeHold jh op).op n = s.op n := by
  simp [State.takeHold, State.op]

/-- The op that takes the hold does not await itself. -/
theorem State.not_mem_inFlightOf_self (s : State) (jh n : Nat) : n ∉ s.inFlightOf jh (some n) := by
  simp [State.inFlightOf]

/-- Under a handle that can name a job, every other op of it that has not completed is awaited. -/
theorem State.mem_inFlightOf {s : State} {jh n : Nat} {e : Nat × Op} (hjh : jh ≠ 0xFFFF) (he : e ∈ s.hub.ops)
    (hjob : e.2.job = jh) (hne : e.1 ≠ n) (hlive : e.2.completed = false) : e.1 ∈ s.inFlightOf jh (some n) := by
  have hmine : e ∈ s.jobOps jh := by simp [State.jobOps, Map.sel, he, hjob, hjh]
  exact List.mem_map_of_mem (List.mem_filter.mpr ⟨hmine, by simp [hne, hlive]⟩)

/-- Table 2.9: an op with JOB 0xFFFF is outside any job, so a hold under 0xFFFF awaits nothing. -/
theorem State.inFlightOf_no_job (s : State) (op : Option Nat) : s.inFlightOf 0xFFFF op = [] := by
  simp [State.inFlightOf, State.jobOps, Map.sel]

/-- A PHASE op that starts runs, and its job is held. -/
theorem exec_phase_of_mayBegin {s : State} {n : Nat} {o : Op} (h : s.MayBegin n o) (hcls : o.cls = 8) (hfunc : o.func = 1) :
    exec (.phase n) s = .next ((s.started n).takeHold o.job (some n)).settle := by
  have hunit : (s.started n).startUnit n o = (s.started n).takeHold o.job (some n) := by
    simp [State.startUnit, State.startPhase, hcls, hfunc]
  have htaken : ((s.started n).takeHold o.job (some n)).startRefused n = false := by
    simp [State.startRefused, State.op_takeHold, State.op_started h.op]
  show execPhase n s = _
  simp only [execPhase, h.op, hcls, hfunc, and_self, if_true, finish, State.startOp_of_mayBegin h,
    State.beginOp_of_sync hcls hunit htaken]

/-- A PHASE op that starts under a handle that can name a job awaits every other op of the job in flight, and not itself. -/
theorem exec_phase_awaits {s : State} {n : Nat} {o : Op} {j : Job} (h : s.MayBegin n o) (hcls : o.cls = 8)
    (hfunc : o.func = 1) (hj : s.jobs.find o.job = some j) (hjob : o.job ≠ 0xFFFF) :
    ∃ t hold j', exec (.phase n) s = .next t ∧ t.jobs.find o.job = some j' ∧ j'.hold = some hold ∧
    hold.op = some n ∧ n ∉ hold.awaits ∧
    ∀ e ∈ s.hub.ops, e.2.job = o.job → e.1 ≠ n → e.2.completed = false → e.1 ∈ hold.awaits := by
  obtain ⟨since, hheld⟩ := State.find_takeHold (s := s.started n) ((s.started_jobs n).symm ▸ hj) (some n)
  refine ⟨_, _, _, exec_phase_of_mayBegin h hcls hfunc, by rw [State.settle_jobs, hheld], rfl, rfl,
    State.not_mem_inFlightOf_self _ _ _, fun e he hmine hne hlive => ?_⟩
  exact State.mem_inFlightOf hjob (State.mem_started_of_ne he hne) hmine hne hlive

/-- While a hold stands, an op that it neither is nor awaits does not start. -/
theorem exec_opStart_of_held {s : State} {m : Nat} {o : Op} {j : Job} {h : JobHold} (hop : s.op m = some o)
    (hj : s.jobs.find o.job = some j) (hhold : j.hold = some h) (hother : h.op ≠ some m) (hnot : m ∉ h.awaits) :
    exec (.opStart m) s = .next s.settle := by
  have hheld : s.jobHeld m o = true := by simp [State.jobHeld, hj, hhold, hother, hnot]
  show execOpStart m s = _
  simp [execOpStart, hop, finish, State.startOp, State.mayStart, hheld]

/-! ## PHASE completes (R175) -/

/-- Once every op awaited has completed, PHASE becomes TO_PHASE, the hold ends and so does the op. -/
theorem exec_phaseComplete_of_over {s : State} {n : Nat} {o : Op} {j : Job} {h : JobHold} (hr : s.RunsFor n 8 o j)
    (hfunc : o.func = 1) (hhold : j.hold = some h) (hop : h.op = some n) (hover : s.holdOver h = true) :
    exec (.phaseComplete n) s = .next
    (((s.writeWords (j.stepRegion + 4) [BitVec.ofNat 32 (b2n o.toBackward)]).modJob o.job fun x => { x with
      hold := none, backward := o.toBackward
      logSince := if o.toBackward then j.logSince else some j.logNext }).endOp n .ok).settle := by
  show execPhaseComplete n s = _
  simp [execPhaseComplete, hr.op, hr.job, hhold, hfunc, hop, hover, finish, State.setPhase, State.modJob_modJob]

/-- While an op awaited has not completed, nothing happens. -/
theorem exec_phaseComplete_of_awaiting {s : State} {n : Nat} {o : Op} {j : Job} {h : JobHold} (hr : s.RunsFor n 8 o j)
    (hhold : j.hold = some h) (hover : s.holdOver h = false) : exec (.phaseComplete n) s = .next s.settle := by
  show execPhaseComplete n s = _
  simp [execPhaseComplete, hr.op, hr.job, hhold, hover, finish]

/-! ## MARK (R181) -/

/-- The first log index that a MARK op's entry covers: the one after entry PREV's last, or without a PREV the first of the
phase. -/
def State.markFirst (s : State) (j : Job) (prev : Nat) : Word :=
  if prev = 0xFFFF then j.logSince.getD 0 else (s.dirEntry j prev).last + 1

/-- The directory entry of a MARK op (Table 7.4). -/
def State.markEntry (s : State) (j : Job) (o : Op) : DirEntry :=
  let first := s.markFirst j (o.f 1 31 16)
  { prev := o.f 1 31 16, layer := o.f 1 15 0, step := o.step, segment := o.segment, microbatch := o.microbatch
    base := o.addr 2, valid := true, noReplay := s.anyUnreplayable j o first (j.logNext - 1), len := (o.w 4).toNat
    first := first, last := j.logNext - 1 }

@[simp] theorem State.started_markEntry (s : State) (n : Nat) (j : Job) (o : Op) :
    (s.started n).markEntry j o = s.markEntry j o := by
  simp [State.markEntry, State.markFirst]

theorem State.startMark_of_inDirectory {s : State} {n : Nat} {o : Op} {j : Job} (hj : s.jobs.find o.job = some j)
    (hdir : j.dirOk (o.f 0 15 0) = true) (hprev : o.f 1 31 16 = 0xFFFF ∨ j.dirOk (o.f 1 31 16) = true) :
    s.startMark n o = (s.writeWords (j.dirAddr (o.f 0 15 0)) (s.markEntry j o).words).endOp n .ok := by
  have hin : (!j.dirOk (o.f 0 15 0) || (o.f 1 31 16 != 0xFFFF && !j.dirOk (o.f 1 31 16))) = false := by
    rcases hprev with hnone | hok
    · simp [hdir, hnone]
    · simp [hdir, hok]
  simp only [State.startMark, hj, hin, Bool.false_eq_true, if_false]
  rfl

/-- A MARK op whose indexes lie in the directory writes its entry and ends. -/
theorem exec_mark_of_mayBegin {s : State} {n : Nat} {o : Op} {j : Job} (h : s.MayBegin n o) (hcls : o.cls = 8)
    (hfunc : o.func = 2) (hj : s.jobs.find o.job = some j) (hdir : j.dirOk (o.f 0 15 0) = true)
    (hprev : o.f 1 31 16 = 0xFFFF ∨ j.dirOk (o.f 1 31 16) = true) : exec (.mark n) s =
    .next (((s.started n).writeWords (j.dirAddr (o.f 0 15 0)) (s.markEntry j o).words).endOp n .ok).settle := by
  have hunit : (s.started n).startUnit n o =
      ((s.started n).writeWords (j.dirAddr (o.f 0 15 0)) (s.markEntry j o).words).endOp n .ok := by
    have hstart := State.startMark_of_inDirectory (s := s.started n) (n := n) (by simpa using hj) hdir hprev
    simpa [State.startUnit, hcls, hfunc] using hstart
  have htaken : (((s.started n).writeWords (j.dirAddr (o.f 0 15 0)) (s.markEntry j o).words).endOp n .ok).startRefused n
      = false := by
    have hop := State.op_started h.op
    have hwritten : ((s.started n).writeWords (j.dirAddr (o.f 0 15 0)) (s.markEntry j o).words).op n =
        some { o with phase := .running, stepped := true } := by
      rw [State.op, State.writeWords_hub]; exact hop
    simp only [State.startRefused, State.op_endOp hwritten rfl]
    rfl
  show execMark n s = _
  simp only [execMark, h.op, hcls, hfunc, and_self, if_true, finish, State.startOp_of_mayBegin h,
    State.beginOp_of_sync hcls hunit htaken]

/-! ## A job under the handle 0xFFFF -/

/-- A waiting PHASE op of lea 0 whose JOB is 0xFFFF, to BACKWARD. -/
def phaseOpNoJob : Op :=
  { lea := 0, queue := 0, slot := 0, hdr := [0x08000001, 0, 0xFFFF, 0, 0, 0, 0, 0], body := [0x01000001] }

/-- A job that stands under the handle 0xFFFF. -/
def jobUnderFFFF : Job :=
  { lea := 0, jobId := 0, rank := 0, ranks := 1, seed := 1, scaleRegion := 0x200000, stepRegion := 0x300000
    mapRegion := 0x100000 }

/-- A state that lists that job, with the PHASE op and a second op of its JOB in flight. The search for
a handle that JOB_BIND makes ends at 256, so the command binds no job there. -/
def stateUnderFFFF : State :=
  { hub := { dev := .ready, ops := [(0, phaseOpNoJob), (1, phaseOpNoJob)], nextOp := 2 }
    jobs := [(0xFFFF, jobUnderFFFF)], leas := [(0, { st := .enabled })] }

theorem stateUnderFFFF_mayBegin : stateUnderFFFF.MayBegin 0 phaseOpNoJob :=
  ⟨rfl, by decide, by decide, by decide, by decide, by decide, by decide, by decide⟩

/-- Refutes O39 in its first clause: the statement asks that a PHASE op await every other op of its JOB in flight under any
handle that the state lists, 0xFFFF too. The model takes ops with JOB 0xFFFF as no job's ops, so in `stateUnderFFFF` the
hold of op 0 awaits nothing while op 1 waits. Under any other handle the clause holds (`exec_phase_awaits`), and the other
four clauses are the `exec_` lemmas above. -/
theorem not_phaseAndMark : ¬ Obligations.PhaseAndMark := by
  unfold Obligations.PhaseAndMark
  rintro ⟨hphase, -⟩
  obtain ⟨-, t, hold, j', hexec, hfind, hhold, -, hawaits, -⟩ := hphase stateUnderFFFF 0 phaseOpNoJob jobUnderFFFF _
    stateUnderFFFF_mayBegin (by decide) (by decide) rfl rfl
  have hone : 1 ∈ hold.awaits := hawaits (1, phaseOpNoJob) (by decide) rfl (by decide) rfl
  have hnone : hold.awaits = [] := by
    obtain ⟨since, hheld⟩ := State.find_takeHold (s := stateUnderFFFF.started 0) (jh := 0xFFFF) rfl (some 0)
    rw [exec_phase_of_mayBegin stateUnderFFFF_mayBegin (by decide) (by decide)] at hexec
    obtain rfl := Host.Outcome.next.inj hexec
    rw [State.settle_jobs, show phaseOpNoJob.job = 0xFFFF from rfl, hheld] at hfind
    obtain rfl := Option.some.inj hfind
    obtain rfl := Option.some.inj hhold
    exact State.inFlightOf_no_job _ _
  simp [hnone] at hone

end Sys2Proof.Machine
end

section
/-!
PROOF. The chunks of a Windrow bucket (O42, R288 and R302): how they part the bucket's elements among the contributors, and
that in rank-order mode what a chunk comes to does not depend on the order in which its contributions arrive. The order is
settled in two steps: adding the contributions now due can be put off until all have been delivered (`drain_wait_drain`),
and those that merely wait stand in the staging slots in no order of arrival (`wait_comm`).
-/

namespace Sys2Proof.Map

variable {α : Type}

theorem find_eq_none_iff {m : Map α} {k : Nat} : m.find k = none ↔ k ∉ m.map (·.1) := by
  induction m with
  | nil => simp
  | cons e rest ih =>
    obtain ⟨j, w⟩ := e
    by_cases h : j = k
    · simp [h]
    · rw [find_cons, if_neg h, ih]; simp [Ne.symm h]

/-- Insertions at two indexes commute. -/
theorem insert_comm (m : Map α) {i j : Nat} (v w : α) (h : i ≠ j) :
    (m.insert i v).insert j w = (m.insert j w).insert i v := by
  induction m with
  | nil => rcases Nat.lt_or_gt_of_ne h with hij | hij <;> simp [Map.insert, hij, Nat.lt_asymm hij, h, Ne.symm h]
  | cons e rest ih =>
    obtain ⟨k, x⟩ := e
    grind [Map.insert]

/-- In a table whose indexes rise, an insertion and an erasure at two indexes commute. -/
theorem erase_insert_comm {m : Map α} (hs : m.Sorted) {i p : Nat} (v : α) (h : i ≠ p) :
    (m.insert i v).erase p = (m.erase p).insert i v := by
  induction m with
  | nil => simp [Map.insert, Map.erase, h]
  | cons e rest ih =>
    obtain ⟨k, x⟩ := e
    obtain ⟨hlt, hrest⟩ := List.pairwise_cons.mp hs
    by_cases hkp : k = p
    · subst hkp
      rcases Nat.lt_or_gt_of_ne h with hik | hki
      · cases rest with
        | nil => simp [Map.insert, Map.erase, hik, h]
        | cons a rest =>
          have hia : i < a.1 := Nat.lt_trans hik (hlt a List.mem_cons_self)
          simp [Map.insert, Map.erase, hik, hia, h]
      · simp [Map.insert, Map.erase, Nat.lt_asymm hki, h]
    · by_cases hik : i < k
      · simp [Map.insert, Map.erase, hik, hkp, h]
      · by_cases hieq : i = k
        · subst hieq; simp [Map.insert, Map.erase, hkp]
        · simp [Map.insert, Map.erase, hik, hieq, hkp, ih hrest]

theorem insert_perm {m : Map α} {k : Nat} (v : α) (h : m.find k = none) : (m.insert k v).Perm ((k, v) :: m) := by
  induction m with
  | nil => exact .refl _
  | cons e rest ih =>
    obtain ⟨j, w⟩ := e
    have hjk : j ≠ k := by rintro rfl; simp at h
    rw [find_cons, if_neg hjk] at h
    rw [Map.insert, if_neg (Ne.symm hjk)]
    split
    · exact .refl _
    · exact ((ih h).cons _).trans (.swap _ _ _)

theorem perm_cons_erase {m : Map α} {k : Nat} {v : α} (h : m.find k = some v) : m.Perm ((k, v) :: m.erase k) := by
  induction m with
  | nil => simp at h
  | cons e rest ih =>
    obtain ⟨j, w⟩ := e
    rw [find_cons] at h
    rw [Map.erase]
    split at h
    · next hjk => subst hjk; obtain rfl := Option.some.inj h; simp
    · next hjk => rw [if_neg hjk]; exact ((ih h).cons _).trans (.swap _ _ _)

theorem length_insert_le (m : Map α) (k : Nat) (v : α) : (m.insert k v).length ≤ m.length + 1 := by
  induction m with
  | nil => simp [Map.insert]
  | cons e rest ih =>
    rw [Map.insert]
    split
    · simp
    · split
      · simp
      · simpa using ih

end Sys2Proof.Map

namespace Sys2Proof.Machine

/-! ## How the chunks of a bucket part its elements (R288) -/

/-- The chunks together reach the end of the bucket. -/
theorem le_mul_chunkLen (count : Nat) {r : Nat} (hr : 0 < r) : count ≤ r * chunkLen count r := by
  have hdiv := Nat.div_add_mod (count + 8 * r - 1) (8 * r)
  have hmod := Nat.mod_lt (count + 8 * r - 1) (show 0 < 8 * r by omega)
  have hlen : r * chunkLen count r = 8 * r * ((count + 8 * r - 1) / (8 * r)) := by
    rw [chunkLen, ceilDiv, Nat.mul_left_comm, Nat.mul_assoc]
  omega

theorem chunkLen_pos {count r : Nat} (hr : 0 < r) (hcount : 0 < count) : 0 < chunkLen count r :=
  Nat.pos_of_mul_pos_left (Nat.lt_of_lt_of_le hcount (le_mul_chunkLen count hr))

/-- Chunk `c` holds element `e` of the bucket exactly if `c` is `e` divided by CH. -/
theorem mem_chunkSpan_iff {count r e : Nat} (c : Nat) (hr : 0 < r) (he : e < count) :
    (chunkSpan count r c).1 ≤ e ∧ e < (chunkSpan count r c).1 + (chunkSpan count r c).2 ↔ e / chunkLen count r = c := by
  have hpos : 0 < chunkLen count r := chunkLen_pos hr (by omega)
  have hnext : (c + 1) * chunkLen count r = c * chunkLen count r + chunkLen count r := Nat.succ_mul _ _
  rw [Nat.div_eq_iff hpos]
  simp only [chunkSpan]
  omega

/-- Every element of a bucket lies in one chunk, and in no other. -/
theorem chunkSpan_part {count r e : Nat} (hr : 0 < r) (he : e < count) :
    ∃ c, c < r ∧ (chunkSpan count r c).1 ≤ e ∧ e < (chunkSpan count r c).1 + (chunkSpan count r c).2 ∧
    ∀ c', (chunkSpan count r c').1 ≤ e → e < (chunkSpan count r c').1 + (chunkSpan count r c').2 → c' = c := by
  obtain ⟨hfirst, hlast⟩ := (mem_chunkSpan_iff (e / chunkLen count r) hr he).mpr rfl
  refine ⟨_, ?_, hfirst, hlast, fun c' hfirst' hlast' => ((mem_chunkSpan_iff c' hr he).mp ⟨hfirst', hlast'⟩).symm⟩
  exact Nat.div_lt_of_lt_mul (Nat.mul_comm r _ ▸ Nat.lt_of_lt_of_le he (le_mul_chunkLen count hr))

theorem ownedChunk_lt (b : Nat) {r i : Nat} (hi : i < r) : ownedChunk r b i < r :=
  Nat.mod_lt _ (Nat.zero_lt_of_lt hi)

theorem ownerOf_ownedChunk (b : Nat) {r i : Nat} (hi : i < r) : ownerOf r b (ownedChunk r b i) = i := by
  have hmod := Nat.mod_lt b (Nat.zero_lt_of_lt hi)
  calc ((i + r - b % r) % r + b) % r
      = (i + r - b % r + b) % r := Nat.mod_add_mod _ _ _
    _ = (i + r - b % r + b % r) % r := (Nat.add_mod_mod _ _ _).symm
    _ = (i + r) % r := by rw [Nat.sub_add_cancel (by omega)]
    _ = i := by rw [Nat.add_mod_right, Nat.mod_eq_of_lt hi]

/-! ## Adding the contributions now due (R302) -/

namespace Chunk

/-- The chunk once every contribution now due has been added. -/
def drain (k : Chunk) : Chunk := k.addDue k.waiting.length

/-- The chunk with a contribution delivered to its staging slot, and nothing added. -/
def wait (k : Chunk) (i : Nat) (x : Contribution) : Chunk := { k with waiting := k.waiting.insert i x }

@[simp] theorem addIn_waiting (k : Chunk) (i : Nat) (x : Contribution) :
    (k.addIn i x).waiting = k.waiting.erase i := rfl
@[simp] theorem addIn_taken (k : Chunk) (i : Nat) (x : Contribution) : (k.addIn i x).taken = k.taken ++ [i] := rfl
@[simp] theorem addIn_rankOrder (k : Chunk) (i : Nat) (x : Contribution) : (k.addIn i x).rankOrder = k.rankOrder := rfl
@[simp] theorem wait_waiting (k : Chunk) (i : Nat) (x : Contribution) :
    (k.wait i x).waiting = k.waiting.insert i x := rfl
@[simp] theorem wait_taken (k : Chunk) (i : Nat) (x : Contribution) : (k.wait i x).taken = k.taken := rfl

theorem addIn_sum_first {k : Chunk} (i : Nat) (x : Contribution) (h : k.taken = []) : (k.addIn i x).sum = x.words := by
  simp [addIn, h]

theorem addIn_sum_later {k : Chunk} (i : Nat) (x : Contribution) (h : k.taken ≠ []) :
    (k.addIn i x).sum = List.zipWith (fun a b => (fadd a b).1) k.sum x.words := by
  simp [addIn, h]

theorem addDue_of_none {k : Chunk} (h : k.waiting.find k.taken.length = none) (n : Nat) : k.addDue n = k := by
  cases n with
  | zero => rfl
  | succ n => simp [addDue, h]

theorem addDue_succ_of_due {k : Chunk} {x : Contribution} (h : k.waiting.find k.taken.length = some x) (n : Nat) :
    k.addDue (n + 1) = (k.addIn k.taken.length x).addDue n := by
  simp [addDue, h]

/-- A contribution that is added leaves its staging slot. -/
theorem length_waiting_of_due {k : Chunk} {i : Nat} {x : Contribution} (h : k.waiting.find i = some x) :
    k.waiting.length = (k.addIn i x).waiting.length + 1 :=
  (Map.perm_cons_erase h).length_eq

theorem drain_of_none {k : Chunk} (h : k.waiting.find k.taken.length = none) : k.drain = k :=
  addDue_of_none h _

theorem drain_of_due {k : Chunk} {x : Contribution} (h : k.waiting.find k.taken.length = some x) :
    k.drain = (k.addIn k.taken.length x).drain := by
  rw [drain, length_waiting_of_due h, addDue_succ_of_due h, drain]

/-- What holds of a chunk with nothing due, and of one whose due contribution is added if it holds after that, holds of
every chunk. -/
theorem drain_induction {motive : Chunk → Prop} (idle : ∀ k, k.waiting.find k.taken.length = none → motive k)
    (due : ∀ k x, k.waiting.find k.taken.length = some x → motive (k.addIn k.taken.length x) → motive k) (k : Chunk) :
    motive k := by
  induction hn : k.waiting.length generalizing k with
  | zero => exact idle k (by rw [List.length_eq_zero_iff.mp hn, Map.find_nil])
  | succ n ih =>
    cases h : k.waiting.find k.taken.length with
    | none => exact idle k h
    | some x =>
      have hlen := length_waiting_of_due h
      exact due k x h (ih _ (by omega))

/-- Fuel for every waiting contribution is enough. -/
theorem addDue_eq_drain {k : Chunk} {n : Nat} (hn : k.waiting.length ≤ n) : k.addDue n = k.drain := by
  induction k using drain_induction generalizing n with
  | idle k h => rw [addDue_of_none h, drain_of_none h]
  | due k x h ih =>
    have hlen := length_waiting_of_due h
    obtain ⟨m, rfl⟩ : ∃ m, n = m + 1 := ⟨n - 1, by omega⟩
    rw [addDue_succ_of_due h, drain_of_due h, ih (by omega)]

/-- In rank-order mode a delivery puts the contribution in its slot, then adds what is due. -/
theorem take_eq_drain {k : Chunk} (i : Nat) (x : Contribution) (h : k.rankOrder = true) :
    k.take i x = (k.wait i x).drain := by
  rw [take, if_pos h]
  exact addDue_eq_drain (Map.length_insert_le _ _ _)

/-- Nothing is due any more. -/
theorem drain_next_absent (k : Chunk) : k.drain.waiting.find k.drain.taken.length = none := by
  induction k using drain_induction with
  | idle k h => rwa [drain_of_none h]
  | due k x h ih => rwa [drain_of_due h]

@[simp] theorem drain_rankOrder (k : Chunk) : k.drain.rankOrder = k.rankOrder := by
  induction k using drain_induction with
  | idle k h => rw [drain_of_none h]
  | due k x h ih => rw [drain_of_due h, ih, addIn_rankOrder]

/-- The contributors added stay the first ones, in rank order. -/
theorem drain_taken_eq_range {k : Chunk} (hk : k.taken = List.range k.taken.length) :
    k.drain.taken = List.range k.drain.taken.length := by
  induction k using drain_induction with
  | idle k h => rwa [drain_of_none h]
  | due k x h ih =>
    rw [drain_of_due h]
    refine ih ?_
    rw [addIn_taken, List.length_append, List.length_singleton, List.range_succ, ← hk]

/-! ## The order of arrival -/

theorem wait_comm (k : Chunk) {i j : Nat} (x y : Contribution) (h : i ≠ j) :
    (k.wait i x).wait j y = (k.wait j y).wait i x := by
  simp [wait, Map.insert_comm _ x y h]

theorem wait_addIn_comm {k : Chunk} (hs : k.waiting.Sorted) {i p : Nat} (x y : Contribution) (h : i ≠ p) :
    (k.wait i y).addIn p x = (k.addIn p x).wait i y := by
  change ({ k.addIn p x with waiting := (k.waiting.insert i y).erase p } : Chunk) = _
  rw [Map.erase_insert_comm hs y h]
  rfl

/-- Adding what is due before a delivery changes nothing of what the chunk comes to after it. -/
theorem drain_wait_drain {k : Chunk} {i : Nat} (y : Contribution) (hs : k.waiting.Sorted)
    (hnew : k.waiting.find i = none) : (k.drain.wait i y).drain = (k.wait i y).drain := by
  induction k using drain_induction with
  | idle k h => rw [drain_of_none h]
  | due k x h ih =>
    have hi : i ≠ k.taken.length := by rintro rfl; simp [h] at hnew
    have hdue : (k.wait i y).waiting.find (k.wait i y).taken.length = some x := by
      simp [Map.find_insert_ne _ _ (Ne.symm hi), h]
    rw [drain_of_due h, drain_of_due hdue, wait_taken, wait_addIn_comm hs _ _ hi]
    exact ih (Map.sorted_erase _ _ hs) (by rw [addIn_waiting, Map.find_erase_ne _ hi, hnew])

/-- The chunk once every contribution of a list has been delivered to its slot, in that order, and nothing added. -/
def waitAll (k : Chunk) (l : List (Nat × Contribution)) : Chunk := l.foldl (fun k e => k.wait e.1 e.2) k

@[simp] theorem waitAll_nil (k : Chunk) : k.waitAll [] = k := rfl
@[simp] theorem waitAll_cons (k : Chunk) (e : Nat × Contribution) (l : List (Nat × Contribution)) :
    k.waitAll (e :: l) = (k.wait e.1 e.2).waitAll l := rfl

@[simp] theorem waitAll_taken (k : Chunk) (l : List (Nat × Contribution)) : (k.waitAll l).taken = k.taken := by
  induction l generalizing k with
  | nil => rfl
  | cons e l ih => rw [waitAll_cons, ih, wait_taken]

/-- A contributor whose slot is empty has it empty after a delivery to another. -/
theorem slots_empty_wait {k : Chunk} {e : Nat × Contribution} {l : List (Nat × Contribution)}
    (hnd : ((e :: l).map (·.1)).Nodup) (hnew : ∀ a ∈ e :: l, k.waiting.find a.1 = none) :
    ∀ a ∈ l, (k.wait e.1 e.2).waiting.find a.1 = none := by
  intro a ha
  have hmem : a.1 ∈ l.map (·.1) := List.mem_map_of_mem ha
  have hnotmem : e.1 ∉ l.map (·.1) := (List.nodup_cons.mp hnd).1
  have hne : a.1 ≠ e.1 := fun h => hnotmem (h ▸ hmem)
  rw [wait_waiting, Map.find_insert_ne _ _ hne, hnew a (List.mem_cons_of_mem _ ha)]

/-- Deliveries in rank-order mode come to the same as if nothing were added until the last. -/
theorem foldl_take_drain {k : Chunk} (l : List (Nat × Contribution)) (hrank : k.rankOrder = true) (hs : k.waiting.Sorted)
    (hnd : (l.map (·.1)).Nodup) (hnew : ∀ e ∈ l, k.waiting.find e.1 = none) :
    l.foldl (fun k e => k.take e.1 e.2) k.drain = (k.waitAll l).drain := by
  induction l generalizing k with
  | nil => rfl
  | cons e l ih =>
    have hfirst : k.drain.take e.1 e.2 = (k.wait e.1 e.2).drain := by
      rw [take_eq_drain _ _ (by rwa [drain_rankOrder]), drain_wait_drain _ hs (hnew e List.mem_cons_self)]
    rw [List.foldl_cons, hfirst]
    exact ih hrank (Map.sorted_insert _ _ _ hs) (List.nodup_cons.mp hnd).2 (slots_empty_wait hnd hnew)

theorem waitAll_perm {k : Chunk} {l m : List (Nat × Contribution)} (hlm : l.Perm m) (hnd : (l.map (·.1)).Nodup) :
    k.waitAll l = k.waitAll m := by
  induction hlm generalizing k with
  | nil => rfl
  | cons e _ ih =>
    rw [waitAll_cons, waitAll_cons]
    exact ih (List.nodup_cons.mp hnd).2
  | swap a b l =>
    have hne : b.1 ≠ a.1 := (List.nodup_cons.mp hnd).1 ∘ fun h => List.mem_cons.mpr (.inl h)
    simp only [waitAll_cons, wait_comm k b.2 a.2 hne]
  | trans hfirst _ ih ih' => exact (ih hnd).trans (ih' ((hfirst.map _).nodup_iff.mp hnd))

/-! ## Who has contributed -/

/-- The contributors whose contributions the chunk holds, added or waiting. -/
def indexes (k : Chunk) : List Nat := k.taken ++ k.waiting.map (·.1)

theorem indexes_addIn {k : Chunk} {i : Nat} {x : Contribution} (h : k.waiting.find i = some x) :
    (k.addIn i x).indexes.Perm k.indexes := by
  have hslots : (k.waiting.map (·.1)).Perm (i :: (k.waiting.erase i).map (·.1)) := (Map.perm_cons_erase h).map _
  simpa [indexes] using hslots.symm.append_left k.taken

theorem indexes_drain (k : Chunk) : k.drain.indexes.Perm k.indexes := by
  induction k using drain_induction with
  | idle k h => rw [drain_of_none h]
  | due k x h ih => rw [drain_of_due h]; exact ih.trans (indexes_addIn h)

theorem indexes_wait {k : Chunk} {i : Nat} (x : Contribution) (h : k.waiting.find i = none) :
    (k.wait i x).indexes.Perm (i :: k.indexes) := by
  have hslots : ((k.waiting.insert i x).map (·.1)).Perm (i :: k.waiting.map (·.1)) := (Map.insert_perm x h).map _
  exact (hslots.append_left k.taken).trans List.perm_middle

theorem indexes_waitAll {k : Chunk} {l : List (Nat × Contribution)} (hnd : (l.map (·.1)).Nodup)
    (hnew : ∀ e ∈ l, k.waiting.find e.1 = none) : (k.waitAll l).indexes.Perm (l.map (·.1) ++ k.indexes) := by
  induction l generalizing k with
  | nil => exact .refl _
  | cons e l ih =>
    have hrest := ih (List.nodup_cons.mp hnd).2 (slots_empty_wait hnd hnew)
    have hfirst := indexes_wait e.2 (hnew e List.mem_cons_self)
    exact (hrest.trans (hfirst.append_left _)).trans List.perm_middle

/-- A chunk that holds the contributions of the first `n` contributors, has added the first few in rank order and has none
due has added them all. -/
theorem taken_eq_range_of_complete {k : Chunk} {n : Nat} (hrange : k.taken = List.range k.taken.length)
    (hnext : k.waiting.find k.taken.length = none) (hall : k.indexes.Perm (List.range n)) :
    k.taken = List.range n := by
  have hle : k.taken.length ≤ n := by
    have hlen := hall.length_eq
    simp only [indexes, List.length_append, List.length_range] at hlen
    omega
  have hnot : k.taken.length ∉ k.indexes := by
    rw [indexes, List.mem_append, not_or]
    refine ⟨?_, Map.find_eq_none_iff.mp hnext⟩
    rw [hrange]; simp
  have hge : n ≤ k.taken.length := by simpa [hall.mem_iff] using hnot
  rw [hrange, Nat.le_antisymm hle hge]

section
variable {k : Chunk}

/-- What the deliveries to an empty chunk come to, whatever their order. -/
theorem foldl_take_of_empty {l : List (Nat × Contribution)} (hrank : k.rankOrder = true)
    (hwaiting : k.waiting = []) (hnd : (l.map (·.1)).Nodup) :
    l.foldl (fun k e => k.take e.1 e.2) k = (k.waitAll l).drain := by
  have hdrained : k.drain = k := drain_of_none (by rw [hwaiting, Map.find_nil])
  rw [← foldl_take_drain l hrank (by simp [hwaiting]) hnd (by simp [hwaiting]), hdrained]

theorem foldl_take_perm {l m : List (Nat × Contribution)} (hrank : k.rankOrder = true)
    (hwaiting : k.waiting = []) (hlm : l.Perm m) (hnd : (l.map (·.1)).Nodup) :
    l.foldl (fun k e => k.take e.1 e.2) k = m.foldl (fun k e => k.take e.1 e.2) k := by
  have hnd' : (m.map (·.1)).Nodup := (hlm.map _).nodup_iff.mp hnd
  rw [foldl_take_of_empty hrank hwaiting hnd, foldl_take_of_empty hrank hwaiting hnd', waitAll_perm hlm hnd]

/-- Once the contributions of the first `n` contributors have arrived, they have been added in rank order. -/
theorem foldl_take_taken {l : List (Nat × Contribution)} {n : Nat} (hrank : k.rankOrder = true) (htaken : k.taken = [])
    (hwaiting : k.waiting = []) (hl : (l.map (·.1)).Perm (List.range n)) :
    (l.foldl (fun k e => k.take e.1 e.2) k).taken = List.range n := by
  have hnd : (l.map (·.1)).Nodup := hl.nodup_iff.mpr List.nodup_range
  rw [foldl_take_of_empty hrank hwaiting hnd]
  refine taken_eq_range_of_complete (drain_taken_eq_range (by simp [htaken])) (drain_next_absent _) ?_
  have hindexes := indexes_waitAll hnd (k := k) (by simp [hwaiting])
  have hempty : k.indexes = [] := by simp [indexes, htaken, hwaiting]
  rw [hempty, List.append_nil] at hindexes
  exact (indexes_drain _).trans (hindexes.trans hl)

/-! ## One delivery -/

/-- A contribution that is due is added; it is the only one if the next has not arrived. -/
theorem take_of_due (x : Contribution) (hrank : k.rankOrder = true)
    (hnext : k.waiting.find (k.taken.length + 1) = none) :
    k.take k.taken.length x = (k.wait k.taken.length x).addIn k.taken.length x := by
  have hdue : (k.wait k.taken.length x).waiting.find (k.wait k.taken.length x).taken.length = some x := by simp
  rw [take_eq_drain _ _ hrank, drain_of_due hdue, wait_taken]
  refine drain_of_none ?_
  rw [addIn_waiting, addIn_taken, wait_waiting, wait_taken, List.length_append, List.length_singleton,
    Map.find_erase_ne _ (by omega), Map.find_insert_ne _ _ (by omega), hnext]

/-- A contribution that is not yet due waits. -/
theorem take_of_not_due {i : Nat} (x : Contribution) (hrank : k.rankOrder = true) (hi : k.taken.length ≠ i)
    (hnext : k.waiting.find k.taken.length = none) : k.take i x = k.wait i x := by
  rw [take_eq_drain _ _ hrank]
  exact drain_of_none (by rw [wait_taken, wait_waiting, Map.find_insert_ne _ _ hi, hnext])

end

end Chunk

/-- Settles O42: the chunks part the bucket by `mem_chunkSpan_iff`; deliveries in any order come to what adding only after
the last would come to (`Chunk.foldl_take_of_empty`), and there the order is lost (`Chunk.waitAll_perm`). -/
theorem windrowChunks : Obligations.WindrowChunks := by
  unfold Obligations.WindrowChunks
  refine ⟨fun _ _ _ => chunkSpan_part, fun r b i hi => ⟨ownedChunk_lt b hi, ownerOf_ownedChunk b hi⟩, ?_, ?_, ?_, ?_⟩
  · intro k n l m hrank htaken hwaiting hlm hl
    exact ⟨Chunk.foldl_take_perm hrank hwaiting hlm (hl.nodup_iff.mpr List.nodup_range),
      Chunk.foldl_take_taken hrank htaken hwaiting hl⟩
  · intro k x hrank htaken hwaiting
    have htake := Chunk.take_of_due x hrank (k := k) (by rw [hwaiting, Map.find_nil])
    rw [htaken, List.length_nil] at htake
    rw [htake]
    exact ⟨Chunk.addIn_sum_first _ _ htaken, by simp [htaken]⟩
  · intro k i x hrank hlt hnext
    rw [Chunk.take_of_not_due x hrank (by omega) hnext]
    exact ⟨rfl, rfl, Map.find_insert_self _ _ _⟩
  · rintro k i x hrank hpos rfl hnext
    rw [Chunk.take_of_due x hrank hnext]
    exact ⟨Chunk.addIn_sum_later _ _ (List.length_pos_iff.mp hpos), rfl⟩

end Sys2Proof.Machine
end

section
/-!
PROOF. Steps, reset and the machine's invariant (O58, O59, O60): every command ends settled, a settled state has the
invariant, and a count of the Cihal domain counter touches nothing that the invariant speaks of.
-/

namespace Sys2Proof.Machine

/-! ## A settled state has the invariant -/

/-- The shares' V and readiness are not what makes a lea a tenant. -/
@[simp] theorem State.tenants_settleShares (s : State) : s.settleShares.tenants = s.tenants := by
  simp only [State.tenants, State.settleShares, Map.mapVals, List.filter_map, List.length_map]
  rfl

@[simp] theorem State.tenants_setDev (s : State) (d : DevState) : (s.setDev d).tenants = s.tenants := by
  simp [State.tenants]

@[simp] theorem State.tenants_settleDev (s : State) : s.settleDev.tenants = s.tenants := by
  simp [State.tenants]

@[simp] theorem State.tenants_settle (s : State) : s.settle.tenants = s.tenants := by
  rw [State.settle, State.tenants_settleShares]
  exact s.tenants_settleDev

theorem State.setDev_dev (s : State) (d : DevState) : (s.setDev d).hub.dev = d := by
  unfold State.setDev
  split
  · assumption
  · rfl

@[simp] theorem State.settle_dev (s : State) : s.settle.hub.dev = s.settleDev.hub.dev := rfl

/-- Table 2.5: settling leaves READY and RUN as the ENABLED leas other than lea 0 have them. -/
theorem State.settleDev_dev (s : State) : (s.settleDev.hub.dev = .ready → s.tenants = 0) ∧
    (s.settleDev.hub.dev = .run → 0 < s.tenants) := by
  unfold State.settleDev
  split
  case h_1 hready =>
    split
    · next hpos => simp [State.setDev_dev, hpos]
    · next hzero => simp [hready]; omega
  case h_2 hrun =>
    split
    · next hzero => simp [State.setDev_dev, hzero]
    · next hpos => simp [hrun]; omega
  case h_3 hnotReady hnotRun => exact ⟨fun h => absurd h hnotReady, fun h => absurd h hnotRun⟩

/-- Every settled state has the invariant: settling is what establishes it, whatever the state before. -/
theorem State.settled_settle (s : State) : s.settle.Settled where
  ready h := by rw [State.tenants_settle]; exact s.settleDev_dev.1 h
  run h := by rw [State.tenants_settle]; exact s.settleDev_dev.2 h
  inflight := Nat.le_max_right _ _
  held := Nat.le_max_right _ _
  chunks := Nat.le_max_right _ _

/-! ## Steps -/

theorem step_cons (c : Instr) (rest : List Instr) (s : State) :
    step { s with pending := c :: rest } = exec c { s with pending := rest } := rfl

theorem step_idle {s : State} (h : s.pending = []) : step s = .next s.tick := by
  unfold step; rw [h]

/-- A count of the Cihal domain counter keeps the invariant. -/
theorem State.settled_tick {s : State} (h : s.Settled) : s.tick.Settled := by
  unfold State.tick
  split
  · exact ⟨h.ready, h.run, h.inflight, h.held, h.chunks⟩
  · exact h

/-- Settles O58: the front command runs on the state with the rest of the queue, and an empty queue ticks. -/
theorem stepRunsFrontCommand : Obligations.StepRunsFrontCommand :=
  ⟨step_cons, fun _ h => step_idle h⟩

/-- Settles O59: a command that answers a next state answers a settled one (`exec_settles`), which has the invariant
whatever the state before; a tick keeps it. -/
theorem stepKeepsSettled : Obligations.StepKeepsSettled := by
  intro s t hs hstep
  cases hp : s.pending with
  | nil =>
    rw [step_idle hp] at hstep
    obtain rfl := Host.Outcome.next.inj hstep
    exact State.settled_tick hs
  | cons c rest =>
    unfold step at hstep
    rw [hp] at hstep
    obtain ⟨u, rfl⟩ := exec_settles c _ t hstep
    exact u.settled_settle

/-! ## The state after reset -/

/-- R502: after reset lea 0 is DISABLED and no other lea is listed. -/
theorem State.lea_reset_st (l : Nat) : (State.reset.lea l).st = if l = 0 then .disabled else .absent := by
  by_cases h : l = 0
  · subst h; rfl
  · simp [State.reset, State.lea, Map.getD, h, Ne.symm h]

/-- Settles O60: after reset the device is in BOOT and every table is empty, so that each part of the invariant is one
about empty tables. -/
theorem resetState : Obligations.ResetState := by
  refine ⟨⟨?_, ?_, ?_, ?_, ?_⟩, ?_, rfl, rfl, rfl, rfl, rfl, rfl, fun l hl => ?_, rfl, rfl⟩
  · intro h; cases h
  · intro h; cases h
  · exact Nat.le_refl 0
  · exact Nat.le_refl 0
  · exact Nat.le_refl 0
  · exact cells_wf_nil
  · rw [State.lea_reset_st, if_neg hl]

end Sys2Proof.Machine
end

section
/-!
PROOF. The mailbox and memory (O55, O56, O57): what a response and settling change, the order of the checks of Table 2.8,
and what a write of HBM leaves to be read.
-/

namespace Sys2Proof.Machine

/-! ## The response (Table 2.4) -/

theorem responseWords_length (req : List Word) (st : Status) (rs : List Word) :
    (responseWords req st rs).length = 3 + rs.length := by
  simp [responseWords]; omega

theorem Mailbox.respond_response_getD (m : Mailbox) (st : Status) (rs : List Word) (i : Nat) (h : i < 3 + rs.length) :
    (m.respond st rs).response.getD i 0 = (responseWords m.latched st rs).getD i 0 := by
  rw [← responseWords_length m.latched st rs] at h
  show (storeWords _ 0 _).getD i 0 = _
  rw [storeWords_getD, if_pos (by omega), Nat.sub_zero]

/-! ## What the response leaves of the leas -/

/-- An interrupt writes the Pending Bit Array of its lea at most (R404). -/
theorem State.lea_interrupt (s : State) (l v k : Nat) : ∃ p, (s.interrupt l v).lea k = { s.lea k with pba := p } := by
  unfold State.interrupt
  split
  · by_cases hk : k = l
    · subst hk
      cases hf : s.leas.find k with
      | none => exact ⟨_, by rw [show s.modLea k _ = s by simp [State.modLea, hf]]⟩
      | some x => exact ⟨_, s.lea_modLea_self k _ (by simp [hf])⟩
    · exact ⟨_, s.lea_modLea_ne _ hk⟩
  · split <;> exact ⟨_, rfl⟩

theorem State.lea_interrupt_ne (s : State) {l k : Nat} (v : Nat) (hk : k ≠ l) : (s.interrupt l v).lea k = s.lea k := by
  unfold State.interrupt
  split
  · exact s.lea_modLea_ne _ hk
  · split <;> rfl

theorem State.find_interrupt (s : State) (l v k : Nat) :
    ((s.interrupt l v).leas.find k).isSome = (s.leas.find k).isSome := by
  unfold State.interrupt
  split
  · exact s.find_modLea l k _
  · split <;> rfl

/-- The state with a response written in lea `l`'s mailbox and its vector signalled where asked (R404). -/
def State.responded (s : State) (l : Nat) (st : Status) (rs : List Word) : State :=
  let s := s.modLea l fun x => { x with mbx := x.mbx.respond st rs }
  if (s.lea l).mbx.intrEnable then s.interrupt l 0 else s

theorem State.respond_eq (s : State) (l : Nat) (st : Status) (rs : List Word) :
    s.respond l st rs = ((s.responded l st rs).flushEvents l).flushReset l := rfl

theorem State.lea_responded_ne (s : State) {l k : Nat} (st : Status) (rs : List Word) (hk : k ≠ l) :
    (s.responded l st rs).lea k = s.lea k := by
  unfold State.responded
  dsimp only
  split
  · rw [State.lea_interrupt_ne _ _ hk, State.lea_modLea_ne _ _ hk]
  · rw [State.lea_modLea_ne _ _ hk]

theorem State.lea_responded (s : State) {l : Nat} (st : Status) (rs : List Word) (h : (s.leas.find l).isSome) :
    ∃ p, (s.responded l st rs).lea l = { s.lea l with mbx := (s.lea l).mbx.respond st rs, pba := p } := by
  unfold State.responded
  dsimp only
  split
  · obtain ⟨p, hp⟩ := State.lea_interrupt (s.modLea l fun x => { x with mbx := x.mbx.respond st rs }) l 0 l
    exact ⟨p, by rw [hp, State.lea_modLea_self _ _ _ h]⟩
  · exact ⟨_, by rw [State.lea_modLea_self _ _ _ h]⟩

theorem State.responded_hub (s : State) (l : Nat) (st : Status) (rs : List Word) : (s.responded l st rs).hub = s.hub := by
  unfold State.responded
  dsimp only
  split <;> simp

/-- With no fault event waiting, a command's end queues none. -/
theorem State.flushEvents_of_none {s : State} {l : Nat} (h : (s.lea l).pendingEvents = []) : s.flushEvents l = s.modLea l
    fun x => { x with pendingEvents := [] } := by
  simp [State.flushEvents, h]

theorem State.flushReset_of_none {s : State} {l : Nat} (h : (s.lea l).pendingReset = none) : s.flushReset l = s := by
  simp [State.flushReset, h]

/-- A response to a lea with nothing waiting for the command's end (R39). -/
theorem State.respond_of_quiet {s : State} {l : Nat} (st : Status) (rs : List Word) (h : (s.leas.find l).isSome)
    (hev : (s.lea l).pendingEvents = []) (hreset : (s.lea l).pendingReset = none) :
    s.respond l st rs = (s.responded l st rs).modLea l fun x => { x with pendingEvents := [] } := by
  obtain ⟨p, hp⟩ := s.lea_responded st rs h
  rw [State.respond_eq, State.flushEvents_of_none (by rw [hp]; exact hev), State.flushReset_of_none]
  by_cases hlisted : ((s.responded l st rs).leas.find l).isSome
  · rw [State.lea_modLea_self _ _ _ hlisted, hp]; exact hreset
  · rw [show State.modLea _ l _ = s.responded l st rs by simp [State.modLea, Option.not_isSome_iff_eq_none.mp hlisted], hp]
    exact hreset

theorem State.lea_respond_ne {s : State} {l k : Nat} (st : Status) (rs : List Word) (h : (s.leas.find l).isSome)
    (hev : (s.lea l).pendingEvents = []) (hreset : (s.lea l).pendingReset = none) (hk : k ≠ l) :
    (s.respond l st rs).lea k = s.lea k := by
  rw [State.respond_of_quiet st rs h hev hreset, State.lea_modLea_ne _ _ hk, State.lea_responded_ne _ _ _ hk]

theorem State.lea_respond_mbx {s : State} {l : Nat} (st : Status) (rs : List Word) (h : (s.leas.find l).isSome)
    (hev : (s.lea l).pendingEvents = []) (hreset : (s.lea l).pendingReset = none) :
    ((s.respond l st rs).lea l).mbx = (s.lea l).mbx.respond st rs := by
  obtain ⟨p, hp⟩ := s.lea_responded st rs h
  rw [State.respond_of_quiet st rs h hev hreset]
  by_cases hlisted : ((s.responded l st rs).leas.find l).isSome
  · rw [State.lea_modLea_self _ _ _ hlisted, hp]
  · rw [show State.modLea _ l _ = s.responded l st rs by simp [State.modLea, Option.not_isSome_iff_eq_none.mp hlisted], hp]

/-! ## Settling -/

@[simp] theorem State.setDev_hub_turn (s : State) (d : DevState) : (s.setDev d).hub.turn = s.hub.turn := by
  unfold State.setDev; split <;> rfl

@[simp] theorem State.setDev_hub_nextOp (s : State) (d : DevState) : (s.setDev d).hub.nextOp = s.hub.nextOp := by
  unfold State.setDev; split <;> rfl

/-- Settling the device state sets it at most. -/
theorem State.settleDev_cases (s : State) : s.settleDev = s ∨ ∃ d, s.settleDev = s.setDev d := by
  unfold State.settleDev
  split
  · split
    · exact .inr ⟨_, rfl⟩
    · exact .inl rfl
  · split
    · exact .inr ⟨_, rfl⟩
    · exact .inl rfl
  · exact .inl rfl

@[simp] theorem State.settle_hub_turn (s : State) : s.settle.hub.turn = s.hub.turn := by
  show s.settleDev.hub.turn = _
  obtain h | ⟨d, h⟩ := s.settleDev_cases <;> simp [h]

@[simp] theorem State.settle_hub_nextOp (s : State) : s.settle.hub.nextOp = s.hub.nextOp := by
  show s.settleDev.hub.nextOp = _
  obtain h | ⟨d, h⟩ := s.settleDev_cases <;> simp [h]

theorem State.settle_wdr (s : State) : s.settle.wdr = { s.wdr with openPeak := s.settle.wdr.openPeak } := by
  simp only [State.settle, State.settleShares_wdr, State.settlePeaks, State.settleDev_wdr]

theorem State.settleDev_eq (s : State) : s.settleDev = { s with hub := s.settleDev.hub } := by
  obtain h | ⟨d, h⟩ := s.settleDev_cases
  · rw [h]
  · rw [h]
    unfold State.setDev
    split <;> rfl

/-- Settling writes the leas, the hub and the Windrow unit alone. -/
theorem State.settle_eq (s : State) :
    s.settle = { s with leas := s.settle.leas, hub := s.settle.hub, wdr := s.settle.wdr } := by
  have h : ∀ t u : State, t = { u with hub := t.hub } → t.settlePeaks.settleShares = { u with
      leas := t.settlePeaks.settleShares.leas, hub := t.settlePeaks.settleShares.hub
      wdr := t.settlePeaks.settleShares.wdr } := by
    intro t u htu
    rw [htu]
    rfl
  exact h s.settleDev s s.settleDev_eq

/-- Settles O56: the response words are stored from index 0, a response with nothing waiting is two changes of its own lea,
and settling is a change of the device state, the PEAK fields and the shares. -/
theorem responseAndSettleFrame : Obligations.ResponseAndSettleFrame := by
  refine ⟨fun m st rs _ => ⟨?_, ?_, ?_, fun i hi => ?_, rfl, rfl, rfl⟩, fun u l st rs h hev hreset t ht => ?_,
    fun s t ht => ?_⟩
  · rw [m.respond_response_getD st rs 0 (by omega)]; rfl
  · rw [m.respond_response_getD st rs 1 (by omega)]; rfl
  · rw [m.respond_response_getD st rs 2 (by omega)]; rfl
  · rw [m.respond_response_getD st rs (3 + i) (by omega), responseWords, List.getD_eq_getElem?_getD,
      List.getElem?_append_right (by simp)]
    simp [hi]
  · subst ht
    refine ⟨State.lea_respond_mbx st rs h hev hreset, fun k hk => State.lea_respond_ne st rs h hev hreset hk, by simp,
      by simp, ?_, by simp, by simp, by simp, by simp, by simp⟩
    rw [State.respond_of_quiet st rs h hev hreset, State.modLea_hub, State.responded_hub]
  · subst ht
    exact ⟨s.settle_eq, s.settle_hub_ops, s.settle_hub_nextOp, s.settle_hub_turn, s.settle_wdr, s.lea_settle⟩

end Sys2Proof.Machine
end

section
/-!
PROOF. The order of the mailbox checks (O55) and what a write of HBM leaves to be read (O57).
-/

namespace Sys2Proof.Machine

/-! ## The order of the checks (Table 2.8) -/

section checks

variable {table : List CmdDef} {s : State} {l : Nat} {req : List Word}

theorem checkCommand_badVersion (h : fld (wordAt req 0) 31 24 ≠ 1) : checkCommand table s l req = .fail .badVersion :=
  if_pos h

variable (hver : fld (wordAt req 0) 31 24 = 1)
include hver

theorem checkCommand_badLength (h : reqLength req < 2 ∨ 64 < reqLength req) :
    checkCommand table s l req = .fail .badMessage := by
  unfold checkCommand
  rw [if_neg (by simp [hver]), if_pos (by simpa using h)]

variable (hmin : 2 ≤ reqLength req) (hmax : reqLength req ≤ 64)
include hmin hmax

theorem checkCommand_unknown (h : ∀ d ∈ table, d.code ≠ reqCode req) :
    checkCommand table s l req = .fail .unknownCommand := by
  have hnone : table.find? (fun d => d.code == reqCode req) = none := by simpa using h
  unfold checkCommand
  rw [if_neg (by simp [hver]), if_neg (by simp; omega), hnone]

variable {d : CmdDef} (hd : table.find? (fun d => d.code == reqCode req) = some d)
include hd

theorem checkCommand_fewWords (h : reqLength req < 2 + d.words (reqArgs req)) :
    checkCommand table s l req = .fail .badMessage := by
  unfold checkCommand
  rw [if_neg (by simp [hver]), if_neg (by simp; omega), hd]
  exact if_pos h

variable (hwords : 2 + d.words (reqArgs req) ≤ reqLength req)
include hwords

theorem checkCommand_denied (h : d.issuer.allows l (reqArgs req) = false) :
    checkCommand table s l req = .fail .denied := by
  unfold checkCommand
  rw [if_neg (by simp [hver]), if_neg (by simp; omega), hd]
  dsimp only
  rw [if_neg (by omega), if_pos (by simp [h])]

theorem checkCommand_boot (h : d.issuer.allows l (reqArgs req) = true) (hboot : s.hub.dev = .boot) (hcode : 3 < d.code) :
    checkCommand table s l req = .fail .stateMismatch := by
  unfold checkCommand
  rw [if_neg (by simp [hver]), if_neg (by simp; omega), hd]
  dsimp only
  rw [if_neg (by omega), if_neg (by simp [h]), if_pos ⟨hboot, hcode⟩]

theorem checkCommand_body (h : d.issuer.allows l (reqArgs req) = true) (hboot : s.hub.dev = .boot → d.code ≤ 3) :
    checkCommand table s l req = d.body s l (reqArgs req) := by
  unfold checkCommand
  rw [if_neg (by simp [hver]), if_neg (by simp; omega), hd]
  dsimp only
  rw [if_neg (by omega), if_neg (by simp [h]), if_neg fun ⟨hb, hc⟩ => absurd (hboot hb) (by omega)]

end checks

theorem find_allCommands_ping : allCommands.find? (fun d => d.code == 1) = some cmdPing := rfl

/-! ## MAILBOX_SERVE -/

theorem exec_mailboxServe_none {s : State} (h : s.nextMailbox = none) : exec .mailboxServe s = .next s.settle := by
  show execMailboxServe s = _
  simp only [execMailboxServe, h, finish]

/-- The reply to the command taken is the response. -/
theorem exec_mailboxServe {s u : State} {l : Nat} (h : s.nextMailbox = some l)
    (hu : u = { s.modLea l (fun x => { x with mbx := { x.mbx with ring := false, deferral := none } }) with
      hub := { s.hub with turn := (l + 1) % 64 } }) :
    exec .mailboxServe s = .next (match checkCommand allCommands u l (s.lea l).mbx.latched with
      | .fail st => u.respond l st
      | .done t st rs => t.respond l st rs
      | .defer t d => t.modLea l fun x => { x with mbx := { x.mbx with deferral := some d } }).settle := by
  show execMailboxServe s = _
  subst hu
  simp only [execMailboxServe, h, finish, State.serve, State.modLea_hub] <;> rfl

theorem exec_mailboxServe_fail {s u : State} {l : Nat} {st : Status} (h : s.nextMailbox = some l)
    (hu : u = { s.modLea l (fun x => { x with mbx := { x.mbx with ring := false, deferral := none } }) with
      hub := { s.hub with turn := (l + 1) % 64 } })
    (hc : checkCommand allCommands u l (s.lea l).mbx.latched = .fail st) :
    exec .mailboxServe s = answered u l st [] := by
  rw [exec_mailboxServe h hu, hc]

/-- Settles O55: each clause is one branch of the chain of checks, and a failed check is the response. -/
theorem mailboxCheckOrder : Obligations.MailboxCheckOrder := by
  refine fun s => ⟨exec_mailboxServe_none, ?_⟩
  rintro l req u hnext rfl hu
  have hdev : u.hub.dev = s.hub.dev := by rw [hu]
  refine ⟨fun hver => exec_mailboxServe_fail hnext hu (checkCommand_badVersion hver), fun hver =>
    ⟨fun hlen => exec_mailboxServe_fail hnext hu (checkCommand_badLength hver hlen), fun hmin hmax =>
      ⟨fun h => exec_mailboxServe_fail hnext hu (checkCommand_unknown hver hmin hmax h), fun d hd =>
        ⟨fun h => exec_mailboxServe_fail hnext hu (checkCommand_fewWords hver hmin hmax hd h), fun hw =>
          ⟨fun h => exec_mailboxServe_fail hnext hu (checkCommand_denied hver hmin hmax hd hw h), fun h hboot hcode =>
            exec_mailboxServe_fail hnext hu
              (checkCommand_boot hver hmin hmax hd hw h (hdev.trans hboot) hcode)⟩⟩, fun hping => ?ping⟩⟩⟩
  case ping =>
    have hd : allCommands.find? (fun d => d.code == reqCode (s.lea l).mbx.latched) = some cmdPing := by
      rw [hping]; exact find_allCommands_ping
    have hbody := checkCommand_body (s := u) (l := l) hver hmin hmax hd hmin rfl fun _ => by decide
    have hpong : cmdPing.body u l (reqArgs (s.lea l).mbx.latched) =
        .done u .ok (s.fw.version :: words64 s.edge.count.toNat) := by
      subst hu
      simp [cmdPing, cmd, State.now]
    rw [exec_mailboxServe hnext hu, hbody, hpong]

/-! ## Bytes written to HBM -/

theorem Memory.storeByte_eq (m : Memory) (a : Nat) (b : Byte) :
    m.storeByte a b = { m with hbm := (m.storeByte a b).hbm } := by
  unfold Memory.storeByte
  split <;> rfl

/-- What a stack has lost does not depend on the bytes in HBM. -/
theorem Memory.lostSector_storeByte (m : Memory) (a : Nat) (b : Byte) (x : Nat) :
    (m.storeByte a b).lostSector x = m.lostSector x := by
  rw [m.storeByte_eq]; rfl

theorem readByte_storeByte (m : Memory) (a : Nat) (b : Byte) (x : Nat) (h : Cells.wf m.hbm) :
    readByte (m.storeByte a b).hbm x = if x = a ∧ m.lostSector (a / 32) = false then b else readByte m.hbm x := by
  unfold Memory.storeByte
  by_cases hl : m.lostSector (a / 32)
  · simp [hl]
  · simp [hl, readByte_writeByte m.hbm a b x h]

/-- R215: of the bytes stored, those outside lost sectors read back; every other byte reads as before. -/
theorem readByte_storeBytes (m : Memory) (a : Nat) (l : List Byte) (x : Nat) (h : Cells.wf m.hbm) :
    readByte (m.storeBytes a l).hbm x = if (a ≤ x ∧ x < a + l.length) ∧ m.lostSector (x / 32) = false then
      l.getD (x - a) 0 else readByte m.hbm x := by
  induction l generalizing m a with
  | nil =>
    rw [List.length_nil, if_neg fun hin => by omega]
    rfl
  | cons b rest ih =>
    rw [Memory.storeBytes, ih _ _ (storeByte_wf m a b h), readByte_storeByte m a b x h, m.lostSector_storeByte,
      List.length_cons]
    by_cases hx : x = a
    · subst hx
      have hpast : ¬(x + 1 ≤ x ∧ x < x + 1 + rest.length) := by omega
      have hin : x ≤ x ∧ x < x + (rest.length + 1) := by omega
      by_cases hl : m.lostSector (x / 32) <;> simp only [hl, hpast, hin, Nat.sub_self, List.getD_cons_zero] <;> rfl
    · by_cases hin : a ≤ x ∧ x < a + (rest.length + 1)
      · have hin' : a + 1 ≤ x ∧ x < a + 1 + rest.length := by omega
        obtain ⟨k, hk⟩ : ∃ k, x - a = k + 1 := ⟨x - a - 1, by omega⟩
        have hk' : x - (a + 1) = k := by omega
        simp only [hin, hin', hx, hk, hk', false_and, if_false, true_and, List.getD_cons_succ, and_self]
      · have hin' : ¬(a + 1 ≤ x ∧ x < a + 1 + rest.length) := by omega
        simp only [hin, hin', hx, false_and, if_false]

/-- The bytes of HBM after a write are those stored. -/
theorem State.write_hbm (s : State) (base : Nat) (bytes : List Byte) :
    (s.write base bytes).mem.hbm = (s.mem.storeBytes base bytes).hbm := by
  unfold State.write
  rw [foldl_keeps State.mem State.poisonEvents State.poisonEvents_mem]
  rfl

theorem mem_sectorsOf {base len a : Nat} (h : base ≤ a) (h' : a < base + len) : a / 32 ∈ sectorsOf base len := by
  unfold sectorsOf
  rw [if_neg (by omega), range'_eq_listRange', List.mem_range'_1]
  omega

theorem readCells_eq_map (m : List Host.Cell) (a n : Nat) :
    readCells m a n = (List.range n).map fun i => readByte m (a + i) := by
  induction n generalizing a with
  | zero => rfl
  | succ n ih =>
    rw [readCells, ih, List.range_succ_eq_map, List.map_cons, List.map_map]
    congr 1
    exact List.map_congr_left fun i _ => by
      show readByte m (a + 1 + i) = readByte m (a + (i + 1))
      congr 1
      omega

/-- Settles O57: the bytes of HBM after a write are those that `readByte_storeBytes` gives. -/
theorem memoryWritesRead : Obligations.MemoryWritesRead := by
  intro s base bytes hwf
  refine ⟨?_, fun hfound => ?_, fun a ha => ?_, fun a ha => ?_⟩
  · rw [s.write_hbm]; exact storeBytes_wf s.mem base bytes hwf
  · rw [State.read, s.write_hbm, readCells_eq_map]
    apply List.ext_getElem (by simp)
    intro i _ hi
    have hsector := hfound _ (mem_sectorsOf (a := base + i) (by omega) (by omega))
    rw [List.getElem_map, List.getElem_range, readByte_storeBytes _ _ _ _ hwf,
      if_pos ⟨⟨by omega, by omega⟩, hsector⟩]
    simp [hi]
  · rw [s.write_hbm, readByte_storeBytes _ _ _ _ hwf, if_neg (by omega)]
  · rw [s.write_hbm, readByte_storeBytes _ _ _ _ hwf, if_neg (by simp [ha])]

end Sys2Proof.Machine
end

section
/-!
PROOF. The host's queries and the ring and queue commands (O3, O4): each command's checks pass under the hypotheses, and
its body's state and results are the response.
-/

namespace Sys2Proof.Machine

/-- A flag argument, which is at most 1, as the commands test it. -/
theorem lt_two_of_le {n : Nat} (h : n ≤ 1) : n < 2 := by omega

/-! ## A command that Cihal serves at once -/

/-- A command whose body completes it in state `u` is answered in `u`. -/
theorem finish_issue_done (d : CmdDef) {s u : State} {l : Nat} {tag : Word} {args : List Word} {st : Status}
    {rs : List Word} (h : s.Serves l) (hfits : Fits (d.words args) args) (hi : d.issuer.allows l args = true)
    (hb : s.hub.dev ≠ .boot ∨ d.code ≤ 3) (hd : d.body (s.taken l d.code tag args) l args = .done u st rs)
    (hc : d.code < 2 ^ 16 := by decide) : finish (s.issue d l tag args) = answered u l st rs := by
  rw [issue_done d s l tag args h hc hfits.2 hfits.1 hi (fun hboot => hb.resolve_left fun hne => hne hboot) hd, finish]

/-- A command that completes with ST_OK and no results. -/
theorem finish_issue_ok (d : CmdDef) {s u : State} {l : Nat} {tag : Word} {args : List Word} (h : s.Serves l)
    (hfits : Fits (d.words args) args) (hi : d.issuer.allows l args = true) (hb : s.hub.dev ≠ .boot ∨ d.code ≤ 3)
    (hd : d.body (s.taken l d.code tag args) l args = .ok u) (hc : d.code < 2 ^ 16 := by decide) :
    finish (s.issue d l tag args) = answered u l .ok [] :=
  finish_issue_done d h hfits hi hb hd hc

/-- A check that passes. -/
@[simp] theorem need_pos {c : Bool} (h : c = true) (st : Status) (k : Reply) : need c st k = k := by rw [h]; rfl

/-- Lea 0 and the lea that the first argument names may issue a command for that lea. -/
theorem Issuer.allows_zeroOrSelf {l : Nat} {args : List Word} (h : ZeroOrSelf l args) :
    Issuer.zeroOrSelf.allows l args = true := by
  obtain rfl | rfl := h <;> simp [Issuer.allows, argN]

theorem eventWords_eq_flatMap (l : List FaultEvent) : eventWords l = l.flatMap FaultEvent.words := by
  induction l with
  | nil => rfl
  | cons e rest ih => rw [eventWords, ih, List.flatMap_cons]

/-- Settles O3: each query's body answers from the state taken, which differs from the state before in the mailbox alone. -/
theorem hostQueryAnswers : Obligations.HostQueryAnswers := by
  refine fun s l tag args hs => ⟨fun hf => ?ping, fun hf => ?getInfo, fun hf => ?getStatus,
    fun hf hz hdev hlt hst => ?quotaRead, fun hf hz hdev hlt hst => ?grantRead⟩
  case ping => exact finish_issue_done cmdPing hs hf rfl (.inr (by decide)) (by simp [cmdPing, cmd, State.now])
  case getInfo => exact finish_issue_done cmdGetInfo hs hf rfl (.inr (by decide)) (by simp [cmdGetInfo, cmd])
  case getStatus =>
    exact finish_issue_done cmdGetStatus hs hf rfl (.inr (by decide)) (by simp [cmdGetStatus, cmd, eventWords_eq_flatMap])
  case quotaRead =>
    exact finish_issue_done cmdLeaQuotaRead hs hf (Issuer.allows_zeroOrSelf hz) (.inl hdev)
      (by simp [cmdLeaQuotaRead, cmd, hlt, hst])
  case grantRead =>
    exact finish_issue_done cmdLeaGrantRead hs hf (Issuer.allows_zeroOrSelf hz) (.inl hdev)
      (by simp [cmdLeaGrantRead, cmd, hlt, hst])

/-! ## Queues of a lea -/

theorem Lea.queueIs_eq {x : Lea} {i : Nat} {k : Queue} (h : x.queues.find i = some k) (b : Bool) :
    x.queueIs i b = (k.stopped == b) := by
  simp [Lea.queueIs, h]

theorem Lea.modQueue_eq {x : Lea} {i : Nat} {k : Queue} (h : x.queues.find i = some k) (f : Queue → Queue) :
    x.modQueue i f = { x with queues := x.queues.insert i (f k) } := by
  simp [Lea.modQueue, h]

/-- An open queue of a lea changed is the lea's queues with the change. -/
theorem State.modLea_modQueue {s : State} {l i : Nat} {k : Queue} (h : (s.lea l).queues.find i = some k)
    (f : Queue → Queue) : (s.modLea l fun x => x.modQueue i f) =
      s.modLea l fun x => { x with queues := x.queues.insert i (f k) } :=
  State.modLea_congr (Lea.modQueue_eq h f)

/-- Settles O4: the checks of each command are its hypotheses, and what its body changes of the lea is what is stated. -/
theorem ringAndQueueCommands : Obligations.RingAndQueueCommands := by
  refine fun s l tag args hs hdev => ⟨?leaEnable, ?cringCreate, ?cringDestroy, ?queueCreate, ?queueStop, ?queueStart,
    ?queueDestroy⟩
  case leaEnable =>
    rintro hf rfl hlt hst hlive
    exact finish_issue_ok cmdLeaEnable hs hf rfl (.inl hdev) (by simp [cmdLeaEnable, cmd, hlt, hst, hlive])
  case cringCreate =>
    intro hf hi hloc haddr h4 h16 hring hquota hst hfree
    exact finish_issue_ok cmdCringCreate hs hf rfl (.inl hdev)
      (by simp [cmdCringCreate, cmd, hi, hloc, lt_two_of_le hloc, haddr, h4, h16, hring, hquota, hst, hfree])
  case cringDestroy =>
    intro hf hi hopen hnamed
    have hunnamed : (s.lea l).queues.any (fun q => q.2.cring == argN args 0) = false := by simpa using hnamed
    exact finish_issue_ok cmdCringDestroy hs hf rfl (.inl hdev) (by
      simp [cmdCringDestroy, cmd, hi, hopen, hunnamed])
  case queueCreate =>
    intro hf hi hloc haddr h4 h16 hring hprio hpost hpostHbm hok hjob hquota hst hfree hopen
    have hhbm : (argN args 1 == 1 || !argN args 7 == 1) = true := by
      by_cases h : argN args 7 = 1 <;> simp [h, hpostHbm]
    have hhandle : (!argN args 7 == 1 || (s.jobOf l (argN args 8)).isSome) = true := by
      by_cases h : argN args 7 = 1 <;> simp [h, hjob]
    exact finish_issue_ok cmdQueueCreate hs hf rfl (.inl hdev) (by
      simp [cmdQueueCreate, cmd, hi, hloc, lt_two_of_le hloc, haddr, h4, h16, hring, hprio, hpost, lt_two_of_le hpost, hok,
        hhbm, hhandle, hquota, hst, hfree, hopen])
  case queueStop =>
    intro k hf hi hk hrun
    have hk' : ((s.taken l 0x0023 tag args).lea l).queues.find (argN args 0) = some k := by rw [State.taken_lea_queues, hk]
    exact finish_issue_ok cmdQueueStop hs hf rfl (.inl hdev) (by
      simp [cmdQueueStop, cmd, hi, Lea.queueIs_eq hk, hrun, State.modLea_modQueue hk'])
  case queueStart =>
    intro k hf hi hk hrun
    have hk' : ((s.taken l 0x0024 tag args).lea l).queues.find (argN args 0) = some k := by rw [State.taken_lea_queues, hk]
    exact finish_issue_ok cmdQueueStart hs hf rfl (.inl hdev) (by
      simp [cmdQueueStart, cmd, hi, Lea.queueIs_eq hk, hrun, State.modLea_modQueue hk'])
  case queueDestroy =>
    intro k hf hi hk hrun hops
    have hidle : (s.leaOps l).any (fun e => e.2.queue == argN args 0) = false := by
      simpa [State.leaOps, Map.sel] using hops
    exact finish_issue_ok cmdQueueDestroy hs hf rfl (.inl hdev) (by
      simp [cmdQueueDestroy, cmd, hi, Lea.queueIs_eq hk, hrun, hidle])

end Sys2Proof.Machine
end

section
/-!
PROOF. The quota command (O5 fails): the device total of a quota is summed over the entries of the table of leas, and a
table whose indexes do not rise counts a lea twice once its entry has been written again.
-/

namespace Sys2Proof.Machine

/-- A failed check of a command is the response. -/
theorem finish_issue_fail (d : CmdDef) {s : State} {l : Nat} {tag : Word} {args : List Word} {st : Status} (h : s.Serves l)
    (hfits : Fits (d.words args) args) (hi : d.issuer.allows l args = true) (hb : s.hub.dev ≠ .boot ∨ d.code ≤ 3)
    (hd : d.body (s.taken l d.code tag args) l args = .fail st) (hc : d.code < 2 ^ 16 := by decide) :
    finish (s.issue d l tag args) = answered (s.taken l d.code tag args) l st [] := by
  rw [issue_eq d s l tag args h hc hfits.2 hfits.1 hi (fun hboot => hb.resolve_left fun hne => hne hboot), hd, finish]

/-- A response and settling leave the quotas of every other lea. -/
theorem State.quotas_answered_ne {u : State} {l k : Nat} (st : Status) (rs : List Word) (h : (u.leas.find l).isSome)
    (hev : (u.lea l).pendingEvents = []) (hreset : (u.lea l).pendingReset = none) (hk : k ≠ l) :
    ((u.respond l st rs).settle.lea k).quotas = (u.lea k).quotas := by
  obtain ⟨a, c, v, w, hsettle⟩ := (u.respond l st rs).lea_settle k
  rw [hsettle, ← State.lea_respond_ne st rs h hev hreset hk]

/-- Leas 1 and 0 listed in that order; lea 0 has more than half of the device's queues. -/
def leasOutOfOrder : State :=
  { hub := { dev := .run }, pcie := { up := true }, edge := { online := BitVec.allOnes 40 }
    leas := [(1, { st := .enabled }), (0, { st := .enabled, quotas := { queues := 20000 } })] }

/-- Five queues for lea 1: MASK names the queue quota alone. -/
def fiveQueues : List Word := [1, 1, 5]

theorem leasOutOfOrder_serves : leasOutOfOrder.Serves 0 :=
  ⟨by decide, by decide, by decide, by decide, by decide, fun k _ _ hturn => absurd hturn (by simp [leasOutOfOrder])⟩

/-- The request written, lea 0 is listed twice, and its queues are counted twice. -/
theorem leasOutOfOrder_refused :
    cmdLeaQuotaSet.body (leasOutOfOrder.taken 0 0x0701 0 fiveQueues) 0 fiveQueues = .fail .noResource := by
  dsimp only [cmdLeaQuotaSet]
  rw [need_pos (by decide)]
  exact if_neg (by decide)

/-- Refutes O5 in its second clause: a state may list its leas out of the order of their indexes. LEA_QUOTA_SET checks the
device total in the table of leas that the written request leaves; in `leasOutOfOrder` that table lists lea 0 twice, so the
command fails with ST_NO_RESOURCE, although the total over the leas of the state before is met. -/
theorem not_counterQuotaShareGrantCommands : ¬ Obligations.CounterQuotaShareGrantCommands := by
  intro h
  obtain ⟨-, hquota, -⟩ := h leasOutOfOrder 0 0 fiveQueues leasOutOfOrder_serves (by decide)
  have hclaim := hquota [5, 0, 0, 0, 0, 0, 0, 0, 0] rfl ⟨by decide, by decide⟩ (by decide) (by decide) (by decide)
    (by decide) (by decide) (by decide) (by decide) (by decide)
  have hrefused : exec (.leaQuotaSet 0 0 fiveQueues) leasOutOfOrder =
      answered (leasOutOfOrder.taken 0 0x0701 0 fiveQueues) 0 .noResource [] :=
    finish_issue_fail cmdLeaQuotaSet leasOutOfOrder_serves ⟨by decide, by decide⟩ rfl (.inl (by decide))
      leasOutOfOrder_refused
  rw [hrefused] at hclaim
  have hsame := congrArg (fun t : State => (t.lea 1).quotas.queues) (Host.Outcome.next.inj hclaim)
  rw [State.quotas_answered_ne _ _ (by decide) (by decide) (by decide) (by decide),
    State.quotas_answered_ne _ _ (by decide) (by decide) (by decide) (by decide)] at hsame
  exact absurd hsame (by decide)

end Sys2Proof.Machine
end

section
/-!
PROOF. The power manager, the thermal limits and the sidebands (O6, O7): what a window's end and a thermal sample make of
the power manager's registers, and that the events they queue touch none of these.
-/

namespace Sys2Proof.Machine

/-! ## The registers at the end of a window (R466 to R469) -/

/-- The registers with a window's average power taken and the over-current limit off (R467). -/
def Power.sampled (p : Power) (w : Nat) : Power :=
  { p with windowW := w, peakW := max p.peakW w, limitOc := false }

/-- The registers once the cap rule has acted, with its throttling noted (R469). -/
def Power.capped (p : Power) (w : Nat) : Power :=
  let q := (p.sampled w).capRule w
  if q.vCap < p.vCap then { q with lowered := true, capThrottle := true, capCount := q.capCount + 1 } else q

/-- The registers at the end of a window: the cap rule, the thermal rule, then the lower of their voltages. -/
def Power.windowEnd (p : Power) (w : Nat) : Power :=
  let q := (p.capped w).thermRule
  (if q.vTherm < (p.capped w).vTherm then { q with loweredTherm := true } else q).apply

/-- Noting the throttling touches neither the voltages nor the limits. -/
theorem Power.capped_eq (p : Power) (w : Nat) : ∃ a b c, p.capped w =
    { (p.sampled w).capRule w with lowered := a, capThrottle := b, capCount := c } := by
  unfold Power.capped
  dsimp only
  split
  · exact ⟨_, _, _, rfl⟩
  · exact ⟨_, _, _, rfl⟩

theorem Power.windowEnd_eq (p : Power) (w : Nat) : ∃ a b c d, p.windowEnd w =
    ({ ((p.sampled w).capRule w).thermRule with lowered := a, capThrottle := b, capCount := c, loweredTherm := d } :
      Power).apply := by
  obtain ⟨a, b, c, h⟩ := p.capped_eq w
  have hrule : (p.capped w).thermRule =
      { ((p.sampled w).capRule w).thermRule with lowered := a, capThrottle := b, capCount := c } := by
    rw [h]
    unfold Power.thermRule
    dsimp only
    split <;> rfl
  unfold Power.windowEnd
  dsimp only
  split
  · rw [hrule]; exact ⟨_, _, _, _, rfl⟩
  · rw [hrule]; exact ⟨_, _, _, _, rfl⟩

/-- The cap rule moves v and the limit alone (R466). -/
theorem Power.capRule_eq (p : Power) (w : Nat) :
    p.capRule w = { p with vCap := (p.capRule w).vCap, limitCap := (p.capRule w).limitCap } := by
  unfold Power.capRule
  split
  · rfl
  · split <;> rfl

theorem Power.capRule_over {p : Power} {w : Nat} (h : p.cap < w) :
    (p.capRule w).vCap = max (p.vCap - 5 * min ((w - p.cap + p.gain - 1) / p.gain) 8) 580 ∧
    (p.capRule w).limitCap = (p.limitCap || (p.capRule w).vCap == 580) := by
  simp [Power.capRule, h, ceilDiv]

theorem Power.capRule_under {p : Power} {w : Nat} (h : w + p.hyst < p.cap) : (p.capRule w).limitCap = false ∧
    (p.capRule w).vCap = if p.vCap < p.target then p.vCap + 5 else p.vCap := by
  simp [Power.capRule, show ¬p.cap < w by omega, h]

theorem Power.capRule_within {p : Power} {w : Nat} (h : p.cap ≤ w + p.hyst) (h' : w ≤ p.cap) : p.capRule w = p := by
  simp [Power.capRule, Nat.not_lt.mpr h, Nat.not_lt.mpr h']

/-- The thermal rule moves its own voltage alone (Table 16.11). -/
theorem Power.thermRule_eq (p : Power) :
    p.thermRule = { p with vTherm := if p.throttling then max (p.vTherm - 5) 580 else p.vTherm } := by
  unfold Power.thermRule
  split <;> rfl

/-- The registers at the end of a window, but for the notes that R469 keeps. -/
theorem Power.windowEnd_fields (p : Power) (w : Nat) :
    (p.windowEnd w).windowW = w ∧ (p.windowEnd w).peakW = max p.peakW w ∧ (p.windowEnd w).limitOc = false ∧
    (p.windowEnd w).vCap = ((p.sampled w).capRule w).vCap ∧
    (p.windowEnd w).limitCap = ((p.sampled w).capRule w).limitCap ∧
    (p.windowEnd w).vTherm = (if p.throttling then max (p.vTherm - 5) 580 else p.vTherm) ∧
    (p.windowEnd w).actual = min p.target (min (p.windowEnd w).vCap (p.windowEnd w).vTherm) ∧
    (p.windowEnd w).target = p.target ∧ (p.windowEnd w).cap = p.cap ∧ (p.windowEnd w).tj = p.tj := by
  obtain ⟨a, b, c, d, h⟩ := p.windowEnd_eq w
  rw [h, Power.thermRule_eq, Power.capRule_eq]
  exact ⟨rfl, rfl, rfl, rfl, rfl, rfl, rfl, rfl, rfl, rfl⟩

/-! ## The events of a window -/

@[simp] theorem State.railFault_pwr (s : State) (r : Nat) : (s.railFault r).pwr = s.pwr := by
  unfold State.railFault; split <;> simp
@[simp] theorem State.railFault_mem (s : State) (r : Nat) : (s.railFault r).mem = s.mem := by
  unfold State.railFault; split <;> simp
@[simp] theorem State.railFault_jobs (s : State) (r : Nat) : (s.railFault r).jobs = s.jobs := by
  unfold State.railFault; split <;> simp
@[simp] theorem State.railFault_hub (s : State) (r : Nat) : (s.railFault r).hub = s.hub := by
  unfold State.railFault; split <;> simp
@[simp] theorem State.railFault_edge (s : State) (r : Nat) : (s.railFault r).edge = s.edge := by
  unfold State.railFault; split <;> simp

/-- An event that is queued under a condition leaves what queueing leaves. -/
theorem State.ite_queueEvent_keeps {β : Type} (p : State → β) (h : ∀ (s : State) l e, p (s.queueEvent l e) = p s)
    (c : Prop) [Decidable c] (s : State) (l : Nat) (e : FaultEvent) : p (if c then s.queueEvent l e else s) = p s := by
  split
  · exact h s l e
  · rfl

/-- A window's end writes the power manager's registers; the events it queues leave memory, jobs, ops and domains. -/
theorem exec_powerWindowEnd {s : State} (w : Nat) (bad : List Nat) (h : s.pmActs) : ∃ u : State,
    exec (.powerWindowEnd w bad) s = .next u.settle ∧ u.pwr = s.pwr.windowEnd w ∧ u.mem = s.mem ∧ u.jobs = s.jobs ∧
    u.hub = s.hub ∧ u.edge = s.edge := by
  refine ⟨_, if_neg (c := !s.pmActs) (by simp [h]), ?_⟩
  simp only [foldl_keeps State.pwr State.railFault State.railFault_pwr,
      foldl_keeps State.mem State.railFault State.railFault_mem, foldl_keeps State.jobs State.railFault State.railFault_jobs,
      foldl_keeps State.hub State.railFault State.railFault_hub, foldl_keeps State.edge State.railFault State.railFault_edge,
      State.ite_queueEvent_keeps State.pwr State.queueEvent_pwr, State.ite_queueEvent_keeps State.mem State.queueEvent_mem,
      State.ite_queueEvent_keeps State.jobs State.queueEvent_jobs, State.ite_queueEvent_keeps State.hub State.queueEvent_hub,
      State.ite_queueEvent_keeps State.edge State.queueEvent_edge, and_true]
  rfl

/-! ## The registers after a thermal sample (R468 to R470) -/

/-- The registers with Tj and its sensor, and whether the thermal rule throttles. -/
def Power.heated (p : Power) (sensor : Nat) (tj : Int) : Power :=
  let q := { p with tj := tj, hotSensor := sensor }
  if 16 * (q.throttle : Int) ≤ tj then
    { q with throttling := true, thermThrottle := true
             thermCount := if q.throttling then q.thermCount else q.thermCount + 1 }
  else if tj < 16 * ((q.throttle : Int) - 3) then { q with throttling := false, vTherm := q.target } else q

/-- The registers after a sample, before a trip. -/
def Power.thermSample (p : Power) (sensor : Nat) (tj : Int) : Power :=
  let q := p.heated sensor tj
  let crit := decide (1680 ≤ tj) && !q.limitCrit
  let q := if 1680 ≤ tj then { q with limitCrit := true } else if tj < 1600 then { q with limitCrit := false } else q
  let q := if crit then { q with thermCrit := true, critCount := q.critCount + 1 } else q
  if q.coreOff then q else q.apply

/-- What a sample makes of the fields that the thermal rule and the limits read. -/
theorem Power.thermSample_fields (p : Power) (sensor : Nat) (tj : Int) :
    (p.thermSample sensor tj).tj = tj ∧ (p.thermSample sensor tj).hotSensor = sensor ∧
    (p.thermSample sensor tj).throttling = (p.heated sensor tj).throttling ∧
    (p.thermSample sensor tj).thermThrottle = (p.heated sensor tj).thermThrottle ∧
    (p.thermSample sensor tj).vTherm = (p.heated sensor tj).vTherm ∧
    (p.thermSample sensor tj).limitCrit = (if 1680 ≤ tj then true else if tj < 1600 then false else p.limitCrit) ∧
    (p.thermSample sensor tj).tripped = p.tripped ∧ (p.thermSample sensor tj).coreOff = p.coreOff := by
  simp only [Power.thermSample, Power.apply, Power.heated, apply_ite Power.tj, apply_ite Power.hotSensor,
    apply_ite Power.throttling, apply_ite Power.thermThrottle, apply_ite Power.vTherm, apply_ite Power.limitCrit,
    apply_ite Power.tripped, apply_ite Power.coreOff, ite_self, and_self]

theorem Power.heated_of_hot {p : Power} {tj : Int} (sensor : Nat) (h : 16 * (p.throttle : Int) ≤ tj) :
    (p.heated sensor tj).throttling = true ∧ (p.heated sensor tj).thermThrottle = true := by
  simp [Power.heated, h]

theorem Power.heated_of_cool {p : Power} {tj : Int} (sensor : Nat) (h : tj < 16 * ((p.throttle : Int) - 3)) :
    (p.heated sensor tj).throttling = false ∧ (p.heated sensor tj).vTherm = p.target := by
  have hnot : ¬16 * (p.throttle : Int) ≤ tj := by omega
  simp [Power.heated, hnot, h]

theorem Power.heated_between {p : Power} {tj : Int} (sensor : Nat) (h : 16 * ((p.throttle : Int) - 3) ≤ tj)
    (h' : tj < 16 * (p.throttle : Int)) : (p.heated sensor tj).throttling = p.throttling := by
  simp [Power.heated, Int.not_le.mpr h', Int.not_lt.mpr h]

/-! ## The trip (R470) -/

@[simp] theorem State.writeRecord_pwr (s : State) (g : Record → Record) : (s.writeRecord g).pwr = s.pwr := by
  unfold State.writeRecord; split <;> rfl
@[simp] theorem State.writeRecord_fab (s : State) (g : Record → Record) : (s.writeRecord g).fab = s.fab := by
  unfold State.writeRecord; split <;> rfl
@[simp] theorem State.writeRecord_mem (s : State) (g : Record → Record) : (s.writeRecord g).mem = s.mem := by
  unfold State.writeRecord; split <;> rfl
@[simp] theorem State.writeRecord_jobs (s : State) (g : Record → Record) : (s.writeRecord g).jobs = s.jobs := by
  unfold State.writeRecord; split <;> rfl
@[simp] theorem State.writeRecord_edge (s : State) (g : Record → Record) : (s.writeRecord g).edge = s.edge := by
  unfold State.writeRecord; split <;> rfl
@[simp] theorem State.writeRecord_hub (s : State) (g : Record → Record) : (s.writeRecord g).hub = s.hub := by
  unfold State.writeRecord; split <;> rfl

@[simp] theorem State.trip_pwr (s : State) : s.trip.pwr = { s.pwr with coreOff := true, actual := 0, tripped := true } := by
  simp [State.trip]
@[simp] theorem State.trip_fab (s : State) :
    s.trip.fab = { s.fab with ports := s.fab.ports.mapVals fun _ p => { p with lasers := false } } := by
  simp [State.trip]
@[simp] theorem State.trip_mem (s : State) : s.trip.mem = s.mem := by simp [State.trip]
@[simp] theorem State.trip_jobs (s : State) : s.trip.jobs = s.jobs := by simp [State.trip]
@[simp] theorem State.trip_edge (s : State) : s.trip.edge = s.edge := by simp [State.trip]
theorem State.trip_dev (s : State) : s.trip.hub.dev = .halted := by simp [State.trip, State.setDev_dev]

theorem State.trip_lasers (s : State) (p : Nat) : ((s.trip.fab.ports.find p).all fun x => !x.lasers) = true := by
  simp only [State.trip_fab, Map.find_mapVals]
  cases s.fab.ports.find p <;> rfl

theorem State.settle_dev_of_halted {s : State} (h : s.hub.dev = .halted) : s.settle.hub.dev = .halted := by
  rw [State.settle_dev, State.settleDev, h]
  exact h

/-- The state with a sample in the power manager's registers and, at the first of 105 °C, its event (R469). -/
def State.thermSampled (s : State) (sensor : Nat) (tj : Int) : State :=
  let u := { s with pwr := s.pwr.thermSample sensor tj }
  if decide (1680 ≤ tj) && !(s.pwr.heated sensor tj).limitCrit then
    (u.queueEvent 0 (faultEvent .ok 0x01 0x32)).ibi 3
  else u

/-- The event of a sample touches no register of the power manager, nor memory, jobs, domains or ports. -/
theorem State.thermSampled_keeps {β : Type} (p : State → β) (hq : ∀ (s : State) l e, p (s.queueEvent l e) = p s)
    (hi : ∀ (s : State) b, p (s.ibi b) = p s) (s : State) (sensor : Nat) (tj : Int) :
    p (s.thermSampled sensor tj) = p { s with pwr := s.pwr.thermSample sensor tj } := by
  unfold State.thermSampled
  dsimp only
  split
  · rw [hi, hq]
  · rfl

theorem State.thermSampled_pwr (s : State) (sensor : Nat) (tj : Int) :
    (s.thermSampled sensor tj).pwr = s.pwr.thermSample sensor tj :=
  s.thermSampled_keeps State.pwr State.queueEvent_pwr State.ibi_pwr sensor tj
theorem State.thermSampled_mem (s : State) (sensor : Nat) (tj : Int) : (s.thermSampled sensor tj).mem = s.mem :=
  s.thermSampled_keeps State.mem State.queueEvent_mem State.ibi_mem sensor tj
theorem State.thermSampled_jobs (s : State) (sensor : Nat) (tj : Int) : (s.thermSampled sensor tj).jobs = s.jobs :=
  s.thermSampled_keeps State.jobs State.queueEvent_jobs State.ibi_jobs sensor tj
theorem State.thermSampled_edge (s : State) (sensor : Nat) (tj : Int) : (s.thermSampled sensor tj).edge = s.edge :=
  s.thermSampled_keeps State.edge State.queueEvent_edge State.ibi_edge sensor tj
theorem State.thermSampled_fab (s : State) (sensor : Nat) (tj : Int) : (s.thermSampled sensor tj).fab = s.fab :=
  s.thermSampled_keeps State.fab State.queueEvent_fab State.ibi_fab sensor tj

/-- A thermal sample writes the power manager's registers and queues its event; a sample of 115 °C trips the part. -/
theorem exec_thermalSample {s : State} (sensor : Nat) (tj : Int) (h : s.edgeOn 36) :
    exec (.thermalSample sensor tj) s = .next (if 1840 ≤ tj ∧ s.pwr.tripped = false then (s.thermSampled sensor tj).trip
      else s.thermSampled sensor tj).settle := by
  have hexec : exec (.thermalSample sensor tj) s = .next (if 1840 ≤ tj ∧ !(s.thermSampled sensor tj).pwr.tripped then
      (s.thermSampled sensor tj).trip else s.thermSampled sensor tj).settle :=
    if_neg (c := !s.edgeOn 36) (by simp [h])
  obtain ⟨-, -, -, -, -, -, htripped, -⟩ := s.pwr.thermSample_fields sensor tj
  simpa only [State.thermSampled_pwr, htripped, Bool.not_eq_true'] using hexec

/-! ## The obligations -/

/-- Settles O6: a window's end writes what `Power.windowEnd_fields` says and a sample what `Power.thermSample_fields` says;
from 115 °C on the trip follows. -/
theorem powerAndThermalLimits : Obligations.PowerAndThermalLimits := by
  refine ⟨fun s w bad hacts => ?window, fun s sensor tj hon => ?sample⟩
  case window =>
    obtain ⟨u, hexec, hpwr, hmem, hjobs, hhub, hedge⟩ := exec_powerWindowEnd w bad hacts
    obtain ⟨hW, hpeak, hoc, hcap, hlimit, htherm, hactual, htarget, hcapW, htj⟩ := s.pwr.windowEnd_fields w
    refine ⟨_, hexec, ?_⟩
    simp only [State.settle_pwr, State.settle_mem, State.settle_jobs, State.settle_hub_ops, State.settle_edge, hpwr, hmem,
      hjobs, hhub, hedge, hW, hpeak, hoc, hcap, hlimit, htherm, hactual, htarget, hcapW, htj, and_true, true_and]
    exact ⟨fun hover => Power.capRule_over hover, fun hunder => Power.capRule_under hunder, fun hlow hhigh => by
      rw [Power.capRule_within (p := s.pwr.sampled w) hlow hhigh]
      exact ⟨rfl, rfl⟩⟩
  case sample =>
    obtain ⟨htj, hsensor, hthrot, hnote, hv, hcrit, htripped, hcore⟩ := s.pwr.thermSample_fields sensor tj
    have hthrottling : (16 * (s.pwr.throttle : Int) ≤ tj → (s.pwr.thermSample sensor tj).throttling = true ∧
          (s.pwr.thermSample sensor tj).thermThrottle = true) ∧
        (tj < 16 * ((s.pwr.throttle : Int) - 3) → (s.pwr.thermSample sensor tj).throttling = false ∧
          (s.pwr.thermSample sensor tj).vTherm = s.pwr.target) ∧
        (16 * ((s.pwr.throttle : Int) - 3) ≤ tj → tj < 16 * (s.pwr.throttle : Int) →
          (s.pwr.thermSample sensor tj).throttling = s.pwr.throttling) := by
      rw [hthrot, hnote, hv]
      exact ⟨Power.heated_of_hot sensor, Power.heated_of_cool sensor, Power.heated_between sensor⟩
    have hlimit : (1680 ≤ tj → (s.pwr.thermSample sensor tj).limitCrit = true) ∧
        (tj < 1600 → (s.pwr.thermSample sensor tj).limitCrit = false) ∧
        (1600 ≤ tj → tj < 1680 → (s.pwr.thermSample sensor tj).limitCrit = s.pwr.limitCrit) := by
      rw [hcrit]
      refine ⟨fun h => if_pos h, fun h => ?_, fun h h' => ?_⟩
      · rw [if_neg (by omega), if_pos h]
      · rw [if_neg (by omega), if_neg (by omega)]
    obtain ⟨hhot, hcool, hbetween⟩ := hthrottling
    obtain ⟨hfrom, hbelow, hwithin⟩ := hlimit
    rw [exec_thermalSample sensor tj hon]
    by_cases htrip : 1840 ≤ tj ∧ s.pwr.tripped = false
    · rw [if_pos htrip]
      refine ⟨_, rfl, ?_⟩
      simp only [State.settle_pwr, State.settle_mem, State.settle_jobs, State.settle_edge, State.settle_fab,
        State.trip_pwr, State.trip_mem, State.trip_jobs, State.trip_edge, State.thermSampled_pwr, State.thermSampled_mem,
        State.thermSampled_jobs, State.thermSampled_edge, htj, hsensor, and_true, true_and]
      exact ⟨hhot, hcool, hbetween, hfrom, hbelow, hwithin, fun _ _ =>
        ⟨State.settle_dev_of_halted (State.trip_dev _), State.trip_lasers _⟩, fun hlow => absurd htrip.1 (by omega)⟩
    · rw [if_neg htrip]
      refine ⟨_, rfl, ?_⟩
      simp only [State.settle_pwr, State.settle_mem, State.settle_jobs, State.settle_edge, State.settle_fab,
        State.thermSampled_pwr, State.thermSampled_mem, State.thermSampled_jobs, State.thermSampled_edge,
        State.thermSampled_fab, htj, hsensor, htripped, hcore, and_true, true_and]
      exact ⟨hhot, hcool, hbetween, hfrom, hbelow, hwithin, fun h h' => absurd ⟨h, h'⟩ htrip, fun _ => trivial⟩

/-- The command's checks are the hypotheses; the voltages it sets never exceed TARGET, which the lower of them follows
(R465). -/
theorem pwrSet_body {s : State} {args : List Word} (hlive : s.live) (hv : 580 ≤ argN args 0 ∧ argN args 0 ≤ 850)
    (hstep : argN args 0 % 5 = 0) (hcap : 500 ≤ argN args 1 ∧ argN args 1 ≤ 1200)
    (hgain : 1 ≤ argN args 2 ∧ argN args 2 ≤ 255) (hhyst : 5 ≤ argN args 3 ∧ argN args 3 ≤ 255) : ∃ p : Power,
    cmdPwrSet.body s 0 args = .ok { s with pwr := p } ∧ p.target = argN args 0 ∧ p.cap = argN args 1 ∧
    p.gain = argN args 2 ∧ p.hyst = argN args 3 ∧ p.lowered = false ∧
    p.actual = min (argN args 0) (min p.vCap p.vTherm) ∧ p.vCap ≤ argN args 0 ∧ p.vTherm ≤ argN args 0 ∧
    p.throttle = s.pwr.throttle ∧ p.tj = s.pwr.tj := by
  refine ⟨_, (need_pos (by simp [hv, hstep, hcap, hgain, hhyst]) _ _).trans (need_pos hlive _ _), rfl, rfl, rfl, rfl, rfl,
    rfl, ?cap, ?therm, rfl, rfl⟩
  case cap =>
    show (if s.pwr.vCap = s.pwr.target then argN args 0 else min s.pwr.vCap (argN args 0)) ≤ argN args 0
    split
    · exact Nat.le_refl _
    · exact Nat.min_le_right _ _
  case therm =>
    show (if s.pwr.throttling then min s.pwr.vTherm (argN args 0) else argN args 0) ≤ argN args 0
    split
    · exact Nat.min_le_right _ _
    · exact Nat.le_refl _

/-- Settles O7: each sideband event writes the one record that is stated; the power commands' checks are the hypotheses. -/
theorem sidebandAndPowerCommands : Obligations.SidebandAndPowerCommands := by
  refine ⟨fun s => ⟨rfl, fun a hon => ?address, fun hon haddr => ?health, fun hon => ?jtag⟩, ?commands⟩
  case address => exact if_neg (by simp [hon])
  case health => exact if_neg (by simp [hon, Option.isSome_iff_ne_none.mp haddr])
  case jtag =>
    have hload : ∀ i, s.loadJtag i = { s with board := { s.board with jtag := i } } := fun i => if_neg (by simp [hon])
    exact ⟨congrArg finish (hload _), congrArg finish (hload _), congrArg finish (hload _), congrArg finish (hload _),
      congrArg finish (hload _)⟩
  case commands =>
    rintro s l tag args hs rfl hlive
    have hdev : s.hub.dev ≠ .boot := by
      intro hboot
      simp [State.live, hboot] at hlive
    refine ⟨fun hf hv1 hv2 hstep hc1 hc2 hg1 hg2 hh1 hh2 => ?pwrSet, fun hf h80 h100 => ?thermal⟩
    case pwrSet =>
      obtain ⟨p, hbody, hp⟩ := pwrSet_body (s := s.taken 0 0x0920 tag args) (by rw [State.taken_live]; exact hlive)
        ⟨hv1, hv2⟩ hstep ⟨hc1, hc2⟩ ⟨hg1, hg2⟩ ⟨hh1, hh2⟩
      rw [State.taken_pwr] at hp
      exact ⟨p, finish_issue_ok cmdPwrSet hs hf rfl (.inl hdev) hbody, hp⟩
    case thermal =>
      exact finish_issue_ok cmdPwrThermalSet hs hf rfl (.inl hdev) (by
        simp [cmdPwrThermalSet, cmd, h80, h100, hlive])

end Sys2Proof.Machine
end

section
/-!
PROOF. Edge domains and the reference clock (O10, O11): one lemma for each step of a recovery says what it makes of the edge
registers; everything else that follows a loss or a fence leaves them.
-/

namespace Sys2Proof.Machine

/-! ## One bit of a 40-bit register -/

theorem getLsbD_or_bit (x : BitVec 40) (d i : Nat) (h : d < 40) :
    (x ||| (1#40 <<< d)).getLsbD i = (x.getLsbD i || i == d) := by
  simp only [BitVec.getLsbD_or, BitVec.getLsbD_shiftLeft, BitVec.getLsbD_one]
  by_cases hid : i = d
  · subst hid; simp [h]
  · by_cases hlt : i < d
    · simp [hlt, hid]
    · simp [hid, show i - d ≠ 0 by omega]

theorem getLsbD_and_not_bit (x : BitVec 40) (d i : Nat) :
    (x &&& ~~~(1#40 <<< d)).getLsbD i = (x.getLsbD i && i != d) := by
  by_cases hi : i < 40
  · simp only [BitVec.getLsbD_and, BitVec.getLsbD_not, BitVec.getLsbD_shiftLeft, BitVec.getLsbD_one, hi]
    by_cases hid : i = d
    · subst hid; simp
    · by_cases hlt : i < d
      · simp [hlt, hid]
      · simp [hid, show i - d ≠ 0 by omega]
  · simp [BitVec.getLsbD_of_ge x i (by omega)]

/-! ## Putting a domain online and offline -/

theorem State.edgeOn_setOnline_true (s : State) {d : Nat} (h : d < 40) (i : Nat) :
    (s.setOnline d true).edgeOn i = (s.edgeOn i || i == d) := getLsbD_or_bit _ d i h

theorem State.edgeOn_setOnline_false (s : State) (d i : Nat) : (s.setOnline d false).edgeOn i = (s.edgeOn i && i != d) :=
  getLsbD_and_not_bit _ d i

/-- Setting a domain's bit writes HUB_EDGE_ONLINE alone. -/
theorem State.setOnline_eq (s : State) (d : Nat) (b : Bool) :
    s.setOnline d b = { s with edge := { s.edge with online := (s.setOnline d b).edge.online } } := rfl

/-- Moving a domain to or from the oscillator writes its bit of HUB_REFCLK_STATUS alone. -/
theorem State.setOsc_eq (s : State) (d : Nat) (b : Bool) : s.setOsc d b =
    { s with edge := { s.edge with cihOsc := if d = 31 then b else s.edge.cihOsc
                                   pmOsc := if d = 32 then b else s.edge.pmOsc } } := by
  unfold State.setOsc
  split
  · next h => subst h; rfl
  · split <;> rfl

/-! ## A loss (Table 1.6, step 2) -/

theorem State.offlineEffects_eq (s : State) (d : Nat) : s.offlineEffects d =
    { s with fab := (s.offlineEffects d).fab, pcie := (s.offlineEffects d).pcie } := by
  unfold State.offlineEffects
  dsimp only
  split <;> rfl

@[simp] theorem State.offlineEffects_edge (s : State) (d : Nat) : (s.offlineEffects d).edge = s.edge := by
  rw [s.offlineEffects_eq d]
@[simp] theorem State.offlineEffects_mem (s : State) (d : Nat) : (s.offlineEffects d).mem = s.mem := by
  rw [s.offlineEffects_eq d]
@[simp] theorem State.offlineEffects_jobs (s : State) (d : Nat) : (s.offlineEffects d).jobs = s.jobs := by
  rw [s.offlineEffects_eq d]
@[simp] theorem State.offlineEffects_hub (s : State) (d : Nat) : (s.offlineEffects d).hub = s.hub := by
  rw [s.offlineEffects_eq d]

theorem State.goOffline_edge (s : State) (d : Nat) : (s.goOffline d).edge =
    { s.edge with online := s.edge.online &&& ~~~(1#40 <<< d), lost := s.edge.lost ||| (1#40 <<< d)
                  lossCount := s.edge.lossCount + 1 } := by
  simp only [State.goOffline, State.offlineEffects_edge]
  rfl

@[simp] theorem State.goOffline_mem (s : State) (d : Nat) : (s.goOffline d).mem = s.mem := by
  simp [State.goOffline, State.setOnline]
@[simp] theorem State.goOffline_jobs (s : State) (d : Nat) : (s.goOffline d).jobs = s.jobs := by
  simp [State.goOffline, State.setOnline]
@[simp] theorem State.goOffline_hub (s : State) (d : Nat) : (s.goOffline d).hub = s.hub := by
  simp [State.goOffline, State.setOnline]

theorem State.edgeOn_goOffline (s : State) (d i : Nat) : (s.goOffline d).edgeOn i = (s.edgeOn i && i != d) := by
  rw [State.edgeOn, s.goOffline_edge]
  exact getLsbD_and_not_bit _ d i

theorem State.edgeFenced_goOffline (s : State) (d i : Nat) : (s.goOffline d).edgeFenced i = s.edgeFenced i := by
  rw [State.edgeFenced, s.goOffline_edge]
  rfl

/-- A handover abandoned touches the firmware's state alone (Table 16.10). -/
theorem State.abandonHandover_eq (s : State) : s.abandonHandover = { s with fw := s.abandonHandover.fw } := by
  unfold State.abandonHandover
  split <;> rfl

/-! ## A recovery begins (Table 1.6, step 3) -/

/-- The domain that a recovery begins for is offline, unless it runs on the oscillator and is not fenced. -/
theorem State.startRecovery_eq (s : State) (d : Nat) : s.startRecovery d = { s with edge := { s.edge with
    online := if s.onOsc d && !s.edgeFenced d then s.edge.online else (s.setOnline d false).edge.online
    recovery := some { dom := d, retry := s.edgeFenced d, failed := 0, since := s.edge.count } } } := by
  unfold State.startRecovery
  dsimp only
  split <;> rfl

@[simp] theorem State.startRecovery_recovery (s : State) (d : Nat) : (s.startRecovery d).edge.recovery =
    some { dom := d, retry := s.edgeFenced d, failed := 0, since := s.edge.count } := by
  rw [s.startRecovery_eq d]
@[simp] theorem State.startRecovery_lost (s : State) (d : Nat) : (s.startRecovery d).edge.lost = s.edge.lost := by
  rw [s.startRecovery_eq d]
@[simp] theorem State.startRecovery_lossCount (s : State) (d : Nat) :
    (s.startRecovery d).edge.lossCount = s.edge.lossCount := by
  rw [s.startRecovery_eq d]
@[simp] theorem State.startRecovery_fenced (s : State) (d : Nat) : (s.startRecovery d).edge.fenced = s.edge.fenced := by
  rw [s.startRecovery_eq d]
@[simp] theorem State.startRecovery_queued (s : State) (d : Nat) : (s.startRecovery d).edge.queued = s.edge.queued := by
  rw [s.startRecovery_eq d]
@[simp] theorem State.startRecovery_returning (s : State) (d : Nat) :
    (s.startRecovery d).edge.returning = s.edge.returning := by
  rw [s.startRecovery_eq d]
@[simp] theorem State.startRecovery_refPresent (s : State) (d : Nat) :
    (s.startRecovery d).edge.refPresent = s.edge.refPresent := by
  rw [s.startRecovery_eq d]
@[simp] theorem State.startRecovery_mem (s : State) (d : Nat) : (s.startRecovery d).mem = s.mem := by
  rw [s.startRecovery_eq d]
@[simp] theorem State.startRecovery_jobs (s : State) (d : Nat) : (s.startRecovery d).jobs = s.jobs := by
  rw [s.startRecovery_eq d]
@[simp] theorem State.startRecovery_hub (s : State) (d : Nat) : (s.startRecovery d).hub = s.hub := by
  rw [s.startRecovery_eq d]

/-- A domain that is offline when its recovery begins stays so. -/
theorem State.edgeOn_startRecovery (s : State) (d i : Nat) (h : s.edgeOn d = false ∨ s.edgeFenced d = true) :
    (s.startRecovery d).edgeOn i = (s.edgeOn i && i != d) := by
  rw [s.startRecovery_eq d]
  by_cases hstay : s.onOsc d && !s.edgeFenced d
  · have hoff : s.edgeOn d = false := h.resolve_right fun hf => by simp [hf] at hstay
    simp only [State.edgeOn, hstay, if_true]
    by_cases hid : i = d
    · subst hid; rw [← State.edgeOn, hoff]; rfl
    · simp [hid]
  · simp only [hstay]
    exact s.edgeOn_setOnline_false d i

/-! ## What a fence leaves of the edge registers -/

@[simp] theorem State.loseStack_edge (s : State) (k : Nat) : (s.loseStack k).edge = s.edge := by
  unfold State.loseStack
  dsimp only
  split
  · rfl
  · rw [foldl_keeps State.edge _ fun s l => s.poisonEvents_edge (4 * l)]

@[simp] theorem State.queueHdr_edge (s : State) (tier : Nat) (b : List Byte) : (s.queueHdr tier b).edge = s.edge := rfl

@[simp] theorem State.hdrCount_edge (s : State) (i n : Nat) : (s.hdrCount i n).edge = s.edge := by
  unfold State.hdrCount
  dsimp only
  split
  · rfl
  · split
    · rw [State.queueEvent_edge]
    · rfl

@[simp] theorem State.answerHealth_edge (s : State) (req : List Byte) : (s.answerHealth req).edge = s.edge := by
  unfold State.answerHealth
  split
  · rw [State.queueHdr_edge]
  · rw [State.hdrCount_edge]

@[simp] theorem State.flushHealth_edge (s : State) : s.flushHealth.edge = s.edge :=
  foldl_keeps State.edge State.answerHealth State.answerHealth_edge _ _

theorem State.edgeOn_setOsc (s : State) (d i : Nat) (b : Bool) : (s.setOsc d b).edgeOn i = s.edgeOn i := by
  rw [s.setOsc_eq d b]; rfl

/-- What a fence brings about takes no other domain offline or online, but for 31 and 32 on the oscillator (R20). -/
theorem State.fenceEffects_edge (s : State) (d : Nat) : (s.fenceEffects d).edge = if d = 31 ∨ d = 32 then
    ((s.setOnline d true).setOsc d true).edge else s.edge := by
  unfold State.fenceEffects
  split
  · rw [if_neg (by omega), State.loseStack_edge]
  split
  · rw [if_neg (by omega)]
  split
  · rw [if_neg (by omega)]; rfl
  split
  · next h => subst h; rw [State.flushHealth_edge, if_pos (.inl rfl)]
  split
  · next h => subst h; rw [if_pos (.inr rfl)]
  split
  · rw [if_neg (by omega), State.queueEvent_edge]
  split
  · rw [if_neg (by omega)]
  · rw [if_neg (by omega)]

/-- A domain fenced: its FENCED bit, the count, and the end of its recovery (R19, R21). -/
theorem State.fenceDomain_edge (s : State) (d : Nat) :
    (s.fenceDomain d).edge.fenced = s.edge.fenced ||| (1#40 <<< d) ∧
    (s.fenceDomain d).edge.fenceCount = s.edge.fenceCount + 1 ∧
    (s.fenceDomain d).edge.recovery = (if s.edge.recovery.any fun r => r.dom == d then none else s.edge.recovery) ∧
    (d ≠ 31 → d ≠ 32 → (s.fenceDomain d).edge.online = s.edge.online &&& ~~~(1#40 <<< d)) := by
  unfold State.fenceDomain
  simp only [State.fenceEffects_edge, State.setOsc_eq]
  split
  · next h => exact ⟨rfl, rfl, rfl, fun h31 h32 => absurd h (by omega)⟩
  · exact ⟨rfl, rfl, rfl, fun _ _ => rfl⟩

/-! ## EDGE_CLOCK_LOSS -/

theorem lt_40_of_monitored {d : Nat} (h : monitored d) : d < 40 := by
  simp only [monitored, Bool.and_eq_true, decide_eq_true_eq] at h
  exact h.1.1.1

@[simp] theorem State.settle_edgeOn (s : State) (d : Nat) : s.settle.edgeOn d = s.edgeOn d := by simp [State.edgeOn]
@[simp] theorem State.settle_edgeFenced (s : State) (d : Nat) : s.settle.edgeFenced d = s.edgeFenced d := by
  simp [State.edgeFenced]

/-- The state with a domain lost, a handover abandoned where it is Cihal's (Table 16.10). -/
def State.lose (s : State) (d : Nat) : State :=
  if d = 31 then (s.goOffline d).abandonHandover else s.goOffline d

theorem State.lose_eq (s : State) (d : Nat) : s.lose d = { s.goOffline d with fw := (s.lose d).fw } := by
  unfold State.lose
  split
  · exact (s.goOffline d).abandonHandover_eq
  · rfl

/-- The other of domains 31 and 32 runs or is fenced, so the loss is not of both. -/
theorem State.bothLost_lose {s : State} {d : Nat} (h31 : d = 31 → s.edgeOn 32 ∨ s.edgeFenced 32)
    (h32 : d = 32 → s.edgeOn 31 ∨ s.edgeFenced 31) : (s.lose d).bothLost d = false := by
  have hon : ∀ i, (s.lose d).edgeOn i = (s.edgeOn i && i != d) := fun i => by
    rw [s.lose_eq d]; exact s.edgeOn_goOffline d i
  have hfenced : ∀ i, (s.lose d).edgeFenced i = s.edgeFenced i := fun i => by
    rw [s.lose_eq d]; exact s.edgeFenced_goOffline d i
  by_cases hd31 : d = 31
  · subst hd31
    rcases h31 rfl with h | h <;> simp [State.bothLost, hon, hfenced, h]
  · by_cases hd32 : d = 32
    · subst hd32
      rcases h32 rfl with h | h <;> simp [State.bothLost, hon, hfenced, h]
    · simp [State.bothLost, hd31, hd32]

/-- R19, R21: the loss of a monitored domain that is online, not fenced and not recovering. -/
theorem exec_edgeClockLoss {s : State} {d : Nat} (hm : monitored d) (hon : s.edgeOn d) (hf : s.edgeFenced d = false)
    (href : s.edge.refPresent) (hrec : (s.edge.recovery.any fun r => r.dom == d) = false)
    (hboth : (s.lose d).bothLost d = false) : exec (.edgeClockLoss d) s = .next (State.settle (
      if s.edge.recovery.isNone && s.edge.returning.isEmpty then (s.lose d).startRecovery d
      else { s.lose d with edge := { (s.lose d).edge with queued := s.edge.queued ++ [d] } })) := by
  have hexec : exec (.edgeClockLoss d) s = if (s.lose d).bothLost d then finish (s.lose d).bothOnOsc
      else if (s.lose d).edge.recovery.isNone && (s.lose d).edge.returning.isEmpty then finish ((s.lose d).startRecovery d)
      else finish { s.lose d with edge := { (s.lose d).edge with queued := (s.lose d).edge.queued ++ [d] } } := by
    show execEdgeClockLoss d s = _
    simp only [execEdgeClockLoss, hm, hon, hf, href, hrec, Bool.not_true, Bool.false_eq_true, if_false, Bool.or_self]
    rfl
  have hedge : (s.lose d).edge.recovery = s.edge.recovery ∧ (s.lose d).edge.returning = s.edge.returning ∧
      (s.lose d).edge.queued = s.edge.queued := by
    rw [s.lose_eq d]
    simp only [s.goOffline_edge, and_self]
  obtain ⟨hrecovery, hreturning, hqueued⟩ := hedge
  rw [hexec, if_neg (by simp [hboth]), hrecovery, hreturning, hqueued]
  split <;> rfl

/-- R21: a second loss inside the domain's own window fences it. -/
theorem exec_edgeClockLoss_twice {s : State} {d : Nat} {r : Recovery} (hm : monitored d) (hr : s.edge.recovery = some r)
    (hd : r.dom = d) (hretry : r.retry = false) : exec (.edgeClockLoss d) s = .next (s.fenceDomain d).settle := by
  show execEdgeClockLoss d s = _
  simp only [execEdgeClockLoss, hm, hr, Option.any_some, hd, beq_self_eq_true, State.recoveryFailed, hretry, finish,
    Bool.not_true, Bool.false_eq_true, if_false, if_true]

/-- Settles O10: a loss is `State.lose`, after which the recovery begins or is queued; a loss inside the domain's own window
is a fence. -/
theorem edgeClockLossRecovery : Obligations.EdgeClockLossRecovery := by
  refine fun s dom hm => ⟨fun hon hf href hrec h31 h32 => ?loss, fun r hr hd hretry => ?twice⟩
  case loss =>
    have hlt := lt_40_of_monitored hm
    have hedge : (s.lose dom).edge = (s.goOffline dom).edge := by rw [s.lose_eq dom]
    have hlost : ∀ d, (s.lose dom).edge.lost.getLsbD d = (s.edge.lost.getLsbD d || d == dom) := fun d => by
      rw [hedge, s.goOffline_edge]; exact getLsbD_or_bit _ dom d hlt
    have honline : ∀ d, (s.lose dom).edgeOn d = (s.edgeOn d && d != dom) := fun d => by
      rw [State.edgeOn, hedge]; exact s.edgeOn_goOffline dom d
    have hfenced : (s.lose dom).edge.fenced = s.edge.fenced := by rw [hedge, s.goOffline_edge]
    have hmem : (s.lose dom).mem = s.mem := by rw [s.lose_eq dom]; exact s.goOffline_mem dom
    have hjobs : (s.lose dom).jobs = s.jobs := by rw [s.lose_eq dom]; exact s.goOffline_jobs dom
    have hhub : (s.lose dom).hub = s.hub := by rw [s.lose_eq dom]; exact s.goOffline_hub dom
    have hcount : (s.lose dom).edge.lossCount = s.edge.lossCount + 1 := by rw [hedge, s.goOffline_edge]
    have hrecovery : (s.lose dom).edge.recovery = s.edge.recovery := by rw [hedge, s.goOffline_edge]
    have hqueued : (s.lose dom).edge.queued = s.edge.queued := by rw [hedge, s.goOffline_edge]
    have hclock : (s.lose dom).edge.count = s.edge.count := by rw [hedge, s.goOffline_edge]
    have hnot : (s.lose dom).edgeFenced dom = false := by rw [State.edgeFenced, hfenced]; exact hf
    have hoff : (s.lose dom).edgeOn dom = false := by rw [honline]; simp
    rw [exec_edgeClockLoss hm hon hf href hrec (State.bothLost_lose h31 h32)]
    by_cases hwindow : s.edge.recovery.isNone && s.edge.returning.isEmpty
    · rw [if_pos hwindow]
      obtain ⟨hnone, -⟩ := Bool.and_eq_true_iff.mp hwindow
      refine ⟨_, rfl, ?_⟩
      simp only [State.settle_edgeOn, State.settle_edge, State.settle_mem, State.settle_jobs, State.settle_hub_ops,
        State.edgeOn_startRecovery _ _ _ (.inl hoff), State.startRecovery_recovery, State.startRecovery_lost,
        State.startRecovery_lossCount, State.startRecovery_fenced, State.startRecovery_queued, State.startRecovery_mem,
        State.startRecovery_jobs, State.startRecovery_hub, hlost, honline, hcount, hfenced, hqueued, hnot, hclock, hmem,
        hjobs, hhub, Bool.and_assoc, Bool.and_self, implies_true, and_self, true_and, and_true]
      intro hsome
      rw [Option.isNone_iff_eq_none.mp hnone] at hsome
      cases hsome
    · rw [if_neg hwindow]
      refine ⟨_, rfl, ?_⟩
      simp only [State.settle_edgeOn, State.settle_edge, State.settle_mem, State.settle_jobs, State.settle_hub_ops]
      refine ⟨fun d _ => honline d, fun d _ => hlost d, hcount, hfenced, fun hnone hempty => ?_, fun _ => ⟨hrecovery, trivial⟩,
        hmem, hjobs, congrArg Hub.ops hhub⟩
      simp [hnone, hempty] at hwindow
  case twice =>
    obtain ⟨hfenced, hcount, hrecovery, honline⟩ := s.fenceDomain_edge dom
    refine ⟨_, exec_edgeClockLoss_twice hm hr hd hretry, fun d _ => ?_, ?_, ?_, fun h31 h32 => ?_⟩
    · rw [State.settle_edgeFenced, State.edgeFenced, hfenced]
      exact getLsbD_or_bit _ dom d (lt_40_of_monitored hm)
    · rw [State.settle_edge, hcount]
    · rw [State.settle_edge, hrecovery, hr]; simp [hd]
    · rw [State.settle_edgeOn, State.edgeOn, honline h31 h32, getLsbD_and_not_bit]; simp

end Sys2Proof.Machine
end

section
/-!
PROOF. How edge recoveries end, and the reference clock and the oscillator (O11).
-/

namespace Sys2Proof.Machine

/-! ## A domain in service again (Table 1.6, steps 5 and 6) -/

@[simp] theorem State.answerRetry_edge (s : State) (d : Nat) (st : Status) : (s.answerRetry d st).edge = s.edge := by
  unfold State.answerRetry
  split
  · rw [State.respond_edge]
  · rfl

/-- A domain that is back is online, not fenced, on its PLL, and its window is closed. -/
theorem State.domainBack_edge (s : State) (d : Nat) : (s.domainBack d).edge = { s.edge with
    online := s.edge.online ||| (1#40 <<< d), fenced := s.edge.fenced &&& ~~~(1#40 <<< d)
    cihOsc := if d = 31 then false else s.edge.cihOsc, pmOsc := if d = 32 then false else s.edge.pmOsc
    recovery := if s.edge.recovery.any fun r => r.dom == d then none else s.edge.recovery
    shadow := s.edge.shadow.filter fun w => w.1 != d } := by
  unfold State.domainBack
  simp only [State.answerRetry_edge, State.setOsc_eq, State.restoreShadow]
  split
  · rw [State.flushHealth_edge]; rfl
  · rfl

theorem State.edgeOn_domainBack (s : State) {d : Nat} (h : d < 40) (i : Nat) :
    (s.domainBack d).edgeOn i = (s.edgeOn i || i == d) := by
  rw [State.edgeOn, s.domainBack_edge]; exact getLsbD_or_bit _ d i h

theorem State.edgeFenced_domainBack (s : State) (d i : Nat) :
    (s.domainBack d).edgeFenced i = (s.edgeFenced i && i != d) := by
  rw [State.edgeFenced, s.domainBack_edge]; exact getLsbD_and_not_bit _ d i

theorem State.onOsc_domainBack (s : State) (d : Nat) : (s.domainBack d).onOsc d = false := by
  rw [State.onOsc, s.domainBack_edge]
  by_cases h31 : d = 31
  · subst h31; simp
  · by_cases h32 : d = 32 <;> simp [h31, h32]

/-- R19, R20: the PLL locks again within the limit, and no handover makes step 5 wait. -/
theorem exec_edgePllRelock {s : State} {d : Nat} {r : Recovery} (hr : s.edge.recovery = some r) (hd : r.dom = d)
    (href : s.edge.refPresent) (h : d ≠ 31 → s.elapsed r.since ≤ 20000 ∧ s.fw.handover = none) :
    exec (.edgePllRelock d) s = .next (s.domainBack d).settle := by
  have hgo : ¬(r.dom ≠ d ∨ (!s.edge.refPresent) = true ∨ (d ≠ 31 ∧ (20000 < s.elapsed r.since ∨ s.fw.handover.isSome))) := by
    rintro (hne | hgone | ⟨h31, hlate | hheld⟩)
    · exact hne hd
    · simp [href] at hgone
    · exact absurd (h h31).1 (by omega)
    · simp [(h h31).2] at hheld
  show execEdgePllRelock d s = _
  simp only [execEdgePllRelock, hr]
  exact if_neg hgo

/-! ## A failed attempt -/

theorem exec_edgeRelockTimeout {s : State} {d : Nat} {r : Recovery} (hr : s.edge.recovery = some r) (hd : r.dom = d)
    (h : d ≠ 31 → 20000 ≤ s.elapsed r.since) : exec (.edgeRelockTimeout d) s = .next (State.settle (
      if 3 ≤ r.failed + 1 then s.recoveryFailed r
      else { s with edge := { s.edge with recovery := some { r with failed := r.failed + 1, since := s.edge.count } } })) := by
  have hgo : ¬(r.dom ≠ d ∨ (d ≠ 31 ∧ s.elapsed r.since < 20000)) := by
    rintro (hne | ⟨h31, hearly⟩)
    · exact hne hd
    · exact absurd (h h31) (by omega)
  show execEdgeRelockTimeout d s = _
  simp only [execEdgeRelockTimeout, hr]
  rw [if_neg hgo]
  split <;> rfl

/-! ## The reference clock goes and returns (R24 to R26) -/

/-- A retry that fails leaves the reference clock's registers. -/
theorem State.retryFailed_refclk (s : State) (d : Nat) : (s.retryFailed d).edge.refLossCount = s.edge.refLossCount ∧
    (s.retryFailed d).edge.count = s.edge.count := by
  unfold State.retryFailed
  simp only [State.answerRetry_edge, State.setOsc_eq]
  split <;> exact ⟨rfl, rfl⟩

theorem State.foldl_retryFailed_refclk (l : List Nat) (s : State) :
    (l.foldl State.retryFailed s).edge.refLossCount = s.edge.refLossCount ∧
    (l.foldl State.retryFailed s).edge.count = s.edge.count :=
  ⟨foldl_keeps (fun s => s.edge.refLossCount) _ (fun s d => (s.retryFailed_refclk d).1) l s,
    foldl_keeps (fun s => s.edge.count) _ (fun s d => (s.retryFailed_refclk d).2) l s⟩

/-- The retries that wait or run end as the reference clock goes (R490). -/
def State.endRetries (s : State) : State :=
  let s := match s.edge.recovery with
    | some r => if r.retry then s.retryFailed r.dom else s
    | none => s
  (s.edge.queued.filter s.edgeFenced).foldl State.retryFailed s

theorem State.endRetries_refclk (s : State) : s.endRetries.edge.refLossCount = s.edge.refLossCount ∧
    s.endRetries.edge.count = s.edge.count := by
  unfold State.endRetries
  dsimp only
  rw [(State.foldl_retryFailed_refclk _ _).1, (State.foldl_retryFailed_refclk _ _).2]
  split
  · split
    · exact s.retryFailed_refclk _
    · exact ⟨rfl, rfl⟩
  · exact ⟨rfl, rfl⟩

/-- The state once the recoveries have ended and 31 and 32 run on the oscillator (R24). -/
def State.onOscillator (s : State) : State :=
  let s := { s with edge := { s.edge with
    refPresent := false, refLossCount := s.edge.refLossCount + 1, refLostAt := some s.now, absentReported := false
    recovery := none, queued := [], returning := [] } }
  (((s.setOnline 31 true).setOsc 31 true).setOnline 32 true).setOsc 32 true

/-- A domain that is online goes offline. -/
def State.dropDomain (s : State) (d : Nat) : State := if s.edgeOn d then s.goOffline d else s

theorem exec_refclkLoss {s : State} (h : s.edge.refPresent) : exec .refclkLoss s =
    .next ((refDomains.foldl State.dropDomain s.endRetries.onOscillator).ibi 1).settle :=
  if_neg (by simp [h])

theorem State.edgeOn_dropDomain (s : State) (d i : Nat) : (s.dropDomain d).edgeOn i = (s.edgeOn i && i != d) := by
  unfold State.dropDomain
  split
  · exact s.edgeOn_goOffline d i
  · next h =>
    by_cases hid : i = d
    · subst hid; simpa using h
    · simp [hid]

theorem State.edgeOn_foldl_dropDomain (l : List Nat) (s : State) (i : Nat) :
    (l.foldl State.dropDomain s).edgeOn i = (s.edgeOn i && !l.contains i) := by
  induction l generalizing s with
  | nil => simp
  | cons d rest ih =>
    rw [List.foldl_cons, ih, State.edgeOn_dropDomain, List.contains_cons, Bool.not_or, Bool.and_assoc]
    rfl

/-- Domains that go offline leave the recoveries and the reference clock's registers. -/
theorem State.dropDomain_keeps {β : Type} (p : Edge → β) (hp : ∀ e a b c, p { e with online := a, lost := b, lossCount := c } = p e)
    (s : State) (d : Nat) : p (s.dropDomain d).edge = p s.edge := by
  unfold State.dropDomain
  split
  · rw [s.goOffline_edge]; exact hp _ _ _ _
  · rfl

theorem State.foldl_dropDomain_keeps {β : Type} (p : Edge → β)
    (hp : ∀ e a b c, p { e with online := a, lost := b, lossCount := c } = p e) (l : List Nat) (s : State) :
    p (l.foldl State.dropDomain s).edge = p s.edge :=
  foldl_keeps (fun s => p s.edge) _ (fun s d => s.dropDomain_keeps p hp d) l s

theorem State.onOscillator_edge (s : State) : s.onOscillator.edge = { s.edge with
    online := s.edge.online ||| (1#40 <<< 31) ||| (1#40 <<< 32), cihOsc := true, pmOsc := true
    refPresent := false, refLossCount := s.edge.refLossCount + 1, refLostAt := some s.edge.count, absentReported := false
    recovery := none, queued := [], returning := [] } := rfl

theorem State.edgeOn_onOscillator (s : State) (i : Nat) :
    s.onOscillator.edgeOn i = (s.edgeOn i || i == 31 || i == 32) := by
  rw [State.edgeOn, s.onOscillator_edge]
  show (s.edge.online ||| (1#40 <<< 31) ||| (1#40 <<< 32)).getLsbD i = _
  rw [getLsbD_or_bit _ 32 i (by omega), getLsbD_or_bit _ 31 i (by omega)]
  rfl

theorem State.nextRecovery_of_returning {s : State} {d : Nat} {rest : List Nat} (h : s.edge.returning = d :: rest) :
    s.nextRecovery = State.startRecovery { s with edge := { s.edge with returning := rest } } d := by
  unfold State.nextRecovery
  rw [h]

theorem State.nextRecovery_of_queued {s : State} {d : Nat} {rest : List Nat} (h : s.edge.returning = [])
    (hq : s.edge.queued = d :: rest) :
    s.nextRecovery = State.startRecovery { s with edge := { s.edge with queued := rest } } d := by
  unfold State.nextRecovery
  rw [h, hq]

/-- The domains that a returned reference clock recovers, in index order (R26). -/
def State.toRecover (s : State) : List Nat :=
  (List.range 40).filter fun d => !s.edgeFenced d && (!s.edgeOn d || d == 31 || d == 32)

theorem State.edgeFenced_of_toRecover {s : State} {d : Nat} (h : d ∈ s.toRecover) : s.edgeFenced d = false := by
  simp only [State.toRecover, List.mem_filter, Bool.and_eq_true, Bool.not_eq_true'] at h
  exact h.2.1

theorem exec_refclkReturn {s : State} (h : s.edge.refPresent = false) (hcold : s.fw.coldWait = none ∨ s.hub.dev ≠ .boot) :
    exec .refclkReturn s = .next (State.nextRecovery { s with edge := { s.edge with
      refPresent := true, refLostAt := none, returning := s.toRecover } }).settle := by
  show execRefclkReturn s = _
  simp only [execRefclkReturn, h, Bool.false_eq_true, if_false]
  split
  · next hwait hboot =>
    rcases hcold with hnone | hdev
    · rw [hnone] at hwait; cases hwait
    · exact absurd hboot hdev
  · rfl

/-! ## The oscillator (R491) -/

theorem exec_oscillatorFailure_recovered {s : State} {d : Nat} (ho : s.onOsc d) (href : s.edge.refPresent) :
    exec (.oscillatorFailure d true) s = .next ((s.setOnline d true).setOsc d false).settle := by
  show execOscillatorFailure d true s = _
  simp [execOscillatorFailure, ho, href, finish]

theorem exec_oscillatorFailure_halts {s : State} {d : Nat} (ho : s.onOsc d) (href : s.edge.refPresent) :
    exec (.oscillatorFailure d false) s = .next (((s.setOnline d false).ibi 2).setDev .halted).settle := by
  show execOscillatorFailure d false s = _
  simp [execOscillatorFailure, ho, href, finish]

theorem State.dom_of_onOsc {s : State} {d : Nat} (h : s.onOsc d) : d = 31 ∨ d = 32 := by
  simp only [State.onOsc, Bool.or_eq_true, Bool.and_eq_true, beq_iff_eq] at h
  exact h.imp And.left And.left

/-! ## EDGE_RETRY (R490) -/

/-- The state in which lea `l`'s mailbox waits for `df`. -/
def State.deferred (s : State) (l : Nat) (df : Deferral) : State :=
  s.modLea l fun x => { x with mbx := { x.mbx with deferral := some df } }

@[simp] theorem State.deferred_edge (s : State) (l : Nat) (df : Deferral) : (s.deferred l df).edge = s.edge := by
  simp [State.deferred]
@[simp] theorem State.deferred_fw (s : State) (l : Nat) (df : Deferral) : (s.deferred l df).fw = s.fw := by
  simp [State.deferred]
@[simp] theorem State.deferred_dies (s : State) (l : Nat) (df : Deferral) : (s.deferred l df).dies = s.dies := by
  simp [State.deferred]
@[simp] theorem State.deferred_edgeOn (s : State) (l d : Nat) (df : Deferral) :
    (s.deferred l df).edgeOn d = s.edgeOn d := by
  simp [State.edgeOn]

/-- A command whose answer comes later leaves its mailbox waiting. -/
theorem finish_issue_defer (d : CmdDef) {s u : State} {l : Nat} {tag : Word} {args : List Word} {df : Deferral}
    (h : s.Serves l) (hfits : Fits (d.words args) args) (hi : d.issuer.allows l args = true)
    (hb : s.hub.dev ≠ .boot ∨ d.code ≤ 3) (hd : d.body (s.taken l d.code tag args) l args = .defer u df)
    (hc : d.code < 2 ^ 16 := by decide) : finish (s.issue d l tag args) = .next (u.deferred l df).settle := by
  rw [issue_eq d s l tag args h hc hfits.2 hfits.1 hi (fun hboot => hb.resolve_left fun hne => hne hboot), hd, finish]
  rfl

theorem State.not_boot_of_live {s : State} (h : s.live) : s.hub.dev ≠ .boot := by
  intro hboot
  simp [State.live, hboot] at h

/-- The mailbox of a command that waits, where its body touched no lea. -/
theorem State.deferred_mbx {s u : State} {l code : Nat} {tag : Word} {args : List Word} (df : Deferral) (hs : s.Serves l)
    (hu : u.leas = (s.taken l code tag args).leas) :
    ((u.deferred l df).settle.lea l).mbx = { (s.lea l).mbx.taken code tag args with deferral := some df } := by
  have hlisted : (u.leas.find l).isSome := by rw [hu, State.taken_listed]; exact hs.listed
  have hlea : u.lea l = (s.taken l code tag args).lea l := by simp only [State.lea, hu]
  rw [State.lea_settle_mbx, State.deferred, State.lea_modLea_self _ _ _ hlisted, hlea,
    State.taken_lea_mbx _ _ _ _ _ hs.listed]

theorem State.startRecovery_leas (s : State) (d : Nat) : (s.startRecovery d).leas = s.leas := by
  rw [s.startRecovery_eq d]

/-- Settles O11: each event is the recovery step that it brings, whose edge registers the lemmas above give. -/
theorem edgeRecoveryAndReferenceClock : Obligations.EdgeRecoveryAndReferenceClock := by
  refine ⟨⟨fun s dom r hlt hr hd href hlim => ?relock, fun s dom r hr hd hlim => ⟨fun hfew => ?again,
    fun hmany hlt hretry => ?third⟩, fun s d rest hr href hret hq => ?queued⟩,
    ⟨fun s href => ?loss, fun s d href hcold hhead => ?return', fun s c hlost hlong hrep href => ?absent,
      fun s dom ho href => ?recovered, fun s dom ho href => ?halts⟩, fun s tag args hs hlive hf hlt hfenced => ⟨?retry, ?once⟩⟩
  case relock =>
    refine ⟨_, exec_edgePllRelock hr hd href hlim, ?_⟩
    simp only [State.settle_edgeOn, State.settle_edgeFenced, State.settle_edge, State.edgeOn_domainBack _ hlt,
      State.edgeFenced_domainBack]
    refine ⟨by simp, by simp, by simp [State.domainBack_edge, hr, hd], ?_, fun d _ hne => by simp [hne]⟩
    rw [State.onOsc, State.settle_edge]
    exact s.onOsc_domainBack dom
  case again => rw [exec_edgeRelockTimeout hr hd hlim, if_neg (by omega)]
  case third =>
    obtain ⟨hset, hcount, hrecovery, -⟩ := s.fenceDomain_edge dom
    rw [exec_edgeRelockTimeout hr hd hlim, if_pos (by omega)]
    refine ⟨_, rfl, ?_⟩
    simp only [State.recoveryFailed, hretry, hd, State.settle_edgeFenced, State.settle_edge, Bool.false_eq_true, if_false]
    refine ⟨?_, hcount, by rw [hrecovery, hr]; simp [hd]⟩
    rw [State.edgeFenced, hset, getLsbD_or_bit _ _ _ hlt]; simp
  case queued =>
    have hexec : exec .queuedEdgeRecovery s = .next s.nextRecovery.settle := if_neg (by simp [hr, href])
    rw [hexec, State.nextRecovery_of_queued hret hq]
    exact ⟨_, rfl, by simp, by simp [State.edgeFenced]⟩
  case loss =>
    rw [exec_refclkLoss href]
    refine ⟨_, rfl, ?_⟩
    have hon : ∀ i, (refDomains.foldl State.dropDomain s.endRetries.onOscillator).edgeOn i =
        ((s.endRetries.edgeOn i || i == 31 || i == 32) && !refDomains.contains i) := fun i => by
      rw [State.edgeOn_foldl_dropDomain, State.edgeOn_onOscillator]
    have hkeep : ∀ {β : Type} (p : Edge → β), (∀ e a b c, p { e with online := a, lost := b, lossCount := c } = p e) →
        p (refDomains.foldl State.dropDomain s.endRetries.onOscillator).edge = p s.endRetries.onOscillator.edge :=
      fun p hp => State.foldl_dropDomain_keeps p hp _ _
    obtain ⟨hcount, hnow⟩ := s.endRetries_refclk
    simp only [State.settle_edge, State.settle_edgeOn, State.ibi_edge]
    refine ⟨hkeep Edge.refPresent fun _ _ _ _ => rfl, ?_, ?_, hkeep Edge.cihOsc fun _ _ _ _ => rfl,
      hkeep Edge.pmOsc fun _ _ _ _ => rfl, ?_, ?_, fun d hd => ?_, hkeep Edge.recovery fun _ _ _ _ => rfl,
      hkeep Edge.queued fun _ _ _ _ => rfl⟩
    · rw [hkeep Edge.refLossCount fun _ _ _ _ => rfl, State.onOscillator_edge, hcount]
    · rw [hkeep Edge.refLostAt fun _ _ _ _ => rfl, State.onOscillator_edge, hnow]
    · exact (hon 31).trans (by simp [refDomains])
    · exact (hon 32).trans (by simp [refDomains])
    · exact (hon d).trans (by simp [hd])
  case return' =>
    have hcons : s.toRecover = d :: s.toRecover.tail := by
      obtain ⟨rest, hrest⟩ := List.head?_eq_some_iff.mp hhead
      rw [show s.toRecover = d :: rest from hrest, List.tail_cons]
    have hnot : s.edgeFenced d = false := State.edgeFenced_of_toRecover (by rw [hcons]; exact List.mem_cons_self)
    rw [exec_refclkReturn href hcold, State.nextRecovery_of_returning hcons]
    refine ⟨_, rfl, by simp, ?_, by simp [State.toRecover]⟩
    rw [State.settle_edge, State.startRecovery_recovery]
    simp only [State.edgeFenced] at hnot ⊢
    rw [hnot]
  case absent =>
    show execRefclkAbsentTimeout s = _
    simp only [execRefclkAbsentTimeout, hlost]
    exact if_pos ⟨hlong, by simp [hrep], by simp [href]⟩
  case recovered =>
    refine ⟨_, exec_oscillatorFailure_recovered ho href, ?_⟩
    have hlt : dom < 40 := by rcases State.dom_of_onOsc ho with h | h <;> omega
    refine ⟨?_, ?_, ?_, ?_⟩
    · rw [State.settle_edgeOn, State.edgeOn_setOsc, State.edgeOn_setOnline_true _ hlt]; simp
    · rw [State.onOsc, State.settle_edge, State.setOsc_eq]
      rcases State.dom_of_onOsc ho with rfl | rfl <;> simp
    · rw [State.settle_hub_ops, State.setOsc_eq]; rfl
    · rw [State.settle_mem, State.setOsc_eq]; rfl
  case halts =>
    refine ⟨_, exec_oscillatorFailure_halts ho href, ?_, State.settle_dev_of_halted (State.setDev_dev _ _), ?_⟩
    · rw [State.settle_edgeOn, State.edgeOn, State.setDev_edge, State.ibi_edge]
      exact (s.edgeOn_setOnline_false dom dom).trans (by simp)
    · rw [State.settle_out, State.setDev_out]; rfl
  case retry =>
    intro h34 h35 hr hret
    have hbody : cmdEdgeRetry.body (s.taken 0 0x0040 tag args) 0 args =
        .defer ((s.taken 0 0x0040 tag args).startRecovery (argN args 0)) (.edgeRetry (argN args 0)) := by
      simp [cmdEdgeRetry, cmd, hlt, hlive, hfenced, h34, h35, hr, hret]
    have hmbx := State.deferred_mbx (.edgeRetry (argN args 0)) hs
      ((s.taken 0 0x0040 tag args).startRecovery_leas (argN args 0))
    refine ⟨_, finish_issue_defer cmdEdgeRetry hs hf rfl (.inl (State.not_boot_of_live hlive)) hbody, ?_⟩
    simp only [State.settle_edge, State.settle_edgeOn, State.deferred_edge, State.deferred_edgeOn, hmbx]
    simp [hfenced, State.edgeOn_startRecovery]
    rfl
  case once =>
    intro h
    have hbody : cmdEdgeRetry.body (s.taken 0 0x0040 tag args) 0 args =
        .ok ((s.taken 0 0x0040 tag args).domainBack (argN args 0)) := by
      simp [cmdEdgeRetry, cmd, hlt, hlive, hfenced, h]
    exact ⟨_, finish_issue_ok cmdEdgeRetry hs hf rfl (.inl (State.not_boot_of_live hlive)) hbody,
      by simp [State.edgeOn_domainBack _ hlt], by simp [State.edgeFenced_domainBack], by simp [State.domainBack_edge]⟩

end Sys2Proof.Machine
end

section
/-!
PROOF. Where the machine stops (O12): every meaning but that of OSCILLATOR_FAILURE ends in `finish` on each of its paths.
-/

namespace Sys2Proof.Machine

/-- An outcome that is a next state. -/
def Answers (o : Host.Outcome State Fault Refusal) : Prop := ∃ t, o = .next t

theorem finish_answers (s : State) : Answers (finish s) := ⟨_, rfl⟩

theorem ite_answers {c : Prop} [Decidable c] {a b : Host.Outcome State Fault Refusal} (ha : Answers a) (hb : Answers b) :
    Answers (if c then a else b) := by
  split
  · exact ha
  · exact hb

theorem execFillReq_answers (s : State) : Answers (execFillReq s) := by
  unfold execFillReq
  cases s.front .fillReq with
  | none => exact finish_answers _
  | some p =>
    obtain ⟨d, t⟩ := p
    cases h : t.deliveryBaler d with
    | none => simp only [h]; exact finish_answers _
    | some p =>
      simp only [h]
      refine ite_answers (finish_answers _) (ite_answers (finish_answers _) (ite_answers (finish_answers _) ?_))
      generalize t.spansAccess _ = a
      cases a <;> exact finish_answers _

theorem execFillData_answers (s : State) : Answers (execFillData s) := by
  unfold execFillData
  cases s.front .fillData with
  | none => exact finish_answers _
  | some p =>
    obtain ⟨d, t⟩ := p
    cases h : t.deliveryBaler d with
    | none => simp only [h]; exact finish_answers _
    | some p =>
      simp only [h]
      generalize p.2.fillOf _ = x
      generalize List.find? _ _ = y
      cases x with
      | none => exact finish_answers _
      | some n => cases y with
        | none => exact finish_answers _
        | some e => exact ite_answers (finish_answers _) (finish_answers _)

set_option linter.unusedSimpArgs false in
/-- Every path of every other meaning ends in `finish`: most meanings are one such path, and the rest, which look at
something first, are taken apart along their tests. -/
theorem exec_answers (c : Instr) (s : State) (h : ∀ dom r, c ≠ .oscillatorFailure dom r) : Answers (exec c s) := by
  cases c
  case oscillatorFailure dom r => exact absurd rfl (h dom r)
  case fillReq => exact execFillReq_answers s
  case fillData => exact execFillData_answers s
  all_goals try exact finish_answers _
  all_goals
    clear h
    simp only [exec, execAckDelayExpiry, execArpRequest, execAttestDeferredSign, execBundleRepairDone, execCacheError,
      execChannelRepair, execChunkDeadline, execClip, execClusterPrivWrite, execColdTrialAliveTimeout,
      execCombine, execCompletionRingRoom, execConnectorDetach, execContrib, execCopyLocal, execCopyPeer,
      execCopyPost, execCorrectedReadError, execCringHeadDoorbell, execDieRejoin, execDigest,
      execDigestLimitExpiry, execDigestMsg, execDispatch, execEdgeClockLoss, execEdgePllRelock,
      execEdgeRelockTimeout, execElementwiseOp, execEscalateReq, execFill, execFillAbort, execFillDone,
      execFlrLea, execFwAliveTimeout, execGetData, execGroupStallTimeout, execHandoverAlive, execHbInterval,
      execHbmUncorrectableRead, execHdrBackoffExpiry, execHdrCollision, execHdrTransmit, execHistory,
      execHistorySync, execI3cDynamicAddress, execI3cPrivateRead, execLaneErrorInterval, execLeaResetOpsStopped,
      execLossCheck, execLossRecord, execMailboxServe, execMark, execMatrixOp, execMbxDoorbell, execMediumStuck,
      execMgtRingWrite, execMisalignedRegAccess, execNeighborSolicitation, execNextMatrixOpPick, execNormRead,
      execOpCompletion, execOpStart, execPatrolScrub, execPauseFrame, execPcieLinkUp, execPhase,
      execPhaseComplete, execPortBringupDone, execPortHoldExpiry, execPortLinkFault, execPowerWindowEnd,
      execPrefetch, execQueueDoorbell, execQueuedEdgeRecovery, execQueuedWelxisReset, execRateWindowEnd,
      execRecomputeFinish, execRefclkAbsentTimeout, execRefclkLoss, execRefclkReturn, execRefillDeadline,
      execRefillReqResend, execRefillReqServe, execRefillTableFree, execRefused, execRestore, execResult,
      execResultLimitExpiry, execReturnRecords, execReturnRows, execRetxTimeout, execRoleResendTimer,
      execRoleResolveTimeout, execRowDispatch, execRowEnd, execScaleFold, execSealImage, execSealed,
      execShardCheck, execShardStamp, execSlotFetch, execSnapshot, execSnapshotCapture, execStileCrcMismatch,
      execStileInvalidCode, execTgRunEnd, execThermalSample, execTokenBucketRefill, execTokens,
      execVfEnableClear, execVfEnableSet, execWeightsSweep, execWelxisInternalFault, execWelxisSelfTestEnd,
      execWindrowOp, execWindrowSend]
    repeat' first | exact finish_answers _ | refine ite_answers ?_ ?_ | split

/-- Settles O12: a failure of the oscillator that both domains run on stops the machine (R491), and no other meaning has a
path that stops. -/
theorem oscillatorFailureStops : Obligations.OscillatorFailureStops := by
  refine ⟨fun s dom r ho href => ?stops, fun c s => ?nowhere⟩
  case stops =>
    show execOscillatorFailure dom r s = _
    simp [execOscillatorFailure, ho, href]
  case nowhere =>
    by_cases h : ∃ dom r, c = .oscillatorFailure dom r
    · obtain ⟨dom, r, rfl⟩ := h
      by_cases hstop : s.onOsc dom = true ∧ s.edge.refPresent = false
      · exact .inr ⟨dom, r, rfl, hstop⟩
      · refine .inl ?_
        show Answers (execOscillatorFailure dom r s)
        unfold execOscillatorFailure
        by_cases ho : s.onOsc dom
        · have href : s.edge.refPresent = true := by simpa [ho] using hstop
          rw [if_neg (by simp [ho]), if_neg (by simp [href])]
          exact ite_answers (finish_answers _) (finish_answers _)
        · rw [if_pos (by simp [ho])]
          exact finish_answers _
    · exact .inl (exec_answers c s fun dom r hc => h ⟨dom, r, hc⟩)

end Sys2Proof.Machine
end

section
/-!
PROOF. Firmware and attestation (O9): the checks of each command are its hypotheses; what ATTEST signs with is read off the
leaf counter, which neither the record nor the report's write moves.
-/

namespace Sys2Proof.Machine

/-! ## What a command needs -/

/-- A command that needs an edge domain goes on while that is online. -/
@[simp] theorem needDomain_on {s : State} {d : Nat} (h : s.edgeOn d) (k : Reply) : needDomain s d k = k := if_pos h

@[simp] theorem needAccess_good (s : State) (k : Reply) : needAccess .good s k = k := rfl

theorem Firmware.trial_of_writable {f : Firmware} {b : Nat} (h : f.writable = some b) : f.trial = false := by
  cases ht : f.trial with
  | false => rfl
  | true => simp [Firmware.writable, ht] at h

@[simp] theorem State.taken_spansAccess (s : State) (l c : Nat) (t : Word) (a : List Word) (x : List Span) :
    (s.taken l c t a).spansAccess x = s.spansAccess x := by
  have h : (s.taken l c t a).sectorAccess = s.sectorAccess := funext fun k => s.taken_sectorAccess l c t a k
  simp only [State.spansAccess, State.access, State.writeAccess, h]

@[simp] theorem State.taken_writeAccess (s : State) (l c : Nat) (t : Word) (a : List Word) (b n : Nat) :
    (s.taken l c t a).writeAccess b n = s.writeAccess b n := by
  have h : (s.taken l c t a).sectorAccess = s.sectorAccess := funext fun k => s.taken_sectorAccess l c t a k
  rw [State.writeAccess, h, State.writeAccess]

/-! ## Signing (R451, R452) -/

theorem State.maySign_iff (s : State) : s.maySign = true ↔ ∀ t, s.fw.lastSign = some t → 2 ^ 25 ≤ s.elapsed t := by
  unfold State.maySign
  cases s.fw.lastSign with
  | none => simp
  | some t => simp

theorem State.maySign_false {s : State} {t : BitVec 64} (ht : s.fw.lastSign = some t) (h : s.elapsed t < 2 ^ 25) :
    s.maySign = false := by
  rw [Bool.eq_false_iff, ne_eq, State.maySign_iff]
  exact fun hall => absurd (hall t ht) (by omega)

theorem Firmware.attestRefused_none {f : Firmware} (hk : f.fuses.keygen < 4) (hn : f.nextLeaf < 2 ^ 30) :
    f.attestRefused = none := by
  rw [Firmware.attestRefused, if_neg (by omega), if_neg (by omega)]

@[simp] theorem Firmware.writeRecord_nextLeaf (f : Firmware) (g : Record → Record) :
    (f.writeRecord g).nextLeaf = f.nextLeaf := by
  unfold Firmware.writeRecord
  dsimp only
  split <;> rfl

@[simp] theorem State.writeRecord_nextLeaf (s : State) (g : Record → Record) :
    (s.writeRecord g).fw.nextLeaf = s.fw.nextLeaf := by
  unfold State.writeRecord
  split
  · rfl
  · exact s.fw.writeRecord_nextLeaf g

@[simp] theorem State.taken_maySign (s : State) (l c : Nat) (t : Word) (a : List Word) :
    (s.taken l c t a).maySign = s.maySign := by
  rw [Bool.eq_iff_iff, State.maySign_iff, State.maySign_iff]
  simp [State.elapsed]

/-- ATTEST signs with the next leaf, at the present count. -/
theorem State.sign_fw (s : State) (a : List Word) :
    (s.sign a).fw.nextLeaf = s.fw.nextLeaf + 1 ∧ (s.sign a).fw.lastSign = some s.edge.count := by
  unfold State.sign
  dsimp only
  split
  · simp [State.now]
  · exact ⟨rfl, rfl⟩

theorem exec_attestDeferredSign {s : State} {args : List Word} (hd : (s.lea 0).mbx.deferral = some .attest)
    (ha : s.fw.attestArgs = some args) (hsign : s.maySign) (hc : s.cihalServes) (h33 : s.edgeOn 33) :
    exec .attestDeferredSign s =
      answered { s.sign args with fw := { (s.sign args).fw with attestArgs := none } } 0 .ok [] := by
  show execAttestDeferredSign s = _
  simp [execAttestDeferredSign, hd, ha, hsign, hc, h33, finish]

/-! ## The handover (R457, R459) -/

theorem exec_handoverAlive {s : State} {h : Handover} (hh : s.fw.handover = some h) (h31 : s.edgeOn 31) :
    exec .handoverAlive s = if h.reverting then
      answered (State.flushHealth { s with fw := { s.fw.run h.bank with
        reverted := true, revertCount := s.fw.revertCount + 1 } }) 0 .unitFault []
    else answered (State.flushHealth { s with fw := { s.fw.run h.bank with
        activated := true, activateCount := s.fw.activateCount + 1 } }) 0 .ok [] := by
  show execHandoverAlive s = _
  simp only [execHandoverAlive, hh, h31, Bool.not_true, Bool.false_eq_true, if_false]
  rfl

theorem exec_fwAliveTimeout {s : State} {h : Handover} (hh : s.fw.handover = some h) (hr : h.reverting = false)
    (hlong : s.fw.fwAlive ≤ s.elapsed h.since) : exec .fwAliveTimeout s = .next (State.settle { s with fw := { s.fw with
      handover := some { bank := s.fw.winner.getD s.fw.running, since := s.edge.count, reverting := true } } }) := by
  show execFwAliveTimeout s = _
  simp only [execFwAliveTimeout, hh]
  exact if_pos (by simp [hr, hlong])

/-- Settles O9: each command's body passes its checks and does what is stated; signing is `State.sign_fw`. -/
theorem firmwareAndAttestation : Obligations.FirmwareAndAttestation := by
  refine ⟨fun s l tag args hs hdev => ⟨?fwWrite, ?fwVerify, ?fwActivate, ?fwCommitCold', ?fwCommit, ?fwSvnCommit, ?fwInfo,
      ?fwCommitCold, ?storeRead⟩,
    fun s tag args hs hlive hf haddr husable hgrant hknown hkeygen hleaf => ⟨?attest, ?attestWaits⟩,
    fun s args hd ha hsign hc h33 => ?deferred, fun s h hh h31 hr => ?alive, fun s h hh h31 hr => ?aliveReverting,
    fun s h hh hr hlong => exec_fwAliveTimeout hh hr hlong⟩
  case fwWrite =>
    rintro b rfl hf hoff hlen hpos hend haddr husable hgrant hw hstage h33 hgood
    exact finish_issue_ok cmdFwWrite hs hf rfl (.inl hdev) (by
      simp [cmdFwWrite, cmd, hoff, hlen, hpos, hend, haddr, husable, hgrant, hw, State.armed, hstage, h33, hgood])
  case fwVerify =>
    rintro b rfl hf hw hstage h33
    refine ⟨fun hvalid => ?_, fun hbad => ?_⟩
    · obtain ⟨ha, hal⟩ := Bool.and_eq_true_iff.mp hvalid
      exact finish_issue_ok cmdFwVerify hs hf rfl (.inl hdev) (by
        simp [cmdFwVerify, cmd, hw, State.armed, hstage, h33, ha, hal])
    · by_cases ha : s.fw.bankAuthentic b
      · have hal : s.fw.bankAllowed b = false := by simpa [Firmware.bankValid, ha] using hbad
        rw [if_pos ha]
        exact finish_issue_done cmdFwVerify hs hf rfl (.inl hdev) (by
          simp [cmdFwVerify, cmd, hw, State.armed, hstage, h33, ha, hal])
      · rw [if_neg ha]
        exact finish_issue_done cmdFwVerify hs hf rfl (.inl hdev) (by
          simp [cmdFwVerify, cmd, hw, State.armed, hstage, h33, ha])
  case fwActivate =>
    rintro b rfl hf hv htrial hw hrun h33
    have hbody : cmdFwActivate.body (s.taken 0 0x0903 tag args) 0 args = .defer { s.taken 0 0x0903 tag args with
        fw := { s.fw with handover := some { bank := b, since := s.edge.count } } } .fwActivate := by
      simp [cmdFwActivate, cmd, hv, htrial, hw, hrun, h33, State.now]
    have hmbx := State.deferred_mbx (u := { s.taken 0 0x0903 tag args with
      fw := { s.fw with handover := some { bank := b, since := s.edge.count } } }) .fwActivate hs rfl
    refine ⟨_, finish_issue_defer cmdFwActivate hs hf rfl (.inl hdev) hbody, by simp, ?_⟩
    rw [hmbx]
    exact ⟨rfl, rfl, rfl⟩
  case fwCommitCold' =>
    rintro rfl hf h33 hcold
    exact finish_issue_ok cmdFwCommit hs hf rfl (.inl hdev) (by simp [cmdFwCommit, cmd, Firmware.trial, hcold, h33])
  case fwCommit =>
    rintro w rfl hf h33 hcold htrial hw
    exact finish_issue_ok cmdFwCommit hs hf rfl (.inl hdev) (by simp [cmdFwCommit, cmd, htrial, hcold, h33, hw])
  case fwSvnCommit =>
    rintro rfl hf h38 htrial
    exact finish_issue_ok cmdFwSvnCommit hs hf rfl (.inl hdev) (by simp [cmdFwSvnCommit, cmd, htrial, h38])
  case fwInfo => exact fun hf => finish_issue_done cmdFwInfo hs hf rfl (.inl hdev) (by simp [cmdFwInfo, cmd])
  case fwCommitCold =>
    rintro b w rfl hf h33 hw hwin hv hrun
    exact finish_issue_ok cmdFwCommitCold hs hf rfl (.inl hdev) (by
      simp [cmdFwCommitCold, cmd, hw, hwin, Firmware.trial_of_writable hw, hv, hrun, h33])
  case storeRead =>
    rintro rfl hf hlive haddr husable hgrant h33 hgood
    exact finish_issue_ok cmdStoreRead hs hf rfl (.inl hdev) (by
      simp [cmdStoreRead, cmd, hlive, haddr, husable, hgrant, h33, hgood])
  case attest =>
    intro hsign h33 hgood
    obtain ⟨hnext, hlast⟩ := (s.taken 0 0x0910 tag args).sign_fw args
    refine ⟨_, finish_issue_ok cmdAttest hs hf rfl (.inl (State.not_boot_of_live hlive)) (u := _) ?_, hnext.trans ?_,
      hlast.trans ?_⟩
    · simp [cmdAttest, cmd, haddr, husable, hgrant, hlive, hknown, Firmware.attestRefused_none hkeygen hleaf,
        (s.maySign_iff).mpr hsign, h33, hgood]
    · rw [State.taken_fw]
    · rw [State.taken_edge]
  case attestWaits =>
    intro t ht hearly
    have hbody : cmdAttest.body (s.taken 0 0x0910 tag args) 0 args = .defer { s.taken 0 0x0910 tag args with
        fw := { s.fw with attestArgs := some args } } .attest := by
      simp [cmdAttest, cmd, haddr, husable, hgrant, hlive, hknown, Firmware.attestRefused_none hkeygen hleaf,
        State.maySign_false ht hearly]
    have hmbx := State.deferred_mbx (u := { s.taken 0 0x0910 tag args with
      fw := { s.fw with attestArgs := some args } }) .attest hs rfl
    exact ⟨_, finish_issue_defer cmdAttest hs hf rfl (.inl (State.not_boot_of_live hlive)) hbody, by simp, by rw [hmbx]⟩
  case deferred =>
    obtain ⟨hnext, hlast⟩ := s.sign_fw args
    exact ⟨_, exec_attestDeferredSign hd ha ((s.maySign_iff).mpr hsign) hc h33, hnext, hlast, rfl⟩
  case alive => rw [exec_handoverAlive hh h31, if_neg (by simp [hr])]
  case aliveReverting => rw [exec_handoverAlive hh h31, if_pos hr]

end Sys2Proof.Machine
end

section
/-!
PROOF. What sending leaves unchanged: a packet that goes out changes its job's channels, keys and the rates of its peers,
and the ports, and nothing else of the machine. Later proofs use these rules in place of the definitions of sending.
-/

namespace Sys2Proof.Machine

/-- A peer without its rate, which the first packet to it sets. -/
def Peer.unrated (p : Peer) : Peer := { p with rate := none, rateAt := 0 }

/-- The Baler state without the rates of the store targets. -/
def Baler.unrated (b : Baler) : Baler := { b with near := b.near.map Peer.unrated, far := b.far.map Peer.unrated }

/-- What sending leaves unchanged of a job: all but its channels, its keys' counts and the rates of its peers. -/
def Job.unsent (j : Job) : Job × (Nat → Option Peer) :=
  ({ j with tx := [], keys := [], peers := [], baler := j.baler.map Baler.unrated }, fun r => (j.peers.find r).map Peer.unrated)

/-- What sending leaves unchanged of the machine. -/
def State.unsent (s : State) : State × (Nat → Option (Job × (Nat → Option Peer))) :=
  ({ s with jobs := [], fab := { s.fab with ports := [], out := [], keyAging := false, agingCount := 0 } },
    fun k => (s.jobs.find k).map Job.unsent)

section
variable {s u : State}

theorem State.unsent_hub (h : u.unsent = s.unsent) : u.hub = s.hub := congrArg (·.1.hub) h
theorem State.unsent_mem (h : u.unsent = s.unsent) : u.mem = s.mem := congrArg (·.1.mem) h
theorem State.unsent_leas (h : u.unsent = s.unsent) : u.leas = s.leas := congrArg (·.1.leas) h
theorem State.unsent_wdr (h : u.unsent = s.unsent) : u.wdr = s.wdr := congrArg (·.1.wdr) h
theorem State.unsent_units (h : u.unsent = s.unsent) : u.units = s.units := congrArg (·.1.units) h
theorem State.unsent_edge (h : u.unsent = s.unsent) : u.edge = s.edge := congrArg (·.1.edge) h
theorem State.unsent_delivered (h : u.unsent = s.unsent) : u.delivered = s.delivered := congrArg (·.1.delivered) h
theorem State.unsent_train (h : u.unsent = s.unsent) : u.train = s.train := congrArg (·.1.train) h

theorem State.unsent_op (h : u.unsent = s.unsent) (n : Nat) : u.op n = s.op n := by simp only [State.op, State.unsent_hub h]

theorem State.unsent_find (h : u.unsent = s.unsent) (k : Nat) :
    (u.jobs.find k).map Job.unsent = (s.jobs.find k).map Job.unsent := congrFun (congrArg (·.2) h) k

theorem State.unsent_job (h : u.unsent = s.unsent) {k : Nat} {j : Job} (hj : s.jobs.find k = some j) :
    ∃ j', u.jobs.find k = some j' ∧ j'.unsent = j.unsent := by
  have := State.unsent_find h k
  rwa [hj, Option.map_some, Option.map_eq_some_iff] at this

end

section
variable {j j' : Job}

theorem Job.unsent_hold (h : j'.unsent = j.unsent) : j'.hold = j.hold := congrArg (·.1.hold) h
theorem Job.unsent_lea (h : j'.unsent = j.unsent) : j'.lea = j.lea := congrArg (·.1.lea) h
theorem Job.unsent_jobId (h : j'.unsent = j.unsent) : j'.jobId = j.jobId := congrArg (·.1.jobId) h
theorem Job.unsent_rank (h : j'.unsent = j.unsent) : j'.rank = j.rank := congrArg (·.1.rank) h
theorem Job.unsent_tedder (h : j'.unsent = j.unsent) : j'.tedder = j.tedder := congrArg (·.1.tedder) h

theorem Job.unsent_balerMap (h : j'.unsent = j.unsent) : j'.baler.map Baler.unrated = j.baler.map Baler.unrated :=
  congrArg (·.1.baler) h

theorem Job.unsent_baler (h : j'.unsent = j.unsent) {b : Baler} (hb : j.baler = some b) :
    ∃ b', j'.baler = some b' ∧ b'.unrated = b.unrated := by
  have := Job.unsent_balerMap h
  rwa [hb, Option.map_some, Option.map_eq_some_iff] at this

end

section
variable {b b' : Baler}

theorem Baler.unrated_image (h : b'.unrated = b.unrated) : b'.image = b.image := congrArg (·.image) h
theorem Baler.unrated_st (h : b'.unrated = b.unrated) : b'.st = b.st := congrArg (·.st) h
theorem Baler.unrated_ckptSeq (h : b'.unrated = b.unrated) : b'.ckptSeq = b.ckptSeq := congrArg (·.ckptSeq) h

end

/-! ## Each step of a send -/

/-- Changing a job keeps what sending keeps, where the change does. -/
theorem State.unsent_modJob (s : State) (jh : Nat) {f : Job → Job} (hf : ∀ j, (f j).unsent = j.unsent) :
    (s.modJob jh f).unsent = s.unsent := by
  unfold State.modJob
  cases hj : s.jobs.find jh with
  | none => rfl
  | some j =>
    refine Prod.ext rfl (funext fun k => ?_)
    by_cases hk : k = jh
    · simp [State.unsent, hk, hj, hf]
    · simp [State.unsent, Map.find_insert_ne _ _ hk]

theorem State.unsent_modTx (s : State) (jh : Nat) (f : Job → Map TxChan) :
    (s.modJob jh fun j => { j with tx := f j }).unsent = s.unsent := State.unsent_modJob _ jh fun _ => rfl

theorem State.unsent_modPort (s : State) (p : Nat) (f : Port → Port) : (s.modPort p f).unsent = s.unsent := rfl

/-- Changing a peer's rate keeps what sending keeps of its job. -/
theorem Job.unsent_modPeer (j : Job) (rank : Nat) {f : Peer → Peer} (hf : ∀ p, (f p).unrated = p.unrated) :
    (j.modPeer rank f).unsent = j.unsent := by
  have hmap (o : Option Peer) : (o.map f).map Peer.unrated = o.map Peer.unrated := by cases o <;> simp [hf]
  unfold Job.modPeer
  split
  · refine Prod.ext ?_ rfl
    cases hb : j.baler <;> simp [Job.unsent, hb, Baler.unrated, hmap]
  · split
    · refine Prod.ext ?_ rfl
      cases hb : j.baler <;> simp [Job.unsent, hb, Baler.unrated, hmap]
    · cases hp : j.peers.find rank with
      | none => rfl
      | some p =>
        refine Prod.ext rfl (funext fun r => ?_)
        by_cases hr : r = rank
        · simp [Job.unsent, hr, hp, hf]
        · simp [Job.unsent, Map.find_insert_ne _ _ hr]

theorem State.unsent_emit (s : State) (jh port rank srcPort type : Nat) (mk : HykHeader → HykHeader) (plain : List Byte) :
    (s.emit jh port rank srcPort type mk plain).unsent = s.unsent := by
  unfold State.emit
  split
  · rfl
  split
  · dsimp only
    refine (State.unsent_modPort _ port Port.sent).trans ((State.unsent_modJob _ jh fun j => ?_).trans
      (State.unsent_modJob _ jh fun _ => rfl))
    refine j.unsent_modPeer rank fun p => ?_
    split <;> rfl
  · rfl

theorem State.unsent_emitData (s : State) (jh key : Nat) (c : TxChan) (port : Nat) (p : TxPacket) (retx : Bool) :
    (s.emitData jh key c port p retx).unsent = s.unsent := by
  unfold State.emitData
  apply State.unsent_emit

theorem State.unsent_pump (s : State) (jh key n : Nat) : (s.pump jh key n).unsent = s.unsent := by
  induction n generalizing s with
  | zero => rfl
  | succ n ih =>
    rw [State.pump]
    split
    · rfl
    next j _ =>
      split
      · rfl
      next c _ =>
        split
        · rfl
        next p rest _ =>
          split
          · rfl
          · rfl
          next port _ _ =>
            rw [ih, State.unsent_modTx, State.unsent_emitData]

theorem State.unsent_send (s : State) (jh : Nat) (m : Message) : (s.send jh m).unsent = s.unsent :=
  (State.unsent_pump ..).trans (State.unsent_modJob _ jh fun _ => rfl)

theorem State.unsent_sendRole (s : State) (jh kind index : Nat) (m : Message) :
    (s.sendRole jh kind index m).unsent = s.unsent := by
  unfold State.sendRole
  repeat' split
  · rfl
  · rfl
  · exact State.unsent_send ..

theorem State.unsent_emitLoose (s : State) (jh rank channel type : Nat) (mk : HykHeader → HykHeader) (plain : List Byte) :
    (s.emitLoose jh rank channel type mk plain).unsent = s.unsent := by
  unfold State.emitLoose
  repeat' split
  · rfl
  · rfl
  · exact State.unsent_emit ..

theorem State.unsent_sendStore (s : State) (jh : Nat) (far : Bool) (type units : Nat) (jobId : Word) (rank : Nat) (seq : Word)
    (off : Nat) (body : List Byte) (owner : MsgOwner) :
    (s.sendStore jh far type units jobId rank seq off body owner).unsent = s.unsent := by
  unfold State.sendStore
  repeat' split
  · rfl
  · rfl
  · exact State.unsent_send ..

theorem State.unsent_foldl {α : Type} {f : State → α → State} (hf : ∀ s a, (f s a).unsent = s.unsent) (l : List α) (s : State) :
    (l.foldl f s).unsent = s.unsent := by
  induction l generalizing s with
  | nil => rfl
  | cons a rest ih => exact (ih _).trans (hf s a)

theorem State.unsent_putUnit (s : State) (jh : Nat) (j : Job) (far : Bool) (seq : Word) (off : Nat) (data : List Byte) :
    (s.putUnit jh j far seq off data).unsent = s.unsent := State.unsent_sendStore ..

theorem State.unsent_putUnits (s : State) (jh : Nat) (j : Job) (far : Bool) (seq : Word) (off : Nat) (data : List Byte) :
    (s.putUnits jh j far seq off data).unsent = s.unsent :=
  State.unsent_foldl (fun s _ => s.unsent_putUnit ..) _ _

theorem State.unsent_pumpJob (s : State) (jh : Nat) : (s.pumpJob jh).unsent = s.unsent := by
  unfold State.pumpJob
  split
  · rfl
  · exact State.unsent_foldl (fun s e => s.unsent_pump ..) _ _

theorem State.unsent_sendCredit (s : State) (jh i : Nat) (l : CreditLink) (inc : Nat) :
    (s.sendCredit jh i l inc).unsent = s.unsent := State.unsent_sendRole ..

end Sys2Proof.Machine
end

section
/-!
PROOF. Settles O47. The bytes that a step may write are said by `State.WritesOnly`; a capture is a chain of captured units,
each of which keeps the job's hold, the image but for its leaves, and every byte outside the snapshot area.
-/

namespace Sys2Proof.Machine

/-! ## What a write to memory leaves as it is -/

@[simp] theorem State.write_pending (s : State) (base : Nat) (bytes : List Byte) : (s.write base bytes).pending = s.pending :=
  foldl_keeps (·.pending) _ State.poisonEvents_pending _ _

@[simp] theorem State.write_hub (s : State) (base : Nat) (bytes : List Byte) : (s.write base bytes).hub = s.hub :=
  foldl_keeps (·.hub) _ State.poisonEvents_hub _ _

@[simp] theorem State.write_jobs (s : State) (base : Nat) (bytes : List Byte) : (s.write base bytes).jobs = s.jobs :=
  foldl_keeps (·.jobs) _ State.poisonEvents_jobs _ _

@[simp] theorem State.write_edge (s : State) (base : Nat) (bytes : List Byte) : (s.write base bytes).edge = s.edge :=
  foldl_keeps (·.edge) _ State.poisonEvents_edge _ _

@[simp] theorem State.write_pcie (s : State) (base : Nat) (bytes : List Byte) : (s.write base bytes).pcie = s.pcie :=
  foldl_keeps (·.pcie) _ State.poisonEvents_pcie _ _

@[simp] theorem State.write_array (s : State) (base : Nat) (bytes : List Byte) : (s.write base bytes).array = s.array :=
  foldl_keeps (·.array) _ State.poisonEvents_array _ _

@[simp] theorem State.write_scalar (s : State) (base : Nat) (bytes : List Byte) : (s.write base bytes).scalar = s.scalar :=
  foldl_keeps (·.scalar) _ State.poisonEvents_scalar _ _

@[simp] theorem State.write_scale (s : State) (base : Nat) (bytes : List Byte) : (s.write base bytes).scale = s.scale :=
  foldl_keeps (·.scale) _ State.poisonEvents_scale _ _

@[simp] theorem State.write_train (s : State) (base : Nat) (bytes : List Byte) : (s.write base bytes).train = s.train :=
  foldl_keeps (·.train) _ State.poisonEvents_train _ _

@[simp] theorem State.write_dies (s : State) (base : Nat) (bytes : List Byte) : (s.write base bytes).dies = s.dies :=
  foldl_keeps (·.dies) _ State.poisonEvents_dies _ _

@[simp] theorem State.write_fab (s : State) (base : Nat) (bytes : List Byte) : (s.write base bytes).fab = s.fab :=
  foldl_keeps (·.fab) _ State.poisonEvents_fab _ _

@[simp] theorem State.write_wdr (s : State) (base : Nat) (bytes : List Byte) : (s.write base bytes).wdr = s.wdr :=
  foldl_keeps (·.wdr) _ State.poisonEvents_wdr _ _

@[simp] theorem State.write_units (s : State) (base : Nat) (bytes : List Byte) : (s.write base bytes).units = s.units :=
  foldl_keeps (·.units) _ State.poisonEvents_units _ _

@[simp] theorem State.write_hdr (s : State) (base : Nat) (bytes : List Byte) : (s.write base bytes).hdr = s.hdr :=
  foldl_keeps (·.hdr) _ State.poisonEvents_hdr _ _

@[simp] theorem State.write_pwr (s : State) (base : Nat) (bytes : List Byte) : (s.write base bytes).pwr = s.pwr :=
  foldl_keeps (·.pwr) _ State.poisonEvents_pwr _ _

@[simp] theorem State.write_board (s : State) (base : Nat) (bytes : List Byte) : (s.write base bytes).board = s.board :=
  foldl_keeps (·.board) _ State.poisonEvents_board _ _

@[simp] theorem State.write_delivered (s : State) (base : Nat) (bytes : List Byte) : (s.write base bytes).delivered = s.delivered :=
  foldl_keeps (·.delivered) _ State.poisonEvents_delivered _ _

@[simp] theorem State.write_heldRefills (s : State) (base : Nat) (bytes : List Byte) : (s.write base bytes).heldRefills = s.heldRefills :=
  foldl_keeps (·.heldRefills) _ State.poisonEvents_heldRefills _ _

/-! ## Bytes that stay -/

/-- From `s` to `u` memory changes at most at the addresses that `p` names, and keeps its canonical form. -/
def State.WritesOnly (s : State) (p : Nat → Prop) (u : State) : Prop :=
  Cells.wf s.mem.hbm → Cells.wf u.mem.hbm ∧ ∀ a, ¬ p a → readByte u.mem.hbm a = readByte s.mem.hbm a

section
variable {s u v : State} {p : Nat → Prop}

theorem State.WritesOnly.of_hbm_eq (h : u.mem.hbm = s.mem.hbm) : s.WritesOnly p u := fun hwf => by simpa [h] using hwf

theorem State.WritesOnly.trans (h : s.WritesOnly p u) (k : u.WritesOnly p v) : s.WritesOnly p v := fun hwf =>
  have ⟨huwf, hu⟩ := h hwf
  have ⟨hvwf, hv⟩ := k huwf
  ⟨hvwf, fun a ha => (hv a ha).trans (hu a ha)⟩

theorem State.writesOnly_write (s : State) {base : Nat} {bytes : List Byte}
    (h : ∀ a, base ≤ a → a < base + bytes.length → p a) : s.WritesOnly p (s.write base bytes) := fun hwf => by
  rw [State.write_hbm]
  refine ⟨storeBytes_wf _ _ _ hwf, fun a ha => ?_⟩
  rw [readByte_storeBytes _ _ _ _ hwf, if_neg fun hin => ha (h a hin.1.1 hin.1.2)]

end

/-! ## The open image -/

theorem State.openImage_iff {s : State} {jh : Nat} {j : Job} {b : Baler} {m : Image} :
    s.openImage jh = some (j, b, m) ↔ s.jobs.find jh = some j ∧ j.baler = some b ∧ b.image = some m := by
  unfold State.openImage
  split
  next h => simp [h]
  next j' h =>
    split
    next hb => simp [h]; rintro rfl; simp [hb]
    next b' hb =>
      simp only [h, Option.map_eq_some_iff, Prod.mk.injEq, Option.some.injEq]
      constructor
      · rintro ⟨m', hm, rfl, rfl, rfl⟩
        exact ⟨rfl, hb, hm⟩
      · rintro ⟨rfl, hb', hm⟩
        obtain rfl := Option.some.inj (hb.symm.trans hb')
        exact ⟨m, hm, rfl, rfl, rfl⟩

/-- A job's Baler state changed is the state with the change. -/
theorem State.find_modBaler {s : State} {jh : Nat} {j : Job} {b : Baler} (hj : s.jobs.find jh = some j) (hb : j.baler = some b)
    (f : Baler → Baler) : (s.modBaler jh f).jobs.find jh = some { j with baler := some (f b) } := by
  rw [State.modBaler, State.find_modJob hj, hb, Option.map_some]

/-- The open image stays open as it is, whatever is sent. -/
theorem State.openImage_of_unsent {s u : State} (h : u.unsent = s.unsent) {jh : Nat} {j : Job} {b : Baler} {m : Image}
    (ho : s.openImage jh = some (j, b, m)) :
    ∃ j' b', u.openImage jh = some (j', b', m) ∧ j'.hold = j.hold ∧ b'.st = b.st ∧ b'.ckptSeq = b.ckptSeq := by
  obtain ⟨hj, hb, hm⟩ := State.openImage_iff.mp ho
  obtain ⟨j', hj', hjj⟩ := State.unsent_job h hj
  obtain ⟨b', hb', hbb⟩ := Job.unsent_baler hjj hb
  exact ⟨j', b', State.openImage_iff.mpr ⟨hj', hb', (Baler.unrated_image hbb).trans hm⟩, Job.unsent_hold hjj,
    Baler.unrated_st hbb, Baler.unrated_ckptSeq hbb⟩

/-- The open image changed is the image with the change, in the same job. -/
theorem State.openImage_modImage {s : State} {jh : Nat} {j : Job} {b : Baler} {m : Image}
    (ho : s.openImage jh = some (j, b, m)) (f : Image → Image) :
    (s.modImage jh f).openImage jh =
      some ({ j with baler := some { b with image := some (f m) } }, { b with image := some (f m) }, f m) := by
  obtain ⟨hj, hb, hm⟩ := State.openImage_iff.mp ho
  refine State.openImage_iff.mpr ⟨?_, rfl, rfl⟩
  rw [State.modImage, State.find_modBaler hj hb, hm, Option.map_some]

/-! ## One captured unit (R365, R370) -/

/-- A section with the leaf of a unit. -/
def Section.took (x : Section) (i : Nat) (data : List Byte) : Section := { x with leaves := x.leaves.insert i (sha256 data) }

/-- The writes of a captured unit: its leaf, and for a WEIGHTS unit its bit of the capture bitmap. -/
def State.leafWritten (s : State) (m : Image) (x : Section) (si i : Nat) (data : List Byte) : State :=
  let u := s.write (x.table + 32 * i) (sha256 data)
  if x.kind = 1 then u.markCaptured m (m.weightIndex si i) else u

@[simp] theorem State.leafWritten_jobs (s : State) (m : Image) (x : Section) (si i : Nat) (data : List Byte) :
    (s.leafWritten m x si i data).jobs = s.jobs := by
  unfold State.leafWritten
  split <;> simp [State.markCaptured]

@[simp] theorem State.leafWritten_hub (s : State) (m : Image) (x : Section) (si i : Nat) (data : List Byte) :
    (s.leafWritten m x si i data).hub = s.hub := by
  unfold State.leafWritten
  split <;> simp [State.markCaptured]

section
variable {s : State} {jh : Nat} {j : Job} {b : Baler} {m : Image} {si : Nat} {x : Section}

/-- A captured unit is its writes and its leaf; the rest is sending. -/
theorem State.captureUnit_unsent (ho : s.openImage jh = some (j, b, m)) (hx : m.sections[si]? = some x) (i : Nat)
    (data : List Byte) : (s.captureUnit jh si i data).unsent =
      ((s.leafWritten m x si i data).modImage jh fun m => { m with sections := m.sections.set si (x.took i data) }).unsent := by
  unfold State.captureUnit
  simp only [ho, hx]
  split
  · rw [State.unsent_putUnits, State.unsent_putUnit]
    rfl
  · rw [State.unsent_putUnit]
    rfl

/-- The image after a captured unit: the section has its leaf. -/
theorem State.openImage_captureUnit (ho : s.openImage jh = some (j, b, m)) (hx : m.sections[si]? = some x) (i : Nat)
    (data : List Byte) : ∃ j' b', (s.captureUnit jh si i data).openImage jh =
      some (j', b', { m with sections := m.sections.set si (x.took i data) }) ∧
      j'.hold = j.hold ∧ b'.st = b.st ∧ b'.ckptSeq = b.ckptSeq := by
  have ho' : (s.leafWritten m x si i data).openImage jh = some (j, b, m) :=
    State.openImage_iff.mpr (by simpa using State.openImage_iff.mp ho)
  have hm := State.openImage_modImage ho' fun m => { m with sections := m.sections.set si (x.took i data) }
  obtain ⟨j', b', hj', hhold, hst, hseq⟩ := State.openImage_of_unsent (State.captureUnit_unsent ho hx i data) hm
  exact ⟨j', b', hj', hhold, hst, hseq⟩

end

/-! ## The plan of a capture lies in the snapshot area (R355, R366) -/

/-- What the places of a section's copy and leaf table depend on. -/
def Section.sized (x : Section) : Nat × Nat := (x.kind, x.len)

/-- A section without its leaves. -/
def Section.bare (x : Section) : Section := { x with leaves := [] }

theorem map_sized_placeCopies (a : Nat) (l : List Section) : (placeCopies a l).1.map Section.sized = l.map Section.sized := by
  induction l generalizing a with
  | nil => rfl
  | cons x rest ih =>
    unfold placeCopies
    split <;> simp [ih, Section.sized]

theorem map_sized_placeTables (a : Nat) (l : List Section) : (placeTables a l).1.map Section.sized = l.map Section.sized := by
  induction l generalizing a with
  | nil => rfl
  | cons x rest ih => simp [placeTables, ih, Section.sized]

theorem bitmapLen_congr {l l' : List Section} (h : l.map Section.sized = l'.map Section.sized) : bitmapLen l = bitmapLen l' := by
  have hdef (l : List Section) :
      bitmapLen l = roundUp (ceilDiv (((l.map Section.sized).filter fun e => e.1 == 1).map fun e => unitsOf e.2).sum 8) 4096 := by
    simp [bitmapLen, List.filter_map, Function.comp_def, Section.sized]
  rw [hdef, hdef, h]

theorem le_roundUp (a n : Nat) (hn : 0 < n) : a ≤ roundUp a n := by
  unfold roundUp ceilDiv
  have := Nat.div_add_mod (a + n - 1) n
  have := Nat.mod_lt (a + n - 1) hn
  rw [Nat.mul_comm]
  omega

/-- Copies lie one after another from the first place on. -/
theorem placeCopies_within (a : Nat) (l : List Section) : a ≤ (placeCopies a l).2 ∧
    ∀ x ∈ (placeCopies a l).1, x.kind ≠ 1 → a ≤ x.area ∧ x.area + x.len ≤ (placeCopies a l).2 := by
  induction l generalizing a with
  | nil => simp [placeCopies]
  | cons x rest ih =>
    unfold placeCopies
    split
    next hk =>
      obtain ⟨hle, hin⟩ := ih a
      refine ⟨hle, fun y hy hy1 => ?_⟩
      rcases List.mem_cons.mp hy with rfl | hy
      · exact absurd hk hy1
      · exact hin y hy hy1
    next hk =>
      obtain ⟨hle, hin⟩ := ih (a + roundUp x.len 4096)
      have hx := le_roundUp x.len 4096 (by decide)
      dsimp only
      refine ⟨by omega, fun y hy hy1 => ?_⟩
      rcases List.mem_cons.mp hy with rfl | hy
      · exact ⟨Nat.le_refl a, show a + x.len ≤ _ by omega⟩
      · have := hin y hy hy1
        exact ⟨by omega, this.2⟩

/-- Leaf tables lie one after another from the first place on; the sections keep all else. -/
theorem placeTables_within (a : Nat) (l : List Section) : a ≤ (placeTables a l).2 ∧
    ∀ x ∈ (placeTables a l).1, a ≤ x.table ∧ x.table + 32 * unitsOf x.len ≤ (placeTables a l).2 ∧
      ∃ y ∈ l, x = { y with table := x.table } := by
  induction l generalizing a with
  | nil => simp [placeTables]
  | cons x rest ih =>
    obtain ⟨hle, hin⟩ := ih (a + x.tableLen)
    have hx : 32 * unitsOf x.len ≤ x.tableLen := le_roundUp _ 4096 (by decide)
    refine ⟨by simp only [placeTables]; omega, fun y hy => ?_⟩
    rcases List.mem_cons.mp hy with rfl | hy
    · exact ⟨Nat.le_refl a, show a + 32 * unitsOf x.len ≤ _ by simp only [placeTables]; omega, x, List.mem_cons_self, rfl⟩
    · obtain ⟨h1, h2, z, hz, hyz⟩ := hin y hy
      exact ⟨by omega, h2, z, List.mem_cons_of_mem _ hz, hyz⟩

theorem kind_len_of_mem_layoutSections {off : Nat} {l : List (Nat × Nat × Nat × Nat × Nat)} {x : Section}
    (h : x ∈ layoutSections off l) : ∃ e ∈ l, x.kind = e.1 ∧ x.len = e.2.2.2.2 := by
  induction l generalizing off with
  | nil => simp [layoutSections] at h
  | cons e rest ih =>
    obtain ⟨k, o, s, b, n⟩ := e
    rcases List.mem_cons.mp h with rfl | h
    · exact ⟨_, List.mem_cons_self, rfl, rfl⟩
    · obtain ⟨e, he, hk⟩ := ih h
      exact ⟨e, List.mem_cons_of_mem _ he, hk⟩

/-- A planned section lies in the span from `lo` to `hi`: its copy, where it is copied, and its leaf table. -/
structure Section.Within (x : Section) (lo hi : Nat) : Prop where
  copy : x.kind ≠ 1 → lo ≤ x.area ∧ x.area + x.len ≤ hi
  table : lo ≤ x.table ∧ x.table + 32 * unitsOf x.len ≤ hi

section
variable (s : State) (jh : Nat) (j : Job) (b : Baler)

/-- The plan's capture bitmap follows its sections, which follow the area's base. -/
theorem State.planSections_within : b.area ≤ (s.planSections jh j b false).2.1 ∧
    (s.planSections jh j b false).2.1 + bitmapLen (s.planSections jh j b false).1 = (s.planSections jh j b false).2.2 ∧
    ∀ x ∈ (s.planSections jh j b false).1, x.Within b.area (s.planSections jh j b false).2.1 := by
  unfold State.planSections
  dsimp only
  generalize layoutSections 4096 _ = secs
  obtain ⟨hcle, hcin⟩ := placeCopies_within b.area secs
  obtain ⟨htle, htin⟩ := placeTables_within (placeCopies b.area secs).2 (placeCopies b.area secs).1
  simp only [Bool.false_eq_true, if_false]
  refine ⟨by omega, ?_, fun x hx => ?_⟩
  · rw [bitmapLen_congr ((map_sized_placeTables _ _).trans (map_sized_placeCopies _ _))]
  · obtain ⟨h1, h2, y, hy, hxy⟩ := htin x hx
    refine ⟨fun hk => ?_, by omega, h2⟩
    have := hcin y hy (by rw [hxy] at hk; exact hk)
    rw [hxy]
    exact ⟨this.1, show y.area + y.len ≤ _ by omega⟩

/-- R355: a WINDROW_STATE section holds 32 bytes for each group of the job. -/
theorem State.len_of_kind9 {x : Section} (hx : x ∈ (s.planSections jh j b false).1) (hk : x.kind = 9) :
    x.len = 32 * (s.jobGroups jh).length := by
  unfold State.planSections at hx
  simp only [Bool.false_eq_true, if_false] at hx
  have hmem := List.mem_map_of_mem (f := Section.sized) hx
  rw [map_sized_placeTables, map_sized_placeCopies] at hmem
  obtain ⟨y, hy, hyx⟩ := List.mem_map.mp hmem
  obtain ⟨hyk, hyl⟩ := Prod.mk.inj hyx
  obtain ⟨e, he, hek, hel⟩ := kind_len_of_mem_layoutSections hy
  rw [← hyl, hel]
  have hek : e.1 = 9 := by rw [← hek, hyk, hk]
  rcases List.mem_append.mp he with he | he
  · obtain ⟨r, hr, rfl⟩ := List.mem_map.mp he
    have := (List.mem_filter.mp hr).2
    simp only [Bool.and_eq_true, decide_eq_true_eq, beq_iff_eq] at this
    simp only at hek
    omega
  · simp only [List.mem_cons, List.not_mem_nil, or_false] at he
    rcases he with rfl | rfl
    · simp at hek
    · rfl

end

/-! ## The capture of a held job (R365 to R368) -/

/-- Amid the capture of an image `m₀` from `s` on: the op runs on, the job stays held, the image is open with the leaves
taken so far, and memory has changed in the snapshot area alone. -/
structure State.Amid (s : State) (n jh : Nat) (o : Op) (h : JobHold) (m₀ : Image) (lo hi : Nat) (u : State) : Prop where
  op : u.op n = some o
  only : s.WritesOnly (fun a => lo ≤ a ∧ a < hi) u
  image : ∃ j b l, u.openImage jh = some (j, b, { m₀ with sections := l }) ∧ j.hold = some h ∧ b.ckptSeq = m₀.ckptSeq ∧
    l.map Section.bare = m₀.sections.map Section.bare

theorem length_natToLE (n v : Nat) : (natToLE n v).length = n := by
  induction n generalizing v with
  | zero => rfl
  | succ n ih => simp [natToLE, ih]

theorem length_wordsToBytes (ws : List Word) : (wordsToBytes ws).length = 4 * ws.length := by
  induction ws with
  | nil => rfl
  | cons w rest ih => simp [wordsToBytes, length_natToLE, ih]; omega

theorem length_shaRounds (ks w v : List (BitVec 32)) (h : v.length = 8) : (shaRounds ks w v).length = 8 := by
  have hround (v : List (BitVec 32)) (k w : BitVec 32) (h : v.length = 8) : (shaRound v k w).length = 8 := by
    unfold shaRound
    split <;> simp_all
  induction ks generalizing w v with
  | nil => exact h
  | cons k ks ih => exact ih _ _ (hround v k _ h)

theorem length_shaBlocks (n : Nat) (h : List (BitVec 32)) (l : List Byte) (hl : h.length = 8) :
    (shaBlocks n h l).length = 8 := by
  induction n generalizing h l with
  | zero => exact hl
  | succ n ih => exact ih _ _ (by simp [shaBlock, length_shaRounds, hl])

theorem sum_map_const {α : Type} (n : Nat) (l : List α) : (l.map fun _ => n).sum = n * l.length := by
  induction l with
  | nil => rfl
  | cons a l ih => rw [List.map_cons, List.sum_cons, ih, List.length_cons, Nat.mul_succ, Nat.add_comm]

/-- A leaf takes 32 bytes. -/
@[simp] theorem length_sha256 (l : List Byte) : (sha256 l).length = 32 := by
  have hbytes (ws : List (BitVec 32)) : (ws.flatMap fun w => natToBE 4 w.toNat).length = 4 * ws.length := by
    simp [natToBE, length_natToLE, sum_map_const, Nat.mul_comm]
  simp only [sha256, hbytes, length_shaBlocks _ shaInit _ (by decide)]

theorem length_readCells (m : List Host.Cell) (a n : Nat) : (readCells m a n).length = n := by
  simp [readCells_eq_map]

theorem length_windrowState (s : State) (jh : Nat) (step : Word) :
    (s.windrowState jh step).length = 32 * (s.jobGroups jh).length := by
  simp [State.windrowState, WGroup.stateRecord, length_wordsToBytes, sum_map_const, Nat.mul_comm]

theorem unitsOf_lt_of_mem {len i : Nat} (h : i ∈ List.range (unitsOf len)) : 32 * i + 32 ≤ 32 * unitsOf len := by
  have := List.mem_range.mp h
  omega

section
variable {s u : State} {n jh : Nat} {o : Op} {h : JobHold} {m₀ : Image} {lo hi : Nat}

/-- A section of the open image is the planned one but for its leaves. -/
theorem State.Amid.section {si : Nat} {x₀ : Section} (hu : s.Amid n jh o h m₀ lo hi u) (hx : m₀.sections[si]? = some x₀) :
    ∃ j b l x, u.openImage jh = some (j, b, { m₀ with sections := l }) ∧ j.hold = some h ∧ b.ckptSeq = m₀.ckptSeq ∧
      l.map Section.bare = m₀.sections.map Section.bare ∧ l[si]? = some x ∧ x.bare = x₀.bare := by
  obtain ⟨j, b, l, ho, hh, hq, hl⟩ := hu.image
  have hsi := congrArg (·[si]?) hl
  simp only [List.getElem?_map, hx, Option.map_some, Option.map_eq_some_iff] at hsi
  obtain ⟨x, hx', hxx⟩ := hsi
  exact ⟨j, b, l, x, ho, hh, hq, hl, hx', hxx⟩

/-- A write into the area keeps the capture going. -/
theorem State.Amid.write (hu : s.Amid n jh o h m₀ lo hi u) {base : Nat} {bytes : List Byte} (hlo : lo ≤ base)
    (hhi : base + bytes.length ≤ hi) : s.Amid n jh o h m₀ lo hi (u.write base bytes) where
  op := by simpa [State.op] using hu.op
  only := hu.only.trans (u.writesOnly_write fun a _ _ => by omega)
  image := by
    obtain ⟨j, b, l, ho, hrest⟩ := hu.image
    exact ⟨j, b, l, State.openImage_iff.mpr (by simpa using State.openImage_iff.mp ho), hrest⟩

/-- A captured unit that is no WEIGHTS unit keeps the capture going. -/
theorem State.Amid.captureUnit (hu : s.Amid n jh o h m₀ lo hi u) {si i : Nat} {x₀ : Section} (hx : m₀.sections[si]? = some x₀)
    (hk : x₀.kind ≠ 1) (hw : x₀.Within lo hi) (hi' : 32 * i + 32 ≤ 32 * unitsOf x₀.len) (data : List Byte) :
    s.Amid n jh o h m₀ lo hi (u.captureUnit jh si i data) := by
  obtain ⟨j, b, l, x, ho, hh, hq, hl, hx', hxx⟩ := hu.section hx
  have hkind : x.kind = x₀.kind := congrArg (·.kind) hxx
  have htable : x.table = x₀.table := congrArg (·.table) hxx
  have hleaf : u.leafWritten { m₀ with sections := l } x si i data = u.write (x.table + 32 * i) (sha256 data) :=
    if_neg (by rw [hkind]; exact hk)
  have hsame := State.captureUnit_unsent ho hx' i data
  have hamid : s.Amid n jh o h m₀ lo hi (u.write (x.table + 32 * i) (sha256 data)) := by
    have := hw.table
    exact hu.write (by omega) (by rw [length_sha256]; omega)
  rw [hleaf] at hsame
  refine ⟨?_, ?_, ?_⟩
  · rw [State.unsent_op hsame]
    simpa [State.op, State.modImage, State.modBaler] using hamid.op
  · refine hamid.only.trans (.of_hbm_eq ?_)
    rw [State.unsent_mem hsame]
    simp [State.modImage, State.modBaler]
  · obtain ⟨j', b', ho', hh', -, hq'⟩ := State.openImage_captureUnit ho hx' i data
    refine ⟨j', b', _, ho', hh'.trans hh, hq'.trans hq, ?_⟩
    rw [List.map_set, hl, show (x.took i data).bare = x₀.bare from hxx]
    obtain ⟨hlt, hget⟩ := List.getElem?_eq_some_iff.mp (show (m₀.sections.map Section.bare)[si]? = some x₀.bare by simp [hx])
    rw [← hget, List.set_getElem_self hlt]

/-- A copied section keeps the capture going (R365). -/
theorem State.Amid.snapSection (hu : s.Amid n jh o h m₀ lo hi u) {si : Nat} {x₀ : Section} (hx : m₀.sections[si]? = some x₀)
    (hw : x₀.Within lo hi) (h9 : x₀.kind = 9 → x₀.len = m₀.windrow.length) :
    s.Amid n jh o h m₀ lo hi (u.snapSection jh si false) := by
  obtain ⟨j, b, l, x, ho, -, -, -, hx', hxx⟩ := hu.section hx
  have hkind : x.kind = x₀.kind := congrArg (·.kind) hxx
  have hlen : x.len = x₀.len := congrArg (·.len) hxx
  have harea : x.area = x₀.area := congrArg (·.area) hxx
  unfold State.snapSection
  simp only [ho, hx']
  split
  · exact hu
  next hk1 =>
    rw [hkind] at hk1
    generalize hdata : (if x.kind = 9 then m₀.windrow else u.read x.base x.len) = data
    have hdlen : data.length = x₀.len := by
      rw [← hdata]
      split
      next hk => exact (h9 (hkind ▸ hk)).symm
      · rw [State.read, length_readCells, hlen]
    have hcopy := hw.copy hk1
    have hw' := hu.write (base := x.area) (bytes := data) (by omega) (by omega)
    simp only [Bool.false_eq_true, if_false, State.captureAll, hdlen]
    exact List.foldlRecOn _ _ hw' fun v hv i hi' => hv.captureUnit hx hk1 hw (unitsOf_lt_of_mem hi') _

@[simp] theorem State.modGroup_hub (s : State) (g : Nat) (f : WGroup → WGroup) : (s.modGroup g f).hub = s.hub := by
  unfold State.modGroup
  split <;> rfl

@[simp] theorem State.modGroup_jobs (s : State) (g : Nat) (f : WGroup → WGroup) : (s.modGroup g f).jobs = s.jobs := by
  unfold State.modGroup
  split <;> rfl

@[simp] theorem State.modGroup_mem (s : State) (g : Nat) (f : WGroup → WGroup) : (s.modGroup g f).mem = s.mem := by
  unfold State.modGroup
  split <;> rfl

@[simp] theorem State.rankOrderUntil_hub (s : State) (jh : Nat) (step : Word) : (s.rankOrderUntil jh step).hub = s.hub :=
  foldl_keeps (·.hub) _ (fun s (e : Nat × WGroup) => s.modGroup_hub e.1 _) _ _

@[simp] theorem State.rankOrderUntil_jobs (s : State) (jh : Nat) (step : Word) : (s.rankOrderUntil jh step).jobs = s.jobs :=
  foldl_keeps (·.jobs) _ (fun s (e : Nat × WGroup) => s.modGroup_jobs e.1 _) _ _

@[simp] theorem State.rankOrderUntil_mem (s : State) (jh : Nat) (step : Word) : (s.rankOrderUntil jh step).mem = s.mem :=
  foldl_keeps (·.mem) _ (fun s (e : Nat × WGroup) => s.modGroup_mem e.1 _) _ _

/-- Extending the rank-order span keeps the capture going (R365). -/
theorem State.Amid.rankOrderUntil (hu : s.Amid n jh o h m₀ lo hi u) (step : Word) :
    s.Amid n jh o h m₀ lo hi (u.rankOrderUntil jh step) where
  op := by simpa [State.op] using hu.op
  only := hu.only.trans (.of_hbm_eq (by simp))
  image := by
    obtain ⟨j, b, l, ho, hrest⟩ := hu.image
    exact ⟨j, b, l, State.openImage_iff.mpr (by simpa using State.openImage_iff.mp ho), hrest⟩

end

/-- Table 13.8, step 4: the pause ends with the op well ended, the hold gone, and the job CAPTURING. -/
theorem State.Amid.endPause {s u : State} {n : Nat} {o : Op} {h : JobHold} {m₀ : Image} {lo hi : Nat}
    (hu : s.Amid n o.job o h m₀ lo hi u) (hrun : o.running) (hop : h.op = some n) : ∃ o' j b l,
      (u.endPause n o.job).op n = some o' ∧ o'.phase = .done .ok 0 ∧ (u.endPause n o.job).jobs.find o.job = some j ∧
      j.hold = none ∧ j.baler = some b ∧ b.st = .capturing ∧ b.ckptSeq = m₀.ckptSeq ∧
      b.image = some { m₀ with sections := l } ∧ (u.endPause n o.job).mem = u.mem := by
  obtain ⟨j, b, l, ho, hh, hq, -⟩ := hu.image
  obtain ⟨hj, hb, hm⟩ := State.openImage_iff.mp ho
  have hlive : o.live := by
    revert hrun
    cases hp : o.phase <;> simp [Op.running, Op.live, hp]
  have hdef : ∃ p, u.endPause n o.job = ({ u with units := { u.units with lastPause := p } }.modBaler o.job fun b =>
      { b with st := .capturing, snapshotOp := none }).balEnd n .ok := ⟨_, rfl⟩
  obtain ⟨p, hdef⟩ := hdef
  have hfind := State.find_modBaler (s := { u with units := { u.units with lastPause := p } }) hj hb
    fun b => { b with st := .capturing, snapshotOp := none }
  rw [hdef]
  generalize hv : State.modBaler _ o.job _ = v at hfind ⊢
  have hvop : v.op n = some o := by simpa [← hv, State.op, State.modBaler] using hu.op
  have hvmem : v.mem = u.mem := by simp [← hv, State.modBaler]
  have hend : v.balEnd n .ok = (v.dropHold o.job n).endOp n .ok := by simp [State.balEnd, hvop, balCause]
  rw [hend]
  refine ⟨_, { j with hold := none, baler := some { b with st := .capturing, snapshotOp := none } },
    { b with st := .capturing, snapshotOp := none }, l, State.op_endOp (o := o) (by simpa [State.op, State.dropHold] using hvop) hlive _ _, rfl, ?_⟩
  rw [State.endOp, State.modOp_jobs, State.modOp_mem, State.dropHold, State.find_modJob hfind]
  simp [hh, hop, hm, hq, hvmem]

/-- The image that the capture of a held job opens (R365). -/
def State.newImage (s : State) (o : Op) (j : Job) (b : Baler) : Image :=
  { ckptSeq := b.ckptSeq + 1, step := o.step, noRoom := false, sections := (s.planSections o.job j b false).1
    windrow := s.windrowState o.job o.step, bitmap := (s.planSections o.job j b false).2.1 }

/-- The capture opened: the next CKPT_SEQ and the empty image. -/
def State.opened (s : State) (o : Op) (j : Job) (b : Baler) : State :=
  (s.modBaler o.job fun b => { b with ckptSeq := b.ckptSeq + 1 }).modBaler o.job fun b' =>
    { b' with image := some (s.newImage o j b), imageStep := o.step }

/-- The capture of a held job whose plan the area holds and whose regions can be read. -/
theorem State.capture_eq {s : State} {n : Nat} {o : Op} {j : Job} {b : Baler}
    (hfit : b.holds (s.planSections o.job j b false) = true)
    (hgood : s.spansAccess (pauseSpans (s.planSections o.job j b false).1) = .good) :
    s.capture n o j b = ((((List.range (s.newImage o j b).sections.length).foldl
      (fun (s : State) si => s.snapSection o.job si false)
      ((s.opened o j b).write (s.newImage o j b).bitmap (List.replicate (bitmapLen (s.newImage o j b).sections) 0))).rankOrderUntil
        o.job (o.step + 2)).endPause n o.job) := by
  unfold State.capture
  simp only [hfit, Bool.not_true, Bool.false_eq_true, if_false, hgood]
  rfl

/-- R365, R366: the capture of a held job stays amid its area until its pause ends. -/
theorem State.amid_capture {s : State} {n : Nat} {o : Op} {j : Job} {b : Baler} {h : JobHold} (hop : s.op n = some o)
    (hj : s.jobs.find o.job = some j) (hb : j.baler = some b) (hh : j.hold = some h)
    (hfit : b.holds (s.planSections o.job j b false) = true) :
    s.Amid n o.job o h (s.newImage o j b) b.area (b.area + b.areaLen)
      (((List.range (s.newImage o j b).sections.length).foldl (fun (s : State) si => s.snapSection o.job si false)
      ((s.opened o j b).write (s.newImage o j b).bitmap (List.replicate (bitmapLen (s.newImage o j b).sections) 0))).rankOrderUntil
        o.job (o.step + 2)) := by
  obtain ⟨hlo, hend, hin⟩ := s.planSections_within o.job j b
  have hhi : (s.planSections o.job j b false).2.2 ≤ b.area + b.areaLen := by simpa [Baler.holds] using hfit
  have hopen : s.Amid n o.job o h (s.newImage o j b) b.area (b.area + b.areaLen) (s.opened o j b) := by
    refine ⟨by simpa [State.op, State.opened, State.modBaler] using hop,
      .of_hbm_eq (by simp [State.opened, State.modBaler]), ?_⟩
    have hf := State.find_modBaler hj hb fun b => { b with ckptSeq := b.ckptSeq + 1 }
    have hf' := State.find_modBaler hf rfl fun b' => { b' with image := some (s.newImage o j b), imageStep := o.step }
    exact ⟨_, _, _, State.openImage_iff.mpr ⟨hf', rfl, rfl⟩, hh, rfl, rfl⟩
  refine State.Amid.rankOrderUntil (List.foldlRecOn _ _ ?_ fun u hu si hsi => ?_) _
  · exact hopen.write hlo (by rw [List.length_replicate]; exact hend ▸ hhi)
  · obtain ⟨x, hx⟩ : ∃ x, (s.newImage o j b).sections[si]? = some x :=
      ⟨_, List.getElem?_eq_getElem (List.mem_range.mp hsi)⟩
    have hmem : x ∈ (s.planSections o.job j b false).1 := List.mem_of_getElem? hx
    obtain ⟨hcopy, htable⟩ := hin x hmem
    refine hu.snapSection hx ⟨fun hk => ?_, by omega⟩ fun hk => ?_
    · have := hcopy hk
      omega
    · rw [State.len_of_kind9 s o.job j b hmem hk]
      exact (length_windrowState ..).symm

/-! ## SNAPSHOT starts (R364, R365) -/

theorem exec_snapshot_of_mayBegin {s : State} {n : Nat} {o : Op} (h : s.MayBegin n o) (hcls : o.cls = 6) (hfunc : o.bFunc = 1) :
    exec (.snapshot n) s = .next (s.beginOp n o).settle := by
  show execSnapshot n s = _
  simp only [execSnapshot, h.op, hcls, hfunc, and_self, if_true, finish, State.startOp_of_mayBegin h]

/-- An op that its unit takes is copied into the forward log (R180). -/
theorem State.beginOp_of_taken {s u : State} {n : Nat} {o : Op} (hu : (s.started n).startUnit n o = u)
    (htaken : u.startRefused n = false) : s.beginOp n o = u.logForward o := by
  have hdef : s.beginOp n o = if ((s.started n).startUnit n o).startRefused n then ((s.started n).startUnit n o).completeOp n
      else ((s.started n).startUnit n o).logForward o := rfl
  rw [hdef, hu, htaken]
  rfl

/-- An op that its unit refuses completes. -/
theorem State.beginOp_of_refused {s u : State} {n : Nat} {o : Op} (hu : (s.started n).startUnit n o = u)
    (hrefused : u.startRefused n = true) : s.beginOp n o = u.completeOp n := by
  have hdef : s.beginOp n o = if ((s.started n).startUnit n o).startRefused n then ((s.started n).startUnit n o).completeOp n
      else ((s.started n).startUnit n o).logForward o := rfl
  rw [hdef, hu, hrefused]
  rfl

/-- A running op is not one whose start was refused. -/
theorem State.startRefused_of_running {u : State} {n : Nat} {o : Op} (h : u.op n = some o) (hr : o.phase = .running) :
    u.startRefused n = false := by
  simp [State.startRefused, h, hr]

theorem State.startRefused_endOp {u : State} {n : Nat} {o : Op} (h : u.op n = some o) (hl : o.live) {st : Status}
    (hst : st.rejected = true) : (u.endOp n st).startRefused n = true := by
  simp [State.startRefused, State.op_endOp h hl, hst]

@[simp] theorem State.started_jobGroups (s : State) (n jh : Nat) : (s.started n).jobGroups jh = s.jobGroups jh := by
  simp [State.started, State.jobGroups]

@[simp] theorem State.started_groupBlocks (s : State) (n gi : Nat) (g : WGroup) (step : Word) :
    (s.started n).groupBlocks gi g step = s.groupBlocks gi g step := by
  simp [State.started, State.groupBlocks]

@[simp] theorem State.started_planSections (s : State) (n jh : Nat) (j : Job) (b : Baler) (noRoom : Bool) :
    (s.started n).planSections jh j b noRoom = s.planSections jh j b noRoom := by
  simp [State.planSections]

/-- The unit of a Baler op with FUNC 1 takes it as a SNAPSHOT. -/
theorem State.startUnit_snapshot {s : State} {n : Nat} {o : Op} {j : Job} {b : Baler} (hcls : o.cls = 6) (hfunc : o.bFunc = 1)
    (hj : s.jobs.find o.job = some j) (hb : j.baler = some b) :
    (s.started n).startUnit n o = (s.started n).startSnapshot n o j b := by
  simp [State.startUnit, hcls, State.startBaler, hj, hb, hfunc]

theorem State.balRun_iff {s : State} {n func : Nat} {o : Op} {j : Job} {b : Baler} (h : s.balRun n func = some (o, j, b)) :
    s.op n = some o ∧ o.running = true ∧ s.jobs.find o.job = some j ∧ j.baler = some b := by
  unfold State.balRun State.runs at h
  split at h
  · cases h
  next o' hrun =>
    split at hrun
    · cases hrun
    next o'' hop =>
      split at hrun
      next hc =>
        cases hrun
        simp only [Bool.and_eq_true] at hc
        split at h
        · cases h
        next hj =>
          split at h
          · cases h
          next hb =>
            split at h
            · cases h
              exact ⟨hop, hc.1.1, hj, hb⟩
            · cases h
      · cases hrun

theorem exec_snapshotCapture {s : State} {n : Nat} {o : Op} {j : Job} {b : Baler} {h : JobHold}
    (hr : s.balRun n 1 = some (o, j, b)) (hh : j.hold = some h) (hop : h.op = some n) (hi : b.image = none) :
    exec (.snapshotCapture n) s = .next (if s.holdOver h then s.capture n o j b else s).settle := by
  show execSnapshotCapture n s = _
  by_cases hover : s.holdOver h <;> simp [execSnapshotCapture, hr, hh, hop, hi, hover, finish]

theorem exec_weightsSweep {s : State} {jh : Nat} {j : Job} {b : Baler} {m : Image} (ho : s.openImage jh = some (j, b, m))
    (hst : b.st = .capturing)
    (hgood : s.spansAccess ((m.uncaptured (s.sweeps jh m)).map fun x => { base := x.2.2, len := 4096 }) = .good) {u : State}
    (hu : u = (m.uncaptured (s.sweeps jh m)).foldl
      (fun (s : State) x => s.captureUnit jh x.1 x.2.1 (s.read x.2.2 4096)) s) :
    exec (.weightsSweep jh) s = .next (State.settle { u with units := { u.units with
      sweepUnits := u.units.sweepUnits + BitVec.ofNat 64 (m.uncaptured (s.sweeps jh m)).length } }) := by
  show execWeightsSweep jh s = _
  subst hu
  simp only [execWeightsSweep, ho, hst, ne_eq, not_true, if_false, hgood, finish]

/-- Settles O47: a SNAPSHOT that starts holds its job or is refused; a capture is a chain of captured units amid the area. -/
theorem balerSnapshots : Obligations.BalerSnapshots := by
  refine ⟨?start, ?capture, ?unit, ?sweep⟩
  case start =>
    rintro s n o j b u hmay hcls hfunc hj hb rfl
    rw [exec_snapshot_of_mayBegin hmay hcls hfunc]
    have hunit := State.startUnit_snapshot (n := n) hcls hfunc hj hb
    have hstarted := State.op_started hmay.op
    refine ⟨fun hst hreplay hpeer hgroups hfit => ?_, fun hbad => ?_⟩
    · have htake : (s.started n).startSnapshot n o j b = ((s.started n).takeHold o.job (some n)).modBaler o.job fun b =>
          { b with st := .paused, snapshotOp := some n } := by
        have hall : (s.jobGroups o.job).all (fun e => !s.groupBlocks e.1 e.2 o.step) = true :=
          List.all_eq_true.mpr fun e he => by simp [hgroups e he]
        rcases hst with hst | hst <;> simp [State.startSnapshot, hst, hreplay, hpeer, hall, hfit]
      rw [State.beginOp_of_taken (hunit.trans htake)]
      · rfl
      · exact State.startRefused_of_running (by simpa [State.modBaler, State.takeHold, State.op] using hstarted) rfl
    · have hrefuse : (s.started n).startSnapshot n o j b = (s.started n).endOp n .stateMismatch := by
        rcases hbad with hbad | hbad | hbad | hbad <;> simp [State.startSnapshot, hbad]
      rw [State.beginOp_of_refused (hunit.trans hrefuse) (State.startRefused_endOp hstarted rfl rfl)]
      rfl
  case capture =>
    rintro s n o j b h p hr hh hop hi rfl hfit
    obtain ⟨hop', hrun, hj, hb⟩ := State.balRun_iff hr
    rw [exec_snapshotCapture hr hh hop hi]
    refine ⟨fun hover hgood => ?_, fun hover => by simp [hover]⟩
    have hamid := State.amid_capture hop' hj hb hh hfit
    obtain ⟨o', j', b', l, ho', hphase, hj', hhold, hb', hst, hseq, him, hmem⟩ := hamid.endPause hrun hop
    rw [if_pos hover, State.capture_eq hfit hgood]
    refine ⟨_, o', j', b', _, rfl, ?_, hphase, ?_, hhold, hb', hst, hseq, him, rfl, rfl, rfl, rfl, fun hwf a ha => ?_⟩
    · simpa [State.op] using ho'
    · simpa using hj'
    · rw [State.settle_mem, hmem]
      exact (hamid.only hwf).2 a (by omega)
  case unit =>
    intro s jh si i data j b m x ho hx
    obtain ⟨j', b', ho', -, hst, -⟩ := State.openImage_captureUnit ho hx i data
    obtain ⟨hlt, -⟩ := List.getElem?_eq_some_iff.mp hx
    exact ⟨j', b', _, x.took i data, ho', by simp [hlt], Map.find_insert_self .., rfl, hst⟩
  case sweep =>
    rintro s jh j b m us u ho rfl hst hgood hu
    exact exec_weightsSweep ho hst hgood hu

end Sys2Proof.Machine
end

section
/-!
PROOF. Settles O17, O45 and O51: the commands of the Hedgerow port, of Windrow and of Baler.
-/

namespace Sys2Proof.Machine

/-- Settles O17: the checks of each command are its hypotheses, and what its body changes of the port is what is stated. -/
theorem hedgerowCommands_holds : Obligations.HedgerowCommands := by
  refine fun s l tag args hs hdev => ⟨?addrSet, ?srcSet, ?srcRead, ?ringSet, ?ringClear, ?hbSet, ?hbClear, ?stageArm, ?stageDisarm⟩
  case addrSet =>
    rintro rfl hf hlive hmac
    exact finish_issue_ok cmdMgtAddrSet hs hf rfl (.inl hdev) (by
      simp at hmac
      simp [cmdMgtAddrSet, cmd, hmac, hlive])
  case srcSet =>
    rintro e rfl hf hlive h0 h2 h5 hmac h4 h4' rfl
    exact finish_issue_ok cmdMgtSrcSet hs hf rfl (.inl hdev) (by
      have h2 : argN args 2 < 65536 := h2
      have hset : ¬(argN args 1 = 0 ∧ argN args 2 = 0) := fun ⟨h1, h2⟩ => hmac.elim (· h1) (· h2)
      simp [cmdMgtSrcSet, cmd, h0, h2, h5, Nat.le_of_lt_succ h5, h4, h4', hset, hlive])
  case srcRead =>
    rintro rfl hf
    exact finish_issue_done cmdMgtSrcRead hs hf rfl (.inl hdev) (by simp [cmdMgtSrcRead, cmd])
  case ringSet =>
    rintro rfl hf h0 h1 haddr h4 h4' hhbm hrx htx r rfl
    have hspan : argN args 1 = 1 → s.mem.inUsable (argAddr args 2) (2048 * 2 ^ argN args 4) = true ∧
        s.granted 0 (argAddr args 2) (2048 * 2 ^ argN args 4) (!(argN args 0 == 1)) = true := hhbm
    refine finish_issue_ok cmdMgtRingSet hs hf rfl (.inl hdev) ?_
    rcases Nat.le_one_iff_eq_zero_or_eq_one.mp h0 with h | h <;>
      rcases Nat.le_one_iff_eq_zero_or_eq_one.mp h1 with k | k <;>
      simp only [h, k, reduceCtorEq, false_implies, true_implies, Nat.zero_ne_one] at hrx htx hspan <;>
      simp_all [cmdMgtRingSet, cmd]
  case ringClear =>
    rintro rfl hf h0 hrx htx
    refine finish_issue_ok cmdMgtRingClear hs hf rfl (.inl hdev) ?_
    rcases Nat.le_one_iff_eq_zero_or_eq_one.mp h0 with h | h
    · simp [cmdMgtRingClear, cmd, h, hrx h]
    · simp [cmdMgtRingClear, cmd, h, htx h]
  case hbSet =>
    rintro j hf hj h0 h2 h4 h5 h6 h6' h7 h7' hroom hfree hkeys e rfl
    exact finish_issue_ok cmdMgtHbSet hs hf rfl (.inl hdev) (by
      have h4 : argN args 4 < 65536 := h4
      have h5 : argN args 5 < 3 := by omega
      have h6' : argN args 6 ≤ 2147483648 := h6'
      simp [cmdMgtHbSet, cmd, hj, h0, h2, h4, h5, h6, h6', h7, h7', hroom, hfree, hkeys, State.now])
  case hbClear =>
    rintro j e hf hj h1 hfind hjob
    exact finish_issue_ok cmdMgtHbClear hs hf rfl (.inl hdev) (by
      simp [cmdMgtHbClear, jobCmd, jobCmdV, hj, h1, hfind, hjob])
  case stageArm =>
    rintro b rfl hf h2 h3 h3' hw hstage h33
    exact finish_issue_ok cmdMgtStageArm hs hf rfl (.inl hdev) (by
      have h2 : argN args 2 < 65536 := h2
      have h3' : argN args 3 ≤ 33554432 := h3'
      simp [cmdMgtStageArm, cmd, h2, h3, h3', hw, State.armed, hstage, h33])
  case stageDisarm =>
    rintro rfl hf hstage
    exact finish_issue_ok cmdMgtStageDisarm hs hf rfl (.inl hdev) (by
      simp [cmdMgtStageDisarm, cmd, State.armed, hstage])

@[simp] theorem State.taken_groupBusy (s : State) (l c : Nat) (t : Word) (a : List Word) (gi : Nat) :
    (s.taken l c t a).groupBusy gi = s.groupBusy gi := by
  simp [State.groupBusy]

@[simp] theorem State.taken_groupArgs (s : State) (l c : Nat) (t : Word) (a : List Word) :
    (s.taken l c t a).groupArgs a = s.groupArgs a := by
  simp [State.groupArgs]

@[simp] theorem State.taken_groupArgsOk (s : State) (l c : Nat) (t : Word) (a : List Word) :
    (s.taken l c t a).groupArgsOk l a = s.groupArgsOk l a := by
  simp [State.groupArgsOk]

/-- Settles O45: the checks of each command are its hypotheses. -/
theorem windrowCommands_holds : Obligations.WindrowCommands := by
  refine fun s l tag args j hs hdev => ⟨?groupSet, fun g hj h1 hg hjob => ⟨?groupClear, ?modeSet, ?seqReset, ?groupRead⟩⟩
  case groupSet =>
    rintro g w hf hj hargs hread rfl hmem hcount hw hlen hdata hfree
    exact finish_issue_ok cmdWdrGroupSet hs hf rfl (.inl hdev) (by
      have hmem' : (s.groupArgs args).members.all memberOk = true := List.all_eq_true.mpr hmem
      simp only [cmdWdrGroupSet, cmd, State.taken_jobOf, State.taken_groupArgsOk, State.taken_groupArgs, State.taken_access,
        State.taken_wdr, needAccess, hj, hargs, hread, hmem', hcount, hw, hlen, hdata, hfree]
      rfl)
  case groupClear =>
    intro hf hbusy
    exact finish_issue_ok cmdWdrGroupClear hs hf rfl (.inl hdev) (by
      simp [cmdWdrGroupClear, groupCmd, jobCmd, jobCmdV, hj, h1, hg, hjob, hbusy, State.clearGroup])
  case modeSet =>
    intro hf h2
    exact finish_issue_ok cmdWdrModeSet hs hf rfl (.inl hdev) (by
      simp [cmdWdrModeSet, groupCmd, jobCmd, jobCmdV, hj, h1, hg, hjob, h2, Nat.le_of_lt_succ h2])
  case seqReset =>
    intro hf hbusy
    exact finish_issue_ok cmdWdrSeqReset hs hf rfl (.inl hdev) (by
      simp [cmdWdrSeqReset, groupCmd, jobCmd, jobCmdV, hj, h1, hg, hjob, hbusy])
  case groupRead =>
    intro hf
    exact finish_issue_done cmdWdrGroupRead hs hf rfl (.inl hdev) (by
      simp [cmdWdrGroupRead, groupCmd, jobCmd, jobCmdV, hj, h1, hg, hjob])

/-! ## Baler (O51) -/

theorem State.accessAll_good {l : List Access} (h : ∀ x ∈ l, x = .good) : accessAll l = .good := by
  have hstall : l.any (· = .stall) = false := List.any_eq_false.mpr fun x hx => by simp [h x hx]
  have hfind : l.find? (· ≠ .good) = none := List.find?_eq_none.mpr fun x hx => by simp [h x hx]
  rw [accessAll, hstall, hfind]
  rfl

@[simp] theorem State.taken_jobGroups (s : State) (l c : Nat) (t : Word) (a : List Word) (jh : Nat) :
    (s.taken l c t a).jobGroups jh = s.jobGroups jh := by
  simp [State.jobGroups]

@[simp] theorem State.taken_mayReplay (s : State) (l c : Nat) (t : Word) (a : List Word) (jh : Nat) (j : Job) (step : Word) :
    (s.taken l c t a).mayReplay jh j step = s.mayReplay jh j step := by
  simp [State.mayReplay]

/-- Where no set is captured, filled or served, the regions of any set may change. -/
theorem Baler.setFree_of_idle {b : Baler} (hserves : b.serves = []) (hfills : b.fills = []) (hst : b.st = .idle) (set : Nat) :
    b.setFree set = true := by
  simp [Baler.setFree, hserves, hst, Baler.fillOf, hfills]

theorem State.find_of_jobOf {s : State} {l jh : Nat} {j : Job} (h : s.jobOf l jh = some j) : s.jobs.find jh = some j := by
  unfold State.jobOf at h
  split at h
  · cases h
  next x hx =>
    split at h
    · cases h
      exact hx
    · cases h

/-- Two changes of a job's Baler state that agree on it are one change. -/
theorem State.modBaler_congr {s : State} {jh : Nat} {j : Job} {b : Baler} {f g : Baler → Baler}
    (hj : s.jobs.find jh = some j) (hb : j.baler = some b) (h : f b = g b) : s.modBaler jh f = s.modBaler jh g := by
  simp [State.modBaler, State.modJob, hj, hb, h]

/-- Settles O51: the checks of each command are its hypotheses. -/
theorem balerCommands_holds : Obligations.BalerCommands := by
  refine fun s l tag args j hs hdev => ⟨?objectSet, fun hj => ⟨?balSet, ?targetSet, ?regionSet, ?regionClear, ?keyTag,
    fun b hf hb => ⟨?abandon, ?stateRead⟩, fun hf hscale hstep hgather => ⟨?replay, ?noReplay⟩⟩⟩
  case objectSet =>
    rintro hf rfl h0 h0' h1 h3 h5 haddr halign himage x rfl
    exact finish_issue_ok cmdBalObjectSet hs hf rfl (.inl hdev) (by
      have htaking : (s.jobs.any fun e => match e.2.baler.bind fun b => b.image with
          | none => false
          | some m => e.2.jobId == wordAt args 2 && e.2.rank == argN args 3 && m.ckptSeq == wordAt args 4) = false := by
        refine List.any_eq_false.mpr fun e he => ?_
        cases hb : e.2.baler with
        | none => simp
        | some b => simp [himage e he b hb]
      have h5 : argN args 5 < 16 := h5
      simp only [cmdBalObjectSet, cmd, State.taken_jobs]
      rw [need_pos (by simp [h0, h0', h1, h3, h5, haddr, halign])]
      exact (need_pos (by rw [Bool.not_eq_true']; exact htaking) _ _).trans (by rw [State.taken_units]))
  case balSet =>
    rintro hf haddr halign hlen hgrant h4 h5 h6 h6' h7
    refine ⟨?_, fun b hb hst => ?_⟩
    · rintro x rfl hb
      exact finish_issue_ok cmdBalSet hs hf rfl (.inl hdev) (by
        simp [cmdBalSet, jobCmd, jobCmdV, hj, haddr, halign, hlen, hgrant, h4, h5, h6, h6', h7, hb])
    · exact finish_issue_fail cmdBalSet hs hf rfl (.inl hdev) (by
        simp [cmdBalSet, jobCmd, jobCmdV, hj, haddr, halign, hlen, hgrant, h4, h5, h6, h6', hb, hst, need])
  case targetSet =>
    rintro b p hf h1 h8 h9 hb hrelay hst rfl
    exact finish_issue_ok cmdBalTargetSet hs hf rfl (.inl hdev) (by
      rcases h1 with h1 | h1 <;> simp [cmdBalTargetSet, jobCmd, jobCmdV, hj, h1, h8, h9, hb, hrelay, hst])
  case regionSet =>
    rintro b r hf hb hregs hserves hfills hst rfl hset hmir hkind hkind' hord haddr hbase hlen hlen' hcor hgrant
    have hnone : j.balRegion b (argN args 1) (argN args 3) (argN args 4) = none := by
      have h8 : argN args 3 ≠ 8 := by
        dsimp only at hkind'
        split at hkind' <;> omega
      simp [Job.balRegion, h8, hregs]
    refine finish_issue_ok cmdBalRegionSet hs hf rfl (.inl hdev) (Eq.trans ?_ (congrArg Reply.ok
      (State.modBaler_congr (by simpa using State.find_of_jobOf hj) hb (f := fun b => { b with
        regions := b.regions ++ [{ set := argN args 1, kind := argN args 3, ordinal := argN args 4, base := argAddr args 5
                                   len := argN args 7 }]
        mirrors := if argN args 1 = 0 then b.mirrors else b.mirrors.insert (argN args 1) (argN args 2) })
        (by simp [hregs]))))
    simp only [cmdBalRegionSet, jobCmd, jobCmdV, State.taken_jobOf, hj, hb, hregs]
    simp_all [Baler.setFree_of_idle hserves hfills hst]
  case regionClear =>
    rintro b r hf hb hserves hfills hst hr hset hkind hord h1 h2 h2' h3
    have hany : (b.regions.any fun r => r.set == argN args 1 && r.kind == argN args 2 && r.ordinal == argN args 3) = true :=
      List.any_eq_true.mpr ⟨r, hr, by simp [hset, hkind, hord]⟩
    exact finish_issue_ok cmdBalRegionClear hs hf rfl (.inl hdev) (by
      simp only [cmdBalRegionClear, jobCmd, jobCmdV, State.taken_jobOf, hj, hb, h1, h2, h2', h3, hany,
        Baler.setFree_of_idle hserves hfills hst]
      simp [Bool.not_and, bne])
  case keyTag =>
    intro k hf h1 hk
    exact finish_issue_ok cmdBalKeyTag hs hf rfl (.inl hdev) (by
      simp [cmdBalKeyTag, jobCmd, jobCmdV, hj, h1, Nat.le_of_lt_succ h1, hk])
  case abandon =>
    intro hst
    exact finish_issue_ok cmdBalAbandon hs hf rfl (.inl hdev) (by
      simp [cmdBalAbandon, jobCmd, jobCmdV, hj, hb, hst])
  case stateRead =>
    exact finish_issue_done cmdBalStateRead hs hf rfl (.inl hdev) (by simp [cmdBalStateRead, jobCmd, jobCmdV, hj, hb])
  case replay =>
    intro hmay
    have hall : accessAll [s.access j.scaleRegion j.scaleLen, s.access j.stepRegion j.stepLen] = .good :=
      State.accessAll_good (by simp [hscale, hstep])
    exact finish_issue_ok cmdStepReplay hs hf rfl (.inl hdev) (by
      simp [cmdStepReplay, jobCmd, jobCmdV, hj, hmay, hall, needAccess, hgather])
  case noReplay =>
    intro hmay
    exact finish_issue_fail cmdStepReplay hs hf rfl (.inl hdev) (by
      simp [cmdStepReplay, jobCmd, jobCmdV, hj, hmay, need])

end Sys2Proof.Machine
end

section
/-!
PROOF. The pin command (O19 fails): the pins of the device are summed over the entries of the table of leas, and a table
whose indexes do not rise counts a lea's pins twice once its entry has been written again.
-/

namespace Sys2Proof.Machine

/-- A response and settling leave the pins of the lea that is answered. -/
theorem State.pins_answered {u : State} {l : Nat} (st : Status) (rs : List Word) (h : (u.leas.find l).isSome)
    (hev : (u.lea l).pendingEvents = []) (hreset : (u.lea l).pendingReset = none) :
    ((u.respond l st rs).settle.lea l).pins = (u.lea l).pins := by
  obtain ⟨a, c, v, w, hsettle⟩ := (u.respond l st rs).lea_settle l
  obtain ⟨p, hp⟩ := u.lea_responded st rs h
  have hlisted : ((u.responded l st rs).leas.find l).isSome := by
    unfold State.responded
    dsimp only
    split
    · rw [State.find_interrupt, State.find_modLea, h]
    · rw [State.find_modLea, h]
  rw [hsettle, State.respond_of_quiet st rs h hev hreset, State.lea_modLea_self _ _ _ hlisted, hp]

/-- Leas 1 and 0 listed in that order; lea 0 pins 200 MiB and may pin 256 MiB. -/
def pinsOutOfOrder : State :=
  { hub := { dev := .run }, pcie := { up := true }, edge := { online := BitVec.allOnes 40 }
    leas := [(1, { st := .enabled }), (0, { st := .enabled, quotas := { pinMib := 256 }
                                            pins := [{ base := 0, len := 200 * 2 ^ 20 }]
                                            grants := [(0, { base := 0, len := 2 ^ 30, rw := true })] })] }

/-- One range of 64 KiB. -/
def pinOneRange : List Word := [0, 0, 65536]

theorem pinsOutOfOrder_serves : pinsOutOfOrder.Serves 0 :=
  ⟨by decide, by decide, by decide, by decide, by decide, fun k _ _ hturn => absurd hturn (by simp [pinsOutOfOrder])⟩

/-- The request written, lea 0 is listed twice, and its pins are counted twice. -/
theorem pinsOutOfOrder_refused :
    cmdMemPin.body (pinsOutOfOrder.taken 0 0x0104 0 pinOneRange) 0 pinOneRange = .fail .noResource := by
  dsimp only [cmdMemPin, cmd]
  rw [need_pos (by decide)]
  exact if_neg (by decide)

/-- Refutes O19 in its clause of MEM_PIN: a state may list its leas out of the order of their indexes. MEM_PIN checks the
device total in the table of leas that the written request leaves; in `pinsOutOfOrder` that table lists lea 0 twice, so the
command fails with ST_NO_RESOURCE, although the total over the leas of the state before is met. -/
theorem not_memoryCommandsAndTests : ¬ Obligations.MemoryCommandsAndTests := by
  intro h
  obtain ⟨-, -, -, hpin, -⟩ := h.1 pinsOutOfOrder 0 0 pinOneRange pinsOutOfOrder_serves (by decide)
  have hclaim := hpin ⟨by decide, by decide⟩ (by decide) (by decide) (by decide) (by decide) (by decide) (by decide)
    (by decide) (by decide)
  have hrefused : exec (.memPin 0 0 pinOneRange) pinsOutOfOrder =
      answered (pinsOutOfOrder.taken 0 0x0104 0 pinOneRange) 0 .noResource [] :=
    finish_issue_fail cmdMemPin pinsOutOfOrder_serves ⟨by decide, by decide⟩ rfl (.inl (by decide)) pinsOutOfOrder_refused
  rw [hrefused] at hclaim
  have hsame := congrArg (fun t : State => (t.lea 0).pins.length) (Host.Outcome.next.inj hclaim)
  rw [State.pins_answered _ _ (by decide) (by decide) (by decide),
    State.pins_answered _ _ (by decide) (by decide) (by decide)] at hsame
  exact absurd hsame (by decide)

end Sys2Proof.Machine
end

section
/-!
PROOF. Settles O20: the commands that bind jobs and set their roles, shards, experts and credit links.
-/

namespace Sys2Proof.Machine

section
variable (s : State) (l c : Nat) (t : Word) (a : List Word)

@[simp] theorem State.taken_bound (k : Nat) : (s.taken l c t a).bound k a = s.bound k a := by simp [State.bound]

@[simp] theorem State.taken_regionOk (k b n : Nat) : (s.taken l c t a).regionOk k b n = s.regionOk k b n := by
  simp [State.regionOk]

@[simp] theorem State.taken_headersOk (j : Job) : (s.taken l c t a).headersOk j = s.headersOk j := by
  simp [State.headersOk]

@[simp] theorem State.taken_tedderBusy (h : Nat) : (s.taken l c t a).tedderBusy h = s.tedderBusy h := by
  simp [State.tedderBusy]

@[simp] theorem State.taken_spansGranted (k : Nat) (spans : List Span) :
    (s.taken l c t a).spansGranted k spans = s.spansGranted k spans := by
  simp [State.spansGranted]

end

/-- Binding, unbinding and reading a job (R316, R317, R319). -/
theorem jobCommands_bind (s : State) (l : Nat) (tag : Word) (args : List Word) (hs : s.Serves l) (hdev : s.hub.dev ≠ .boot) :
    (∀ h j, Fits 16 args → j = s.bound l args → bindArgsOk args → s.regionOk l j.scaleRegion 32 → s.regionOk l j.stepRegion 32 →
      s.regionOk l j.mapRegion 32 → s.access j.scaleRegion 32 = .good → s.access j.stepRegion 32 = .good →
      s.access j.mapRegion 32 = .good → s.headersOk j → s.jobs.length < 256 → (s.leaJobs l).length < (s.lea l).quotas.jobs →
      (s.lea l).st = .enabled → (∀ e ∈ s.jobs, e.2.jobId ≠ j.jobId) → s.jobs.freeFrom 0 257 = some h →
      ∃ u : State, u = { s.taken l 0x0501 tag args with jobs := s.jobs.insert h { j with logSince := some 0 } } ∧
      exec (.jobBind l tag args) s = answered (u.bindStep j) l .ok [BitVec.ofNat 32 h]) ∧
    (∀ j, Fits 1 args → s.jobOf l (argN args 0) = some j → (∀ e ∈ s.hub.ops, e.2.job ≠ argN args 0) →
      exec (.jobUnbind l tag args) s = answered ((s.taken l 0x0502 tag args).unbind (argN args 0)) l .ok []) := by
  refine ⟨?bind, ?unbind⟩
  case bind =>
    rintro h j hf rfl hargs hr1 hr2 hr3 ha1 ha2 ha3 hhdr hlen hquota hst hid hfree
    refine ⟨_, rfl, finish_issue_done cmdJobBind hs hf rfl (.inl hdev) ?_⟩
    have hall : accessAll [s.access (s.bound l args).scaleRegion 32, s.access (s.bound l args).stepRegion 32,
        s.access (s.bound l args).mapRegion 32] = .good := State.accessAll_good (by simp [ha1, ha2, ha3])
    have hids : (s.jobs.all fun e => e.2.jobId != (s.bound l args).jobId) = true :=
      List.all_eq_true.mpr fun e he => by simp [hid e he]
    simp only [cmdJobBind, cmd, State.taken_bound, State.taken_regionOk, State.taken_access, State.taken_headersOk,
      State.taken_jobs, State.taken_leaJobs, State.taken_lea_quotas, State.taken_lea_st, needAccess, hall, hargs, hr1, hr2,
      hr3, hhdr, hlen, hquota, hst, hids, hfree]
    rfl
  case unbind =>
    intro j hf hj hops
    have hempty : (s.jobOps (argN args 0)).isEmpty = true := by
      simp only [State.jobOps, Map.sel, List.isEmpty_iff, List.filter_eq_nil_iff]
      exact fun e he => by simp [hops e he]
    exact finish_issue_ok cmdJobUnbind hs hf rfl (.inl hdev) (by simp [cmdJobUnbind, jobCmd, jobCmdV, hj, hempty])

/-- A job without a credit link and the credits of it that are not yet sent (R352). -/
def Job.clearLink (jh i : Nat) (j : Job) : Job :=
  { j.dropMessages (· == .credit jh i) with links := j.links.erase i }

/-- Settles O20: the checks of each command are its hypotheses. -/
theorem jobRoleAndMappingCommands : Obligations.JobRoleAndMappingCommands := by
  refine ⟨fun s l tag args hs hdev => ⟨(jobCommands_bind s l tag args hs hdev).1, (jobCommands_bind s l tag args hs hdev).2,
      ?jobRead, ?roleRead⟩,
    fun s l tag args j hs hdev hj hf hroles hread => ⟨fun hlater => ?roleWrite, fun i hi hnot => ?roleRefused⟩,
    fun s l tag args j hs hdev hj => ⟨?shardSet, ?shardClear, ?tedSet, ?tedClear, ?tedHomeSet, ?linkSet, ?linkClear⟩⟩
  case jobRead =>
    exact fun j hf hj => finish_issue_done cmdJobRead hs hf rfl (.inl hdev) (by simp [cmdJobRead, jobCmd, jobCmdV, hj])
  case roleRead =>
    exact fun j hf hj hroles hread => finish_issue_done cmdRoleRead hs hf rfl (.inl hdev) (by
      simp [cmdRoleRead, jobCmd, jobCmdV, hj, hroles, hread, needAccess])
  case roleWrite =>
    have hall : ((List.range (argN args 3)).all fun i =>
        signedLess (s.readWord (j.roleBase args + 8 * i + 4)) (wordAt args (5 + 2 * i))) = true :=
      List.all_eq_true.mpr fun i hi => hlater i (List.mem_range.mp hi)
    exact finish_issue_ok cmdRoleWrite hs hf rfl (.inl hdev) (by
      simp only [cmdRoleWrite, jobCmdV, State.taken_jobOf, hj, hroles, State.taken_access, needAccess, hread,
        State.taken_readWord, hall]
      rfl)
  case roleRefused =>
    have hall : ((List.range (argN args 3)).all fun i =>
        signedLess (s.readWord (j.roleBase args + 8 * i + 4)) (wordAt args (5 + 2 * i))) = false :=
      List.all_eq_false.mpr ⟨i, List.mem_range.mpr hi, by simp [hnot]⟩
    exact finish_issue_fail cmdRoleWrite hs hf rfl (.inl hdev) (by
      simp only [cmdRoleWrite, jobCmdV, State.taken_jobOf, hj, hroles, State.taken_access, needAccess, hread,
        State.taken_readWord, hall]
      rfl)
  case shardSet =>
    exact fun hf h1 haddr huse hgrant hfree hwr => finish_issue_ok cmdShardSet hs hf rfl (.inl hdev) (by
      simp [cmdShardSet, jobCmd, jobCmdV, hj, h1, haddr, huse, hgrant, hfree, needAccess, hwr])
  case shardClear =>
    exact fun hf h1 hset => finish_issue_ok cmdShardClear hs hf rfl (.inl hdev) (by
      simp [cmdShardClear, jobCmd, jobCmdV, hj, h1, hset])
  case tedSet =>
    exact fun hf hok hbusy => finish_issue_ok cmdTedSet hs hf rfl (.inl hdev) (by
      simp [cmdTedSet, jobCmd, jobCmdV, hj, hok, hbusy])
  case tedClear =>
    exact fun hf hbusy => finish_issue_ok cmdTedClear hs hf rfl (.inl hdev) (by
      simp [cmdTedClear, jobCmd, jobCmdV, hj, hbusy])
  case tedHomeSet =>
    rintro t o hf ht rfl h1 hexp hctr haddr hd0 hs0 hd1 hs1 hret hbusy
    simp only [List.forall_mem_cons, List.not_mem_nil, false_implies, implies_true, and_true] at haddr
    obtain ⟨h3, h5, h7, h9, h11⟩ := haddr
    exact finish_issue_ok cmdTedHomeSet hs hf rfl (.inl hdev) (by
      simp [cmdTedHomeSet, jobCmd, jobCmdV, hj, ht, h1, hexp, hctr, h3, h5, h7, h9, h11, State.spansGranted, hd0, hs0, hd1,
        hs1, hret, hbusy])
  case linkSet =>
    exact fun hf h1 h2 h2' h3 h3' h4 h5 h6 h7 h8 hfree => finish_issue_ok cmdCreditLinkSet hs hf rfl (.inl hdev) (by
      have h4 : argN args 4 < 16777216 := h4
      simp [cmdCreditLinkSet, jobCmd, jobCmdV, hj, h1, h2, h2', h3, h3', h4, h5, h6, h7, h8, hfree])
  case linkClear =>
    intro hf h1 hset
    have hbody : cmdCreditLinkClear.body (s.taken l 0x0541 tag args) l args = .ok ((s.taken l 0x0541 tag args).modJob
        (argN args 0) (Job.clearLink (argN args 0) (argN args 1))) := by
      simp only [cmdCreditLinkClear, jobCmd, jobCmdV, State.taken_jobOf, hj, need_pos (decide_eq_true h1), hset, need_pos]
      rfl
    exact ⟨_, _, finish_issue_ok cmdCreditLinkClear hs hf rfl (.inl hdev) hbody,
      State.find_modJob (by rw [State.taken_jobs]; exact State.find_of_jobOf hj) _, rfl, rfl, rfl, by simp⟩

end Sys2Proof.Machine
end

section
/-!
PROOF. Settles O22: the commands of the fabric ports and of the Hykan transport.
-/

namespace Sys2Proof.Machine

/-- The commands of the ports (Table 10.11). -/
theorem portCommands_hold (s : State) (tag : Word) (args : List Word) (hs : s.Serves 0) (hdev : s.hub.dev ≠ .boot) :
    (Fits 9 args → argN args 0 < 16 → argN args 1 < 4 → argN args 3 ∈ [1, 2, 4, 8] → argN args 2 % argN args 3 = 0 →
      argN args 2 + argN args 3 ≤ 16 → argN args 4 ≤ 1 → 1518 ≤ argN args 5 → argN args 5 ≤ 9216 → argN args 6 ≤ 4094 →
      argN args 7 < 64 → argN args 8 < 3 → (argN args 8 = 1 → (configPort (s.port (argN args 0)) args).gbps ≤ 200) →
      (∀ e ∈ s.fab.ports, e.1 ≠ argN args 0 → e.2.sharesLane (configPort (s.port (argN args 0)) args) = false) →
      (s.port (argN args 0)).st = .disabled → exec (.fabPortConfig 0 tag args) s =
        answered ((s.taken 0 0x0301 tag args).modPort (argN args 0) fun p => configPort p args) 0 .ok []) ∧
    (Fits 1 args → argN args 0 < 16 → ((s.port (argN args 0)).st = .disabled ∨ (s.port (argN args 0)).st = .faulted) →
      (s.port (argN args 0)).configured → s.edgeOn (8 + argN args 0) → s.edgeOn (24 + (s.port (argN args 0)).engine) →
      exec (.fabPortEnable 0 tag args) s = answered ((s.taken 0 0x0302 tag args).modPort (argN args 0) fun p => { p with
        st := .training, faults := [], lasers := !s.edgeFenced 39 && !s.fab.detached.contains p.engine }) 0 .ok []) := by
  refine ⟨?config, ?enable⟩
  case config =>
    intro hf h0 h1 h3 hmod hsum h4 h5 h5' h6 h7 h8 hrate hlanes hst
    have hshare : (s.fab.ports.all fun e => e.1 == argN args 0 ||
        !e.2.sharesLane (configPort (s.port (argN args 0)) args)) = true := by
      refine List.all_eq_true.mpr fun e he => ?_
      by_cases h : e.1 = argN args 0
      · simp [h]
      · simp [hlanes e he h]
    have hgbps : ((argN args 8 != 1) || decide ((configPort (s.port (argN args 0)) args).gbps ≤ 200)) = true := by
      by_cases h : argN args 8 = 1
      · simp [hrate h]
      · simp [h]
    have hcount : [1, 2, 4, 8].contains (argN args 3) = true := List.contains_iff_mem.mpr h3
    refine finish_issue_ok cmdFabPortConfig hs hf rfl (.inl hdev) ?_
    have hargs : (argN args 0 < 16 && argN args 1 < 4 && [1, 2, 4, 8].contains (argN args 3) &&
        argN args 2 % argN args 3 == 0 && argN args 2 + argN args 3 ≤ 16 && argN args 4 < 2 && 1518 ≤ argN args 5 &&
        argN args 5 ≤ 9216 && argN args 6 ≤ 4094 && argN args 7 < 64 && argN args 8 < 3 &&
        (argN args 8 != 1 || (configPort (s.port (argN args 0)) args).gbps ≤ 200) && s.fab.ports.all fun e =>
          e.1 == argN args 0 || !e.2.sharesLane (configPort (s.port (argN args 0)) args)) = true := by
      rw [hshare, hgbps, hcount]
      simp [h0, h1, hmod, hsum, Nat.lt_succ_of_le h4, h5, h5', h6, h7, h8]
    simp only [cmdFabPortConfig, cmd, State.taken_port, State.taken_fab]
    exact (need_pos hargs _ _).trans (need_pos (by rw [hst]; rfl) _ _)
  case enable =>
    intro hf h0 hst hconf hport hengine
    exact finish_issue_ok cmdFabPortEnable hs hf rfl (.inl hdev) (by
      simp [cmdFabPortEnable, cmd, h0, hst, hconf, State.portDomains, hport, hengine])

/-- Settles O22: the checks of each command are its hypotheses. -/
theorem portAndHykanCommands : Obligations.PortAndHykanCommands := by
  refine ⟨fun s tag args hs hdev => ⟨(portCommands_hold s tag args hs hdev).1, (portCommands_hold s tag args hs hdev).2,
      ?disable, ?addrSet, ?macsecKey⟩,
    fun s l tag args hs hdev => ⟨?keyLoad, ?keySwitch, ?peerSet, ?peerReset, ?windowSet, ?windowClear, ?cfg⟩⟩
  case disable =>
    exact fun hf h0 hst => finish_issue_ok cmdFabPortDisable hs hf rfl (.inl hdev) (by
      simp [cmdFabPortDisable, cmd, h0, hst])
  case addrSet =>
    exact fun hf h0 h2 h8 hst => finish_issue_ok cmdFabAddrSet hs hf rfl (.inl hdev) (by
      simp [cmdFabAddrSet, cmd, h0, h2, h8, hst])
  case macsecKey =>
    rintro sa hf h0 h1 h2 hconf hsuite rfl
    exact finish_issue_ok cmdFabMacsecKey hs hf rfl (.inl hdev) (by
      rcases hsuite with h | ⟨h, hlen⟩
      · simp [cmdFabMacsecKey, cmd, h0, h1, lt_two_of_le h1, h2, hconf, h]
      · simp [cmdFabMacsecKey, cmd, h0, h1, lt_two_of_le h1, h2, hconf, h, hlen])
  case keyLoad =>
    exact fun j hf hj h1 h10 hsend => finish_issue_ok cmdHykKeyLoad hs hf rfl (.inl hdev) (by
      simp [cmdHykKeyLoad, jobCmd, jobCmdV, hj, h1, Nat.le_of_lt_succ h1, h10, hsend])
  case keySwitch =>
    exact fun j hf hj h1 hkey => finish_issue_ok cmdHykKeySwitch hs hf rfl (.inl hdev) (by
      simp [cmdHykKeySwitch, jobCmd, jobCmdV, hj, h1, Nat.le_of_lt_succ h1, hkey])
  case peerSet =>
    intro j hf hj h1 h8 h9 hpeer
    exact finish_issue_ok cmdHykPeerSet hs hf rfl (.inl hdev) (by
      cases hp : j.peers.find (argN args 1) with
      | none => simp [cmdHykPeerSet, jobCmd, jobCmdV, hj, h1, h8, h9, hp]
      | some p => simp [cmdHykPeerSet, jobCmd, jobCmdV, hj, h1, h8, h9, hp, hpeer p hp])
  case peerReset =>
    exact fun j hf hj h1 hpeer => finish_issue_ok cmdHykPeerReset hs hf rfl (.inl hdev) (by
      simp only [cmdHykPeerReset, jobCmd, jobCmdV, State.taken_jobOf, hj]
      exact (need_pos (by simpa [or_assoc] using h1) _ _).trans (need_pos hpeer _ _))
  case windowSet =>
    exact fun j hf hj h1 haddr halign hlen hpos h5 h5' huse hgrant hfree => finish_issue_ok cmdHykWindowSet hs hf rfl
      (.inl hdev) (by
        simp [cmdHykWindowSet, jobCmd, jobCmdV, hj, h1, haddr, halign, hlen, hpos, h5, h5', huse, hgrant, hfree])
  case windowClear =>
    exact fun j hf hj h1 hset hidle => finish_issue_ok cmdHykWindowClear hs hf rfl (.inl hdev) (by
      simp [cmdHykWindowClear, jobCmd, jobCmdV, hj, h1, hset, hidle])
  case cfg =>
    rintro rfl hf hlive h0 hports
    have hfit : (s.fab.ports.all fun e => !e.2.configured || argN args 0 + 130 + (if e.2.vlan = 0 then 0 else 4) +
        (if e.2.suite = 0 then 0 else 32) ≤ e.2.frame) = true := by
      refine List.all_eq_true.mpr fun e he => ?_
      cases hc : e.2.configured with
      | false => rfl
      | true => simpa [hc] using hports e he hc
    have hdata : [1024, 2048, 4096, 8192].contains (argN args 0) = true := List.contains_iff_mem.mpr h0
    exact finish_issue_ok cmdHykCfg hs hf rfl (.inl hdev) (by
      simp only [cmdHykCfg, cmd, State.taken_fab, State.taken_live, hfit, hdata, hlive]
      rfl)

end Sys2Proof.Machine
end

section
/-!
PROOF. Settles O21: the link states of a port, and what it answers.
-/

namespace Sys2Proof.Machine

theorem State.port_modPort (s : State) (p : Nat) (f : Port → Port) : (s.modPort p f).port p = f (s.port p) :=
  Map.getD_insert_self ..

@[simp] theorem State.settle_port (s : State) (p : Nat) : s.settle.port p = s.port p := by
  simp [State.port]

/-- The state of a link that is up or coming up after a fault (R257). -/
theorem Port.failLink_of_active {p : Port} (now : BitVec 64) (h : p.active = true) : p.failLink now = { p with
    linkFault := true, faultCount := p.faultCount + 1, faults := (p.faults.filter fun t => (now - t).toNat < 2 ^ 30) ++ [now]
    st := if 8 ≤ ((p.faults.filter fun t => (now - t).toNat < 2 ^ 30) ++ [now]).length then .faulted else .training } :=
  if_pos h

/-- The FEC counts of an interval taken (R258). -/
def Port.fecCounted (p : Port) (u c : Nat) : Port :=
  { p with fecUncorr := satNat 32 (p.fecUncorr + u), fecCorr := satNat 32 (p.fecCorr + c) }

/-- A port that found more codewords uncorrectable than FEC_LIMIT. -/
def Port.fecOver (p : Port) : Port := { p with fecHit := true, faultCount := p.faultCount + 1 }

theorem State.port_modEngine {s : State} {e p : Nat} {x : Port} (hx : s.fab.ports.find p = some x) (hc : x.configured = true)
    (he : x.engine = e) (f : Port → Port) : (s.modEngine e f).port p = f x := by
  simp [State.modEngine, State.port, Map.getD, Map.find_mapVals, hx, hc, he]

theorem exec_portLinkFault {s : State} {p u c : Nat} {other : Bool} (hp : p < 16) (hact : (s.port p).active = true) :
    exec (.portLinkFault p u c other) s = .next (s.modPort p fun x =>
      let y := if s.fab.fecLimit < u then (x.fecCounted u c).fecOver else x.fecCounted u c
      if s.fab.fecLimit < u || other then y.failLink s.edge.count else y).settle := by
  have hcongr {f g : Port → Port} (h : f (s.port p) = g (s.port p)) : s.modPort p f = s.modPort p g := by
    rw [State.modPort, h, State.modPort]
  refine Eq.trans (if_neg (by omega)) (congrArg (fun t => Host.Outcome.next (State.settle t)) (hcongr ?_))
  simp only [hact]
  rfl

/-- The port after a link fault that is not its eighth: it trains again. -/
theorem Port.failLink_up {x : Port} {now : BitVec 64} (hst : x.st = .up) :
    x.failLink now = { x with
      linkFault := true, faultCount := x.faultCount + 1, faults := (x.faults.filter fun t => (now - t).toNat < 2 ^ 30) ++ [now]
      st := if 7 ≤ (x.faults.filter fun t => (now - t).toNat < 2 ^ 30).length then .faulted else .training } := by
  rw [Port.failLink_of_active now (by simp [Port.active, hst])]
  simp

/-- A fault of an UP link. -/
theorem exec_portLinkFault_up {s : State} {p : Nat} (u c : Nat) (hp : p < 16) (hst : (s.port p).st = .up) :
    ∃ (t : State) (x : Port), exec (.portLinkFault p u c true) s = .next t ∧ t.port p = x.failLink s.edge.count ∧ x.st = .up ∧
      x.faults = (s.port p).faults ∧ x.fecUncorr = min ((s.port p).fecUncorr + u) (2 ^ 32 - 1) ∧ t.jobs = s.jobs ∧
      t.mem = s.mem := by
  refine ⟨_, if s.fab.fecLimit < u then ((s.port p).fecCounted u c).fecOver else (s.port p).fecCounted u c,
    exec_portLinkFault hp (by simp [Port.active, hst]), ?_, ?_, ?_, ?_, by simp, by simp⟩
  · rw [State.settle_port, State.port_modPort]
    simp
  all_goals
    split <;> simp [Port.fecOver, Port.fecCounted, hst, satNat]

/-- Settles O21: each event changes its port as its rule says. -/
theorem portEvents : Obligations.PortEvents := by
  refine ⟨fun s p u c hp hst hfew => ⟨?fault, fun hfec => ?clean⟩, fun s p u c hp hst hmany => ?eighth,
    fun s p hst hlas hport heng hlatched => ?bringup, fun s p hst hhold => ?hold,
    fun s e p x he hdet hx hconf heng => ?detach, fun s e p x hx hconf heng hact h39 => ?latch,
    fun s p hp hlink => ?pause, fun s p srcMac srcIp hip hmay => ?arp, fun s p srcMac srcIp hip hmay => ?neighbor⟩
  case fault =>
    obtain ⟨t, x, ht, hport, hxst, hxf, hxu, hj, hm⟩ := exec_portLinkFault_up u c hp hst
    rw [Port.failLink_up hxst, hxf, if_neg (by omega)] at hport
    exact ⟨t, ht, by rw [hport], by rw [hport], by simp [hport], by rw [hport]; exact hxu, hj, hm⟩
  case clean =>
    refine ⟨_, exec_portLinkFault hp (by simp [Port.active, hst]), ?_⟩
    rw [State.settle_port, State.port_modPort]
    simp [Nat.not_lt.mpr hfec, Port.fecCounted, hst, satNat]
  case eighth =>
    obtain ⟨t, x, ht, hport, hxst, hxf, -⟩ := exec_portLinkFault_up u c hp hst
    rw [Port.failLink_up hxst, hxf, if_pos hmany] at hport
    exact ⟨t, ht, by rw [hport]⟩
  case bringup => exact if_pos ⟨hst, hlas, by simp [State.portDomains, hport, heng], by rw [hlatched]; rfl⟩
  case hold => exact if_pos ⟨hst, hhold⟩
  case detach =>
    refine ⟨_, if_neg (by rw [hdet]; simp [he]), ?_, ?_, fun hact => ?_⟩
    · rw [State.settle_fab]
      exact List.mem_append_right _ List.mem_cons_self
    · rw [State.settle_port, State.port_modEngine (by exact hx) hconf heng]
    · rw [State.settle_port, State.port_modEngine (by exact hx) hconf heng, Port.failLink_of_active _ hact]
      refine ⟨rfl, ?_⟩
      dsimp only
      split
      · exact .inr rfl
      · exact .inl rfl
  case latch =>
    refine ⟨_, rfl, ?_, ?_, ?_⟩
    · rw [State.settle_fab]
      simp [State.modEngine]
    · rw [State.settle_port, State.port_modEngine (by exact hx) hconf heng, if_pos]
      exact Bool.and_eq_true_iff.mpr ⟨hact, (Bool.not_eq_true' _).mpr h39⟩
    · rw [State.settle_port, State.port_modEngine (by exact hx) hconf heng, if_pos]
      exact Bool.and_eq_true_iff.mpr ⟨hact, (Bool.not_eq_true' _).mpr h39⟩
  case pause => exact if_neg (by simp [Nat.not_le.mpr hp, hlink])
  case arp =>
    refine ⟨_, if_pos ⟨hip, rfl, hmay⟩, ?_⟩
    rw [State.settle_fab, State.settle_jobs, State.settle_mem]
    exact ⟨rfl, rfl, rfl⟩
  case neighbor =>
    refine ⟨_, if_pos ⟨hip, rfl, hmay⟩, ?_⟩
    rw [State.settle_fab, State.settle_jobs, State.settle_mem]
    exact ⟨rfl, rfl, rfl⟩

end Sys2Proof.Machine
end

section
/-!
PROOF. Settles O53: how a lea reset begins, what it leaves of every other lea, and how the lea comes back.
-/

namespace Sys2Proof.Machine

/-! ## What a change of one lea leaves of any lea -/

/-- What a change of a lea keeps, it keeps of every lea. -/
theorem State.lea_modLea_field {β : Type} (s : State) (k l : Nat) (p : Lea → β) {f : Lea → Lea} (hf : ∀ x, p (f x) = p x) :
    p ((s.modLea k f).lea l) = p (s.lea l) := by
  by_cases hl : l = k
  · subst hl
    by_cases h : (s.leas.find l).isSome
    · rw [State.lea_modLea_self _ _ _ h, hf]
    · rw [State.modLea, Option.not_isSome_iff_eq_none.mp h]
  · rw [State.lea_modLea_ne _ _ hl]

/-- A reset of another lea leaves this one. -/
theorem State.lea_beginReset_ne (s : State) {k l : Nat} (h : l ≠ k) (c : ResetCause) : (s.beginReset k c).lea l = s.lea l := by
  show ((s.setLeaSt k .resetting).modLea k _).lea l = _
  rw [State.lea_modLea_ne _ _ h, State.setLeaSt, State.lea_modLea_ne _ _ h]

theorem State.lea_applyReset_ne (s : State) {k l : Nat} (h : l ≠ k) (c : ResetCause) : (s.applyReset k c).lea l = s.lea l := by
  unfold State.applyReset
  split
  · exact s.lea_beginReset_ne h c
  · exact s.lea_beginReset_ne h c
  · exact s.lea_modLea_ne _ h
  · split
    · exact s.lea_modLea_ne _ h
    · split
      · exact s.lea_modLea_ne _ h
      · rfl
  · rfl

theorem State.lea_requestReset_ne (s : State) {k l : Nat} (h : l ≠ k) (c : ResetCause) :
    (s.requestReset k c).lea l = s.lea l := by
  unfold State.requestReset
  split
  · exact s.lea_modLea_ne _ h
  · exact s.lea_applyReset_ne h c

/-- A reset that no command holds back takes effect at once. -/
theorem State.requestReset_of_idle {s : State} {l : Nat} (h : (s.lea l).inCommand = false) (c : ResetCause) :
    s.requestReset l c = s.applyReset l c := by
  simp [State.requestReset, h]

/-- Steps 1 and 2 of Table 14.5, of the lea itself. -/
theorem State.lea_beginReset {s : State} {l : Nat} (h : (s.leas.find l).isSome) (c : ResetCause) :
    (s.beginReset l c).lea l = { (s.lea l).goto .resetting with
      resetting := some { cause := c, entries := c == .leaReset || c == .leaDisable }, resetCause := c } := by
  show ((s.setLeaSt l .resetting).modLea l _).lea l = _
  rw [State.lea_modLea_self _ _ _ (by rw [State.setLeaSt, State.find_modLea]; exact h), State.setLeaSt,
    State.lea_modLea_self _ _ _ h]

theorem State.op_beginReset {s : State} {n : Nat} {o : Op} (h : s.op n = some o) (l : Nat) (c : ResetCause) :
    (s.beginReset l c).op n = some (if o.lea = l then o.cancelWaiting else o) := by
  have hfind : s.hub.ops.find n = some o := h
  simp [State.op, State.beginReset, Map.find_mapVals, hfind]

/-! ## VF Enable cleared (R389) -/

/-- Resets of leas that the fold does not name leave the lea. -/
theorem State.lea_foldl_requestReset_ne (ls : List Nat) (s : State) {l : Nat} (h : l ∉ ls) (c : ResetCause) :
    (ls.foldl (fun (s : State) k => s.requestReset k c) s).lea l = s.lea l := by
  induction ls generalizing s with
  | nil => rfl
  | cons k rest ih =>
    rw [List.foldl_cons, ih _ fun hl => h (List.mem_cons_of_mem _ hl),
      s.lea_requestReset_ne (fun hl => h (by simp [hl]))]

/-- The fold resets a lea that it names once as it finds it. -/
theorem State.lea_foldl_requestReset_mem {ls : List Nat} {l : Nat} (s : State) (h : l ∈ ls) (hnd : ls.Nodup) (c : ResetCause) :
    ∃ u : State, u.lea l = s.lea l ∧
      (ls.foldl (fun (s : State) k => s.requestReset k c) s).lea l = (u.requestReset l c).lea l := by
  obtain ⟨before, after, rfl⟩ := List.append_of_mem h
  obtain ⟨-, hafter, hdisj⟩ := List.nodup_append.mp hnd
  have hb : l ∉ before := fun hl => hdisj l hl l List.mem_cons_self rfl
  refine ⟨before.foldl (fun (s : State) k => s.requestReset k c) s, s.lea_foldl_requestReset_ne before hb c, ?_⟩
  rw [List.foldl_append, List.foldl_cons, State.lea_foldl_requestReset_ne _ _ (List.nodup_cons.mp hafter).1]

@[simp] theorem State.requestReset_mem (s : State) (l : Nat) (c : ResetCause) : (s.requestReset l c).mem = s.mem := by
  unfold State.requestReset
  split <;> simp

@[simp] theorem State.requestReset_jobs (s : State) (l : Nat) (c : ResetCause) : (s.requestReset l c).jobs = s.jobs := by
  unfold State.requestReset
  split <;> simp

@[simp] theorem State.requestReset_pcie (s : State) (l : Nat) (c : ResetCause) : (s.requestReset l c).pcie = s.pcie := by
  unfold State.requestReset
  split <;> simp

theorem State.clearVfs_mem (s : State) : s.clearVfs.mem = s.mem :=
  foldl_keeps (·.mem) _ (fun s l => s.requestReset_mem l .vfClear) _ _

theorem State.clearVfs_jobs (s : State) : s.clearVfs.jobs = s.jobs :=
  foldl_keeps (·.jobs) _ (fun s l => s.requestReset_jobs l .vfClear) _ _

theorem State.clearVfs_pcie (s : State) : s.clearVfs.pcie = { s.pcie with vfEnable := false } :=
  foldl_keeps (·.pcie) _ (fun s l => s.requestReset_pcie l .vfClear) _ _

/-- VF Enable cleared leaves lea 0. -/
theorem State.lea_clearVfs_zero (s : State) : s.clearVfs.lea 0 = s.lea 0 :=
  State.lea_foldl_requestReset_ne _ _ (by simp [range'_eq_listRange']) _

/-- VF Enable cleared takes a virtual function that no command holds to ABSENT, or resets it. -/
theorem State.lea_clearVfs {s : State} {l : Nat} (h1 : 1 ≤ l) (h64 : l < 64) (hidle : (s.lea l).inCommand = false) :
    ∃ u : State, u.lea l = s.lea l ∧ s.clearVfs.lea l = (u.applyReset l .vfClear).lea l := by
  obtain ⟨u, hu, hl⟩ := State.lea_foldl_requestReset_mem (ls := range' 1 63) { s with pcie := { s.pcie with vfEnable := false } }
    (l := l) (by rw [range'_eq_listRange', List.mem_range'_1]; omega) (by rw [range'_eq_listRange']; exact List.nodup_range')
    .vfClear
  have hu' : u.lea l = s.lea l := hu
  exact ⟨u, hu', hl.trans (by rw [State.requestReset_of_idle (by rw [hu']; exact hidle)])⟩

theorem Lea.goto_grants (x : Lea) (st : LeaSt) : (x.goto st).grants = x.grants := by
  unfold Lea.goto
  split <;> rfl

theorem State.applyReset_of_enabled {s : State} {l : Nat} (h : (s.lea l).st = .enabled) (c : ResetCause) :
    s.applyReset l c = s.beginReset l c := by
  simp [State.applyReset, h]

/-! ## Step 8: the lea comes back, and the commands that waited are answered -/

/-- What answering a command leaves of a lea that no reset waits for. -/
def Lea.back (x : Lea) : LeaSt × Option LeaReset × BitVec 16 × Map Queue × Option ResetCause :=
  (x.st, x.resetting, x.resetCount, x.queues, x.pendingReset)

theorem Lea.takeEvent_back (x : Lea) (e : FaultEvent) : (x.takeEvent e).back = x.back := by
  unfold Lea.takeEvent
  split <;> rfl

theorem State.back_interrupt (s : State) (k v l : Nat) : ((s.interrupt k v).lea l).back = (s.lea l).back := by
  obtain ⟨p, hp⟩ := s.lea_interrupt k v l
  rw [hp]
  rfl

theorem State.back_applyEvent (s : State) (k l : Nat) (e : FaultEvent) : ((s.applyEvent k e).lea l).back = (s.lea l).back := by
  have hmod : ((s.modLea k fun x => x.takeEvent e).lea l).back = (s.lea l).back :=
    s.lea_modLea_field k l Lea.back fun x => x.takeEvent_back e
  unfold State.applyEvent
  dsimp only
  split <;> split
  · rw [State.back_interrupt, hmod]
  · exact hmod
  · exact (State.back_interrupt ..).trans hmod
  · exact hmod

theorem State.back_flushEvents (s : State) (k l : Nat) : ((s.flushEvents k).lea l).back = (s.lea l).back := by
  unfold State.flushEvents
  rw [foldl_keeps (fun s => (s.lea l).back) _ fun s e => s.back_applyEvent k l e]
  exact s.lea_modLea_field k l Lea.back fun _ => rfl

theorem State.back_responded (s : State) (k l : Nat) (st : Status) (rs : List Word) :
    ((s.responded k st rs).lea l).back = (s.lea l).back := by
  unfold State.responded
  dsimp only
  have hmod := s.lea_modLea_field k l Lea.back (f := fun x => { x with mbx := x.mbx.respond st rs }) fun _ => rfl
  split
  · rw [State.back_interrupt, hmod]
  · exact hmod

/-- An answered command leaves what a lea without a waiting reset holds. -/
theorem State.back_respond {s : State} {l : Nat} (h : (s.lea l).pendingReset = none) (k : Nat) (st : Status) (rs : List Word) :
    ((s.respond k st rs).lea l).back = (s.lea l).back := by
  have hkeep : (((s.responded k st rs).flushEvents k).lea l).back = (s.lea l).back := by
    rw [State.back_flushEvents, State.back_responded]
  rw [State.respond_eq, ← hkeep]
  by_cases hk : l = k
  · subst hk
    have hnone : (((s.responded l st rs).flushEvents l).lea l).pendingReset = none :=
      (congrArg (fun x => x.2.2.2.2) hkeep).trans h
    rw [State.flushReset_of_none hnone]
  · unfold State.flushReset
    split
    · rfl
    · rw [State.lea_applyReset_ne _ hk, State.lea_modLea_ne _ _ hk]

/-- The answers to the commands that waited leave what the lea holds. -/
theorem State.back_answerResets {s : State} {l : Nat} (h : (s.lea l).pendingReset = none) :
    ((s.answerResets l).lea l).back = (s.lea l).back := by
  refine List.foldlRecOn (motive := fun u : State => (u.lea l).back = (s.lea l).back) _ _ rfl fun u hu k _ => ?_
  have hnone : (u.lea l).pendingReset = none := (congrArg (fun x => x.2.2.2.2) hu).trans h
  split
  · exact (State.back_respond hnone k _ _).trans hu
  · exact hu

theorem State.answerResets_mem (s : State) (l : Nat) : (s.answerResets l).mem = s.mem := by
  refine foldl_keeps (·.mem) _ (fun s k => ?_) _ _
  split <;> simp

/-- Settles O53. -/
theorem leaResets : Obligations.LeaResets := by
  refine ⟨fun s l tag args hs hdev => ⟨?commands, ?halt⟩, fun s l c hst t ht => ?begins, fun s l h1 h64 => ⟨?flr, ?flrAbsent⟩,
    fun s hvf => ?vfOff, fun s hvf => ?vfClear, fun s => rfl, fun s l r u hr hu => ?stopped, fun s l r hr hret hcihal hc hp hst =>
    ?back⟩
  case commands =>
    rintro hf k rfl h64 hst
    refine ⟨fun hself => ?_, fun hl h0 => ?_, fun hl h0 => ?_⟩
    · have hbody : cmdLeaReset.body (s.taken l 0x0012 tag args) l args =
          .defer ((s.taken l 0x0012 tag args).beginReset l .leaReset) .selfReset := by
        subst hself
        simp [cmdLeaReset, cmd, hst, h64]
      exact finish_issue_defer cmdLeaReset hs hf (Issuer.allows_zeroOrSelf (.inr hself)) (.inl hdev) hbody
    · have hbody : cmdLeaReset.body (s.taken l 0x0012 tag args) l args =
          .defer ((s.taken l 0x0012 tag args).requestReset (argN args 0) .leaReset) (.leaReset (argN args 0)) := by
        simp [cmdLeaReset, cmd, hst, h64, hl, h0]
      exact finish_issue_defer cmdLeaReset hs hf (Issuer.allows_zeroOrSelf (.inl hl)) (.inl hdev) hbody
    · have hbody : cmdLeaDisable.body (s.taken l 0x0011 tag args) l args =
          .defer ((s.taken l 0x0011 tag args).requestReset (argN args 0) .leaDisable) (.leaReset (argN args 0)) := by
        simp [cmdLeaDisable, cmd, hst, h64, h0]
      exact finish_issue_defer cmdLeaDisable hs hf (by subst hl; rfl) (.inl hdev) hbody
  case halt =>
    rintro hf rfl hlive
    exact finish_issue_ok cmdDeviceHalt hs hf rfl (.inl hdev) (by simp [cmdDeviceHalt, cmd, hlive])
  case begins =>
    subst ht
    have hlisted := s.listed_of_st l (by simp [hst])
    refine ⟨?_, by simp, by simp, fun n o ho => ?_, fun k hk => s.lea_beginReset_ne hk c⟩
    · rw [State.lea_beginReset hlisted]
      exact Lea.goto_st _ _
    · rw [State.op_beginReset ho]
      by_cases hl : o.lea = l <;> by_cases hw : o.phase = .waiting <;> simp [hl, hw, Op.cancelWaiting]
  case flr =>
    intro hst hidle
    refine (if_pos ⟨h1, h64⟩).trans ?_
    rw [State.requestReset_of_idle hidle, State.applyReset_of_enabled hst]
    rfl
  case flrAbsent =>
    intro hst hidle
    refine (if_pos ⟨h1, h64⟩).trans ?_
    rw [State.requestReset_of_idle hidle, State.applyReset, hst]
    rfl
  case vfOff => exact if_neg (by simp [hvf])
  case vfClear =>
    refine ⟨_, if_pos hvf, ?_, ?_, ?_, ?_, fun l h1 h64 => ⟨fun hst hidle => ?_, fun hst hidle => ?_⟩⟩
    · rw [State.settle_pcie, State.clearVfs_pcie]
    · rw [State.settle_mem, State.clearVfs_mem]
    · rw [State.settle_jobs, State.clearVfs_jobs]
    · rw [State.lea_settle_st, State.lea_clearVfs_zero]
    · obtain ⟨u, hu, hl⟩ := State.lea_clearVfs h1 h64 hidle
      have hlisted : (u.leas.find l).isSome := u.listed_of_st l (by simp [hu, hst])
      have hgone : u.applyReset l .vfClear = u.modLea l Lea.toAbsent := by simp [State.applyReset, hu, hst]
      rw [hgone, State.lea_modLea_self _ _ _ hlisted, hu] at hl
      obtain ⟨a, c, v, w, hsettle⟩ := s.clearVfs.lea_settle l
      rw [hsettle, hl]
      exact ⟨Lea.goto_st _ _, rfl⟩
    · obtain ⟨u, hu, hl⟩ := State.lea_clearVfs h1 h64 hidle
      have hlisted : (u.leas.find l).isSome := u.listed_of_st l (by simp [hu, hst])
      rw [State.applyReset_of_enabled (by rw [hu, hst]), State.lea_beginReset hlisted] at hl
      rw [State.lea_settle_st, hl]
      exact Lea.goto_st _ _
  case stopped =>
    subst hu
    show execLeaResetOpsStopped l s = _
    simp only [execLeaResetOpsStopped, hr, finish]
  case back =>
    have hlisted := s.listed_of_st l (by simp [hst])
    have hexec : exec (.leaResetOpsStopped l) s = .next (s.endReset l r).settle := by
      show execLeaResetOpsStopped l s = _
      simp only [execLeaResetOpsStopped, hr, hret, if_true, hcihal, finish]
    have hafter : s.afterReset l r.cause = s.setLeaSt l .enabled := by
      rcases hc with hc | hc <;> rw [hc] <;> rfl
    have hlea : (((s.afterReset l r.cause).modLea l fun x =>
        { x with resetting := none, resetDone := true, resetCount := x.resetCount + 1 }).lea l) =
        { (s.lea l).goto .enabled with resetting := none, resetDone := true, resetCount := ((s.lea l).goto .enabled).resetCount + 1 } := by
      rw [hafter, State.setLeaSt, State.lea_modLea_self _ _ _ (by rw [State.find_modLea]; exact hlisted),
        State.lea_modLea_self _ _ _ hlisted]
    have hgoto : (s.lea l).goto .enabled = { s.lea l with st := .enabled, changeCount := (s.lea l).changeCount + 1 } :=
      if_neg (by simp [hst])
    rw [hgoto] at hlea
    have hback : ((s.endReset l r).lea l).back = (.enabled, none, (s.lea l).resetCount + 1, (s.lea l).queues, none) := by
      rw [State.endReset, State.back_answerResets (by rw [hlea]; exact hp), hlea]
      simp [Lea.back, hp]
    obtain ⟨a, c, v, w, hsettle⟩ := (s.endReset l r).lea_settle l
    refine ⟨_, hexec, ?_, ?_, ?_, ?_, ?_⟩
    · rw [hsettle]; exact congrArg (·.1) hback
    · rw [hsettle]; exact congrArg (·.2.1) hback
    · rw [hsettle]; exact congrArg (·.2.2.1) hback
    · rw [hsettle]; exact congrArg (·.2.2.2.1) hback
    · rw [State.settle_mem, State.endReset, State.answerResets_mem, State.modLea_mem, hafter, State.setLeaSt_mem]

end Sys2Proof.Machine
end

section
/-!
PROOF. Settles O54: what register accesses return and change, and how the link comes up.
-/

namespace Sys2Proof.Machine

/-! ## Reads and writes of a named register (R6 to R9) -/

/-- A write of a word that reaches the window (R8). -/
theorem exec_registerWrite {s : State} {l off : Nat} (hr : s.reachable l = true) (hoff : off < barSize l) (hal : off % 4 = 0)
    (v : Word) {o : Option (RegDef × Bool)} (ho : regAt l off = o) : exec (.registerWrite l off v) s = .next (State.settle
      (o.elim { s with pcie := { s.pcie with lastAbort := false } }
        fun r => r.1.write { s with pcie := { s.pcie with lastAbort := false } } r.2 v)) := by
  show Host.Outcome.next (State.settle (s.writeWordAt l off v)) = _
  unfold State.writeWordAt
  rw [if_neg (by simp [hr, hoff]), if_neg (by omega)]
  subst ho
  cases h : regAt l off <;> rfl

/-- A read of a word that reaches the window is the same by either row. -/
theorem readWordAt_of_reachable {s : State} {l off : Nat} (hr : s.reachable l = true) (hoff : off < barSize l)
    (hal : off % 4 = 0) {o : Option (RegDef × Bool)} (ho : regAt l off = o) :
    s.readWordAt l off = o.elim (s.readData 0) fun r => s.readReg l off r.1 r.2 := by
  unfold State.readWordAt
  rw [if_neg (by simp [hr, hoff]), if_neg (by omega)]
  subst ho
  cases h : regAt l off <;> rfl

theorem exec_rcRead {s : State} {l off : Nat} (hr : s.reachable l = true) (hoff : off < barSize l) (hal : off % 4 = 0)
    {r : RegDef} {high : Bool} (ho : regAt l off = some (r, high)) :
    exec (.rcRead l off) s = .next (s.readReg l off r high).settle :=
  congrArg (fun u : State => Host.Outcome.next u.settle) (readWordAt_of_reachable hr hoff hal ho)

/-- A read of a register of one word: its value, then its clear-on-read fields are cleared (R9). -/
theorem State.readReg_word (s : State) (l off : Nat) {r : RegDef} (hw : r.wide = false) :
    s.readReg l off r false = r.clear (s.readData (BitVec.ofNat 32 (r.value s))) := by
  simp [State.readReg, hw]

@[simp] theorem State.settleDev_inflightPeak (s : State) : s.settleDev.hub.inflightPeak = s.hub.inflightPeak := by
  obtain h | ⟨d, h⟩ := s.settleDev_cases
  · rw [h]
  · rw [h, State.setDev]
    split <;> rfl

/-- What settles: the peak is at least the present count. -/
theorem State.settle_inflightPeak (s : State) : s.settle.hub.inflightPeak = max s.hub.inflightPeak s.hub.ops.length := by
  have hdef : s.settle.hub.inflightPeak = max s.settleDev.hub.inflightPeak s.settleDev.hub.ops.length := by
    simp only [State.settle, State.settleShares_hub, State.settlePeaks]
  rw [hdef, State.settleDev_inflightPeak, State.settleDev_hub_ops]

/-- A high word that is latched is what a read of it returns (R7). -/
theorem State.readReg_latched {s : State} {l off : Nat} {r : RegDef} {w : Word} (h : (s.lea l).latch.find (off - 4) = some w) :
    s.readReg l off r true = (s.readData w).modLea l fun x => { x with latch := x.latch.erase (off - 4) } := by
  simp only [State.readReg, if_true, h]

/-- A low word latches the high word for the read that follows (R7). -/
theorem State.readReg_low (s : State) (l off : Nat) {r : RegDef} (hw : r.wide = true) : s.readReg l off r false =
    (r.clear (s.readData (BitVec.ofNat 32 (r.value s)))).modLea l fun x => { x with
      latch := x.latch.insert off (BitVec.ofNat 32 (r.value s >>> 32)) } := by
  simp [State.readReg, hw]

/-- The register of the Cihal domain counter. -/
def countReg : RegDef := reg64 0 fun s => s.edge.count.toNat

theorem State.lea_settle_latch (s : State) (l : Nat) : (s.settle.lea l).latch = (s.lea l).latch := by
  obtain ⟨a, c, v, w, h⟩ := s.lea_settle l
  rw [h]

theorem lowWord_counts {s : State} (hr : s.reachable 0 = true) {t : State} (ht : t = (s.readReg 0 0x10000 countReg false).settle) :
    t.pcie.lastRead = s.edge.count.setWidth 32 ∧
    (t.lea 0).latch.find 0x10000 = some (BitVec.ofNat 32 (s.edge.count.toNat >>> 32)) := by
  rw [State.readReg_low s 0 0x10000 rfl] at ht
  subst ht
  constructor
  · rw [State.settle_pcie, State.modLea_pcie]
    exact BitVec.ofNat_toNat ..
  · rw [State.lea_settle_latch, State.lea_modLea_self (countReg.clear (s.readData _)) _ _ (State.listed_of_reachable hr)]
    exact Map.find_insert_self ..

/-! ## The halves of WX_CLUSTER_PRIV (R140) -/

theorem natField_31_0 (n : Nat) : natField n 31 0 = n % 2 ^ 32 := by
  simp [natField]

theorem natField_63_32 {n : Nat} (h : n < 2 ^ 64) : natField n 63 32 = n / 2 ^ 32 := by
  have : n / 2 ^ 32 < 2 ^ 32 := by omega
  rw [natField, Nat.shiftRight_eq_div_pow]
  exact Nat.mod_eq_of_lt this

/-- A half of the register written: the other half stays. -/
theorem toNat_writePriv (s : State) (d : Nat) (high : Bool) (v : Word) : ((s.writePriv d high v).scalarDie d).privReg.toNat =
    if high then (s.scalarDie d).privReg.toNat % 2 ^ 32 + v.toNat * 2 ^ 32
    else (s.scalarDie d).privReg.toNat / 2 ^ 32 * 2 ^ 32 + v.toNat := by
  have hold := (s.scalarDie d).privReg.isLt
  have hv := v.isLt
  have hset : (s.writePriv d high v).scalarDie d = { s.scalarDie d with privReg := BitVec.ofNat 64 (if high then
      natField (s.scalarDie d).privReg.toNat 31 0 + v.toNat <<< 32
      else natField (s.scalarDie d).privReg.toNat 63 32 <<< 32 + v.toNat) } := Map.getD_insert_self ..
  rw [hset, natField_31_0, natField_63_32 hold]
  simp only [BitVec.toNat_ofNat, Nat.shiftLeft_eq]
  split <;> omega

/-! ## The link returns (R30, R48) -/

@[simp] theorem State.putEntry_pcie (s : State) (o : Op) (r : Nat) (k : CRing) (st : Status) (detail : Nat) :
    (s.putEntry o r k st detail).pcie = s.pcie := by
  unfold State.putEntry
  dsimp only
  split
  · simp
  · split <;> simp [State.writeWords]

@[simp] theorem State.tryEntry_pcie (s : State) (n : Nat) : (s.tryEntry n).pcie = s.pcie := by
  unfold State.tryEntry
  split
  · rfl
  split
  · split
    · rfl
    split
    · rfl
    split
    · rfl
    dsimp only
    split <;> simp [State.leaveFlight]
  · rfl

theorem State.tryEntries_pcie (s : State) : s.tryEntries.pcie = s.pcie := by
  refine foldl_keeps (·.pcie) _ (fun s n => ?_) _ _
  split
  · rfl
  · split <;> simp

theorem State.tryEntries_of_idle {s : State} (h : s.hub.ops = []) : s.tryEntries = s := by
  simp [State.tryEntries, h]

/-- Settles O54. -/
theorem registerAccesses : Obligations.RegisterAccesses := by
  refine ⟨?writes, ?absent, ?reads, ?priv, ?link⟩
  case writes =>
    rintro s l off v hr hoff hal u rfl
    refine ⟨fun hno => exec_registerWrite hr hoff hal v hno, fun r high hreg => exec_registerWrite hr hoff hal v hreg,
      fun hlow hl => ?_, ?_, ?_, ?_⟩
    · refine (exec_registerWrite hr hoff hal v rfl).trans ?_
      rw [regAt, if_neg hl, leaReg, if_pos hlow]
      rfl
    · rintro rfl rfl
      exact exec_registerWrite hr hoff hal v rfl
    · rintro rfl rfl
      refine (exec_registerWrite hr hoff hal v rfl).trans ?_
      rw [← BitVec.ofNat_toNat]
      rfl
    · rintro rfl rfl
      refine ⟨_, exec_registerWrite hr hoff hal v rfl, ?_⟩
      rw [State.settle_dies, State.settle_mem, State.settle_jobs]
      exact ⟨rfl, rfl, rfl, rfl, rfl⟩
  case absent =>
    intro s l off hr hoff hal hno i hi
    have hread := readWordAt_of_reachable hr hoff hal hno
    simp only [List.mem_cons, List.not_mem_nil, or_false] at hi
    rcases hi with rfl | rfl <;> exact congrArg (fun u : State => Host.Outcome.next u.settle) hread
  case reads =>
    intro s hr
    refine ⟨?_, ?_, ?_, fun w hw => ?_⟩
    · refine ⟨_, exec_rcRead hr (by decide) rfl rfl, ?_, ?_, ?_, ?_⟩
      · rw [State.settle_pcie]; rfl
      · rw [State.settle_inflightPeak]; exact Nat.zero_max _
      · rw [State.settle_hub_ops]; rfl
      · rw [State.settle_mem]; rfl
    · refine ⟨_, exec_rcRead hr (by decide) rfl rfl, ?_, ?_⟩
      · rw [State.settle_pcie]; rfl
      · rw [State.settle_pwr]; rfl
    · exact ⟨_, congrArg (fun u : State => Host.Outcome.next u.settle)
        (readWordAt_of_reachable (off := 0x10000) hr (by decide) rfl rfl), lowWord_counts hr rfl⟩
    · refine ⟨_, exec_rcRead (r := countReg) (high := true) hr (by decide) rfl rfl, ?_⟩
      rw [State.readReg_latched (off := 0x10004) hw, State.settle_pcie, State.settle_mem, State.settle_edge]
      exact ⟨congrArg (·.lastRead) (State.modLea_pcie ..), State.modLea_mem .., State.modLea_edge ..⟩
  case priv =>
    rintro s die high v old hr hd rfl
    refine ⟨_, if_pos (by simp [hr, hd]), ?_, fun d hne => ?_, ?_, ?_⟩
    · simp only [State.scalarDie, State.settle_scalar]
      exact toNat_writePriv s die high v
    · simp only [State.scalarDie, State.settle_scalar]
      exact Map.getD_insert_ne _ _ _ hne
    · rw [State.settle_scalar]; rfl
    · rw [State.settle_mem]; rfl
  case link =>
    intro s width gen hdown h28 h29 hg hg' hw
    refine ⟨_, if_neg ?_, ?_⟩
    · rcases hw with rfl | rfl | rfl <;> simp [hdown, h28, h29, hg, hg']
    · have hpcie : (State.flushMsix (State.tryEntries { s with pcie := s.pcie.linkUp width gen })).pcie = s.pcie.linkUp width gen :=
        State.tryEntries_pcie _
      rw [State.settle_pcie, State.settle_out, State.settle_mem, hpcie]
      refine ⟨rfl, rfl, rfl, rfl, fun hops => ?_⟩
      have hidle := State.tryEntries_of_idle (s := { s with pcie := s.pcie.linkUp width gen }) hops
      rw [hidle]
      exact ⟨rfl, rfl⟩

end Sys2Proof.Machine
end

section
/-!
PROOF. Settles O23: the received-frame checks of Table 10.7 in their order.
-/

namespace Sys2Proof.Machine

theorem State.modPort_congr {s : State} {p : Nat} {f g : Port → Port} (h : f (s.port p) = g (s.port p)) :
    s.modPort p f = s.modPort p g := by
  rw [State.modPort, h, State.modPort]

/-! ## An event of a port -/

/-- An event noted for a port changes only when it was last raised. -/
theorem State.port_portEvent (s : State) (p cause l jh : Nat) :
    ∃ at', (s.portEvent p cause l jh).port p = { s.port p with eventAt := at' } := by
  unfold State.portEvent
  split
  · exact ⟨_, rfl⟩
  · refine ⟨(s.port p).eventAt.insert cause s.interval, ?_⟩
    simp only [State.port, State.queueEvent_fab]
    exact State.port_modPort s p _

/-- What an event of a port leaves of the fabric's counts. -/
theorem State.portEvent_fab (s : State) (p cause l jh : Nat) :
    ∃ ports, (s.portEvent p cause l jh).fab = { s.fab with ports := ports } := by
  unfold State.portEvent
  split
  · exact ⟨_, rfl⟩
  · simp only [State.queueEvent_fab]
    exact ⟨_, rfl⟩

@[simp] theorem State.portEvent_jobs (s : State) (p cause l jh : Nat) : (s.portEvent p cause l jh).jobs = s.jobs := by
  unfold State.portEvent
  split <;> simp

@[simp] theorem State.portEvent_mem (s : State) (p cause l jh : Nat) : (s.portEvent p cause l jh).mem = s.mem := by
  unfold State.portEvent
  split <;> simp

/-! ## Checks 1 to 7, one by one -/

section
variable {s : State} {f : RxFrame} {types : List Nat} {go : State → Packet → State}

theorem receive_unlinked (h : (s.port f.port).linked = false) : s.receive f types go = s := by
  simp [State.receive, h]

/-- A frame that fails check 1 or 2, where no MACsec failure is the reason. -/
theorem receive_untaken (hl : (s.port f.port).linked = true) (ht : (s.port f.port).takes f = false)
    (hm : f.fcsOk = false ∨ (s.port f.port).suite = 0 ∨ f.macsecOk = true) :
    s.receive f types go = s.modPort f.port fun p => p.dropFrame f := by
  have hno : (f.fcsOk && (s.port f.port).suite != 0 && !f.macsecOk) = false := by
    rcases hm with h | h | h <;> simp [h]
  simp [State.receive, hl, ht, hno]

theorem receive_macsecFails (hl : (s.port f.port).linked = true) (hf : f.fcsOk = true) (hs : (s.port f.port).suite ≠ 0)
    (hm : f.macsecOk = false) :
    s.receive f types go = (s.portEvent f.port 1 0 0xFFFF).modPort f.port fun p => p.dropFrame f := by
  have ht : (s.port f.port).takes f = false := by simp [Port.takes, hs, hm]
  simp [State.receive, hl, ht, hf, hs, hm]

theorem receive_malformed (hl : (s.port f.port).linked = true) (ht : (s.port f.port).takes f = true)
    (hw : wellFormedPacket f.payload = false) :
    s.receive f types go = { s with fab := { s.fab with malformed := s.fab.malformed + 1 } } := by
  simp [State.receive, hl, ht, hw]

variable (hl : (s.port f.port).linked = true) (ht : (s.port f.port).takes f = true) (hw : wellFormedPacket f.payload = true)
  (hty : types.contains (parseHeader f.payload).type = true)
include hl ht hw hty

theorem receive_unknownJob (hj : s.packetJob (parseHeader f.payload) = none) :
    s.receive f types go = { s with fab := { s.fab with unknownJob := s.fab.unknownJob + 1 } } := by
  simp only [State.receive, hl, ht, hw, hty, hj]
  simp

variable {jh : Nat} {j : Job} (hj : s.packetJob (parseHeader f.payload) = some (jh, j))
include hj

theorem receive_unknownPeer
    (hp : (j.peer (parseHeader f.payload).src).any (fun x => x.st == .active && x.addr == f.src) = false) :
    s.receive f types go = { s with fab := { s.fab with unknownPeer := s.fab.unknownPeer + 1 } } := by
  simp only [State.receive, hl, ht, hw, hty, hj, hp]
  simp

variable (hp : (j.peer (parseHeader f.payload).src).any (fun x => x.st == .active && x.addr == f.src) = true)
include hp

theorem receive_noKey (hk : j.keys.find (parseHeader f.payload).slot = none) :
    s.receive f types go = { s with fab := { s.fab with authDrops := s.fab.authDrops + 1 } } := by
  simp only [State.receive, hl, ht, hw, hty, hj, hp, hk]
  simp

theorem receive_badTag {k : KeySlot} (hk : j.keys.find (parseHeader f.payload).slot = some k)
    (htag : gcmTag k.key (parseHeader f.payload).nonce (f.payload.take 36)
      ((f.payload.drop 36).take (f.payload.length - 52)) ≠ f.payload.drop (f.payload.length - 16)) :
    s.receive f types go = ({ s with fab := { s.fab with
      authDrops := s.fab.authDrops + 1, authFail := true, authCount := s.fab.authCount + 1 } } : State).portEvent
        f.port 7 j.lea jh := by
  simp only [State.receive, hl, ht, hw, hty, hj, hp, hk]
  simp only [Bool.not_true, Bool.false_eq_true, if_false]
  exact if_pos htag

end

/-- Every command of a received frame puts it through the checks. -/
theorem exec_receive (f : RxFrame) (s : State) {i : Instr}
    (hi : i ∈ [Instr.receivedFrame f, .data f, .post f, .ack f, .nak f, .heartbeat f, .refillReq f, .refillReply f]) :
    ∃ types go, exec i s = .next (s.receive f types go).settle := by
  simp only [List.mem_cons, List.not_mem_nil, or_false] at hi
  rcases hi with rfl | rfl | rfl | rfl | rfl | rfl | rfl | rfl <;> exact ⟨_, _, rfl⟩

/-- The command of a TYPE takes the frames of that TYPE. -/
theorem exec_receive_type (f : RxFrame) (s : State) {p : Nat × Instr} (hp : p ∈ [(1, Instr.data f), (2, .post f), (3, .ack f),
    (4, .nak f), (5, .heartbeat f), (6, .refillReq f), (7, .refillReply f)]) :
    ∃ go, exec p.2 s = .next (s.receive f [p.1] go).settle := by
  simp only [List.mem_cons, List.not_mem_nil, or_false] at hp
  rcases hp with rfl | rfl | rfl | rfl | rfl | rfl | rfl <;> exact ⟨_, rfl⟩

/-- Settles O23: each check drops and counts the frame before the next is made. -/
theorem hykanCheckOrder : Obligations.HykanCheckOrder := by
  intro s f
  refine ⟨fun i hi => ?_, fun p hp hl ht hw hty => ?_⟩
  · obtain ⟨types, go, hexec⟩ := exec_receive f s hi
    rw [hexec]
    refine ⟨fun hl => by rw [receive_unlinked hl], fun hl hf => ?_, fun hl hf hm ht => ?_, fun hl hf hs hm => ?_,
      fun hl ht hw => by rw [receive_malformed hl ht hw]⟩
    · rw [receive_untaken hl (by simp [Port.takes, hf]) (.inl hf)]
      rw [State.modPort_congr (g := fun p => { p with fcsDrops := p.fcsDrops + 1 }) (by simp [Port.dropFrame, hf])]
    · have hno : ((s.port f.port).suite != 0 && !f.macsecOk) = false := by
        rcases hm with h | h <;> simp [h]
      rw [receive_untaken hl ht (.inr hm)]
      rw [State.modPort_congr (g := fun p => { p with otherDrops := p.otherDrops + 1 })
        (by simp only [Port.dropFrame, hf, hno]; rfl)]
    · obtain ⟨at', hport⟩ := s.port_portEvent f.port 1 0 0xFFFF
      have hdrop : ({ s.port f.port with eventAt := at' } : Port).dropFrame f = { s.port f.port with
          eventAt := at', otherDrops := (s.port f.port).otherDrops + 1, macsecFail := true
          macsecCount := (s.port f.port).macsecCount + 1 } := by
        simp [Port.dropFrame, hf, hs, hm]
      refine ⟨_, rfl, ?_⟩
      rw [receive_macsecFails hl hf hs hm, State.settle_port, State.port_modPort, hport, hdrop]
      exact ⟨rfl, rfl, rfl, by simp, by simp⟩
  · obtain ⟨go, hexec⟩ := exec_receive_type f s hp
    have hcontains : [p.1].contains (parseHeader f.payload).type = true := by simp [hty]
    rw [hexec]
    refine ⟨fun hj => by rw [receive_unknownJob hl ht hw hcontains hj], fun jh j hj => ⟨fun hpeer => ?_, fun hpeer => ⟨?_, ?_⟩⟩⟩
    · rw [receive_unknownPeer hl ht hw hcontains hj hpeer]
    · intro hk
      rw [receive_noKey hl ht hw hcontains hj hpeer hk]
    · intro k hk htag
      obtain ⟨ports, hfab⟩ := State.portEvent_fab { s with fab := { s.fab with
        authDrops := s.fab.authDrops + 1, authFail := true, authCount := s.fab.authCount + 1 } } f.port 7 j.lea jh
      refine ⟨_, rfl, ?_⟩
      rw [receive_badTag hl ht hw hcontains hj hpeer hk htag, State.settle_fab, hfab]
      exact ⟨rfl, rfl, rfl, by simp, by simp⟩

end Sys2Proof.Machine
end

section
/-!
PROOF. Settles O25: what acknowledgements, refusals, heartbeats and refill messages do.
-/

namespace Sys2Proof.Machine

theorem State.modJob_congr {s : State} {h : Nat} {j : Job} {f g : Job → Job} (hj : s.jobs.find h = some j) (hfg : f j = g j) :
    s.modJob h f = s.modJob h g := by
  simp only [State.modJob, hj, hfg]

theorem State.modTx_of_find {s : State} {jh key : Nat} {j : Job} {c : TxChan} (hj : s.jobs.find jh = some j)
    (hc : j.tx.find key = some c) (f : TxChan → TxChan) :
    s.modTx jh key f = s.modJob jh fun x => { x with tx := x.tx.insert key (f c) } :=
  State.modJob_congr hj (by simp only [hc])

/-- A channel with nothing queued sends nothing. -/
theorem State.pump_of_empty {s : State} {jh key : Nat} {j : Job} {c : TxChan} (hj : s.jobs.find jh = some j)
    (hc : j.tx.find key = some c) (hq : c.queued = []) (n : Nat) : s.pump jh key n = s := by
  cases n with
  | zero => rfl
  | succ n => simp only [State.pump, hj, hc, hq]

/-- An ACK past every packet that a channel has sent (R277, R278). -/
theorem TxChan.acknowledge_all {c : TxChan} {cum : Word} (sack rwnd : Nat) (now : BitVec 64) (hne : c.unacked ≠ [])
    (hall : ∀ p ∈ c.unacked, signedLess p.psn cum = true) : c.acknowledge cum sack rwnd now = { c with
      unacked := [], acked := openTail (c.acked ++ c.unacked), backoff := 0, expiries := 0, rwnd := rwnd, since := now } := by
  have hgone : (c.unacked.filter fun p => signedLess p.psn cum) = c.unacked := List.filter_eq_self.2 hall
  have hrest : (c.unacked.filter fun p => !signedLess p.psn cum) = [] :=
    List.filter_eq_nil_iff.2 fun p hp => by simp [hall p hp]
  simp [TxChan.acknowledge, hgone, hrest, hne]

/-- Settles O25. -/
theorem hykanAnswers : Obligations.HykanAnswers := by
  rintro s f jh j k h d rfl rfl
  refine ⟨?ack, ?nak, ?heartbeat, ?refillReq, ?refillReply⟩
  case ack =>
    rintro c hp hce hc hq hne hall c' rfl
    have hexec : exec (.ack f) s = .next (State.takeAck s _).settle :=
      congrArg (fun t => Host.Outcome.next (State.settle t)) (receive_passes hp [3] rfl State.takeAck)
    have hack := c.acknowledge_all (beToNat (((hykContent f k).drop 4).take 8)) (beToNat (((hykContent f k).drop 12).take 2))
      s.now hne fun p hm => (hall p hm).1
    have hdone : (c.unacked.filter fun p => signedLess p.psn (BitVec.ofNat 32 (beToNat ((hykContent f k).take 4))) && p.last) = [] :=
      List.filter_eq_nil_iff.2 fun p hm => by simp [(hall p hm).2]
    rw [hexec]
    simp only [State.takeAck, hce, Nat.lt_irrefl, if_false, hc, List.drop_zero, hdone, hack, State.fastPackets,
      List.filter_nil, List.map_nil, List.foldl_nil, hq, List.length_nil]
    rw [State.modTx_of_find hp.found hc]
    rw [State.pump_of_empty (State.find_modJob hp.found _) (Map.find_insert_self ..) rfl]
    rfl
  case nak =>
    intro c p hp hreason hc hmem hpsn
    have hexec : exec (.nak f) s = .next (State.takeNak s _).settle :=
      congrArg (fun t => Host.Outcome.next (State.settle t)) (receive_passes hp [4] rfl State.takeNak)
    obtain ⟨q, hfind⟩ : ∃ q, (c.unacked.find? fun q => q.psn == BitVec.ofNat 32 (beToNat ((hykContent f k).take 4))) = some q :=
      Option.isSome_iff_exists.1 (List.find?_isSome.2 ⟨p, hmem, by simp [hpsn]⟩)
    rw [hexec]
    simp only [State.takeNak, hc, Option.bind_some, List.drop_zero, hfind, hreason, if_true]
    rw [State.modTx_of_find hp.found hc]
  case heartbeat =>
    intro i e hp he
    have hexec : exec (.heartbeat f) s = .next (s.hearFabric jh (parseHeader f.payload).src
        (BitVec.ofNat 32 (beToNat ((hykContent f k).take 4)))).settle :=
      congrArg (fun t => Host.Outcome.next (State.settle t)) (receive_passes hp [5] rfl _)
    rw [hexec, State.hearFabric, he]
  case refillReq =>
    rintro sec hp rfl hrole hsrc
    have hexec : exec (.refillReq f) s = .next (s.refillRequest jh (parseHeader f.payload).src
        (beToNat ((hykContent f k).take 8) / 32) (BitVec.ofNat 32 (beToNat (((hykContent f k).drop 8).take 4)))).settle := by
      refine congrArg (fun t => Host.Outcome.next (State.settle t)) ((receive_passes hp [6] rfl State.takeRefillReq).trans ?_)
      simp [State.takeRefillReq, hrole, hsrc]
    rw [hexec]
    refine ⟨fun data hans => by rw [State.refillRequest, hans], fun hans => ⟨_, rfl, ?_⟩⟩
    rw [State.refillRequest, hans]
    dsimp only
    split
    · next hheld =>
      rw [State.settle_mem, State.settle_jobs, State.settle_fab, State.settle_heldRefills]
      exact ⟨rfl, rfl, rfl, _, List.contains_iff_mem.1 hheld, rfl, rfl⟩
    · rw [State.settle_mem, State.settle_jobs, State.settle_fab, State.settle_heldRefills]
      exact ⟨rfl, rfl, rfl, _, List.mem_append_right _ (List.mem_singleton.2 rfl), rfl, rfl⟩
  case refillReply =>
    rintro sec e ep st since sent desc hp rfl hlen hres he hw hd hjob
    have hexec : exec (.refillReply f) s = .next (State.takeRefillReply s _).settle :=
      congrArg (fun t => Host.Outcome.next (State.settle t)) (receive_passes hp [7] rfl State.takeRefillReply)
    rw [hexec]
    simp only [State.takeRefillReply, hlen, hres, State.refillReply, he, hw, hd, hjob]
    simp

end Sys2Proof.Machine
end

section
/-!
PROOF. Settles O26: the Hykan timers. Beside what `State.unsent` says of sending, a frame that goes out leaves the chans
of its job's channels.
-/

namespace Sys2Proof.Machine

/-! ## What sending leaves of the channels -/

/-- The channel chans of a job, receiving and sending. -/
def State.chans (s : State) (jh : Nat) : Option (Map RxChan × Map TxChan) := (s.jobs.find jh).map fun j => (j.rx, j.tx)

theorem Job.modPeer_chans (j : Job) (rank : Nat) (f : Peer → Peer) :
    (j.modPeer rank f).rx = j.rx ∧ (j.modPeer rank f).tx = j.tx := by
  unfold Job.modPeer
  split
  · exact ⟨rfl, rfl⟩
  split
  · exact ⟨rfl, rfl⟩
  split <;> exact ⟨rfl, rfl⟩

/-- A change of a job that leaves its channel chans. -/
theorem State.chans_modJob (s : State) (jh h : Nat) {f : Job → Job} (hf : ∀ j, (f j).rx = j.rx ∧ (f j).tx = j.tx) :
    (s.modJob h f).chans jh = s.chans jh := by
  unfold State.chans
  by_cases hk : jh = h
  · subst hk
    cases hj : s.jobs.find jh with
    | none => simp [State.modJob, hj]
    | some j => simp [State.find_modJob hj, hf j]
  · rw [s.find_modJob_ne hk]

theorem State.chans_of_find {s : State} {jh : Nat} {j : Job} (hj : s.jobs.find jh = some j) (f : Job → Job) :
    (s.modJob jh f).chans jh = some ((f j).rx, (f j).tx) := by
  rw [State.chans, State.find_modJob hj, Option.map_some]

theorem State.chans_emit (s : State) (h jh port rank srcPort type : Nat) (mk : HykHeader → HykHeader) (plain : List Byte) :
    (s.emit jh port rank srcPort type mk plain).chans h = s.chans h := by
  unfold State.emit
  split
  · rfl
  split
  · refine Eq.trans (b := State.chans (State.modJob (State.modJob s _ _) _ _) h) rfl ?_
    exact (State.chans_modJob _ _ _ fun j => j.modPeer_chans rank _).trans (State.chans_modJob _ _ _ fun j => ⟨rfl, rfl⟩)
  · rfl

/-- A frame goes out, or none does; the count of timeouts stays. -/
theorem State.emit_fab (s : State) (jh port rank srcPort type : Nat) (mk : HykHeader → HykHeader) (plain : List Byte) :
    ∀ t, t = s.emit jh port rank srcPort type mk plain → t.fab.timeouts = s.fab.timeouts ∧
      (t.fab.out = s.fab.out ∨ ∃ x, t.fab.out = s.fab.out ++ [x]) := by
  rintro t rfl
  unfold State.emit
  split
  · exact ⟨rfl, .inl rfl⟩
  split
  · simp only [State.modPort, State.modJob_fab, true_and]
    exact .inr ⟨_, rfl⟩
  · exact ⟨rfl, .inl rfl⟩

theorem State.emitLoose_keeps (s : State) (jh rank channel type : Nat) (mk : HykHeader → HykHeader) (plain : List Byte) :
    ∀ t, t = s.emitLoose jh rank channel type mk plain → t.chans jh = s.chans jh ∧
      (t.fab.out = s.fab.out ∨ ∃ x, t.fab.out = s.fab.out ++ [x]) := by
  rintro t rfl
  unfold State.emitLoose
  split
  · exact ⟨rfl, .inl rfl⟩
  split
  · exact ⟨rfl, .inl rfl⟩
  · exact ⟨State.chans_emit .., (State.emit_fab _ _ _ _ _ _ _ _ _ rfl).2⟩

/-! ## The ACK of a channel -/

theorem State.sendAck_job {s : State} {jh key : Nat} {j : Job} (hj : s.jobs.find jh = some j) {c : RxChan}
    (hc : j.rx.find key = some c) : ∃ t j', s.sendAck jh key = t ∧ t.mem = s.mem ∧ t.jobs.find jh = some j' ∧
      j'.rx = j.rx.insert key { c with unackedCount := 0, oldest := none } ∧ j'.tx = j.tx ∧
      (t.fab.out = s.fab.out ∨ ∃ x, t.fab.out = s.fab.out ++ [x]) := by
  have hget : j.rx.getD key {} = c := by rw [Map.getD, hc]; rfl
  have hctx : ∀ (mk : HykHeader → HykHeader) (plain : List Byte) (u : State), u = State.modJob (State.modJob
      { s with hub := { s.hub with free := s.hub.free + 1 } } jh fun j => { j with
        rx := j.rx.insert key { (j.rx.getD key {}) with unackedCount := 0, oldest := none } }) jh
        (fun j => j.modPeer (key / 4096) fun p => { p with ceRx := 0 }) →
      ∃ t j', u.emitLoose jh (key / 4096) (key % 4096) 3 mk plain = t ∧ t.mem = s.mem ∧ t.jobs.find jh = some j' ∧
      j'.rx = j.rx.insert key { c with unackedCount := 0, oldest := none } ∧ j'.tx = j.tx ∧
      (t.fab.out = s.fab.out ∨ ∃ x, t.fab.out = s.fab.out ++ [x]) := by
    intro mk plain u hu
    obtain ⟨hcon, hout⟩ := State.emitLoose_keeps u jh (key / 4096) (key % 4096) 3 mk plain _ rfl
    have hucon : u.chans jh = some (j.rx.insert key { c with unackedCount := 0, oldest := none }, j.tx) := by
      subst hu
      rw [State.chans_modJob _ _ _ fun j => j.modPeer_chans _ _,
        State.chans_of_find (s := { s with hub := { s.hub with free := s.hub.free + 1 } }) hj, hget]
    have hufab : u.fab = s.fab := by subst hu; simp
    have humem : u.mem = s.mem := by subst hu; simp
    rw [hucon] at hcon
    obtain ⟨j', hj', heq⟩ := Option.map_eq_some_iff.1 hcon
    rw [hufab] at hout
    exact ⟨_, j', rfl, (State.unsent_mem (State.unsent_emitLoose ..)).trans humem, hj', (Prod.mk.inj heq).1, (Prod.mk.inj heq).2,
      hout⟩
  unfold State.sendAck
  rw [hj]
  exact hctx _ _ _ rfl

/-! ## Packets sent again (R278) -/

/-- A channel without the port and the path that it has taken. -/
def TxChan.unrouted (c : TxChan) : TxChan := { c with port := none, repath := 0 }

/-- What sending a channel's packets again leaves: memory, the count of timeouts, and the channel but for its path. -/
def State.sending (s : State) (jh key : Nat) :=
  (s.mem, s.fab.timeouts, (s.chans jh).map fun x => (x.1, (x.2.find key).map TxChan.unrouted))

theorem State.sending_emitData (s : State) (jh key : Nat) (c : TxChan) (port : Nat) (p : TxPacket) (retx : Bool) :
    (s.emitData jh key c port p retx).sending jh key = s.sending jh key := by
  unfold State.emitData State.sending
  rw [State.chans_emit, (State.emit_fab _ _ _ _ _ _ _ _ _ rfl).1, State.unsent_mem (State.unsent_emit ..)]

/-- A channel given another path. -/
theorem State.sending_route {s : State} {jh key : Nat} {j : Job} {c c' : TxChan} (hj : s.jobs.find jh = some j)
    (hc : j.tx.find key = some c) (h : c'.unrouted = c.unrouted) :
    (s.modJob jh fun j => { j with tx := j.tx.insert key c' }).sending jh key = s.sending jh key := by
  unfold State.sending State.chans
  rw [State.find_modJob hj, hj]
  simp [hc, h]

theorem State.sending_retransmit (s : State) (jh key : Nat) (p : TxPacket) :
    (s.retransmit jh key p).sending jh key = s.sending jh key := by
  unfold State.retransmit
  split
  · rfl
  next j hj =>
  split
  · next c peer hc _ =>
    split
    · split
      · refine (State.sending_emitData ..).trans (Eq.trans rfl (State.sending_route hj hc rfl))
      · rfl
    · rfl
  · rfl

theorem State.sending_repathChan (s : State) (jh key : Nat) : (s.repathChan jh key).sending jh key = s.sending jh key := by
  unfold State.repathChan
  split
  · rfl
  next j hj =>
  split
  · next c p hc _ =>
    dsimp only
    split
    · rfl
    · rw [State.modTx_of_find hj hc]
      exact State.sending_route hj hc rfl
  · rfl

/-- The channel whose timeout has run out (R278). -/
def State.timedOut (s : State) (jh key : Nat) (c : TxChan) : State :=
  ({ s with fab := { s.fab with timeouts := s.fab.timeouts + 1 } } : State).modTx jh key fun x => { x with
    expiries := c.expiries + 1, backoff := x.backoff + 1, since := s.now }

theorem State.sending_timedOut (s : State) {jh key : Nat} {j : Job} {c : TxChan} (hj : s.jobs.find jh = some j)
    (hc : j.tx.find key = some c) : (s.timedOut jh key c).sending jh key = (s.mem, s.fab.timeouts + 1, some (j.rx,
      some ({ c with expiries := c.expiries + 1, backoff := c.backoff + 1, since := s.edge.count } : TxChan).unrouted)) := by
  unfold State.timedOut State.sending
  rw [State.modTx_of_find (s := { s with fab := { s.fab with timeouts := s.fab.timeouts + 1 } }) hj hc,
    State.chans_of_find (s := { s with fab := { s.fab with timeouts := s.fab.timeouts + 1 } }) hj]
  simp [State.now, TxChan.unrouted]

/-- A timeout that counts: the RETRY_LIMIT-th in a row loses the peer, and any other sends the packets again (R278, R280). -/
theorem exec_retxTimeout {s : State} {jh key : Nat} {j : Job} {c : TxChan} (hj : s.jobs.find jh = some j)
    (hc : j.tx.find key = some c) (hdue : (c.unacked.any fun p => !p.sacked && !j.waitsFor p.owner) = true)
    (hel : s.rto c ≤ s.elapsed c.since) : exec (.retxTimeout jh key) s =
      if s.fab.retryLimit ≤ c.expiries + 1 then .next ((s.timedOut jh key c).losePeer jh (key / 4096) .lost).settle
      else .next (List.foldl (fun (s : State) p => s.retransmit jh key p)
        (if (c.expiries + 1) % 2 = 0 then (s.timedOut jh key c).repathChan jh key else s.timedOut jh key c)
        (c.unacked.filter fun p => !p.sacked && !j.waitsFor p.owner)).settle := by
  have hdue' : (c.unacked.filter fun p => !p.sacked && !j.waitsFor p.owner).isEmpty = false := by
    simpa using hdue
  have hlimit : (s.timedOut jh key c).fab.retryLimit = s.fab.retryLimit := by
    simp [State.timedOut, State.modTx]
  show execRetxTimeout jh key s = _
  unfold execRetxTimeout
  rw [hj]
  dsimp only
  rw [hc]
  dsimp only
  rw [if_neg (by simp only [hdue', Bool.false_or, decide_eq_true_eq]; exact Nat.not_lt.2 hel)]
  by_cases hlim : s.fab.retryLimit ≤ c.expiries + 1
  · rw [if_pos hlim]
    refine Eq.trans (if_pos ?_) rfl
    exact Nat.le_trans (Nat.le_of_eq hlimit) hlim
  · rw [if_neg hlim]
    refine Eq.trans (if_neg ?_) rfl
    exact fun h => hlim (Nat.le_trans (Nat.le_of_eq hlimit.symm) h)

/-- What `State.sending` says of a state. -/
theorem State.of_sending {t u : State} {jh key : Nat} {n : BitVec 16} {m : Memory} {r : Map RxChan} {c : TxChan}
    (hu : u.sending jh key = (m, n, some (r, some c.unrouted))) (h : t.sending jh key = u.sending jh key) :
    t.mem = m ∧ t.fab.timeouts = n ∧ ∃ j', t.jobs.find jh = some j' ∧ j'.rx = r ∧ ∃ c', j'.tx.find key = some c' ∧
      c'.unrouted = c.unrouted := by
  rw [hu] at h
  simp only [State.sending, State.chans, Prod.mk.injEq, Option.map_eq_some_iff] at h
  obtain ⟨hm, hn, x, ⟨j', hj', rfl⟩, hr, c', hc', hroute⟩ := h
  exact ⟨hm, hn, j', hj', hr, c', hc', hroute⟩

/-- Settles O26: what sending leaves gives what a timer's packets leave. -/
theorem hykanTimers : Obligations.HykanTimers := by
  intro s jh j hj
  refine ⟨?ackDelay, ?timeout, ?lost, ?rise, ?marked, ?resend, ?resolve⟩
  case ackDelay =>
    intro chan c t0 hc hold hel
    obtain ⟨t, j', ht, hmem, hj', hrx, htx, hout⟩ := s.sendAck_job hj hc
    have hexec : exec (.ackDelayExpiry jh chan) s = .next t.settle := by
      show execAckDelayExpiry jh chan s = _
      simp only [execAckDelayExpiry, hj, hc, Option.bind_some, hold, Nat.not_lt.2 hel, if_false, ht]
      rfl
    refine ⟨_, j', hexec, ?_⟩
    rw [State.settle_mem, State.settle_jobs, State.settle_fab]
    refine ⟨hmem, hj', hrx, htx, ?_⟩
    rcases hout with h | ⟨x, h⟩ <;> simp [h]
  case timeout =>
    intro chan c hc hdue hel hlim
    have hpath : State.sending (if (c.expiries + 1) % 2 = 0 then (s.timedOut jh chan c).repathChan jh chan
        else s.timedOut jh chan c) jh chan = (s.timedOut jh chan c).sending jh chan := by
      split
      · exact State.sending_repathChan ..
      · rfl
    have hexec := (exec_retxTimeout hj hc hdue hel).trans (if_neg (Nat.not_le.2 hlim))
    obtain ⟨hmem, htime, j', hj', hrx, c', hc', hroute⟩ := State.of_sending (s.sending_timedOut hj hc) ((foldl_keeps
      (fun s => s.sending jh chan) _ (fun (s : State) p => s.sending_retransmit jh chan p) _ _).trans hpath)
    refine ⟨_, j', c', hexec, ?_⟩
    rw [State.settle_mem, State.settle_fab, State.settle_jobs]
    exact ⟨hmem, htime, hj', hrx, hc', congrArg (·.expiries) hroute, congrArg (·.backoff) hroute, congrArg (·.since) hroute,
      congrArg (·.unacked) hroute, congrArg (·.queued) hroute⟩
  case lost =>
    intro chan c hc hdue hel hlim
    refine (exec_retxTimeout hj hc hdue hel).trans ((if_pos hlim).trans ?_)
    rw [State.timedOut, State.modTx_of_find (s := { s with fab := { s.fab with timeouts := s.fab.timeouts + 1 } }) hj hc,
      State.modTx_of_find (s := { s with fab := { s.fab with timeouts := s.fab.timeouts + 1 } }) hj hc]
    rfl
  case rise =>
    intro rank p r q hp hr hwin hce hq
    show execRateWindowEnd jh rank s = _
    simp only [execRateWindowEnd, hj, hp, hr, Nat.not_le.2 hwin, hce, hq, if_false]
    rfl
  case marked =>
    intro rank p r hp hr hwin hce
    show execRateWindowEnd jh rank s = _
    simp only [execRateWindowEnd, hj, hp, hr, Nat.not_le.2 hwin, hce, if_false]
    rfl
  case resend =>
    intro i w t0 hw hat hel
    show execRoleResendTimer jh i s = _
    simp only [execRoleResendTimer, hj, hw, hat, Nat.not_lt.2 hel, if_false]
    rfl
  case resolve =>
    intro i w hw hel
    show execRoleResolveTimeout jh i s = _
    simp only [execRoleResolveTimeout, hj, hw, Nat.not_lt.2 hel, if_false]
    rfl

end Sys2Proof.Machine
end

section
/-!
PROOF. Settles O24: where an accepted packet is placed, and what a message of one packet does when it is delivered.
-/

namespace Sys2Proof.Machine

/-! ## What events leave of a lea -/

/-- A lea without its record of events: its queue, what waits to enter it, and the interrupts that it awaits. -/
def Lea.unnoted (x : Lea) : Lea :=
  { x with evSeq := 0, evOverflow := false, evDropped := 0, evQueued := false, evQueuedCount := 0, events := []
           pendingEvents := [], pba := 0 }

theorem State.unnoted_modLea (s : State) (l : Nat) {f : Lea → Lea} (hf : ∀ x, (f x).unnoted = x.unnoted) (k : Nat) :
    ((s.modLea l f).lea k).unnoted = (s.lea k).unnoted := s.lea_modLea_field l k Lea.unnoted hf

theorem State.unnoted_interrupt (s : State) (l v k : Nat) : ((s.interrupt l v).lea k).unnoted = (s.lea k).unnoted := by
  obtain ⟨p, h⟩ := s.lea_interrupt l v k
  rw [h]
  rfl

theorem State.unnoted_ite_interrupt (s : State) (b : Bool) (l v k : Nat) :
    ((if b then s.interrupt l v else s).lea k).unnoted = (s.lea k).unnoted := by
  split
  · exact s.unnoted_interrupt l v k
  · rfl

theorem Lea.unnoted_takeEvent (x : Lea) (e : FaultEvent) : (x.takeEvent e).unnoted = x.unnoted := by
  unfold Lea.takeEvent
  split <;> rfl

theorem State.unnoted_applyEvent (s : State) (l : Nat) (e : FaultEvent) (k : Nat) :
    ((s.applyEvent l e).lea k).unnoted = (s.lea k).unnoted := by
  have htake := s.unnoted_modLea l (fun x => x.unnoted_takeEvent e) k
  unfold State.applyEvent
  refine (State.unnoted_ite_interrupt ..).trans ?_
  split <;> exact htake

theorem State.unnoted_queueEvent (s : State) (l : Nat) (e : FaultEvent) (k : Nat) :
    ((s.queueEvent l e).lea k).unnoted = (s.lea k).unnoted := by
  unfold State.queueEvent
  split
  · rfl
  split
  · exact s.unnoted_modLea l (f := fun x => { x with pendingEvents := x.pendingEvents ++ [e] }) (fun _ => rfl) k
  · exact s.unnoted_applyEvent l e k

theorem State.unnoted_write (s : State) (base : Nat) (bytes : List Byte) (k : Nat) :
    ((s.write base bytes).lea k).unnoted = (s.lea k).unnoted :=
  foldl_keeps (fun s => (s.lea k).unnoted) _ (fun _ _ =>
    foldl_keeps (fun s => (s.lea k).unnoted) _ (fun (s : State) (l : Nat) => s.unnoted_queueEvent l _ k) _ _) _ _

/-- HBM after a write depends on HBM alone. -/
theorem State.write_mem_congr {s u : State} (h : u.mem = s.mem) (base : Nat) (bytes : List Byte) :
    (u.write base bytes).mem = (s.write base bytes).mem := by
  unfold State.write
  rw [foldl_keeps State.mem State.poisonEvents State.poisonEvents_mem, foldl_keeps State.mem State.poisonEvents
    State.poisonEvents_mem, h]

theorem Memory.storeBytes_descs (m : Memory) (a : Nat) (bytes : List Byte) : (m.storeBytes a bytes).descs = m.descs := by
  induction bytes generalizing m a with
  | nil => rfl
  | cons b rest ih =>
    rw [Memory.storeBytes, ih, Memory.storeByte]
    split <;> rfl

theorem State.write_descs (s : State) (base : Nat) (bytes : List Byte) : (s.write base bytes).mem.descs = s.mem.descs := by
  unfold State.write
  rw [foldl_keeps State.mem State.poisonEvents State.poisonEvents_mem]
  exact s.mem.storeBytes_descs base bytes

theorem signedLess_self (a : Word) : signedLess a a = false := by
  have h : a - a = 0#32 := by bv_omega
  rw [signedLess, h]
  rfl

theorem signedLess_succ (a : Word) : signedLess a (a + 1) = true := by
  have h : a - (a + 1) = 0xFFFFFFFF#32 := by bv_omega
  rw [signedLess, h]
  rfl

/-! ## Nothing notes a write (R209, R326) -/

theorem State.noteWrite_of_none {s : State} (h : s.mem.descs = []) (st : Word) (base len : Nat) : s.noteWrite st base len = s := by
  have hm : ({ s.mem with descs := s.mem.descs } : Memory) = { s.mem with descs := [] } := by rw [h]
  unfold State.noteWrite
  rw [h]
  exact congrArg (fun m => { s with mem := m }) hm.symm

theorem State.noteShards_of_none {s : State} (h : ∀ e ∈ s.jobs, e.2.shards = []) (step : Word) (spans : List Span) :
    s.noteShards step spans = (s, none) := by
  have hits : (s.jobs.flatMap fun e => (e.2.shards.filter fun h => spans.any fun x => x.write &&
      x.base < h.2.1 + 32 + h.2.2 && h.2.1 + 32 < x.base + x.len).map fun h => (h.1, h.2.1)) = [] :=
    List.flatMap_eq_nil_iff.2 fun e he => by rw [h e he]; rfl
  rw [State.noteShards, hits]
  rfl

/-- A signal of a counter that no credit link watches (R51). -/
theorem State.signal_of_unwatched {s : State} {l i : Nat} (h : s.watchers l i = []) (n : Nat) :
    s.signal l i n = s.setCounter l i { s.counter l i with value := (s.counter l i).value + BitVec.ofNat 32 n } := by
  have hw : (s.setCounter l i { s.counter l i with value := (s.counter l i).value + BitVec.ofNat 32 n }).watchers l i = [] := by
    rw [State.watchers, State.setCounter, State.modLea_jobs]
    exact h
  unfold State.signal
  dsimp only
  rw [hw]
  rfl

/-! ## A packet in order is accepted (R275) -/

/-- The channel past the packet that it awaited. -/
def RxChan.next (c : RxChan) (now : BitVec 64) : RxChan :=
  { c with cum := c.cum + 1, unackedCount := c.unackedCount + 1, oldest := some (c.oldest.getD now) }

theorem RxChan.accept_next {c : RxChan} {p : RxPacket} (ha : c.above = []) (hh : c.held = []) (hp : p.psn = c.cum)
    (now : BitVec 64) : c.accept p now = { c.next now with held := [p] } := by
  simp [RxChan.accept, RxChan.advance, RxChan.next, ha, hh, hp]

/-- A packet that a channel awaits, that names no role, passes checks 8 to 10. -/
theorem State.sequence_next {s : State} {x : Packet} {c : RxChan}
    (hc : x.j.rx.getD (chanKey x.h.src x.h.channel) {} = c) (hn : x.h.psn = c.cum) (ha : c.above = [])
    (hr : x.h.roleKind = 0) (k : State → State) : s.sequence x k = k s := by
  simp only [State.sequence, hc, hn, ha, hr, signedLess_self]
  simp

/-- The packet that a channel holds of a received one. -/
def Packet.held (x : Packet) (pl : Placement) (body : List Byte) : RxPacket :=
  { psn := x.h.psn, last := x.h.last, post := x.h.type == 2, pl := pl, body := body, step := x.h.step
    roleKind := x.h.roleKind, roleIndex := x.h.roleIndex }

/-- What the lemmas of an accepted packet suppose: the channel awaits it next and holds nothing else. -/
structure State.Awaits (s : State) (x : Packet) (c : RxChan) : Prop where
  job : s.jobs.find x.jh = some x.j
  chan : x.j.rx.getD (chanKey x.h.src x.h.channel) {} = c
  psn : x.h.psn = c.cum
  above : c.above = []
  held : c.held = []
  few : c.unackedCount < 15
  noAck : x.h.ackReq = false
  noCe : x.ce = false

/-- The packet taken into its channel. -/
def State.tookPacket (s : State) (x : Packet) (c : RxChan) : State :=
  s.modJob x.jh fun j => { j with rx := j.rx.insert (chanKey x.h.src x.h.channel) c }

theorem State.tookPacket_tookPacket (s : State) (x : Packet) (c d : RxChan) :
    (s.tookPacket x c).tookPacket x d = s.tookPacket x d := by
  simp only [State.tookPacket, State.modJob_modJob]
  congr 1
  funext j
  simp

theorem State.find_tookPacket {s : State} {x : Packet} (h : s.jobs.find x.jh = some x.j) (c : RxChan) :
    (s.tookPacket x c).jobs.find x.jh = some { x.j with rx := x.j.rx.insert (chanKey x.h.src x.h.channel) c } :=
  State.find_modJob h _

/-- Accepting a packet: its channel takes it, and what can be delivered is. -/
theorem State.acceptPacket_eq {s : State} {x : Packet} {c : RxChan} (h : s.Awaits x c) (pl : Placement) (body : List Byte) :
    s.acceptPacket x pl body = (s.tookPacket x { c.next s.now with held := [x.held pl body] }).deliverReady x.jh
      (chanKey x.h.src x.h.channel) 2 := by
  obtain ⟨hj, hc, hn, ha, hh, hfew, hno, hce⟩ := h
  have htook : s.modRx x.jh (chanKey x.h.src x.h.channel) (fun c => c.accept
      { psn := x.h.psn, last := x.h.last, post := x.h.type == 2, pl := pl, body := body, step := x.h.step
        roleKind := x.h.roleKind, roleIndex := x.h.roleIndex } s.now) = s.tookPacket x { c.next s.now with held := [x.held pl body] } :=
    State.modJob_congr hj (by simp only [hc]; rw [RxChan.accept_next ha hh hn]; rfl)
  simp only [State.acceptPacket, htook, State.find_tookPacket hj, Map.getD_insert_self]
  have hfew' : ¬ 16 ≤ c.unackedCount + 1 := by omega
  simp [RxChan.next, ha, hfew', hno, hce]

/-- A packet that does not end its message waits for the rest of it. -/
theorem State.acceptPacket_open {s : State} {x : Packet} {c : RxChan} (h : s.Awaits x c) (pl : Placement) (body : List Byte)
    (hl : x.h.last = false) :
    s.acceptPacket x pl body = s.tookPacket x { c.next s.now with held := [x.held pl body] } := by
  rw [State.acceptPacket_eq h]
  simp [State.deliverReady, State.find_tookPacket h.job, splitRx, Packet.held, hl]

/-- A packet that is a whole message has it delivered. -/
theorem State.acceptPacket_last {s : State} {x : Packet} {c : RxChan} (h : s.Awaits x c) (pl : Placement) (body : List Byte)
    (hl : x.h.last = true) (hd : c.delivered = c.cum) {u v : State}
    (hu : u = s.tookPacket x { c.next s.now with held := [], delivered := c.cum + 1 })
    (hv : v = u.deliver x.jh (chanKey x.h.src x.h.channel) [x.held pl body]) (hjobs : v.jobs = u.jobs) :
    s.acceptPacket x pl body = v := by
  have hrest : v.deliverReady x.jh (chanKey x.h.src x.h.channel) 1 = v := by
    rw [State.deliverReady, hjobs, hu, State.find_tookPacket h.job]
    simp [splitRx]
  rw [State.acceptPacket_eq h, State.deliverReady, State.find_tookPacket h.job]
  have hgo : (([x.held pl body].head?.any fun y => y.psn == (c.next s.now).delivered) && signedLess (x.held pl body).psn
      (c.next s.now).cum) = true := by
    simp only [List.head?_cons, Option.any_some, Packet.held, RxChan.next, h.psn, hd, signedLess_succ]
    simp
  have hlast : (x.held pl body).last = true := hl
  have htook : ∀ d, ((s.tookPacket x { c.next s.now with held := [x.held pl body] }).modRx x.jh
      (chanKey x.h.src x.h.channel) fun y => { y with held := [], delivered := d }) =
      s.tookPacket x { c.next s.now with held := [], delivered := d } := by
    intro d
    refine Eq.trans ?_ (s.tookPacket_tookPacket x { c.next s.now with held := [x.held pl body] } _)
    exact State.modJob_congr (State.find_tookPacket h.job _) (by simp only [Map.getD_insert_self])
  simp only [Option.bind_some, Map.find_insert_self, splitRx, hlast, if_true, List.getLast?_singleton, hgo, Bool.true_and, htook]
  rw [show (x.held pl body).psn = c.cum from h.psn, ← hu, ← hv]
  exact hrest

/-! ## Delivery of a message of one packet (R275) -/

/-- A DATA message whose writes nothing notes: it may go to a unit, and its signal is applied. -/
theorem State.deliver_data {u : State} {jh key : Nat} {j : Job} {p : RxPacket} (hj : u.jobs.find jh = some j)
    (hp : p.post = false) (hd : u.mem.descs = []) (hs : ∀ e ∈ u.jobs, e.2.shards = []) :
    ∃ ds, u.deliver jh key [p] = if p.pl.useSignal then
      ({ u with delivered := ds } : State).signal j.lea p.pl.signalIdx p.pl.signalInc else { u with delivered := ds } := by
  have hnotes : ∀ l : List Span, l.foldl (fun (s : State) x => s.noteWrite p.step x.base x.len) u = u := by
    intro l
    induction l with
    | nil => rfl
    | cons x rest ih => rw [List.foldl_cons, State.noteWrite_of_none hd, ih]
  simp only [State.deliver, hj, hp, hnotes, State.noteShards_of_none hs, List.getLast?_singleton]
  cases u.msgKind jh j (key / 4096) p.pl.target ([p].flatMap (·.body)) with
  | none => exact ⟨u.delivered, rfl⟩
  | some k => exact ⟨_, rfl⟩

/-- A POST message puts its slot at the tail of its queue. -/
theorem State.deliver_post {u : State} {jh key : Nat} {j : Job} {p : RxPacket} (hj : u.jobs.find jh = some j)
    (hp : p.post = true) (hs : p.pl.useSignal = false) :
    u.deliver jh key [p] = u.putPost j.lea p.pl.target p.body := by
  simp [State.deliver, hj, hp, hs]

/-- The packet that a frame holds once it has passed checks 1 to 7. -/
def packetOf (f : RxFrame) (jh : Nat) (j : Job) (k : KeySlot) : Packet :=
  { jh := jh, j := j, h := parseHeader f.payload, plain := hykContent f k, ce := false }

theorem Job.InOrder.awaits {s : State} {f : RxFrame} {ty jh : Nat} {j : Job} {k : KeySlot} {c : RxChan} (h : j.InOrder f c)
    (hp : s.HykPasses f ty jh j k) {u : State} (hu : u.jobs = s.jobs) : u.Awaits (packetOf f jh j k) c :=
  ⟨by rw [hu]; exact hp.found, h.chan, h.next, h.above, h.held, h.few, h.noAck, rfl⟩

/-- A DATA packet goes to the place that its window names (check 11 of Table 10.7). -/
theorem exec_data_placed {s : State} {f : RxFrame} {jh : Nat} {j : Job} {k : KeySlot} {c : RxChan} {pl : Placement} {len : Nat}
    {w : Window} (hp : s.HykPasses f 1 jh j k) (hin : j.InOrder f c) (hpl : parsePlacement (hykContent f k) = (pl, len))
    (hplace : s.dataPlace j (parseHeader f.payload).src pl len ((hykContent f k).drop 12).length = some (some w))
    (hacc : s.writeAccess (w.base + pl.offset) len ≠ .stall) : exec (.data f) s = .next
      ((s.write (w.base + pl.offset) ((hykContent f k).drop 12)).acceptPacket (packetOf f jh j k) pl
        ((hykContent f k).drop 12)).settle := by
  have htake : s.takeData (packetOf f jh j k) = (s.write (w.base + pl.offset) ((hykContent f k).drop 12)).acceptPacket
      (packetOf f jh j k) pl ((hykContent f k).drop 12) := by
    simp only [State.takeData, packetOf, hpl, hplace, hacc, if_false]
  have hseq := State.sequence_next (s := s) (x := packetOf f jh j k) hin.chan hin.next hin.above hin.noRole
    (fun s => s.takeData (packetOf f jh j k))
  exact congrArg (fun t => Host.Outcome.next (State.settle t)) ((receive_passes hp [1] rfl _).trans (hseq.trans htake))

theorem State.dataPlace_window {s : State} {j : Job} {rank : Nat} {pl : Placement} {len : Nat} {w : Window}
    (hsig : pl.useSignal = true → pl.signalIdx < (s.lea j.lea).quotas.counters) (hr : rank ≠ 0xFFFE) (hr' : rank ≠ 0xFFFD)
    (ht : pl.target < 256) (hw : j.windows.find pl.target = some w) (hd : w.data = true) (ho : pl.offset % 32 = 0)
    (hl : pl.offset + len ≤ w.len) : s.dataPlace j rank pl len len = some (some w) := by
  have hsig' : (!pl.useSignal || decide (pl.signalIdx < (s.lea j.lea).quotas.counters)) = true := by
    cases hu : pl.useSignal with
    | false => rfl
    | true => simp [hsig hu]
  have hwide : ¬ 0xFF00 ≤ pl.target := by omega
  unfold State.dataPlace
  simp only [hsig', storeRank]
  simp [hr, hr', hwide, hw, hd, ho, hl]

/-- A lea that has a quota of counters is listed. -/
theorem State.listed_of_counters (s : State) {l : Nat} (h : 0 < (s.lea l).quotas.counters) : (s.leas.find l).isSome := by
  cases hl : s.leas.find l with
  | some x => rfl
  | none => simp [State.lea, Map.getD, hl] at h

theorem Map.mem_of_find {α : Type} {m : Map α} {k : Nat} {v : α} (h : m.find k = some v) : (k, v) ∈ m := by
  induction m with
  | nil => simp at h
  | cons e rest ih =>
    obtain ⟨i, w⟩ := e
    rw [Map.find_cons] at h
    split at h
    · next hk =>
      subst hk
      rw [Option.some.inj h]
      exact List.mem_cons_self ..
    · exact List.mem_cons_of_mem _ (ih h)

theorem State.listed_of_queue {s : State} {l k : Nat} {q : Queue} (h : (s.lea l).queues.find k = some q) :
    (s.leas.find l).isSome := by
  cases hl : s.leas.find l with
  | some x => rfl
  | none => simp [State.lea, Map.getD, hl] at h

/-- A job with another receiving context has the shards and the links that it had. -/
theorem State.mem_tookPacket {s : State} {x : Packet} {c : RxChan} {e : Nat × Job} (hj : s.jobs.find x.jh = some x.j)
    (he : e ∈ (s.tookPacket x c).jobs) : ∃ e' ∈ s.jobs, e.2.shards = e'.2.shards ∧ e.2.lea = e'.2.lea ∧
      e.2.links = e'.2.links := by
  simp only [State.tookPacket, State.modJob, hj] at he
  rcases Map.mem_insert he with rfl | he
  · exact ⟨_, Map.mem_of_find hj, rfl, rfl, rfl⟩
  · exact ⟨e, he, rfl, rfl, rfl⟩

theorem State.watchers_eq_nil {s : State} {l i : Nat} : s.watchers l i = [] ↔
    ∀ e ∈ s.jobs, e.2.lea = l → ∀ k ∈ e.2.links, k.2.watch = i → k.2.failed = true := by
  simp [State.watchers, Map.sel, List.flatMap_eq_nil_iff]

theorem State.watchers_tookPacket {s : State} {x : Packet} {c : RxChan} {l i : Nat} (hj : s.jobs.find x.jh = some x.j)
    (h : s.watchers l i = []) : (s.tookPacket x c).watchers l i = [] := by
  rw [State.watchers_eq_nil] at h ⊢
  intro e he
  obtain ⟨e', he', -, hlea, hlinks⟩ := State.mem_tookPacket hj he
  rw [hlea, hlinks]
  exact h e' he'

theorem State.leas_setCounter {s u : State} (h : u.leas = s.leas) (l i n : Nat) :
    (u.setCounter l i { u.counter l i with value := (u.counter l i).value + BitVec.ofNat 32 n }).leas =
    (s.setCounter l i { s.counter l i with value := (s.counter l i).value + BitVec.ofNat 32 n }).leas := by
  have hlea : u.lea l = s.lea l := by rw [State.lea, h, State.lea]
  have hc : u.counter l i = s.counter l i := by rw [State.counter, hlea, State.counter]
  rw [hc, State.setCounter, State.setCounter, State.modLea, State.modLea, h]
  cases s.leas.find l with
  | none => exact h
  | some x => rfl

theorem State.counter_settle (s : State) (l i : Nat) : s.settle.counter l i = s.counter l i := by
  obtain ⟨a, c, v, w, h⟩ := s.lea_settle l
  rw [State.counter, h, State.counter]

theorem State.counter_write (s : State) (base : Nat) (bytes : List Byte) (l i : Nat) :
    (s.write base bytes).counter l i = s.counter l i := by
  have h := congrArg Lea.counters (s.unnoted_write base bytes l)
  rw [State.counter, show ((s.write base bytes).lea l).counters = (s.lea l).counters from h, State.counter]

theorem State.write_quotas (s : State) (base : Nat) (bytes : List Byte) (l : Nat) :
    ((s.write base bytes).lea l).quotas = (s.lea l).quotas := by
  have h := congrArg Lea.quotas (s.unnoted_write base bytes l)
  exact h

theorem State.counter_setCounter {s : State} {l : Nat} (h : (s.leas.find l).isSome) (i : Nat) (c : Counter) :
    (s.setCounter l i c).counter l i = c := by
  rw [State.counter, State.setCounter, s.lea_modLea_self l _ h]
  exact Map.getD_insert_self ..

theorem State.counter_of_leas {s t : State} {l i : Nat} {c : Counter} (h : (s.leas.find l).isSome)
    (ht : t.leas = (s.setCounter l i c).leas) : t.settle.counter l i = c := by
  rw [State.counter_settle, State.counter, State.lea, ht]
  exact State.counter_setCounter h i c

/-- A DATA packet that is a whole message signals its counter (R51, R275). -/
theorem State.acceptPacket_signal {s : State} {x : Packet} {c : RxChan} (h : s.Awaits x c) {pl : Placement} (body : List Byte)
    (hl : x.h.last = true) (hd : c.delivered = c.cum) (hty : (x.h.type == 2) = false) (hs : pl.useSignal = true)
    (hdescs : s.mem.descs = []) (hshards : ∀ e ∈ s.jobs, e.2.shards = []) (hw : s.watchers x.j.lea pl.signalIdx = []) :
    ∃ t, s.acceptPacket x pl body = t ∧ t.mem = s.mem ∧
      t.leas = (s.setCounter x.j.lea pl.signalIdx { s.counter x.j.lea pl.signalIdx with
        value := (s.counter x.j.lea pl.signalIdx).value + BitVec.ofNat 32 pl.signalInc }).leas ∧
      t.jobs.find x.jh = some { x.j with
        rx := x.j.rx.insert (chanKey x.h.src x.h.channel) { c.next s.now with held := [], delivered := c.cum + 1 } } := by
  obtain ⟨u, hu⟩ : ∃ u, u = s.tookPacket x { c.next s.now with held := [], delivered := c.cum + 1 } := ⟨_, rfl⟩
  have hjob := State.find_tookPacket h.job { c.next s.now with held := [], delivered := c.cum + 1 }
  rw [← hu] at hjob
  have hmem : u.mem = s.mem := by rw [hu]; exact State.modJob_mem ..
  have hleas : u.leas = s.leas := by rw [hu]; exact State.modJob_leas ..
  have hwatch : u.watchers x.j.lea pl.signalIdx = [] := by rw [hu]; exact State.watchers_tookPacket h.job hw
  have hnone : ∀ e ∈ u.jobs, e.2.shards = [] := by
    intro e he
    rw [hu] at he
    obtain ⟨e', he', hsh, -, -⟩ := State.mem_tookPacket h.job he
    rw [hsh]
    exact hshards e' he'
  obtain ⟨ds, hv⟩ := State.deliver_data (key := chanKey x.h.src x.h.channel) (p := x.held pl body) hjob hty
    (by rw [hmem, hdescs]) hnone
  have hsig : (x.held pl body).pl.useSignal = true := hs
  rw [if_pos hsig] at hv
  replace hv := hv.trans (State.signal_of_unwatched (s := { u with delivered := ds }) (l := x.j.lea) (i := pl.signalIdx)
    hwatch pl.signalInc)
  refine ⟨_, State.acceptPacket_last h pl body hl hd hu hv.symm ?_, ?_, ?_, ?_⟩
  · exact State.modLea_jobs ..
  · exact (State.modLea_mem ..).trans hmem
  · exact State.leas_setCounter (u := { u with delivered := ds }) hleas ..
  · exact (congrArg (·.find x.jh) (State.modLea_jobs { u with delivered := ds } _ _)).trans hjob

/-- A POST packet is written at the tail of its queue, which moves on by one (R45). -/
theorem State.acceptPacket_post {s : State} {x : Packet} {c : RxChan} (h : s.Awaits x c) {pl : Placement} (body : List Byte)
    (hl : x.h.last = true) (hd : c.delivered = c.cum) (hty : (x.h.type == 2) = true) (hs : pl.useSignal = false) {q : Queue}
    (hq : (s.lea x.j.lea).queues.find pl.target = some q) :
    ∃ t, s.acceptPacket x pl body = t ∧
      t.mem = (s.write (q.base + 128 * (s.lea x.j.lea).qdb.getD pl.target 0) body).mem ∧
      (t.lea x.j.lea).qdb.find pl.target = some (((s.lea x.j.lea).qdb.getD pl.target 0 + 1) % 2 ^ q.log2) ∧
      t.jobs.find x.jh = some { x.j with
        rx := x.j.rx.insert (chanKey x.h.src x.h.channel) { c.next s.now with held := [], delivered := c.cum + 1 } } := by
  obtain ⟨u, hu⟩ : ∃ u, u = s.tookPacket x { c.next s.now with held := [], delivered := c.cum + 1 } := ⟨_, rfl⟩
  have hjob := State.find_tookPacket h.job { c.next s.now with held := [], delivered := c.cum + 1 }
  rw [← hu] at hjob
  have hlea : u.lea x.j.lea = s.lea x.j.lea := by rw [hu, State.lea, State.tookPacket, State.modJob_leas, State.lea]
  have hv := State.deliver_post (key := chanKey x.h.src x.h.channel) (p := x.held pl body) hjob hty hs
  have hput : u.putPost x.j.lea pl.target body = (u.write (q.base + 128 * (s.lea x.j.lea).qdb.getD pl.target 0) body).modLea
      x.j.lea fun y => { y with
        qdb := y.qdb.insert pl.target (((s.lea x.j.lea).qdb.getD pl.target 0 + 1) % 2 ^ q.log2) } := by
    simp only [State.putPost, hlea, hq]
  refine ⟨_, State.acceptPacket_last h pl body hl hd hu (hv.trans hput).symm ?_, ?_, ?_, ?_⟩
  · rw [State.modLea_jobs, State.write_jobs]
  · rw [State.modLea_mem]
    exact State.write_mem_congr (by rw [hu]; exact State.modJob_mem ..) ..
  · have hqueues := congrArg Lea.queues (u.unnoted_write (q.base + 128 * (s.lea x.j.lea).qdb.getD pl.target 0) body x.j.lea)
    rw [State.lea_modLea_self _ _ _ (State.listed_of_queue (q := q) (k := pl.target) (by
      rw [hlea] at hqueues
      exact (congrArg (·.find pl.target) hqueues).trans hq))]
    exact Map.find_insert_self ..
  · rw [State.modLea_jobs, State.write_jobs]
    exact hjob

/-- Settles O24: the packet is taken by its channel, and where it ends its message that is delivered at once. -/
theorem hykanPlacement : Obligations.HykanPlacement := by
  rintro s f jh j k c h pl len rfl hin hpl hlen p rfl c' rfl
  have hlen' : ((hykContent f k).drop 12).length = len := by rw [List.length_drop, hlen]
  have hnow : ∀ base, (s.write base ((hykContent f k).drop 12)).now = s.edge.count := fun base => by
    rw [State.now, State.write_edge]
  refine ⟨?data, ?signal, ?post⟩
  case data =>
    intro w hp hlast hsig hr hr' ht hw hd ho hl hacc
    have hplace := s.dataPlace_window (by simp [hsig]) hr hr' ht hw hd ho hl
    rw [exec_data_placed hp hin hpl (by rw [hlen']; exact hplace) hacc,
      State.acceptPacket_open (hin.awaits hp (State.write_jobs ..)) pl _ hlast, hnow]
    rfl
  case signal =>
    intro w hp hlast hdel hsig hquota hr hr' ht hw hd ho hl hacc hdescs hshards hgroups htedder hwatch
    have hplace := s.dataPlace_window (fun _ => hquota) hr hr' ht hw hd ho hl
    obtain ⟨t, hacpt, hmem, hleas, hjob⟩ := State.acceptPacket_signal (hin.awaits hp (State.write_jobs s (w.base + pl.offset)
      ((hykContent f k).drop 12))) (pl := pl) ((hykContent f k).drop 12) hlast hdel
      (by show ((parseHeader f.payload).type == 2) = false; rw [hp.type]; rfl) hsig (by rw [State.write_descs, hdescs])
      (by rw [State.write_jobs]; exact hshards) (by rw [State.watchers, State.write_jobs]; exact hwatch)
    rw [hnow] at hjob
    refine ⟨t.settle, ?_, ?_, ?_, ?_⟩
    · rw [exec_data_placed hp hin hpl (by rw [hlen']; exact hplace) hacc, hacpt]
    · rw [State.settle_mem, hmem]
    · exact (State.counter_of_leas (State.listed_of_counters _ (by
        rw [State.write_quotas]; exact Nat.zero_lt_of_lt hquota)) hleas).trans
        (by rw [State.counter_write]; rfl)
    · have hend : ({ c.next s.edge.count with held := [], delivered := c.cum + 1 } : RxChan) =
          { c.next s.edge.count with delivered := c.cum + 1 } := by simp only [RxChan.next, hin.held]
      rw [hend] at hjob
      rw [State.settle_jobs]
      exact hjob
  case post =>
    intro q hp hlast hdel hsig ht hlen128 hoff href hq
    have htake : s.takePost (packetOf f jh j k) = s.acceptPacket (packetOf f jh j k) pl ((hykContent f k).drop 12) := by
      have hlen' : (hykContent f k).length - 12 = 128 := hlen ▸ hlen128
      simp only [State.takePost, packetOf, hpl, href]
      simp [Nat.not_le.2 ht, hlen128, hoff, hsig]
    have hseq := State.sequence_next (s := s) (x := packetOf f jh j k) hin.chan hin.next hin.above hin.noRole
      (fun s => s.takePost (packetOf f jh j k))
    obtain ⟨t, hacpt, hmem, hqdb, hjob⟩ := State.acceptPacket_post (hin.awaits hp rfl) (pl := pl) ((hykContent f k).drop 12)
      hlast hdel (by show ((parseHeader f.payload).type == 2) = true; rw [hp.type]; rfl) hsig hq
    have hend : ({ c.next s.edge.count with held := [], delivered := c.cum + 1 } : RxChan) =
        { c.next s.edge.count with delivered := c.cum + 1 } := by simp only [RxChan.next, hin.held]
    refine ⟨t.settle, congrArg (fun t => Host.Outcome.next (State.settle t)) ((receive_passes hp [2] rfl _).trans
      (hseq.trans (htake.trans hacpt))), ?_, ?_, ?_⟩
    · rw [State.settle_mem]
      exact hmem
    · obtain ⟨a, b, v, w, hlea⟩ := t.lea_settle j.lea
      rw [hlea]
      exact hqdb
    · rw [State.now, hend] at hjob
      rw [State.settle_jobs]
      exact hjob

end Sys2Proof.Machine
end

section
/-!
PROOF. Settles O27: what the control and uniform instructions change, and how a row stops.
-/

namespace Sys2Proof.Machine

/-! ## The cluster of a row -/

theorem State.cluster_putCluster (s : State) (c : Nat) (k : Cluster) : (s.putCluster c k).cluster c = k :=
  Map.getD_insert_self ..

theorem State.cluster_settle (s : State) (c : Nat) : s.settle.cluster c = s.cluster c := by
  rw [State.cluster, State.settle_scalar, State.cluster]

@[simp] theorem State.dieFlag_clusters (s : State) (d k : Nat) (f : ScalarDie → ScalarDie) :
    (s.dieFlag d k f).scalar.clusters = s.scalar.clusters := rfl

/-- What a row that stops leaves (R122). -/
theorem State.stopRow_cluster {s : State} {c n : Nat} (h : (s.cluster c).op = some n) (st : Status) (cause : Nat) (stash : Bool) :
    ((s.stopRow c st cause stash).cluster c).st = .stopped cause ∧ (s.stopRow c st cause stash).mem = s.mem ∧
      (s.stopRow c st cause stash).jobs = s.jobs := by
  have hst : ((s.modCluster c fun k => { k with st := .stopped cause }).cluster c).st = .stopped cause := by
    rw [State.modCluster, State.cluster_putCluster]
  unfold State.stopRow
  rw [h]
  dsimp only
  split <;> split <;> exact ⟨hst, rfl, rfl⟩

/-- A row that stops with a CAUSE, as the outcome of a command (R122). -/
theorem State.rowOut_stop {s : State} {c n : Nat} {o : Op} {k : Cluster} (h : k.op = some n) (st : Status) (cause : Nat) :
    ∃ t, finish (State.rowOut c o (.stop s k st cause)) = .next t ∧ (t.cluster c).st = .stopped cause ∧ t.mem = s.mem ∧
      t.jobs = s.jobs := by
  obtain ⟨hst, hmem, hjobs⟩ := State.stopRow_cluster (s := s.putCluster c k) (c := c) (n := n)
    (by rw [State.cluster_putCluster, h]) st cause false
  refine ⟨_, rfl, ?_, ?_, ?_⟩
  · rw [State.cluster_settle]
    exact hst
  · rw [State.settle_mem]
    exact hmem
  · rw [State.settle_jobs]
    exact hjobs

theorem State.rowOn_facts {s : State} {c n : Nat} {o : Op} (h : s.rowOn c = some (n, o)) :
    (s.cluster c).op = some n ∧ s.op n = some o ∧ (s.cluster c).st = .running := by
  unfold State.rowOn at h
  split at h
  · cases h
  next m hm =>
  split at h
  · cases h
  next x hx =>
  split at h
  · next hrun =>
    obtain ⟨rfl, rfl⟩ := Prod.mk.inj (Option.some.inj h)
    exact ⟨hm, hx, hrun.1⟩
  · cases h

theorem State.instr_of_row {s : State} {c n : Nat} {o : Op} (h : s.rowOn c = some (n, o)) (he : o.entry = 0) (i : CInstr) :
    s.instr c i = State.rowOut c o (i s o (s.cluster c)) := by
  simp [State.instr, h, he]

/-! ## Instructions that change their cluster alone -/

/-- The cluster that an instruction's body finds: the pc is past it. -/
def Cluster.fetched (k : Cluster) (f : IFields) : Cluster := { k with pc := (k.pc + iBytes f) % 2 ^ 48 }

/-- A cluster that has executed an instruction. -/
def Cluster.counted (k : Cluster) (cost : Nat) : Cluster := { k with instrs := k.instrs + 1, events := k.events + cost }

theorem retire_go {s t : State} {o : Op} {k x : Cluster} {f : IFields} {body : CInstr} (cost : Nat)
    (h : body s o (k.fetched f) = .go t x) (hx : x.instrs + 1 < o.instrLimit) :
    retire cost f body s o k = .go t (x.counted cost) := by
  unfold retire
  rw [show ({ k with pc := (k.pc + iBytes f) % 2 ^ 48 } : Cluster) = k.fetched f from rfl, h]
  exact if_neg (by simp only [not_and, Nat.not_le]; exact fun _ => hx)

/-- An instruction of a row that has more than one left of its limit, whose body changes the cluster alone. -/
theorem exec_pure {s : State} {c n : Nat} {o : Op} (h : s.RunsRow c n o) (cost : Nat) (f : IFields) {g : Cluster → Cluster}
    (hg : ∀ k, (g k).instrs = k.instrs) : finish (s.instr c (retire cost f (pureInstr g))) =
      .next (s.putCluster c ((g ((s.cluster c).fetched f)).counted cost)).settle := by
  rw [State.instr_of_row h.row h.user, retire_go (t := s) (x := g ((s.cluster c).fetched f)) cost rfl (by
    rw [hg]
    exact h.left)]
  rfl

/-- An instruction that is the row's last within INSTR_LIMIT and does not end it (R122). -/
theorem retire_over {s t : State} {o : Op} {k x : Cluster} {f : IFields} {body : CInstr} (cost : Nat)
    (h : body s o (k.fetched f) = .go t x) (hrun : x.st = .running) (hx : o.instrLimit ≤ x.instrs + 1) :
    retire cost f body s o k = .stop t (x.counted cost) .unitFault 2 := by
  unfold retire
  rw [show ({ k with pc := (k.pc + iBytes f) % 2 ^ 48 } : Cluster) = k.fetched f from rfl, h]
  exact if_pos ⟨hrun, hx⟩

theorem Cluster.setUniform_instrs (k : Cluster) (i v : Nat) : (k.setUniform i v).instrs = k.instrs := by
  unfold Cluster.setUniform
  repeat' split
  all_goals rfl

/-- A write of a uniform register and the count of the instruction are apart. -/
theorem Cluster.counted_setUniform (k : Cluster) (f : IFields) (cost i v : Nat) :
    (((k.fetched f).setUniform i v).counted cost) = (k.past f cost).setUniform i v := by
  unfold Cluster.setUniform
  repeat' split
  all_goals rfl

/-- An instruction that writes a uniform register. -/
theorem exec_setUniform {s : State} {c n : Nat} {o : Op} (h : s.RunsRow c n o) (f : IFields) (i : Nat) (v : Cluster → Nat)
    {w : Nat} (hw : v ((s.cluster c).fetched f) = w) :
    finish (s.instr c (retire 1 f (pureInstr fun k => k.setUniform i (v k)))) =
      .next (s.putCluster c (((s.cluster c).past f 1).setUniform i w)).settle := by
  rw [exec_pure h 1 f fun k => k.setUniform_instrs i (v k), hw, Cluster.counted_setUniform]

/-! ## Address and uniform registers (R123) -/

theorem Cluster.addrReg_insert_self (k : Cluster) (i v : Nat) : ({ k with a := k.a.insert i v } : Cluster).addrReg i = v := by
  simp [Cluster.addrReg]

theorem Cluster.addrReg_insert_ne (k : Cluster) {i r : Nat} (v : Nat) (h : r ≠ i) :
    ({ k with a := k.a.insert i v } : Cluster).addrReg r = k.addrReg r := by
  simp [Cluster.addrReg, h]

/-- A uniform register that is written holds the value cut to its width (R123). -/
theorem Cluster.uniform_setUniform_self (k : Cluster) {i : Nat} (v : Nat) (hi : i < 24) :
    (k.setUniform i v).uniform i = if i < 16 then v % 2 ^ 32 else v % 2 ^ 48 := by
  by_cases h16 : i < 16
  · simp [Cluster.setUniform, Cluster.uniform, h16]
  · simp only [Cluster.setUniform, Cluster.uniform, h16, hi, if_true, if_false]
    exact Cluster.addrReg_insert_self ..

theorem Cluster.uniform_setUniform_ne (k : Cluster) {i r : Nat} (v : Nat) (hi : i < 24) (h : r ≠ i) :
    (k.setUniform i v).uniform r = k.uniform r := by
  by_cases h16 : i < 16
  · by_cases hr : r < 16
    · simp [Cluster.setUniform, Cluster.uniform, h16, hr, Map.getD_insert_ne _ _ _ h]
    · simp [Cluster.setUniform, Cluster.uniform, h16, hr, Cluster.addrReg]
  · have haddr : 16 ≤ r → r < 24 → ({ k with a := k.a.insert (i - 16) (v % 2 ^ 48) } : Cluster).addrReg (r - 16) =
        k.addrReg (r - 16) := fun h1 h2 => k.addrReg_insert_ne _ (by omega)
    simp only [Cluster.setUniform, Cluster.uniform, h16, hi, if_true, if_false]
    split
    · rfl
    split
    · next h1 h2 => exact haddr (Nat.le_of_not_lt h1) h2
    · rfl

/-- What addmx does to its address pair (R130). -/
def Cluster.addMx (k : Cluster) (i : Nat) (x : Fmt) : Cluster :=
  let data := (k.addrReg i + ceilDiv k.len 32 * fmtUnitBytes x) % 2 ^ 48
  let scale := (k.addrReg (i + 1) + ceilDiv k.len 32) % 2 ^ 48
  { k with a := (k.a.insert i data).insert (i + 1) scale }

/-- The address registers after addmx, of a cluster that differs in its pc and counts alone. -/
theorem Cluster.addrReg_addMx (k : Cluster) (i : Nat) (x : Fmt) {k' : Cluster} (ha : k'.a = (k.addMx i x).a)
    (hs : k'.rowStart = k.rowStart) : k'.addrReg i = (k.addrReg i + ceilDiv k.len 32 * fmtUnitBytes x) % 2 ^ 48 ∧
      k'.addrReg (i + 1) = (k.addrReg (i + 1) + ceilDiv k.len 32) % 2 ^ 48 ∧
      ∀ r, r ≠ i → r ≠ i + 1 → k'.addrReg r = k.addrReg r := by
  have hfind : ∀ r, k'.addrReg r = (k.addMx i x).addrReg r := fun r => by
    simp only [Cluster.addrReg, ha, hs]
    rfl
  refine ⟨(hfind i).trans ?_, (hfind (i + 1)).trans ?_, fun r h1 h2 => (hfind r).trans ?_⟩
  · exact (Cluster.addrReg_insert_ne { k with a := k.a.insert i _ } _ (Nat.ne_of_lt (Nat.lt_succ_self i))).trans
      (Cluster.addrReg_insert_self ..)
  · exact Cluster.addrReg_insert_self { k with a := k.a.insert i _ } _ _
  · exact (Cluster.addrReg_insert_ne { k with a := k.a.insert i _ } _ h2).trans (Cluster.addrReg_insert_ne k _ h1)

/-- Settles O27: an instruction's body changes its cluster, and `retire` counts it. -/
theorem uniformInstructionEffects : Obligations.UniformInstructionEffects := by
  refine ⟨?changes, ?registers, ?length, ?stops, ?idle⟩
  case changes =>
    rintro s c n o f k p h rfl rfl
    refine ⟨?_, ?_, ?_, ?_, ?_, ?_, ?_, ?_, ?_, ?_, ?_, ?_, ?_⟩
    · exact exec_pure h 1 f fun _ => rfl
    · exact exec_pure h 1 f fun _ => rfl
    · exact exec_pure h 1 f fun _ => rfl
    · exact exec_pure h 1 f fun _ => rfl
    · refine (exec_pure h 1 f (g := fun k => if k.uniform f.s1.toNat = 0 then k else { k with pc := k.branch f })
        fun k => ?_).trans ?_
      · split <;> rfl
      · by_cases hz : (s.cluster c).uniform f.s1.toNat = 0
        · rw [if_pos hz, if_pos (show ((s.cluster c).fetched f).uniform f.s1.toNat = 0 from hz)]
          rfl
        · rw [if_neg hz, if_neg (show ¬ ((s.cluster c).fetched f).uniform f.s1.toNat = 0 from hz)]
          rfl
    · exact exec_pure h 1 f fun _ => rfl
    · exact exec_setUniform h f _ _ rfl
    · exact exec_setUniform h f _ _ rfl
    · exact exec_setUniform h f _ _ rfl
    · exact exec_setUniform h f _ _ rfl
    · exact exec_setUniform h f _ _ rfl
    · exact exec_setUniform h f _ _ rfl
    · intro i x hi hx
      have hmx : iAddmx f = retire 1 f (pureInstr fun k => k.addMx i x) := by
        rw [iAddmx, hi, hx]
        rfl
      refine ⟨((s.cluster c).past f 1).addMx i x, ?_, rfl, Cluster.addrReg_addMx (s.cluster c) i x rfl rfl⟩
      show finish (s.instr c (iAddmx f)) = _
      rw [hmx]
      exact exec_pure h 1 f fun _ => rfl
  case registers =>
    exact fun k i v hi => ⟨k.uniform_setUniform_self v hi, fun r hr => k.uniform_setUniform_ne v hi hr⟩
  case length =>
    intro k v hv
    simp [Cluster.setUniform, hv]
  case stops =>
    intro s c n o f hrow he
    obtain ⟨hop, -, hrun⟩ := s.rowOn_facts hrow
    refine ⟨fun hlim => ?_, fun hmx => ?_⟩
    · show ∃ t, finish (s.instr c (iNop f)) = _ ∧ _
      rw [State.instr_of_row hrow he, iNop, retire_over (t := s) (x := (s.cluster c).fetched f) 1 rfl hrun hlim]
      exact State.rowOut_stop (n := n) (k := ((s.cluster c).fetched f).counted 1) hop _ _
    · show ∃ t, finish (s.instr c (iAddmx f)) = _ ∧ _
      have hi : iAddmx f = undefinedInstr := by rw [iAddmx, hmx]
      rw [State.instr_of_row hrow he, hi]
      exact State.rowOut_stop (n := n) hop _ _
  case idle =>
    intro s c f hop
    have hrow : s.rowOn c = none := by simp [State.rowOn, hop]
    show finish (s.instr c (iFadd f)) = _
    rw [State.instr, hrow]
    rfl

end Sys2Proof.Machine
end

section
/-!
PROOF. Settles O29: what each lane instruction gives the lanes that take part.
-/

namespace Sys2Proof.Machine

/-! ## Registers of lanes (R123, R128) -/

/-- Entries inserted at `b + l` for each `l` of a list. -/
theorem Map.find_foldl_insert {α : Type} (b : Nat) (v : Nat → α) (ls : List Nat) (m : Map α) (key : Nat) :
    Map.find (ls.foldl (fun m l => Map.insert m (b + l) (v l)) m) key =
      if b ≤ key ∧ key - b ∈ ls then some (v (key - b)) else m.find key := by
  induction ls generalizing m with
  | nil => simp
  | cons l rest ih =>
    rw [List.foldl_cons, ih]
    by_cases hk : key = b + l
    · subst hk
      simp
    · have hl : b ≤ key → ¬ key - b = l := fun h1 h2 => hk (by omega)
      rw [Map.find_insert_ne _ _ hk]
      by_cases hb : b ≤ key
      · simp [hb, hl hb]
      · simp [hb]

theorem Cluster.mem_lanes {k : Cluster} {f : IFields} {l : Nat} : l ∈ k.lanes f ↔ l < 64 ∧ k.takes f l = true := by
  simp [Cluster.lanes]

/-- The lanes written, as one change of the cluster. -/
theorem Cluster.setLanes_eq (k : Cluster) (f : IFields) (g : Nat → Word × Bool) : k.setLanes f g = { k with
    d := (k.lanes f).foldl (fun m l => Map.insert m (64 * f.dst.toNat + l) (g l).1) k.d
    saturated := k.saturated || (k.lanes f).any fun l => (g l).2 } := by
  unfold Cluster.setLanes
  generalize k.lanes f = ls
  induction ls generalizing k with
  | nil => simp
  | cons l rest ih =>
    rw [List.foldl_cons, ih]
    simp [Bool.or_assoc]

theorem Cluster.setPreds_eq (k : Cluster) (f : IFields) (g : Nat → Bool) : k.setPreds f g = { k with
    p := if f.dst.toNat = 0 ∨ 3 < f.dst.toNat then k.p
      else (k.lanes f).foldl (fun m l => Map.insert m (64 * f.dst.toNat + l) (g l)) k.p } := by
  unfold Cluster.setPreds
  split
  · rfl
  generalize k.lanes f = ls
  induction ls generalizing k with
  | nil => rfl
  | cons l rest ih => rw [List.foldl_cons, ih]; rfl

/-- A lane register after lanes are written. -/
theorem Cluster.lane_setLanes (k : Cluster) (f : IFields) (g : Nat → Word × Bool) (r : Nat) {l : Nat} (hl : l < 64) :
    (k.setLanes f g).lane r l = if r = f.dst.toNat ∧ k.takes f l = true then (g l).1 else k.lane r l := by
  rw [Cluster.setLanes_eq]
  unfold Cluster.lane
  dsimp only
  rw [Map.find_foldl_insert]
  by_cases hr : r = f.dst.toNat
  · subst hr
    by_cases ht : k.takes f l = true
    · simp [Cluster.mem_lanes, hl, ht]
    · simp [Cluster.mem_lanes, hl, ht]
  · have hkey : ¬ (64 * f.dst.toNat ≤ 64 * r + l ∧ 64 * r + l - 64 * f.dst.toNat ∈ k.lanes f) := by
      rintro ⟨hle, hmem⟩
      have := (Cluster.mem_lanes.1 hmem).1
      omega
    rw [if_neg hkey, if_neg (show ¬ (r = f.dst.toNat ∧ k.takes f l = true) from fun h => hr h.1)]

theorem Cluster.predicate_setPreds (k : Cluster) (f : IFields) (g : Nat → Bool) (r : Nat) {l : Nat} (hl : l < 64) :
    (k.setPreds f g).predicate r l =
      if r ≠ 0 ∧ r ≤ 3 ∧ r = f.dst.toNat ∧ k.takes f l = true then g l else k.predicate r l := by
  rw [Cluster.setPreds_eq]
  unfold Cluster.predicate
  dsimp only
  by_cases hr0 : r = 0
  · simp [hr0]
  rw [if_neg hr0, if_neg hr0]
  by_cases hd : f.dst.toNat = 0 ∨ 3 < f.dst.toNat
  · rw [if_pos hd, if_neg]
    rintro ⟨-, hr3, rfl, -⟩
    omega
  rw [if_neg hd, Map.find_foldl_insert]
  by_cases hr : r = f.dst.toNat
  · subst hr
    have hr3 : f.dst.toNat ≤ 3 := by omega
    by_cases ht : k.takes f l = true
    · simp [Cluster.mem_lanes, hl, ht, hr0, hr3]
    · simp [Cluster.mem_lanes, hl, ht]
  · have hkey : ¬ (64 * f.dst.toNat ≤ 64 * r + l ∧ 64 * r + l - 64 * f.dst.toNat ∈ k.lanes f) := by
      rintro ⟨hle, hmem⟩
      have := (Cluster.mem_lanes.1 hmem).1
      omega
    rw [if_neg hkey, if_neg (show ¬ (r ≠ 0 ∧ r ≤ 3 ∧ r = f.dst.toNat ∧ k.takes f l = true) from fun h => hr h.2.2.1)]

/-! ## What a lane instruction leaves -/

theorem Cluster.laneResult_setLanes (k : Cluster) (f : IFields) (cost : Nat) (g : Nat → Word × Bool) :
    k.LaneResult (((k.fetched f).setLanes f g).counted cost) f cost g := by
  have hlane : ∀ r l, l < 64 → (((k.fetched f).setLanes f g).counted cost).lane r l =
      if r = f.dst.toNat ∧ k.takes f l = true then (g l).1 else k.lane r l :=
    fun r l hl => (k.fetched f).lane_setLanes f g r hl
  refine ⟨fun l hl ht => ?_, fun r _ l hl h => ?_, ?_⟩
  · rw [hlane _ _ hl, if_pos ⟨rfl, ht⟩]
  · rw [hlane _ _ hl, if_neg]
    rintro ⟨hr, ht⟩
    rcases h with h | h
    · exact h hr
    · exact absurd ht (by simp [h])
  · rw [Cluster.setLanes_eq]
    simp only [Cluster.counted, Cluster.fetched, Cluster.past, Cluster.lanes, List.any_filter]
    rfl

theorem Cluster.predResult_setPreds (k : Cluster) (f : IFields) (g : Nat → Bool) :
    k.PredResult (((k.fetched f).setPreds f g).counted 1) f g := by
  have hpred : ∀ r l, l < 64 → (((k.fetched f).setPreds f g).counted 1).predicate r l =
      if r ≠ 0 ∧ r ≤ 3 ∧ r = f.dst.toNat ∧ k.takes f l = true then g l else k.predicate r l :=
    fun r l hl => (k.fetched f).predicate_setPreds f g r hl
  refine ⟨fun hd l hl ht => ?_, fun r hr l hl h => ?_, ?_⟩
  · simp only [List.mem_cons, List.not_mem_nil, or_false] at hd
    rw [hpred _ _ hl, if_pos ⟨by omega, by omega, rfl, ht⟩]
  · rw [hpred _ _ hl, if_neg]
    rintro ⟨-, -, hr, ht⟩
    rcases h with h | h
    · exact h hr
    · exact absurd ht (by simp [h])
  · rw [Cluster.setPreds_eq]
    rfl

theorem Cluster.setLanes_instrs (k : Cluster) (f : IFields) (g : Nat → Word × Bool) : (k.setLanes f g).instrs = k.instrs := by
  rw [Cluster.setLanes_eq]

theorem Cluster.setPreds_instrs (k : Cluster) (f : IFields) (g : Nat → Bool) : (k.setPreds f g).instrs = k.instrs := by
  rw [Cluster.setPreds_eq]

/-- An instruction whose body writes the lanes with what it computes of the cluster. -/
theorem exec_setLanes {s : State} {c n : Nat} {o : Op} {k : Cluster} (h : s.RunsRow c n o) (hk : k = s.cluster c) {i : Instr}
    {cost : Nat} {f : IFields} {g : Cluster → Cluster} {r : Nat → Word × Bool}
    (hi : exec i s = finish (s.instr c (retire cost f (pureInstr g)))) (hg : ∀ x, ∃ f' r', g x = x.setLanes f' r')
    (hr : g (k.fetched f) = (k.fetched f).setLanes f r) :
    ∃ k', exec i s = .next (s.putCluster c k').settle ∧ k.LaneResult k' f cost r := by
  subst hk
  refine ⟨_, hi.trans (exec_pure h cost f fun x => ?_), ?_⟩
  · obtain ⟨f', r', hx⟩ := hg x
    rw [hx, Cluster.setLanes_instrs]
  · rw [hr]
    exact Cluster.laneResult_setLanes ..

theorem exec_laneInstr {s : State} {c n : Nat} {o : Op} {k : Cluster} (h : s.RunsRow c n o) (hk : k = s.cluster c) {i : Instr}
    {cost : Nat} {f : IFields} {g : Cluster → Nat → Word × Bool} {r : Nat → Word × Bool}
    (hi : exec i s = finish (s.instr c (laneInstr cost f g))) (hr : g (k.fetched f) = r) :
    ∃ k', exec i s = .next (s.putCluster c k').settle ∧ k.LaneResult k' f cost r :=
  exec_setLanes h hk hi (fun x => ⟨f, g x, rfl⟩) (by rw [← hr])

theorem exec_lane1 {s : State} {c n : Nat} {o : Op} {k : Cluster} (h : s.RunsRow c n o) (hk : k = s.cluster c) {i : Instr}
    {cost : Nat} {f : IFields} {g : Word → Word × Bool} {r : Nat → Word × Bool}
    (hi : exec i s = finish (s.instr c (lane1Instr cost f g))) (hr : (fun l => g (k.lane f.s1.toNat l)) = r) :
    ∃ k', exec i s = .next (s.putCluster c k').settle ∧ k.LaneResult k' f cost r :=
  exec_laneInstr h hk hi hr

theorem exec_lane2 {s : State} {c n : Nat} {o : Op} {k : Cluster} (h : s.RunsRow c n o) (hk : k = s.cluster c) {i : Instr}
    {cost : Nat} {f : IFields} {g : Word → Word → Word × Bool} {r : Nat → Word × Bool}
    (hi : exec i s = finish (s.instr c (lane2Instr cost f g)))
    (hr : (fun l => g (k.lane f.s1.toNat l) (k.lane2 f l)) = r) :
    ∃ k', exec i s = .next (s.putCluster c k').settle ∧ k.LaneResult k' f cost r :=
  exec_laneInstr h hk hi hr

theorem exec_int {s : State} {c n : Nat} {o : Op} {k : Cluster} (h : s.RunsRow c n o) (hk : k = s.cluster c) {i : Instr}
    {f : IFields} {g : Word → Word → Word} {r : Nat → Word × Bool} (hi : exec i s = finish (s.instr c (intInstr f g)))
    (hr : (fun l => (g (k.lane f.s1.toNat l) (k.lane2 f l), false)) = r) :
    ∃ k', exec i s = .next (s.putCluster c k').settle ∧ k.LaneResult k' f 1 r :=
  exec_lane2 h hk hi hr

/-- A paired instruction, half by half (R126). -/
theorem exec_pair {s : State} {c n : Nat} {o : Op} {k : Cluster} (h : s.RunsRow c n o) (hk : k = s.cluster c) {i : Instr}
    {f : IFields} {g : Val → Val → Val → Val} {r : Nat → Word × Bool} (hi : exec i s = finish (s.instr c (pairInstr f g)))
    (hr : (fun l => k.pairLane f l
      (g (bf16Lo (k.lane f.s1.toNat l)) (bf16Lo (k.lane2 f l)) (bf16Lo (k.lane f.s3.toNat l)))
      (g (bf16Hi (k.lane f.s1.toNat l)) (bf16Hi (k.lane2 f l)) (bf16Hi (k.lane f.s3.toNat l)))) = r) :
    ∃ k', exec i s = .next (s.putCluster c k').settle ∧ k.LaneResult k' f 1 r :=
  exec_laneInstr h hk hi hr

/-- An instruction that writes predicates. -/
theorem exec_setPreds {s : State} {c n : Nat} {o : Op} {k : Cluster} (h : s.RunsRow c n o) (hk : k = s.cluster c) {i : Instr}
    {f : IFields} {g : Cluster → Nat → Bool} {r : Nat → Bool}
    (hi : exec i s = finish (s.instr c (retire 1 f (pureInstr fun x => x.setPreds f (g x))))) (hr : g (k.fetched f) = r) :
    ∃ k', exec i s = .next (s.putCluster c k').settle ∧ k.PredResult k' f r := by
  subst hk hr
  exact ⟨_, hi.trans (exec_pure h 1 f fun x => x.setPreds_instrs f _), Cluster.predResult_setPreds ..⟩

/-- What sts does for each lane of a list (R118). -/
def Cluster.storeWords (k : Cluster) (a b : Nat → Word) (ls : List Nat) : Cluster :=
  ls.foldl (fun (x : Cluster) l =>
    let at' := (a l).toNat
    if at' + 4 ≤ 131072 then { x with store := writeCells x.store at' (natToLE 4 (b l).toNat) } else x) k

theorem Cluster.storeWords_eq (k : Cluster) (a b : Nat → Word) (ls : List Nat) : k.storeWords a b ls = { k with
    store := ls.foldl (fun m l =>
      if (a l).toNat + 4 ≤ 131072 then writeCells m (a l).toNat (natToLE 4 (b l).toNat) else m) k.store } := by
  unfold Cluster.storeWords
  induction ls generalizing k with
  | nil => rfl
  | cons l rest ih =>
    rw [List.foldl_cons, ih, List.foldl_cons]
    dsimp only
    split <;> rfl

/-- Settles O29: each family of instructions writes its lanes or predicates with what it computes of the cluster. -/
theorem laneInstructions : Obligations.LaneInstructions := by
  intro s c n o f k h hk a b d ha hb hd
  obtain rfl : a = _ := funext ha
  obtain rfl : b = _ := funext hb
  obtain rfl : d = _ := funext hd
  refine ⟨fun p hp => ?lanes, ?fsel, ?fcmp, ?icmp, ?sts⟩
  case lanes =>
    simp only [List.mem_cons, List.not_mem_nil, or_false] at hp
    rcases hp with rfl | rfl | rfl | rfl | rfl | rfl | rfl | rfl | rfl | rfl | rfl | rfl | rfl | rfl | rfl | rfl | rfl | rfl |
      rfl | rfl | rfl | rfl | rfl | rfl | rfl | rfl | rfl | rfl | rfl | rfl | rfl | rfl | rfl | rfl
    iterate 3 exact exec_lane2 h hk rfl rfl
    · exact exec_laneInstr h hk rfl rfl
    iterate 2 exact exec_lane2 h hk rfl rfl
    iterate 9 exact exec_lane1 h hk rfl rfl
    · exact exec_lane2 h hk rfl rfl
    iterate 8 exact exec_int h hk rfl rfl
    iterate 3 exact exec_pair h hk rfl rfl
    iterate 3 exact exec_setLanes h hk rfl (fun _ => ⟨f, _, rfl⟩) rfl
    iterate 4 exact exec_laneInstr h hk rfl rfl
  case fsel =>
    subst hk
    exact ⟨_, exec_pure h 1 f fun x => x.setLanes_instrs { f with pred := 0 } _,
      (s.cluster c).laneResult_setLanes { f with pred := 0 } 1 _⟩
  case fcmp => exact exec_setPreds h hk rfl rfl
  case icmp => exact exec_setPreds h hk rfl rfl
  case sts =>
    subst hk
    refine (exec_pure h 1 f (g := fun k => k.storeWords (k.lane f.s1.toNat) (k.lane2 f) (k.lanes f))
      fun k => by rw [Cluster.storeWords_eq]).trans ?_
    rw [Cluster.storeWords_eq]
    rfl

end Sys2Proof.Machine
end

section
/-!
PROOF. Settles O28: how a cluster fetches, starts and ends a row.
-/

namespace Sys2Proof.Machine

/-! ## Fetching (R119, R122) -/

/-- An instruction of one word whose opcode is known is fetched and executed. -/
theorem State.fetchRun_word {s : State} {o : Op} {k : Cluster} {i : IFields → CInstr} (hg : s.granted o.lea k.pc 4 false = true)
    (ha : s.access k.pc 4 = .good) (hw : bit (s.readWord k.pc) 1 = false)
    (hi : instrOf (fld (s.readWord k.pc) 31 24) (bit (s.readWord k.pc) 0) false = some i) :
    s.fetchRun o k = i (iFieldsOf (s.readWord k.pc) none) s o k := by
  simp [State.fetchRun, hg, ha, hw, hi]

theorem State.fetchRun_outside {s : State} {o : Op} {k : Cluster} (hg : s.granted o.lea k.pc 4 false = false) :
    s.fetchRun o k = .stop s k .unitFault 3 := by
  simp [State.fetchRun, hg]

/-- A user program's row runs by its first instruction and then by the rest. -/
theorem exec_elementwiseOp {s : State} {c n : Nat} {o : Op} (h : s.RunsRow c n o) : exec (.elementwiseOp c) s =
    finish (State.rowOut c o (s.runProgram o (s.cluster c) ((o.instrLimit - (s.cluster c).instrs - 1) + 1))) := by
  have hn : o.instrLimit - (s.cluster c).instrs - 1 + 1 = o.instrLimit - (s.cluster c).instrs := by
    have := h.left
    omega
  show execElementwiseOp c s = _
  simp only [execElementwiseOp, h.row, h.user, if_true, hn]

/-! ## Rows (R115, R116, R190) -/

theorem Map.getD_range_map {α : Type} (v : Nat → α) (d : α) {n i : Nat} (h : i < n) :
    Map.getD ((List.range n).map fun i => (i, v i)) i d = v i := by
  have hfind : ∀ l : List Nat, i ∈ l → Map.find (l.map fun i => (i, v i)) i = some (v i) := by
    intro l
    induction l with
    | nil => simp
    | cons x rest ih =>
      intro hm
      rw [List.map_cons, Map.find_cons]
      split
      · next hx => rw [hx]
      · next hx => exact ih ((List.mem_cons.1 hm).resolve_left fun h => hx h.symm)
  rw [Map.getD, hfind _ (List.mem_range.2 h), Option.getD_some]

/-- The cluster that starts a row (R116, R118). -/
def State.startedRow (s : State) (c n row : Nat) (o : Op) : Cluster :=
  { priv := s.clusterPriv c, op := some n, row := row, u := (List.range 16).map fun i => (i, o.w (8 + i))
    len := min 64 Config.rowLength, rowStart := true, pc := o.prog, charge := Config.rowCharge o.entry o.rowLen }

/-- A row starts that no earlier row of its op is to run before. -/
theorem State.startRow_of_run (s : State) (c : Nat) {n : Nat} (o : Op) {r : EltRun} (hr : s.scalar.runs.find n = some r)
    (hre : r.rerun = []) : ∃ t, s.startRow c n o = t ∧ t.cluster c = s.startedRow c n r.nextRow o ∧
      t.scalar.runs.find n = some { r with nextRow := r.nextRow + 1 } ∧ t.mem = s.mem ∧ t.jobs = s.jobs := by
  have htake : r.take = (r.nextRow, { r with nextRow := r.nextRow + 1 }) := by simp [EltRun.take, hre]
  refine ⟨_, rfl, ?_⟩
  unfold State.startRow
  rw [hr]
  dsimp only
  rw [htake, State.cluster, State.modLea_scalar, State.modLea_mem, State.modLea_jobs]
  exact ⟨Map.getD_insert_self .., Map.find_insert_self .., rfl, rfl⟩

/-- A report leaves the scalar cores and the hub. -/
theorem State.report_keeps (s : State) (o : Op) (r : Report) :
    (s.report o r).scalar = s.scalar ∧ (s.report o r).hub = s.hub ∧ (r = {} → (s.report o r).mem = s.mem) := by
  unfold State.report
  split
  · exact ⟨rfl, rfl, fun _ => rfl⟩
  next hr =>
  split
  · exact ⟨rfl, rfl, fun _ => rfl⟩
  split
  · exact ⟨by rw [State.putHist, State.writeWords, State.write_scalar], by rw [State.putHist_hub], fun h => absurd h hr⟩
  · exact ⟨rfl, rfl, fun _ => rfl⟩

/-- What a row that has ended leaves before its op notes it: its norm contributions, its report, its die's count and flags,
and its lea's charge (R190, R399). -/
def State.rowEnded (s : State) (c : Nat) (o : Op) : State :=
  let k := s.cluster c
  let s := (s.addNorm o.lea o.eltNormIdx k.norm).report o { underflow := k.underflow, elements := k.mxElems }
  let d := s.scalarDie (c / 64)
  let s := { s with scalar := { s.scalar with dies := s.scalar.dies.insert (c / 64) { d with rows := d.rows + 1 } } }
  (s.rowFlags (c / 64) k).chargeRow o k

theorem State.addNorm_keeps (s : State) (l i : Nat) (y : Norm) :
    (s.addNorm l i y).scalar = s.scalar ∧ (s.addNorm l i y).hub = s.hub ∧ (s.addNorm l i y).mem = s.mem := by
  unfold State.addNorm
  split
  · exact ⟨rfl, rfl, rfl⟩
  · exact ⟨State.modLea_scalar .., State.modLea_hub .., State.modLea_mem ..⟩

theorem State.scalarDie_dieFlag (s : State) (d k : Nat) (f : ScalarDie → ScalarDie) : (s.dieFlag d k f).scalarDie d =
    { f (s.scalarDie d) with events := (f (s.scalarDie d)).events + BitVec.ofNat 32 k } := Map.getD_insert_self ..

theorem State.rowFlags_keeps (s : State) (d : Nat) (k : Cluster) : ((s.rowFlags d k).scalarDie d).rows = (s.scalarDie d).rows ∧
    (s.rowFlags d k).hub = s.hub ∧ (s.rowFlags d k).mem = s.mem := by
  unfold State.rowFlags
  dsimp only
  split
  · exact ⟨rfl, rfl, rfl⟩
  · exact ⟨by rw [State.scalarDie_dieFlag], rfl, rfl⟩

theorem State.rowEnded_keeps (s : State) (c : Nat) (o : Op) :
    ((s.rowEnded c o).scalarDie (c / 64)).rows = (s.scalarDie (c / 64)).rows + 1 ∧ (s.rowEnded c o).hub = s.hub ∧
      ((s.cluster c).mxElems = 0 → (s.cluster c).underflow = 0 → (s.rowEnded c o).mem = s.mem) := by
  obtain ⟨hns, hnh, hnm⟩ := s.addNorm_keeps o.lea o.eltNormIdx (s.cluster c).norm
  obtain ⟨hrs, hrh, hrm⟩ := (s.addNorm o.lea o.eltNormIdx (s.cluster c).norm).report_keeps o
    { underflow := (s.cluster c).underflow, elements := (s.cluster c).mxElems }
  unfold State.rowEnded
  dsimp only
  generalize hu : (s.addNorm o.lea o.eltNormIdx (s.cluster c).norm).report o
    { underflow := (s.cluster c).underflow, elements := (s.cluster c).mxElems } = u
  rw [hu] at hrs hrh hrm
  obtain ⟨hfd, hfh, hfm⟩ := State.rowFlags_keeps { u with scalar := { u.scalar with
    dies := u.scalar.dies.insert (c / 64) { u.scalarDie (c / 64) with rows := (u.scalarDie (c / 64)).rows + 1 } } }
    (c / 64) (s.cluster c)
  have hdie : u.scalarDie (c / 64) = s.scalarDie (c / 64) := by rw [State.scalarDie, hrs, hns, State.scalarDie]
  have hcount := congrArg ScalarDie.rows (Map.getD_insert_self u.scalar.dies (c / 64)
    { u.scalarDie (c / 64) with rows := (u.scalarDie (c / 64)).rows + 1 } {})
  rw [State.chargeRow, State.scalarDie, State.modLea_scalar, State.modLea_hub, State.modLea_mem]
  refine ⟨?_, hfh.trans (hrh.trans hnh), fun hm hw => hfm.trans ((hrm ?_).trans hnm)⟩
  · exact (hfd.trans hcount).trans (by rw [hdie])
  · rw [hm, hw]

/-- A row ends that is not its op's last (R190). -/
theorem State.endRow_of_more {s : State} {c n : Nat} {o : Op} {r : EltRun} (ho : s.op n = some o)
    (hst : (s.cluster c).st = .ended) (hr : s.scalar.runs.find n = some r) (hrows : r.doneRows + 1 < o.rows)
    (hfail : r.fail = none) (hcan : r.cancelled = false) : ∃ t, s.endRow c n o = t ∧
      t.cluster c = { priv := (s.cluster c).priv } ∧ (t.scalarDie (c / 64)).rows = (s.scalarDie (c / 64)).rows + 1 ∧
      ((s.cluster c).mxElems = 0 → (s.cluster c).underflow = 0 → t.mem = s.mem) := by
  obtain ⟨hdie, hhub, hmem⟩ := s.rowEnded_keeps c o
  have hget : s.scalar.runs.getD n { op := n } = r := by rw [Map.getD, hr, Option.getD_some]
  obtain ⟨r', hr'⟩ : ∃ r', r' = { ({ r.flags (s.cluster c) with doneRows := r.doneRows + 1 } : EltRun) with
    hits := joinHits r.hits (s.cluster c).hits } := ⟨_, rfl⟩
  obtain ⟨u, hu⟩ : ∃ u, u = ({ s.rowEnded c o with scalar := { (s.rowEnded c o).scalar with
    runs := (s.rowEnded c o).scalar.runs.insert n r' } } : State).putCluster c { priv := (s.cluster c).priv } := ⟨_, rfl⟩
  have hsettle : u.eltSettle n = u := by
    have hrun : u.scalar.runs.find n = some r' := by rw [hu]; exact Map.find_insert_self ..
    have hop : u.hub.ops.find n = some o := by rw [hu]; exact (congrArg (·.ops.find n) hhub).trans ho
    have hf : r'.fail = none := by rw [hr']; exact hfail
    have hc : r'.cancelled = false := by rw [hr']; exact hcan
    have hd : ¬ o.rows ≤ r'.doneRows := by rw [hr']; exact Nat.not_le.2 hrows
    simp only [State.eltSettle, hrun, hop, hf, hc, hd]
    simp
  refine ⟨u, ?_, ?_, ?_, ?_⟩
  · rw [← hsettle, hu, hr']
    have hput : ∀ (x : State) (k : Cluster), x.putStashHeader o k (r.doneRows + 1) = (x, k) := fun x k => if_pos hrows
    simp only [State.endRow, hst, hget, if_true]
    rw [show (r.flags (s.cluster c)).doneRows = r.doneRows from rfl, hput]
    rfl
  · rw [hu, State.cluster_putCluster]
  · rw [hu]
    exact hdie
  · rw [hu]
    exact hmem

/-- Settles O28, by the fetch of the first instruction, and by what the start and the end of a row leave. -/
theorem rowRunsAndProgramFetch : Obligations.RowRunsAndProgramFetch := by
  refine ⟨⟨?halts, ?outside, ?continues⟩, ?dispatch, ?busy, ?rowEnd, ?running⟩
  case halts =>
    intro s c n o h hg ha hop hw hsel
    rw [exec_elementwiseOp h, State.runProgram, State.fetchRun_word (i := iHalt) hg ha hw (by rw [hop, hsel]; rfl), iHalt,
      retire_go (t := s) (x := { (s.cluster c).fetched _ with st := .ended }) 1 rfl h.left]
    rfl
  case outside =>
    intro s c n o h hg
    rw [exec_elementwiseOp h, State.runProgram, State.fetchRun_outside hg]
    obtain ⟨t, ht, hst, hmem, -⟩ := State.rowOut_stop (o := o) (k := s.cluster c) (State.rowOn_facts h.row).1 .unitFault 3
    exact ⟨t, ht, hst, hmem⟩
  case continues =>
    intro s t o k x m hf hrun
    rw [State.runProgram, hf]
    exact if_pos hrun
  case dispatch =>
    intro s c n l o r hon hop hpick hfirst ho hr hre
    have hexec : exec (.rowDispatch c) s = finish (s.startRow c n o) := by
      show execRowDispatch c s = _
      simp only [execRowDispatch, hpick, hfirst, ho, hon, hop]
      rfl
    obtain ⟨t, ht, hcl, hruns, hmem, hjobs⟩ := s.startRow_of_run c o hr hre
    refine ⟨t.settle, by rw [hexec, ht]; rfl, ?_⟩
    rw [State.cluster_settle, State.settle_scalar, State.settle_mem, State.settle_jobs, hcl]
    refine ⟨rfl, rfl, fun i hi => ?_, rfl, rfl, hruns, hmem, hjobs⟩
    unfold Cluster.uniform
    rw [if_pos hi]
    exact congrArg BitVec.toNat (Map.getD_range_map (fun i => o.w (8 + i)) 0 hi)
  case busy =>
    intro s c h
    refine if_pos ?_
    rcases h with h | h <;> simp [h]
  case rowEnd =>
    intro s c n o r hop ho hst hr hrows hfail hcan
    have hexec : exec (.rowEnd c) s = finish (s.endRow c n o) := by
      show execRowEnd c s = _
      simp only [execRowEnd, hop, ho, hst]
      rfl
    obtain ⟨t, ht, hcl, hdie, hmem⟩ := State.endRow_of_more (c := c) ho hst hr hrows hfail hcan
    refine ⟨t.settle, by rw [hexec, ht]; rfl, ?_⟩
    rw [State.cluster_settle, State.settle_mem]
    refine ⟨hcl, ?_, hmem⟩
    rw [State.scalarDie, State.settle_scalar]
    exact hdie
  case running =>
    intro s c n o hop ho hst
    show execRowEnd c s = _
    simp only [execRowEnd, hop, ho, hst, if_true]
    rfl

end Sys2Proof.Machine
end

section
/-!
PROOF. What writing to memory and ending an op leave unchanged: they change the memory, the ops, the events of the leas
and the clusters, and nothing else of the machine. Later proofs use these rules in place of the definitions.
-/

namespace Sys2Proof.Machine

/-- What the writes to memory and the ends of ops leave unchanged of the machine. -/
def State.unworked (s : State) : State × (Nat → Option Lea) :=
  ({ s with
     leas := [], mem := {}, hub := { s.hub with ops := [] }, scalar := {}, out := {}
     fw := { s.fw with totalEvents := 0 } }, fun l => (s.leas.find l).map Lea.unnoted)

section
variable {s u : State}

theorem State.unworked_pending (h : u.unworked = s.unworked) : u.pending = s.pending := congrArg (·.1.pending) h
theorem State.unworked_dies (h : u.unworked = s.unworked) : u.dies = s.dies := congrArg (·.1.dies) h
theorem State.unworked_array (h : u.unworked = s.unworked) : u.array = s.array := congrArg (·.1.array) h
theorem State.unworked_edge (h : u.unworked = s.unworked) : u.edge = s.edge := congrArg (·.1.edge) h
theorem State.unworked_jobs (h : u.unworked = s.unworked) : u.jobs = s.jobs := congrArg (·.1.jobs) h
theorem State.unworked_units (h : u.unworked = s.unworked) : u.units = s.units := congrArg (·.1.units) h
theorem State.unworked_dev (h : u.unworked = s.unworked) : u.hub.dev = s.hub.dev := congrArg (·.1.hub.dev) h

theorem State.unworked_find (h : u.unworked = s.unworked) (l : Nat) :
    (u.leas.find l).map Lea.unnoted = (s.leas.find l).map Lea.unnoted := congrFun (congrArg (·.2) h) l

theorem State.unworked_listed (h : u.unworked = s.unworked) (l : Nat) : (u.leas.find l).isSome = (s.leas.find l).isSome := by
  have := congrArg Option.isSome (State.unworked_find h l)
  simpa only [Option.isSome_map] using this

theorem State.unnoted_of_unworked (h : u.unworked = s.unworked) (l : Nat) : (u.lea l).unnoted = (s.lea l).unnoted := by
  have hget (t : State) : (t.lea l).unnoted = ((t.leas.find l).map Lea.unnoted).getD (Lea.unnoted {}) := by
    rw [State.lea, Map.getD]
    cases t.leas.find l <;> rfl
  rw [hget, hget, State.unworked_find h]

end

theorem State.unworked_modLea (s : State) (l : Nat) {f : Lea → Lea} (hf : ∀ x, (f x).unnoted = x.unnoted) :
    (s.modLea l f).unworked = s.unworked := by
  unfold State.modLea
  cases hl : s.leas.find l with
  | none => rfl
  | some x =>
    refine Prod.ext rfl (funext fun k => ?_)
    by_cases hk : k = l
    · simp [State.unworked, hk, hl, hf]
    · simp [State.unworked, Map.find_insert_ne _ _ hk]

theorem State.unworked_interrupt (s : State) (l v : Nat) : (s.interrupt l v).unworked = s.unworked := by
  unfold State.interrupt
  split
  · exact s.unworked_modLea l fun _ => rfl
  · split <;> rfl

theorem State.unworked_ite_interrupt (s : State) (b : Bool) (l v : Nat) :
    (if b then s.interrupt l v else s).unworked = s.unworked := by
  split
  · exact s.unworked_interrupt l v
  · rfl

theorem State.unworked_applyEvent (s : State) (l : Nat) (e : FaultEvent) : (s.applyEvent l e).unworked = s.unworked := by
  have htake := s.unworked_modLea l fun x => x.unnoted_takeEvent e
  unfold State.applyEvent
  refine (State.unworked_ite_interrupt ..).trans ?_
  split <;> exact htake

theorem State.unworked_queueEvent (s : State) (l : Nat) (e : FaultEvent) : (s.queueEvent l e).unworked = s.unworked := by
  unfold State.queueEvent
  split
  · rfl
  split
  · exact s.unworked_modLea l fun _ => rfl
  · exact s.unworked_applyEvent l e

theorem State.unworked_poisonEvents (s : State) (sec : Nat) : (s.poisonEvents sec).unworked = s.unworked :=
  foldl_keeps State.unworked _ (fun s (l : Nat) => s.unworked_queueEvent l _) _ _

theorem State.unworked_lostRead (s : State) (sec : Nat) : (s.lostRead sec).unworked = s.unworked := by
  unfold State.lostRead
  split
  · exact s.unworked_poisonEvents sec
  · rfl

theorem State.unworked_write (s : State) (base : Nat) (bytes : List Byte) : (s.write base bytes).unworked = s.unworked := by
  unfold State.write
  exact foldl_keeps State.unworked _ State.unworked_poisonEvents _ _

theorem State.unworked_bumpShard (s : State) (base : Nat) (step : Word) : (s.bumpShard base step).unworked = s.unworked :=
  s.unworked_write _ _

theorem State.unworked_noteShards (s : State) (step : Word) (spans : List Span) :
    (s.noteShards step spans).1.unworked = s.unworked := by
  unfold State.noteShards
  dsimp only
  refine List.foldlRecOn (motive := fun (r : State × Option (Nat × Nat × Status)) => r.1.unworked = s.unworked) _ _ rfl
    fun r hr h _ => ?_
  split
  · exact (r.1.unworked_lostRead _).trans hr
  · exact (r.1.unworked_bumpShard _ _).trans hr

theorem State.unworked_noteOp (s : State) (o : Op) (spans : List Span) (st : Status) :
    (s.noteOp o spans st).1.unworked = s.unworked := by
  have hnotes := foldl_keeps State.unworked (fun s (x : Span) => if x.write then s.noteWrite o.step x.base x.len else s)
    (fun s x => by split <;> rfl) spans s
  have hshards := State.unworked_noteShards (spans.foldl (fun s x => if x.write then s.noteWrite o.step x.base x.len else s) s)
    o.step spans
  unfold State.noteOp
  dsimp only
  split <;> exact hshards.trans hnotes

theorem State.unworked_modOp (s : State) (n : Nat) (f : Op → Op) : (s.modOp n f).unworked = s.unworked := by
  unfold State.modOp
  split <;> rfl

theorem State.unworked_endOp (s : State) (n : Nat) (st : Status) (detail : Nat) :
    (s.endOp n st detail).unworked = s.unworked := s.unworked_modOp n _

theorem State.unworked_finishOp (s : State) (n : Nat) (spans : List Span) (st : Status) (detail : Nat) :
    (s.finishOp n spans st detail).unworked = s.unworked := by
  unfold State.finishOp
  split
  · rfl
  · exact (State.unworked_endOp ..).trans (State.unworked_noteOp ..)

theorem State.unworked_eltSettle (s : State) (n : Nat) : (s.eltSettle n).unworked = s.unworked := by
  unfold State.eltSettle
  split
  · split
    · rfl
    dsimp only
    split
    · exact State.unworked_finishOp ..
    split
    · exact State.unworked_finishOp ..
    split
    · exact State.unworked_finishOp ..
    · rfl
  · rfl

theorem State.unworked_dropRow (s : State) (c : Nat) : (s.dropRow c).unworked = s.unworked := by
  unfold State.dropRow
  split
  · rfl
  split
  · rfl
  · refine (State.unworked_eltSettle ..).trans ?_
    split <;> rfl

end Sys2Proof.Machine
end

section
/-!
PROOF. Settles O13 and O14: how a die leaves service, is reset, recovers or is fenced; how the lanes of its bundles fail
and are repaired; and what the die and stile commands do.
-/

namespace Sys2Proof.Machine

/-! ## What the steps of a die's reset and fence leave -/

theorem State.die_modDie_self (s : State) (d : Nat) (f : Die → Die) : (s.modDie d f).die d = f (s.die d) := by
  simp [State.die, State.modDie]

theorem State.die_modDie_ne (s : State) {d e : Nat} (f : Die → Die) (h : e ≠ d) : (s.modDie d f).die e = s.die e := by
  simp [State.die, State.modDie, Map.getD, Map.find_insert_ne _ _ h]

theorem State.die_congr {s u : State} (h : u.dies.die = s.dies.die) (d : Nat) : u.die d = s.die d := by
  rw [State.die, h, State.die]

theorem State.die_settle (s : State) (d : Nat) : s.settle.die d = s.die d := State.die_congr (by rw [State.settle_dies]) d

@[simp] theorem State.writeRecord_dies (s : State) (g : Record → Record) : (s.writeRecord g).dies = s.dies := by
  unfold State.writeRecord; split <;> rfl
@[simp] theorem State.writeRecord_array (s : State) (g : Record → Record) : (s.writeRecord g).array = s.array := by
  unfold State.writeRecord; split <;> rfl

@[simp] theorem State.checkAllFenced_dies (s : State) : s.checkAllFenced.dies = s.dies := by
  unfold State.checkAllFenced; split <;> simp
@[simp] theorem State.checkAllFenced_array (s : State) : s.checkAllFenced.array = s.array := by
  unfold State.checkAllFenced; split <;> simp

@[simp] theorem State.answerUnfence_dies (s : State) (d : Nat) (st : Status) : (s.answerUnfence d st).dies = s.dies := by
  unfold State.answerUnfence; split <;> simp
/-- The array without the matrix op in it, which the reset of a lea cancels. -/
def ArrayUnit.shape (a : ArrayUnit) : ArrayUnit := { a with run := none }

theorem State.shape_applyReset (s : State) (l : Nat) (c : ResetCause) : (s.applyReset l c).array.shape = s.array.shape := by
  unfold State.applyReset
  split
  · simp [State.beginReset, ArrayUnit.shape]
  · simp [State.beginReset, ArrayUnit.shape]
  · simp
  · split
    · simp
    split <;> simp
  · rfl

theorem State.shape_respond (s : State) (l : Nat) (st : Status) (rs : List Word) :
    (s.respond l st rs).array.shape = s.array.shape := by
  have hflush (u : State) : (u.flushReset l).array.shape = u.array.shape := by
    unfold State.flushReset
    split
    · rfl
    · rw [State.shape_applyReset, State.modLea_array]
  rw [State.respond_eq, hflush, State.flushEvents_array, State.responded]
  split <;> simp

theorem State.shape_answerUnfence (s : State) (d : Nat) (st : Status) : (s.answerUnfence d st).array.shape = s.array.shape := by
  unfold State.answerUnfence
  split
  · exact s.shape_respond 0 st []
  · rfl

/-- The array when a die leaves service. -/
def ArrayUnit.dieOut (a : ArrayUnit) (d : Nat) : ArrayUnit :=
  if a.inService.getLsbD d then
    { a with
      run := a.run.map fun r => r.dropDie d
      inService := a.inService &&& ~~~(1#4 <<< d), shapeChanges := a.shapeChanges + 1 }
  else { a with run := a.run.map fun r => r.dropDie d }

theorem ArrayUnit.dieOut_inService (a : ArrayUnit) {d : Nat} (hd : d < 4) : (a.dieOut d).inService.getLsbD d = false := by
  unfold ArrayUnit.dieOut
  split
  · simp [hd]
  · next h => simpa using h

theorem State.unworked_dieOut (s : State) (d : Nat) : (s.dieOut d).unworked = { s with array := s.array.dieOut d }.unworked := by
  refine (foldl_keeps State.unworked State.dropRow State.unworked_dropRow _ _).trans ?_
  simp only [ArrayUnit.dieOut]

theorem State.dieOut_dies (s : State) (d : Nat) : (s.dieOut d).dies = s.dies := State.unworked_dies (s := { s with array := s.array.dieOut d }) (s.unworked_dieOut d)
theorem State.dieOut_array (s : State) (d : Nat) : (s.dieOut d).array = s.array.dieOut d :=
  State.unworked_array (s := { s with array := s.array.dieOut d }) (s.unworked_dieOut d)
theorem State.dieOut_edge (s : State) (d : Nat) : (s.dieOut d).edge = s.edge := State.unworked_edge (s := { s with array := s.array.dieOut d }) (s.unworked_dieOut d)
theorem State.die_dieOut (s : State) (d e : Nat) : (s.dieOut d).die e = s.die e := State.die_congr (by rw [State.dieOut_dies]) e

/-- A die that is fenced (R249). -/
def Die.fenced (x : Die) : Die := { x with st := .fenced, rateValid := false, repairing := [] }

/-- A die whose reset begins at a count (Table 9.6). -/
def Die.reset (x : Die) (s : State) : Die :=
  { x with st := .resetting, resets := (x.resets.filter fun t => s.elapsed t < 2 ^ 30) ++ [s.now], repairing := [] }

theorem State.fenceDie_dies (s : State) (d : Nat) :
    (s.fenceDie d).dies = { s.dies with
      die := s.dies.die.insert d (s.die d).fenced
      window := if s.dies.window = some d then none else s.dies.window
      waiting := s.dies.waiting.filter (· != d)
      fencedEvent := true, fenceCount := s.dies.fenceCount + 1 } := by
  unfold State.fenceDie
  simp [State.modDie, State.dieOut_dies, State.die_dieOut, Die.fenced]

theorem State.shape_fenceDie (s : State) (d : Nat) : (s.fenceDie d).array.shape = (s.array.dieOut d).shape := by
  unfold State.fenceDie
  simp [State.shape_answerUnfence, State.dieOut_array]

theorem State.die_fenceDie_self (s : State) (d : Nat) : (s.fenceDie d).die d = (s.die d).fenced := by
  simp [State.die, State.fenceDie_dies]

theorem State.die_fenceDie_ne (s : State) {d e : Nat} (h : e ≠ d) : (s.fenceDie d).die e = s.die e := by
  simp [State.die, State.fenceDie_dies, Map.getD, Map.find_insert_ne _ _ h]

theorem State.startReset_dies (s : State) (d : Nat) :
    (s.startReset d).dies = { s.dies with die := s.dies.die.insert d ((s.die d).reset s), window := some d } := by
  unfold State.startReset
  simp [State.modDie, State.dieOut_dies, State.die_dieOut, Die.reset, State.elapsed, State.now, State.dieOut_edge]

theorem State.startReset_array (s : State) (d : Nat) : (s.startReset d).array = s.array.dieOut d := by
  simp [State.startReset, State.dieOut_array]

theorem State.die_startReset_self (s : State) (d : Nat) : (s.startReset d).die d = (s.die d).reset s := by
  simp [State.die, State.startReset_dies]

/-! ## A cause of R243 -/

theorem State.dieCause_of_free {s : State} {d : Nat} (h : (s.die d).st = .inService ∨ (s.die d).st = .rejoining)
    (hw : s.dies.window = none) : s.dieCause d = s.startReset d := by
  unfold State.dieCause
  obtain h | h := h <;> simp [h, hw]

/-- A die queued behind an open window (R247). -/
def State.queueDie (s : State) (d : Nat) : State :=
  let s := (s.dieOut d).modDie d fun x => { x with st := .queued, repairing := [] }
  { s with dies := { s.dies with waiting := s.dies.waiting ++ [d] } }

theorem State.dieCause_of_open {s : State} {d : Nat} (h : (s.die d).st = .inService ∨ (s.die d).st = .rejoining)
    (hw : s.dies.window.isSome) : s.dieCause d = s.queueDie d := by
  obtain ⟨w, hw⟩ := Option.isSome_iff_exists.mp hw
  unfold State.dieCause
  obtain h | h := h <;> simp only [h, hw] <;> rfl

theorem State.dieCause_of_resetting {s : State} {d : Nat} (h : (s.die d).st = .resetting) : s.dieCause d = s.fenceDie d := by
  rw [State.dieCause, h]

theorem State.queueDie_dies (s : State) (d : Nat) :
    (s.queueDie d).dies = { s.dies with
      die := s.dies.die.insert d { s.die d with st := .queued, repairing := [] }, waiting := s.dies.waiting ++ [d] } := by
  simp [State.queueDie, State.modDie, State.dieOut_dies, State.die_dieOut]

theorem State.queueDie_array (s : State) (d : Nat) : (s.queueDie d).array = s.array.dieOut d := by
  simp [State.queueDie, State.dieOut_array]

/-- The state with another record of CRC mismatches. -/
def State.crcNoted (s : State) (b : Bool) (c : BitVec 16) : State :=
  { s with dies := { s.dies with crcMismatch := b, crcCount := c } }

section
variable (s : State) (b : Bool) (c : BitVec 16)
theorem State.crcNoted_dies : (s.crcNoted b c).dies = { s.dies with crcMismatch := b, crcCount := c } := rfl
theorem State.crcNoted_array : (s.crcNoted b c).array = s.array := rfl
theorem State.die_crcNoted (d : Nat) : (s.crcNoted b c).die d = s.die d := rfl
end

/-- Both causes do the same to the die; a CRC mismatch is counted first. -/
theorem exec_dieCause {s : State} {d : Nat} {i : Instr} (hd : d < 4)
    (hi : i = .welxisInternalFault d ∨ i = .stileCrcMismatch d) (hst : (s.die d).st ≠ .fenced) :
    ∃ b c, exec i s = finish ((s.crcNoted b c).dieCause d) := by
  obtain rfl | rfl := hi
  · exact ⟨s.dies.crcMismatch, s.dies.crcCount, if_neg (by omega)⟩
  · exact ⟨_, _, if_neg (by simp [hst]; omega)⟩

/-- A cause leaves the count of CRC mismatches. -/
theorem State.dieCause_crc (s : State) (d : Nat) :
    (s.dieCause d).dies.crcMismatch = s.dies.crcMismatch ∧ (s.dieCause d).dies.crcCount = s.dies.crcCount := by
  unfold State.dieCause
  split
  · exact ⟨rfl, rfl⟩
  · exact ⟨rfl, rfl⟩
  · rw [State.fenceDie_dies]; exact ⟨rfl, rfl⟩
  all_goals
    split
    · rw [State.startReset_dies]; exact ⟨rfl, rfl⟩
    · show (s.queueDie d).dies.crcMismatch = _ ∧ (s.queueDie d).dies.crcCount = _
      rw [State.queueDie_dies]; exact ⟨rfl, rfl⟩

/-! ## The end of a self-test (R246) -/

theorem State.die_census_self (s : State) (d : Nat) (failed : List (Nat × Nat)) :
    ((s.census d failed).die d).resets = (s.die d).resets := by
  rw [State.census, State.die_modDie_self]

theorem State.fourthReset_census (s : State) (d : Nat) (failed : List (Nat × Nat)) :
    (s.census d failed).fourthReset d = s.fourthReset d := by
  simp only [State.fourthReset, State.die_census_self]
  rfl

theorem exec_selfTest_rejoins {s : State} {d : Nat} {c : Census} (hw : s.dies.window = some d) (ht : c.selfTest = true)
    (hn : ((s.census d c.failed).die d).narrow = false) (hf : s.fourthReset d = false) :
    exec (.welxisSelfTestEnd d c) s =
      finish { (s.census d c.failed).modDie d fun x => { x with st := .rejoining, rate := c.rate, rateValid := true } with
        dies := { ((s.census d c.failed).modDie d fun x => { x with st := .rejoining, rate := c.rate, rateValid := true }).dies with
          window := none, resetDone := true, resetCount := s.dies.resetCount + 1 } } := by
  have hgood : ¬(((s.census d c.failed).die d).narrow || !c.selfTest || (s.census d c.failed).fourthReset d) = true := by
    rw [State.fourthReset_census]
    simp [hn, ht, hf]
  show execWelxisSelfTestEnd d c s = _
  unfold execWelxisSelfTestEnd
  rw [if_neg (not_not_intro hw)]
  exact if_neg hgood

theorem exec_selfTest_fences {s : State} {d : Nat} {c : Census} (hw : s.dies.window = some d)
    (h : c.selfTest = false ∨ s.fourthReset d = true) :
    exec (.welxisSelfTestEnd d c) s = finish ((s.census d c.failed).fenceDie d) := by
  have hbad : (((s.census d c.failed).die d).narrow || !c.selfTest || (s.census d c.failed).fourthReset d) = true := by
    rw [State.fourthReset_census]
    obtain h | h := h <;> simp [h]
  show execWelxisSelfTestEnd d c s = _
  unfold execWelxisSelfTestEnd
  rw [if_neg (not_not_intro hw)]
  exact if_pos hbad

/-- Settles O13: each event is a cause's step or the end of a recovery, whose die registers the lemmas above give. -/
theorem dieResetAndRecovery : Obligations.DieResetAndRecovery := by
  refine ⟨fun s d i hd hi => ⟨fun hst hw => ?resets, fun hst hw => ?queues, fun hst => ?fences, fun hst => ?counts⟩,
    fun s d c hw => ⟨fun ht hn hf => ?rejoins, fun h => ?fails⟩, fun s d rest hw hq => ?next, fun s d hd hst hrun => ?back⟩
  case resets =>
    obtain ⟨b, c, hexec⟩ := exec_dieCause (s := s) hd hi (by rintro h; simp [h] at hst)
    rw [hexec, State.dieCause_of_free (s := s.crcNoted b c) hst hw]
    refine ⟨_, rfl, ?_⟩
    simp only [State.die_settle, State.settle_dies, State.settle_array, State.die_startReset_self, State.startReset_dies,
      State.startReset_array, ArrayUnit.dieOut_inService _ hd]
    simp [Die.reset, State.now, State.crcNoted]
  case queues =>
    obtain ⟨b, c, hexec⟩ := exec_dieCause (s := s) hd hi (by rintro h; simp [h] at hst)
    rw [hexec, State.dieCause_of_open (s := s.crcNoted b c) hst hw]
    refine ⟨_, rfl, ?_⟩
    simp only [State.die_settle, State.settle_dies, State.settle_array, State.queueDie_dies,
      State.queueDie_array, ArrayUnit.dieOut_inService _ hd]
    simp [State.die, State.queueDie_dies, State.crcNoted]
  case fences =>
    obtain ⟨b, c, hexec⟩ := exec_dieCause (s := s) hd hi (by simp [hst])
    rw [hexec, State.dieCause_of_resetting (s := s.crcNoted b c) hst]
    refine ⟨_, rfl, ?_⟩
    simp only [State.die_settle, State.settle_dies, State.die_fenceDie_self, State.fenceDie_dies]
    simp +contextual [Die.fenced, State.crcNoted]
  case counts =>
    refine ⟨_, if_neg (by simp [hst]; omega), ?_⟩
    rw [State.settle_dies]
    exact State.dieCause_crc (s.crcNoted true (s.dies.crcCount + 1)) d
  case rejoins =>
    refine ⟨_, exec_selfTest_rejoins hw ht hn hf, ?_⟩
    simp only [State.die_settle, State.settle_dies]
    simp [State.die, State.modDie, State.census]
  case fails =>
    refine ⟨_, exec_selfTest_fences hw h, ?_⟩
    simp only [State.die_settle, State.settle_dies, State.die_fenceDie_self, State.fenceDie_dies]
    simp [Die.fenced, State.census, State.modDie, hw]
  case next =>
    refine ⟨({ s with dies := { s.dies with waiting := rest } }.startReset d).settle, ?_, ?_⟩
    · show execQueuedWelxisReset s = _
      simp only [execQueuedWelxisReset, hw, hq]
      rfl
    · simp only [State.die_settle, State.settle_dies, State.die_startReset_self, State.startReset_dies]
      simp [Die.reset]
  case back =>
    refine ⟨_, if_pos ⟨hst, by simp [State.arrayHolds, hrun]⟩, ?_⟩
    have hshape := (s.dieIn d).shape_answerUnfence d .ok
    have hdie : ((s.dieIn d).answerUnfence d .ok).die d = (s.dieIn d).die d := State.die_congr (by simp) d
    rw [State.die_settle, State.settle_array, hdie]
    exact ⟨by simp [State.dieIn, State.die_modDie_self], congrArg ArrayUnit.inService hshape,
      congrArg ArrayUnit.shapeChanges hshape⟩

end Sys2Proof.Machine
end

section
/-!
PROOF. Settles O14: how the lanes of a die's bundles fail and are repaired, and what the die and stile commands do.
-/

namespace Sys2Proof.Machine

/-! ## A lane that fails (R238, R239) -/

/-- A die with a lane field-failed and its bundle's repair running. -/
def Die.laneFail (x : Die) (dir lane : Nat) : Die :=
  { x with
    bundles := x.bundles.insert dir { x.dir dir with lanes := (x.dir dir).lanes.insert lane .fieldFailed }
    repairing := if x.repairing.contains (dir / 2) then x.repairing else x.repairing ++ [dir / 2] }

/-- A lane of a die is marked field-failed, and its bundle's repair runs. -/
def Die.LaneFailed (x : Die) (dir lane : Nat) : Prop :=
  (x.dir dir).lanes.find lane = some .fieldFailed ∧ dir / 2 ∈ x.repairing

theorem Die.dir_laneFail_self (x : Die) (dir lane : Nat) :
    (x.laneFail dir lane).dir dir = { x.dir dir with lanes := (x.dir dir).lanes.insert lane .fieldFailed } := by
  show (x.bundles.insert dir _).getD dir _ = _
  simp

theorem Die.dir_laneFail_ne (x : Die) {dir dir' : Nat} (lane : Nat) (h : dir' ≠ dir) :
    (x.laneFail dir lane).dir dir' = x.dir dir' := by
  show (x.bundles.insert dir _).getD dir' _ = _
  rw [Map.getD, Map.find_insert_ne _ _ h]
  rfl

theorem Die.laneFailed_laneFail (x : Die) (dir lane : Nat) : (x.laneFail dir lane).LaneFailed dir lane := by
  refine ⟨by simp [Die.dir_laneFail_self], ?_⟩
  show dir / 2 ∈ (if x.repairing.contains (dir / 2) then x.repairing else x.repairing ++ [dir / 2])
  split
  · next h => simpa using h
  · simp

/-- A lane that has failed stays so when another fails. -/
theorem Die.LaneFailed.laneFail {x : Die} {dir lane : Nat} (h : x.LaneFailed dir lane) (dir' lane' : Nat) :
    (x.laneFail dir' lane').LaneFailed dir lane := by
  obtain ⟨hlane, hrep⟩ := h
  refine ⟨?_, ?_⟩
  · by_cases hd : dir = dir'
    · subst hd
      rw [Die.dir_laneFail_self]
      by_cases hl : lane = lane'
      · simp [hl]
      · simpa [Map.find_insert_ne _ _ hl] using hlane
    · rw [Die.dir_laneFail_ne _ _ hd]; exact hlane
  · show dir / 2 ∈ (if x.repairing.contains (dir' / 2) then x.repairing else x.repairing ++ [dir' / 2])
    split
    · exact hrep
    · exact List.mem_append_left _ hrep

/-- A lane carries data as before when another fails, or has failed itself. -/
theorem Die.carries_laneFail {x : Die} {dir lane : Nat} (h : (x.dir dir).carries lane = true) (dir' lane' : Nat) :
    (x.laneFail dir' lane').LaneFailed dir lane ∨ ((x.laneFail dir' lane').dir dir).carries lane = true := by
  by_cases hd : dir = dir'
  · subst hd
    by_cases hl : lane = lane'
    · subst hl
      exact .inl (x.laneFailed_laneFail dir lane)
    · refine .inr ?_
      rw [Die.dir_laneFail_self, ← h]
      simp only [BundleDir.carries, Map.find_insert_ne _ _ hl]
  · exact .inr (by rw [Die.dir_laneFail_ne _ _ hd]; exact h)

/-- Whether a failing lane is marked: its die is in service or rejoins, and the lane carries data. -/
def Die.marks (x : Die) (dir lane : Nat) : Bool := (x.st == .inService || x.st == .rejoining) && (x.dir dir).carries lane

theorem State.die_laneFails (s : State) (d dir lane e : Nat) :
    (s.laneFails d dir lane).die e =
      if e = d ∧ (s.die d).marks dir lane then (s.die d).laneFail dir lane else s.die e := by
  unfold State.laneFails
  dsimp only
  split
  · next h =>
    rw [if_neg]
    rintro ⟨-, hmark⟩
    simp only [Die.marks, Bool.and_eq_true, Bool.or_eq_true, beq_iff_eq] at hmark
    obtain ⟨hst, hc⟩ := hmark
    obtain ⟨hs, hr⟩ | h := h
    · exact hst.elim hs hr
    · simp [hc] at h
  · next h =>
    have hmark : (s.die d).marks dir lane = true := by
      simp only [not_or, Classical.not_and_iff_not_or_not, Classical.not_not, Bool.not_eq_true', Bool.not_eq_false] at h
      simp [Die.marks, h]
    obtain ⟨u, hu⟩ : ∃ u, u = s.modDie d fun _ => (s.die d).laneFail dir lane := ⟨_, rfl⟩
    have hdie : u.die e = if e = d ∧ (s.die d).marks dir lane then (s.die d).laneFail dir lane else s.die e := by
      rw [hu]
      by_cases he : e = d
      · rw [he, State.die_modDie_self, if_pos ⟨rfl, hmark⟩]
      · rw [State.die_modDie_ne _ _ he, if_neg fun h => he h.1]
    rw [← hdie, hu]
    split
    · exact State.die_congr (by rw [State.writeRecord_dies]; rfl) e
    · rfl

/-- One lane of a die in service: it has failed, or carries data. -/
def State.LaneJudged (s : State) (d dir lane : Nat) : Prop :=
  (s.die d).st = .inService ∧ ((s.die d).LaneFailed dir lane ∨ ((s.die d).dir dir).carries lane = true)

theorem State.LaneJudged.laneFails {s : State} {d dir lane : Nat} (h : s.LaneJudged d dir lane) (d' dir' lane' : Nat) :
    (s.laneFails d' dir' lane').LaneJudged d dir lane := by
  obtain ⟨hst, hlane⟩ := h
  rw [State.LaneJudged, State.die_laneFails]
  split
  · next hd =>
    rw [← hd.1]
    exact ⟨hst, hlane.elim (fun hf => .inl (hf.laneFail dir' lane')) fun hc => Die.carries_laneFail hc dir' lane'⟩
  · exact ⟨hst, hlane⟩

theorem State.laneFailed_laneFails {s : State} {d dir lane : Nat} (h : (s.die d).LaneFailed dir lane) (d' dir' lane' : Nat) :
    ((s.laneFails d' dir' lane').die d).LaneFailed dir lane := by
  rw [State.die_laneFails]
  split
  · next hd => rw [← hd.1]; exact h.laneFail dir' lane'
  · exact h

theorem State.LaneJudged.fails {s : State} {d dir lane : Nat} (h : s.LaneJudged d dir lane) :
    ((s.laneFails d dir lane).die d).LaneFailed dir lane := by
  obtain ⟨hst, hlane⟩ := h
  obtain hf | hc := hlane
  · exact State.laneFailed_laneFails hf d dir lane
  · rw [State.die_laneFails, if_pos ⟨rfl, by simp [Die.marks, hst, hc]⟩]
    exact Die.laneFailed_laneFail _ _ _

/-- Of the lanes that fail one after another, each that carried data ends failed. -/
theorem State.laneFailed_foldl {s : State} {l : List (Nat × Nat × Nat)} {d dir lane : Nat} (h : s.LaneJudged d dir lane)
    (hm : (d, dir, lane) ∈ l) :
    ((l.foldl (fun s e => s.laneFails e.1 e.2.1 e.2.2) s).die d).LaneFailed dir lane := by
  obtain ⟨before, after, rfl⟩ := List.append_of_mem hm
  rw [List.foldl_append, List.foldl_cons]
  have hjudged := List.foldlRecOn (motive := fun (s : State) => s.LaneJudged d dir lane) before
    (fun (s : State) (e : Nat × Nat × Nat) => s.laneFails e.1 e.2.1 e.2.2) h fun s hs e _ => hs.laneFails e.1 e.2.1 e.2.2
  exact List.foldlRecOn (motive := fun (s : State) => (s.die d).LaneFailed dir lane) after
    (fun (s : State) (e : Nat × Nat × Nat) => s.laneFails e.1 e.2.1 e.2.2) hjudged.fails fun s hs e _ => State.laneFailed_laneFails hs e.1 e.2.1 e.2.2

/-! ## The interval (R238) -/

/-- A die whose counts of the interval start again. -/
def Die.cleared (x : Die) : Die := { x with bundles := x.bundles.mapVals fun _ b => { b with interval := [] } }

theorem Die.LaneFailed.cleared {x : Die} {dir lane : Nat} (h : x.LaneFailed dir lane) : x.cleared.LaneFailed dir lane := by
  obtain ⟨hlane, hrep⟩ := h
  refine ⟨?_, hrep⟩
  rw [← hlane]
  simp only [Die.dir, Die.cleared, Map.getD, Map.find_mapVals]
  cases x.bundles.find dir <;> rfl

/-- The lanes over the limit in every die. -/
def State.badLanes (s : State) : List (Nat × Nat × Nat) :=
  (List.range 4).flatMap fun d => ((s.die d).overLimit s.dies.errLimit).map fun l => (d, l.1, l.2)

theorem State.mem_badLanes {s : State} {d : Nat} {p : Nat × Nat} (hd : d < 4)
    (hp : p ∈ (s.die d).overLimit s.dies.errLimit) : (d, p.1, p.2) ∈ s.badLanes :=
  List.mem_flatMap.mpr ⟨d, List.mem_range.mpr hd, List.mem_map.mpr ⟨p, hp, rfl⟩⟩

/-- The dies as an interval ends. -/
def State.intervalEnd (s : State) : State :=
  let u := s.badLanes.foldl (fun s l => s.laneFails l.1 l.2.1 l.2.2) s
  { u with dies := { u.dies with interval := s.interval, die := u.dies.die.mapVals fun _ x => x.cleared } }

theorem exec_laneErrorInterval {s : State} (h : s.dies.interval < s.interval) :
    exec .laneErrorInterval s = finish s.intervalEnd := by
  show execLaneErrorInterval s = _
  rw [execLaneErrorInterval, if_neg (by omega), State.intervalEnd]
  have hkeeps : (s.badLanes.foldl (fun s l => s.laneFails l.1 l.2.1 l.2.2) s).edge = s.edge :=
    foldl_keeps State.edge _ (fun s (l : Nat × Nat × Nat) => by
      unfold State.laneFails
      dsimp only
      split
      · rfl
      split
      · rw [State.writeRecord_edge]; rfl
      · rfl) _ _
  have hint : (s.badLanes.foldl (fun s l => s.laneFails l.1 l.2.1 l.2.2) s).interval = s.interval := by
    rw [State.interval, hkeeps, State.interval]
  show finish { s.badLanes.foldl (fun s l => s.laneFails l.1 l.2.1 l.2.2) s with dies := _ } = _
  simp only [← hint]
  rfl

theorem State.die_intervalEnd {s : State} {d : Nat} {p : Nat × Nat} (hd : d < 4)
    (hp : p ∈ (s.die d).overLimit s.dies.errLimit) (hst : (s.die d).st = .inService)
    (hc : ((s.die d).dir p.1).carries p.2 = true) : (s.intervalEnd.die d).LaneFailed p.1 p.2 := by
  have hfailed := State.laneFailed_foldl (l := s.badLanes) ⟨hst, .inr hc⟩ (State.mem_badLanes hd hp)
  have hcleared : s.intervalEnd.die d = ((s.badLanes.foldl (fun s l => s.laneFails l.1 l.2.1 l.2.2) s).die d).cleared := by
    simp only [State.die, State.intervalEnd, Map.getD, Map.find_mapVals]
    cases (s.badLanes.foldl (fun s l => s.laneFails l.1 l.2.1 l.2.2) s).dies.die.find d <;> rfl
  rw [hcleared]
  exact hfailed.cleared

/-! ## The end of a bundle's repair (R239, R240, R242) -/

/-- A die whose bundle is repaired. -/
def Die.repaired (x : Die) (b : Nat) : Die :=
  { x with
    bundles := (x.bundles.insert (2 * b) (x.dir (2 * b)).repair.1).insert (2 * b + 1) (x.dir (2 * b + 1)).repair.1
    repairing := x.repairing.filter (· != b) }

/-- A die in which a bundle has a width. -/
def Die.setWidth (x : Die) (b w : Nat) : Die :=
  { x with width := if w = 0 then x.width.erase b else x.width.insert b w }

theorem Die.dir_repaired_even (x : Die) (b : Nat) : (x.repaired b).dir (2 * b) = (x.dir (2 * b)).repair.1 := by
  simp [Die.repaired, Die.dir, Map.getD, Map.find_insert_ne]

theorem Die.dir_repaired_odd (x : Die) (b : Nat) : (x.repaired b).dir (2 * b + 1) = (x.dir (2 * b + 1)).repair.1 := by
  simp [Die.repaired, Die.dir]

theorem exec_bundleRepairDone {s : State} {d b : Nat} (hb : b ∈ (s.die d).repairing) :
    ∃ u : State, (u.die d = ((s.die d).repaired b).setWidth b
        (max ((s.die d).width.getD b 0) (((s.die d).repaired b).allowed b))) ∧
      exec (.bundleRepairDone d b true) s =
        finish (if max ((s.die d).width.getD b 0) (((s.die d).repaired b).allowed b) = 3 then u.fenceDie d else u) := by
  apply Exists.intro
  apply And.intro
  rotate_left
  · show execBundleRepairDone d b true s = _
    rw [execBundleRepairDone, if_neg (by simp [hb])]
    rfl
  · rw [← s.die_modDie_self d fun _ => ((s.die d).repaired b).setWidth b
      (max ((s.die d).width.getD b 0) (((s.die d).repaired b).allowed b))]
    refine State.die_congr ?_ d
    dsimp only
    split <;> split <;> rfl

/-! ## The commands of range 0x02 -/

theorem State.die_taken (s : State) (l c : Nat) (t : Word) (a : List Word) (d : Nat) : (s.taken l c t a).die d = s.die d :=
  State.die_congr (by rw [State.taken_dies]) d

section
variable {s : State} {tag : Word} {args : List Word} (hs : s.Serves 0) (hdev : s.hub.dev ≠ .boot)
include hs hdev

theorem exec_wxReset (hf : Fits 1 args) (hd : argN args 0 < 4) (hst : (s.die (argN args 0)).st = .inService) :
    exec (.wxReset 0 tag args) s = answered ((s.taken 0 0x0201 tag args).dieCause (argN args 0)) 0 .ok [] :=
  finish_issue_ok cmdWxReset hs hf rfl (.inl hdev) (by simp [cmdWxReset, cmd, hd, hst])

theorem exec_wxFence {e : Nat} (hf : Fits 1 args) (hd : argN args 0 < 4) (hst : (s.die (argN args 0)).st ≠ .fenced)
    (he : e < 4) (hne : e ≠ argN args 0) (hst' : (s.die e).st ≠ .fenced) :
    exec (.wxFence 0 tag args) s = answered ((s.taken 0 0x0202 tag args).fenceDie (argN args 0)) 0 .ok [] := by
  have hother : ((s.die (argN args 0)).st != .fenced &&
      (List.range 4).any fun e => e != argN args 0 && (s.die e).st != .fenced) = true := by
    simp only [Bool.and_eq_true, bne_iff_ne, List.any_eq_true, List.mem_range]
    exact ⟨hst, e, he, hne, hst'⟩
  exact finish_issue_ok cmdWxFence hs hf rfl (.inl hdev) (by
    simp only [cmdWxFence, cmd, State.die_taken, decide_eq_true hd, hother, need_pos])

theorem exec_wxUnfence (hf : Fits 1 args) (hlive : s.live) (hd : argN args 0 < 4)
    (hst : (s.die (argN args 0)).st = .fenced) (hw : s.dies.window = none) :
    exec (.wxUnfence 0 tag args) s =
      .next (((s.taken 0 0x0203 tag args).startReset (argN args 0)).deferred 0 (.wxUnfence (argN args 0))).settle :=
  finish_issue_defer cmdWxUnfence hs hf rfl (.inl hdev) (by
    simp [cmdWxUnfence, cmd, hd, hst, hw, State.taken_live, hlive])

theorem exec_stileCensusRead (hf : Fits 3 args) (hd : argN args 0 < 4) (hb : argN args 1 < 32) (hdir : argN args 2 < 2)
    (hst : (s.die (argN args 0)).st ≠ .fenced) :
    exec (.stileCensusRead 0 tag args) s = answered (s.taken 0 0x0204 tag args) 0 .ok
      (((List.range 51).map fun k =>
          BitVec.ofNat 32 (((s.die (argN args 0)).dir (2 * argN args 1 + argN args 2)).stream >>> (32 * k))) ++
        (List.range 8).map fun k => packFields
          [(satNat 16 (((s.die (argN args 0)).dir (2 * argN args 1 + argN args 2)).invalid.getD (2 * k + 1) 0), 16),
           (satNat 16 (((s.die (argN args 0)).dir (2 * argN args 1 + argN args 2)).invalid.getD (2 * k) 0), 0)]) := by
  have hargs : (decide (argN args 0 < 4) && decide (argN args 1 < 32) && decide (argN args 2 < 2)) = true := by
    simp only [decide_eq_true hd, decide_eq_true hb, decide_eq_true hdir, Bool.and_self]
  refine finish_issue_done cmdStileCensusRead hs hf rfl (.inl hdev) ?_
  simp only [cmdStileCensusRead, cmd, State.die_taken, hargs, bne_iff_ne.mpr hst, need_pos]

theorem exec_stileWidthSet (hf : Fits 3 args) (hd : argN args 0 < 4) (hb : argN args 1 < 32) (hpos : 0 < argN args 2)
    (hlt : argN args 2 < 3) (hw : (s.die (argN args 0)).allowed (argN args 1) ≤ argN args 2)
    (hst : (s.die (argN args 0)).st = .inService) :
    ∃ u, exec (.stileWidthSet 0 tag args) s = answered u 0 .ok [] ∧
      u.die (argN args 0) = (s.die (argN args 0)).setWidth (argN args 1) (argN args 2) := by
  have hargs : (decide (argN args 0 < 4) && decide (argN args 1 < 32) && decide (argN args 2 < 3) &&
      (argN args 2 == 0 || decide ((s.die (argN args 0)).allowed (argN args 1) ≤ argN args 2))) = true := by
    simp only [decide_eq_true hd, decide_eq_true hb, decide_eq_true hlt, decide_eq_true hw, Bool.or_true, Bool.and_self]
  obtain ⟨t, ht⟩ : ∃ t, t = s.taken 0 0x0205 tag args := ⟨_, rfl⟩
  obtain ⟨u, hu⟩ : ∃ u, u = t.modDie (argN args 0) fun x => x.setWidth (argN args 1) (argN args 2) := ⟨_, rfl⟩
  have hdie : u.die (argN args 0) = (s.die (argN args 0)).setWidth (argN args 1) (argN args 2) := by
    rw [hu, State.die_modDie_self, ht, State.die_taken]
  refine ⟨if (s.die (argN args 0)).width.getD (argN args 1) 0 < argN args 2 then
      { u with dies := { u.dies with widthStepped := true, stepCount := u.dies.stepCount + 1 } } else u,
    finish_issue_ok cmdStileWidthSet hs hf rfl (.inl hdev) ?_, ?_⟩
  · simp only [cmdStileWidthSet, cmd, State.die_taken, hargs, hst, decide_true, need_pos, hu, ht, Die.setWidth,
      if_neg (Nat.ne_of_gt hpos)]
  · rw [← hdie]
    exact State.die_congr (by split <;> rfl) _

theorem exec_stileRetireClear (hf : Fits 0 args) (hlive : s.live) (hon : s.edgeOn 33) (hfence : s.edgeFenced 33 = false) :
    exec (.stileRetireClear 0 tag args) s =
      answered { s.taken 0 0x0206 tag args with
        fw := s.fw.writeRecord fun r => { r with lanes := r.lanes.sel fun _ w => fld w 13 12 != 2 } } 0 .ok [] := by
  have hon' : (s.taken 0 0x0206 tag args).edgeOn 33 := by rw [State.edgeOn, State.taken_edge]; exact hon
  have hfence' : (s.taken 0 0x0206 tag args).edgeFenced 33 = false := by rw [State.edgeFenced, State.taken_edge]; exact hfence
  exact finish_issue_ok cmdStileRetireClear hs hf rfl (.inl hdev) (by
    simp [cmdStileRetireClear, cmd, State.taken_live, hlive, needDomain_on hon', State.writeRecord, hfence'])

end

theorem ArrayUnit.inService_of_shape {a b : ArrayUnit} (h : a.shape = b.shape) : a.inService = b.inService :=
  congrArg (fun x => x.inService) h

/-- A die's reset leaves which leas are listed. -/
theorem State.startReset_listed (s : State) (d l : Nat) : ((s.startReset d).leas.find l).isSome = (s.leas.find l).isSome := by
  have hleas : (s.startReset d).leas = (s.dieOut d).leas := by simp [State.startReset]
  have hlisted := State.unworked_listed (s := { s with array := s.array.dieOut d }) (s.unworked_dieOut d) l
  rw [hleas, hlisted]

theorem State.die_deferred (s : State) (l : Nat) (df : Deferral) (d : Nat) : (s.deferred l df).die d = s.die d :=
  State.die_congr (by rw [State.deferred_dies]) d

/-- Settles O14: lanes by the rules of a failing lane, a bundle by its repair, and each command by its own effect. -/
theorem stileAndDieCommands : Obligations.StileAndDieCommands := by
  refine ⟨⟨fun s d dir lane hd hdir hl hst => ?code, fun s hi => ⟨_, exec_laneErrorInterval hi, ?interval, ?overLimit⟩,
    fun s d dir lanes hd hdir hst => ?stall, fun s d b hb => ?repair⟩, fun s tag args hs hdev =>
    ⟨fun hf hd hst hw => ?reset, fun e hf hd hst he hne hst' => ?fence, fun hf hlive hd hst hw => ?unfence,
      fun hf hd hb hdir hst => exec_stileCensusRead hs hdev hf hd hb hdir hst,
      fun hf hd hb hpos hlt hw hst => ?width,
      fun hf hlive hon hfence => exec_stileRetireClear hs hdev hf hlive hon hfence⟩⟩
  case code =>
    refine ⟨_, if_neg (by simp only [not_or]; exact ⟨by omega, by omega, by omega, hst⟩), ?_⟩
    simp only [State.die_settle, State.die_modDie_self]
    simp [Die.dir, Map.modify]
  case interval => rw [State.settle_dies, State.intervalEnd]
  case overLimit =>
    intro d hd p hp hst hc
    rw [State.die_settle]
    exact State.die_intervalEnd hd hp hst hc
  case stall =>
    refine ⟨_, if_neg (by omega), fun l hl hc => ?_⟩
    have hfold := State.laneFailed_foldl (l := lanes.map fun l => (d, dir, l)) ⟨hst, .inr hc⟩
      (List.mem_map.mpr ⟨l, hl, rfl⟩)
    rw [List.foldl_map] at hfold
    rw [State.die_settle]
    exact hfold
  case repair =>
    obtain ⟨u, hdie, hexec⟩ := exec_bundleRepairDone hb
    obtain ⟨w, hw⟩ : ∃ w, w = max ((s.die d).width.getD b 0) (((s.die d).repaired b).allowed b) := ⟨_, rfl⟩
    rw [← hw] at hdie hexec
    have hends : ∃ t, exec (.bundleRepairDone d b true) s = .next t ∧ b ∉ (t.die d).repairing ∧
        (t.die d).bundles = ((s.die d).repaired b).bundles ∧ (w = 3 → (t.die d).st = .fenced) ∧
        (w < 3 → (t.die d).st = (s.die d).st) := by
      by_cases h3 : w = 3
      · rw [if_pos h3] at hexec
        refine ⟨_, hexec, ?_⟩
        rw [State.die_settle, State.die_fenceDie_self, hdie]
        exact ⟨List.not_mem_nil, rfl, fun _ => rfl, fun h => absurd h3 (Nat.ne_of_lt h)⟩
      · rw [if_neg h3] at hexec
        refine ⟨_, hexec, ?_⟩
        rw [State.die_settle, hdie]
        exact ⟨by simp [Die.setWidth, Die.repaired], rfl, fun h => absurd h h3, fun _ => rfl⟩
    obtain ⟨t, hexec, hrep, hbundles, hfenced, hkept⟩ := hends
    have hdir (k : Nat) : (t.die d).dir k = ((s.die d).repaired b).dir k := by rw [Die.dir, hbundles, Die.dir]
    have hallowed : (t.die d).allowed b = ((s.die d).repaired b).allowed b := by
      simp only [Die.allowed, Die.groups, hbundles]
    refine ⟨t, ?_⟩
    rw [hallowed, ← hw]
    exact ⟨hexec, hrep, by rw [hdir, Die.dir_repaired_even], by rw [hdir, Die.dir_repaired_odd], hfenced, hkept⟩
  case reset =>
    refine ⟨_, exec_wxReset hs hdev hf hd hst, ?_⟩
    rw [State.dieCause_of_free (by rw [State.die_taken]; exact .inl hst) (by rw [State.taken_dies]; exact hw),
      State.die_startReset_self, State.startReset_dies]
    exact ⟨rfl, rfl⟩
  case fence =>
    refine ⟨_, exec_wxFence hs hdev hf hd hst he hne hst', ?_⟩
    have hin := ArrayUnit.inService_of_shape ((s.taken 0 0x0202 tag args).shape_fenceDie (argN args 0))
    rw [State.die_fenceDie_self, State.fenceDie_dies, State.die_fenceDie_ne _ hne, State.taken_dies]
    refine ⟨rfl, rfl, ?_, State.die_taken ..⟩
    rw [hin]
    exact ArrayUnit.dieOut_inService _ hd
  case unfence =>
    refine ⟨_, exec_wxUnfence hs hdev hf hlive hd hst hw, ?_⟩
    obtain ⟨u, hu⟩ : ∃ u, u = (s.taken 0 0x0203 tag args).startReset (argN args 0) := ⟨_, rfl⟩
    have hlisted : (u.leas.find 0).isSome := by
      rw [hu, State.startReset_listed, State.taken_listed]
      exact hs.listed
    have hmbx : (((u.deferred 0 (.wxUnfence (argN args 0))).lea 0).mbx).deferral = some (.wxUnfence (argN args 0)) := by
      rw [State.deferred, State.lea_modLea_self _ _ _ hlisted]
    simp only [← hu, State.die_settle, State.settle_dies, State.die_deferred, State.deferred_dies, State.lea_settle_mbx, hmbx]
    rw [hu,
      State.die_startReset_self, State.startReset_dies]
    exact ⟨rfl, rfl, trivial⟩
  case width =>
    obtain ⟨u, hexec, hdie⟩ := exec_stileWidthSet hs hdev hf hd hb hpos hlt hw hst (tag := tag)
    refine ⟨u, hexec, ?_⟩
    rw [hdie]
    exact ⟨if_neg (Nat.ne_of_gt hpos), hst⟩

end Sys2Proof.Machine
end

section
/-!
PROOF. Settles O32: how a queue slot is admitted or rejected, and when an op starts.
-/

namespace Sys2Proof.Machine

/-! ## What an entry's writing leaves (R47 to R49) -/

theorem State.queues_modLea (s : State) (l k : Nat) {f : Lea → Lea} (hf : ∀ x, (f x).queues = x.queues) :
    ((s.modLea l f).lea k).queues = (s.lea k).queues := s.lea_modLea_field l k Lea.queues hf

theorem State.queues_of_unworked {s u : State} (h : u.unworked = s.unworked) (k : Nat) :
    (u.lea k).queues = (s.lea k).queues := by
  have hq := congrArg Lea.queues (State.unnoted_of_unworked h k)
  exact hq

theorem State.putEntry_keeps (s : State) (o : Op) (r : Nat) (k : CRing) (st : Status) (detail : Nat) :
    (s.putEntry o r k st detail).jobs = s.jobs ∧ ∀ l, ((s.putEntry o r k st detail).lea l).queues = (s.lea l).queues := by
  obtain ⟨u, hu⟩ : ∃ u, u = s.modLea o.lea fun x => { x with rings := x.rings.insert r k.advance } := ⟨_, rfl⟩
  have hjobs : u.jobs = s.jobs := by rw [hu, State.modLea_jobs]
  have hqueues (l : Nat) : (u.lea l).queues = (s.lea l).queues := by
    rw [hu]
    exact s.queues_modLea o.lea l (f := fun x => { x with rings := x.rings.insert r k.advance }) fun _ => rfl
  have hwork {v : State} (h : v.unworked = u.unworked) : v.jobs = s.jobs ∧ ∀ l, (v.lea l).queues = (s.lea l).queues :=
    ⟨(State.unworked_jobs h).trans hjobs, fun l => (State.queues_of_unworked h l).trans (hqueues l)⟩
  unfold State.putEntry
  rw [← hu]
  dsimp only
  split
  · exact ⟨hjobs, hqueues⟩
  split
  · exact hwork (u.unworked_queueEvent _ _)
  · exact hwork (u.unworked_write _ _)

theorem State.tryEntry_keeps (s : State) (n : Nat) :
    (s.tryEntry n).jobs = s.jobs ∧ ∀ l, ((s.tryEntry n).lea l).queues = (s.lea l).queues := by
  unfold State.tryEntry
  split
  · exact ⟨rfl, fun _ => rfl⟩
  split
  · next o _ _ st detail _ =>
    split
    · exact ⟨rfl, fun _ => rfl⟩
    split
    · exact ⟨rfl, fun _ => rfl⟩
    next r k _ =>
    split
    · exact ⟨rfl, fun _ => rfl⟩
    obtain ⟨hjobs, hqueues⟩ := s.putEntry_keeps o r k st detail
    obtain ⟨u, hu⟩ : ∃ u, u = (s.putEntry o r k st detail).leaveFlight n := ⟨_, rfl⟩
    have hlea : u.jobs = s.jobs ∧ ∀ l, (u.lea l).queues = (s.lea l).queues := by
      rw [hu]
      exact ⟨hjobs, hqueues⟩
    dsimp only
    rw [← hu]
    split
    · have hi := u.unworked_interrupt o.lea (1 + r % 63)
      exact ⟨(State.unworked_jobs hi).trans hlea.1, fun l => (State.queues_of_unworked hi l).trans (hlea.2 l)⟩
    · exact hlea
  · exact ⟨rfl, fun _ => rfl⟩

/-! ## Admission (R43, R53) -/

theorem State.queues_settle (s : State) (l : Nat) : (s.settle.lea l).queues = (s.lea l).queues := by
  obtain ⟨a, c, v, w, h⟩ := s.lea_settle l
  rw [h]

theorem State.queue_modQueue {s : State} {l q : Nat} {k : Queue} (h : (s.lea l).queues.find q = some k) (f : Queue → Queue) :
    ((s.modLea l fun x => x.modQueue q f).lea l).queues.find q = some (f k) := by
  rw [State.lea_modLea_self _ _ _ (State.listed_of_queue h), Lea.modQueue_eq h]
  simp

/-- An op takes a slot of the scale history by a write, or is refused one by a count. -/
theorem State.claimSlot_keeps (s : State) (o : Op) : (s.claimSlot o).hub = s.hub ∧
    ∀ l, ((s.claimSlot o).lea l).queues = (s.lea l).queues := by
  unfold State.claimSlot
  split
  · exact ⟨rfl, fun _ => rfl⟩
  split
  · exact ⟨rfl, fun _ => rfl⟩
  split
  · exact ⟨rfl, fun _ => rfl⟩
  split
  · next i _ => exact ⟨s.putHist_hub _ i _, State.queues_of_unworked (s.unworked_write _ _)⟩
  · exact ⟨rfl, fun _ => rfl⟩

theorem State.op_enterFlight (s : State) (o : Op) : (s.enterFlight o).op s.hub.nextOp = some o := by
  simp [State.enterFlight, State.op]

theorem State.op_enterFlight_ne (s : State) (o : Op) {n : Nat} (h : n ≠ s.hub.nextOp) : (s.enterFlight o).op n = s.op n := by
  simp [State.enterFlight, State.op, Map.find_insert_ne _ _ h]

section
variable {s u : State} {l q : Nat} {k : Queue} {slot : List Byte} {o : Op}

/-- What the fetch of a slot that can be read does: the op in it is admitted or completes. -/
theorem exec_slotFetch (hk : (s.lea l).queues.find q = some k) (hmay : s.mayFetch l q k = true)
    (hslot : (k.hbm = false ∧ slot.length = 128) ∨
      (k.hbm = true ∧ s.access (k.base + 128 * k.head) 128 = .good ∧ slot = s.read (k.base + 128 * k.head) 128)) :
    exec (.slotFetch l q (if k.hbm then [] else slot)) s = finish (s.admitSlot l q k.head slot) := by
  show execSlotFetch _ _ _ _ = _
  obtain ⟨hhbm, hlen⟩ | ⟨hhbm, hgood, rfl⟩ := hslot
  · simp [execSlotFetch, hk, hmay, hhbm, hlen]
  · simp [execSlotFetch, hk, hmay, hhbm, hgood]

theorem State.admitSlot_of_ok (hu : u = s.modLea l fun x => x.passSlot q) (ho : o = Op.ofSlot l q k.head slot)
    (h : u.headerStatus o = none) :
    s.admitSlot l q k.head slot = (u.claimSlot o).enterFlight { o with rank := o.cls == 4 && u.wdrRank o } := by
  unfold State.admitSlot
  simp only [← hu, ← ho, h]

theorem State.admitSlot_of_bad (hu : u = s.modLea l fun x => x.passSlot q) (ho : o = Op.ofSlot l q k.head slot) {st : Status}
    (h : u.headerStatus o = some st) :
    s.admitSlot l q k.head slot = (u.enterFlight { o with phase := .done st 0 }).completeOp s.hub.nextOp := by
  unfold State.admitSlot
  simp only [← hu, ← ho, h]

end

/-! ## Start (R50, R180) -/

/-- The unit of a copy, Windrow or Tedder op does nothing at its start. -/
theorem State.beginOp_of_plain {s : State} {n : Nat} {o : Op} (h : s.op n = some o) (hcls : o.cls ∈ [3, 4, 5]) :
    s.beginOp n o = (s.started n).logForward o := by
  refine State.beginOp_of_taken ?_ (State.startRefused_of_running (State.op_started h) rfl)
  simp only [List.mem_cons, List.not_mem_nil, or_false] at hcls
  obtain hc | hc | hc := hcls <;> simp [State.startUnit, hc]

theorem exec_opStart_of_mayBegin {s : State} {n : Nat} {o : Op} (h : s.MayBegin n o) :
    exec (.opStart n) s = .next (s.beginOp n o).settle := by
  show execOpStart n s = _
  simp only [execOpStart, h.op, State.startOp_of_mayBegin h]
  rfl

section
variable {s : State} {o : Op} (hcls : o.cls ∈ [3, 4, 5])
include hcls

theorem Op.cls_ne_sync : o.cls ≠ 8 := fun h => by simp [h] at hcls

theorem State.logForward_of_none (hj : s.jobs.find o.job = none) : s.logForward o = s := by
  rw [State.logForward, if_neg (Op.cls_ne_sync hcls), hj]

theorem State.logForward_of_backward {j : Job} (hj : s.jobs.find o.job = some j) (hb : j.backward = true) :
    s.logForward o = s := by
  rw [State.logForward, if_neg (Op.cls_ne_sync hcls), hj]
  exact if_pos hb

theorem State.logForward_of_forward {j : Job} (hj : s.jobs.find o.job = some j) (hb : j.backward = false) :
    s.logForward o = ((s.writeWords (j.logAddr j.logNext) ((o.hdr ++ o.body).take 32)).writeWords (j.stepRegion + 8)
      [j.logNext + 1]).modJob o.job fun x => { x with logNext := j.logNext + 1 } := by
  rw [State.logForward, if_neg (Op.cls_ne_sync hcls), hj]
  exact if_neg (by simp [hb])

end

/-- Settles O32: a slot by what its checks find, a start by what `beginOp` does of its class. -/
theorem slotFetchAndOpStart : Obligations.SlotFetchAndOpStart := by
  refine ⟨fun s l q k slot u o hk hmay hu ho => ⟨fun hslot => ⟨fun hnone => ?admitted, fun st hst => ?rejected⟩,
    fun hhbm hlen => ?lost⟩, fun s n o h hcls hj => ?plain, fun s n o j h hcls hj hb => ?backward,
    fun s n o j u h hcls hj hb hu => ?forward, fun s n o ho hlive hmay hdep => ?failed, fun s n o ho hdep hwait => ?waits⟩
  case admitted =>
    obtain ⟨hhub, hqueues⟩ := u.claimSlot_keeps o
    have hops (n : Nat) : (u.claimSlot o).op n = s.op n := by
      rw [State.op, hhub, hu, State.modLea_hub, State.op]
    have hnext : (u.claimSlot o).hub.nextOp = s.hub.nextOp := by rw [hhub, hu, State.modLea_hub]
    refine ⟨_, { o with rank := o.cls == 4 && u.wdrRank o }, (exec_slotFetch hk hmay hslot).trans
      (by rw [State.admitSlot_of_ok hu ho hnone]; rfl), ?_, ?_, rfl, rfl, ?_, ?_, ?_, ?_, fun n hn => ?_⟩
    · rw [State.op, State.settle_hub_ops, ← hnext]; exact State.op_enterFlight _ _
    · rw [ho]; rfl
    · rw [ho]; rfl
    · rw [ho]; rfl
    · rw [State.settle_hub_nextOp]; exact congrArg (· + 1) hnext
    · rw [State.queues_settle]
      show ((u.claimSlot o).lea l).queues.find q = _
      rw [hqueues, hu]
      exact State.queue_modQueue hk _
    · rw [State.op, State.settle_hub_ops, ← hops]; exact State.op_enterFlight_ne _ _ (hnext ▸ hn)
  case rejected => rw [exec_slotFetch hk hmay hslot, State.admitSlot_of_bad hu ho hst]; rfl
  case lost =>
    refine ⟨(s.badSlot l q k.head 0 .unitFault).settle, ?_, ?_, ?_⟩
    · show execSlotFetch _ _ _ _ = _
      simp [execSlotFetch, hk, hmay, hhbm, hlen]
      rfl
    · rw [State.queues_settle, State.badSlot, (State.tryEntry_keeps _ _).2,
        State.queues_of_unworked (State.unworked_queueEvent ..)]
      exact State.queue_modQueue hk fun k => { k with stopped := true }
    · rw [State.settle_jobs, State.badSlot, (State.tryEntry_keeps _ _).1, State.queueEvent_jobs]
      exact s.modLea_jobs _ _
  case plain =>
    rw [exec_opStart_of_mayBegin h, State.beginOp_of_plain h.op hcls,
      State.logForward_of_none hcls ((State.started_jobs s n).symm ▸ hj)]
    rfl
  case backward =>
    rw [exec_opStart_of_mayBegin h, State.beginOp_of_plain h.op hcls,
      State.logForward_of_backward hcls ((State.started_jobs s n).symm ▸ hj) hb]
    rfl
  case forward =>
    rw [exec_opStart_of_mayBegin h, State.beginOp_of_plain h.op hcls,
      State.logForward_of_forward hcls ((State.started_jobs s n).symm ▸ hj) hb, hu]
    rfl
  case failed =>
    show execOpStart n s = _
    simp only [execOpStart, ho, State.startOp, hlive, hmay, hdep, if_true]
    rfl
  case waits =>
    show execOpStart n s = _
    simp only [execOpStart, ho, State.startOp, hdep, hwait, Bool.not_false, Bool.true_or, if_true, Bool.false_eq_true,
      if_false, ite_self]
    rfl

end Sys2Proof.Machine
end

section
/-!
PROOF. Settles O33: how an op completes, and how its entry is written or waits.
-/

namespace Sys2Proof.Machine

/-- An op's entry is written in its ring in host memory, and the op leaves flight. -/
def State.entered (s : State) (n : Nat) (o : Op) (r : Nat) (k : CRing) (st : Status) (detail : Nat) : State :=
  let v := s.modLea o.lea fun x => { x with rings := x.rings.insert r k.advance }
  { v with
    out := { v.out with host := v.out.host ++ [(k.entryAddr, wordsToBytes (o.entryWords k st detail))] }
    hub := { v.hub with ops := v.hub.ops.erase n } }

section
variable {s : State} {n r : Nat} {o : Op} {k : CRing} {st : Status} {detail : Nat}

/-- An op that asks for an entry without a vector, in a ring in host memory, has it written where there is room. -/
theorem State.tryEntry_of_room (ho : s.op n = some o) (hph : o.phase = .entryHeld st detail)
    (hring : s.opRing o = some (r, k)) (hhbm : k.hbm = false) (hup : s.pcie.up) (hquiet : bit (wordAt o.hdr 0) 10 = false)
    (hmsix : bit (wordAt o.hdr 0) 9 = false) (hroom : s.ringFull o.lea r k = false) :
    s.tryEntry n = s.entered n o r k st detail := by
  have hwaits : s.entryWaits o.lea r k = false := by simp [State.entryWaits, hroom, hhbm, hup]
  unfold State.tryEntry
  simp only [ho, hph, hquiet, Bool.false_and, hring, hwaits, hmsix, Bool.false_eq_true, if_false]
  unfold State.putEntry State.leaveFlight
  simp only [hhbm, Bool.not_false, if_true, State.entered, State.modLea_hub]

theorem State.tryEntry_of_full (ho : s.op n = some o) (hph : o.phase = .entryHeld st detail)
    (hring : s.opRing o = some (r, k)) (hquiet : bit (wordAt o.hdr 0) 10 = false) (hfull : s.ringFull o.lea r k = true) :
    s.tryEntry n = s := by
  have hwaits : s.entryWaits o.lea r k = true := by simp [State.entryWaits, hfull]
  unfold State.tryEntry
  simp only [ho, hph, hquiet, Bool.false_and, hring, hwaits, Bool.false_eq_true, if_false, if_true]

theorem State.listed_of_opRing (hring : s.opRing o = some (r, k)) : (s.leas.find o.lea).isSome := by
  unfold State.opRing at hring
  split at hring
  · contradiction
  · next hq => exact State.listed_of_queue hq

theorem State.lea_entered (hring : s.opRing o = some (r, k)) :
    (s.entered n o r k st detail).lea o.lea = { s.lea o.lea with rings := (s.lea o.lea).rings.insert r k.advance } :=
  s.lea_modLea_self o.lea (fun x => { x with rings := x.rings.insert r k.advance }) (State.listed_of_opRing hring)

theorem State.rings_settle_entered (hring : s.opRing o = some (r, k)) :
    ((s.entered n o r k st detail).settle.lea o.lea).rings.find r = some k.advance := by
  obtain ⟨a, c, v, w, h⟩ := (s.entered n o r k st detail).lea_settle o.lea
  rw [h, State.lea_entered hring]
  exact Map.find_insert_self ..

theorem State.entered_out : (s.entered n o r k st detail).out.host =
    s.out.host ++ [(k.entryAddr, wordsToBytes (o.entryWords k st detail))] := by
  simp [State.entered]

theorem State.entered_ops : (s.entered n o r k st detail).hub.ops = s.hub.ops.erase n := by simp [State.entered]

theorem State.entered_mem : (s.entered n o r k st detail).mem = s.mem := by simp [State.entered]

theorem State.entered_jobs : (s.entered n o r k st detail).jobs = s.jobs := by simp [State.entered]

end

/-! ## The end of an op whose work has ended well -/

/-- An op that has completed with ST_OK, before its entry is tried: its counter is signalled, and what units keep of it
is dropped. -/
def State.completing (s : State) (n : Nat) (o : Op) (detail : Nat) : State :=
  (((s.signalOp o .ok).forgetOp n .ok).modLea o.lea fun x => x.countReject .ok).modOp n
    fun x => { x with phase := .entryHeld .ok detail }

section
variable {s : State} {n r : Nat} {o : Op} {k : CRing} {detail : Nat}

/-- An op's signal, where no credit link watches its counter, changes the counters of its lea alone. -/
theorem State.signalOp_of_unwatched (s : State) (o : Op)
    (hw : bit (wordAt o.hdr 0) 12 = true → s.watchers o.lea (fld (wordAt o.hdr 5) 19 8) = []) :
    s.signalOp o .ok = if bit (wordAt o.hdr 0) 12 then s.setCounter o.lea (fld (wordAt o.hdr 5) 19 8)
      { s.counter o.lea (fld (wordAt o.hdr 5) 19 8) with
        value := (s.counter o.lea (fld (wordAt o.hdr 5) 19 8)).value + BitVec.ofNat 32 (fld (wordAt o.hdr 5) 7 0) } else s := by
  unfold State.signalOp
  cases hb : bit (wordAt o.hdr 0) 12 with
  | false => simp
  | true =>
    have hgood : Status.good .ok = true := rfl
    simp [hgood, State.signal_of_unwatched (hw hb)]

/-- What a signal, and what is dropped of an op, leave: everything but the counters of a lea and the units' runs. -/
structure State.Completing (s u : State) (n : Nat) (o : Op) (detail : Nat) : Prop where
  jobs : u.jobs = s.jobs
  mem : u.mem = s.mem
  out : u.out = s.out
  pcie : u.pcie = s.pcie
  ops : u.hub.ops = s.hub.ops.insert n { o with phase := .entryHeld .ok detail }
  queues : (u.lea o.lea).queues = (s.lea o.lea).queues
  rings : (u.lea o.lea).rings = (s.lea o.lea).rings
  cdb : (u.lea o.lea).cdb = (s.lea o.lea).cdb
  counters : (u.lea o.lea).counters = ((s.signalOp o .ok).lea o.lea).counters

theorem State.completing_keeps (ho : s.op n = some o)
    (hw : bit (wordAt o.hdr 0) 12 = true → s.watchers o.lea (fld (wordAt o.hdr 5) 19 8) = []) :
    s.Completing (s.completing n o detail) n o detail := by
  have hsig := s.signalOp_of_unwatched o hw
  obtain ⟨v, hv⟩ : ∃ v, v = s.signalOp o .ok := ⟨_, rfl⟩
  have hkeeps : v.jobs = s.jobs ∧ v.mem = s.mem ∧ v.out = s.out ∧ v.pcie = s.pcie ∧ v.hub = s.hub := by
    rw [hv, hsig]
    split <;> simp [State.setCounter]
  have hlea {β : Type} (p : Lea → β) (hp : ∀ (x : Lea) c, p { x with counters := c } = p x) :
      p (v.lea o.lea) = p (s.lea o.lea) := by
    rw [hv, hsig]
    split
    · exact s.lea_modLea_field o.lea o.lea p fun x => hp x _
    · rfl
  have hlast : (s.completing n o detail).lea o.lea = v.lea o.lea := by
    have hreject := (v.forgetOp n .ok).lea_modLea_field o.lea o.lea (fun x => x) (f := fun x => x.countReject .ok) fun _ => rfl
    rw [State.completing, ← hv, State.lea, State.modOp_leas]
    exact hreject
  obtain ⟨hjobs, hmem, hout, hpcie, hhub⟩ := hkeeps
  have hops : (s.completing n o detail).hub.ops = s.hub.ops.insert n { o with phase := .entryHeld .ok detail } := by
    have hfind : ((v.forgetOp n .ok).modLea o.lea fun x => x.countReject .ok).hub.ops.find n = some o := by
      rw [State.modLea_hub]
      show v.hub.ops.find n = _
      rw [hhub]
      exact ho
    rw [State.completing, ← hv, State.modOp, hfind, State.modLea_hub]
    show v.hub.ops.insert n _ = _
    rw [hhub]
  refine ⟨?_, ?_, ?_, ?_, hops, ?_, ?_, ?_, ?_⟩
  · rw [State.completing, ← hv, State.modOp_jobs, State.modLea_jobs]; exact hjobs
  · rw [State.completing, ← hv, State.modOp_mem, State.modLea_mem]; exact hmem
  · rw [State.completing, ← hv, State.modOp_out, State.modLea_out]; exact hout
  · rw [State.completing, ← hv, State.modOp_pcie, State.modLea_pcie]; exact hpcie
  · rw [hlast]; exact hlea Lea.queues fun _ _ => rfl
  · rw [hlast]; exact hlea Lea.rings fun _ _ => rfl
  · rw [hlast]; exact hlea Lea.cdb fun _ _ => rfl
  · rw [hlast, hv]

/-- An op of no bound job, that is no update op, completes. -/
theorem State.completeOp_of_ok (ho : s.op n = some o) (hph : o.phase = .done .ok detail) (hj : s.jobs.find o.job = none)
    (hcls : o.cls ≠ 7) (hc : s.Completing (s.completing n o detail) n o detail) :
    s.completeOp n = (s.completing n o detail).tryEntry n := by
  have hfree : s.freeOutputs o .ok = s := by
    rw [State.freeOutputs, if_neg (by simp [Status.code])]
  have hjob : (s.completing n o detail).jobs.find o.job = none := by rw [hc.jobs, hj]
  have hhold : (s.completing n o detail).noteHold o.job = s.completing n o detail := by
    rw [State.noteHold, hjob]
  have hserve : (s.completing n o detail).serveJob o.job = s.completing n o detail := by
    rw [State.serveJob, hjob]
  unfold State.completeOp
  simp only [ho, hph, hfree, hcls, false_and, if_false]
  show ((((s.completing n o detail).noteHold o.job).serveJob o.job).tryEntry n) = _
  rw [hhold, hserve]

variable {u : State}

theorem State.Completing.op (h : s.Completing u n o detail) : u.op n = some { o with phase := .entryHeld .ok detail } := by
  rw [State.op, h.ops, Map.find_insert_self]

theorem State.Completing.op_ne (h : s.Completing u n o detail) {m : Nat} (hm : m ≠ n) : u.op m = s.op m := by
  rw [State.op, h.ops, Map.find_insert_ne _ _ hm, State.op]

theorem State.Completing.opRing (h : s.Completing u n o detail) {p : OpPhase} : u.opRing { o with phase := p } = s.opRing o := by
  simp only [State.opRing, h.queues, h.rings]

theorem State.Completing.ringFull (h : s.Completing u n o detail) : u.ringFull o.lea r k = s.ringFull o.lea r k := by
  simp only [State.ringFull, h.cdb]

end

/-- Settles O33: an entry that is held is tried again; an op whose work has ended is completed and its entry tried. -/
theorem opCompletion : Obligations.OpCompletion := by
  refine fun s n r o k detail ho hst hring hhbm hup hquiet hmsix => ⟨fun st hph hroom => ?room, fun st hph hfull => ?full,
    fun i hph hi hsig hw hj hcls hroom hsorted => ?done, fun hph hsig hj hcls hfull => ?held⟩
  case room =>
    refine ⟨(s.entered n o r k st detail).settle, ?_, ?_, State.rings_settle_entered hring, ?_, ?_, ?_⟩
    · show execCompletionRingRoom n s = _
      simp only [execCompletionRingRoom, ho, if_neg hst, State.tryEntry_of_room ho hph hring hhbm hup hquiet hmsix hroom]
      rfl
    · rw [State.settle_out, State.entered_out]; rfl
    · rw [State.settle_hub_ops, State.entered_ops]
    · rw [State.settle_mem, State.entered_mem]
    · rw [State.settle_jobs, State.entered_jobs]
  case full =>
    show execCompletionRingRoom n s = _
    simp only [execCompletionRingRoom, ho, if_neg hst, State.tryEntry_of_full ho hph hring hquiet hfull]
    rfl
  case done =>
    have hc := State.completing_keeps (detail := detail) ho fun _ => hi ▸ hw
    obtain ⟨u, hu⟩ : ∃ u, u = s.completing n o detail := ⟨_, rfl⟩
    obtain ⟨o', ho'⟩ : ∃ o' : Op, o' = { o with phase := .entryHeld .ok detail } := ⟨_, rfl⟩
    have hcomplete := State.completeOp_of_ok ho hph hj hcls hc
    rw [← hu] at hc hcomplete
    have hring' : u.opRing o' = some (r, k) := by rw [ho', hc.opRing, hring]
    have hlea : o'.lea = o.lea := by rw [ho']
    have hentered : u.tryEntry n = u.entered n o' r k .ok detail :=
      State.tryEntry_of_room (by rw [ho']; exact hc.op) (by rw [ho']) hring' hhbm (by rw [hc.pcie]; exact hup) (by rw [ho']; exact hquiet)
        (by rw [ho']; exact hmsix) (by rw [hlea, hc.ringFull, hroom])
    have hops : (u.entered n o' r k .ok detail).settle.hub.ops = (s.hub.ops.insert n o').erase n := by
      rw [State.settle_hub_ops, State.entered_ops, hc.ops, ho']
    refine ⟨(u.entered n o' r k .ok detail).settle, ?_, ?_, ?_, hlea ▸ State.rings_settle_entered hring', ?_, fun m hm => ?_, ?_⟩
    · show execOpCompletion n s = _
      simp only [execOpCompletion, ho, if_neg hst, hcomplete, hentered]
      rfl
    · rw [State.counter_settle, State.counter, ← hlea, State.lea_entered hring', hlea, hi]
      show (u.lea o.lea).counters.getD _ _ = _
      rw [hc.counters, State.signalOp_of_unwatched _ _ fun _ => hi ▸ hw, if_pos hsig]
      exact State.counter_setCounter (State.listed_of_opRing hring) _ _
    · rw [State.settle_out, State.entered_out, hc.out, ho']; rfl
    · rw [State.op, hops]
      exact Map.find_erase_self _ _ (Map.sorted_insert _ _ _ hsorted)
    · rw [State.op, hops, Map.find_erase_ne _ hm, Map.find_insert_ne _ _ hm, State.op]
    · rw [State.settle_mem, State.entered_mem, hc.mem]
  case held =>
    have hc := State.completing_keeps (detail := detail) ho fun h => absurd hsig (by simp [h])
    have hcomplete := State.completeOp_of_ok ho hph hj hcls hc
    have htry := State.tryEntry_of_full hc.op rfl (hc.opRing.trans hring) hquiet (hc.ringFull.trans hfull)
    refine ⟨(s.completing n o detail).settle, ?_, ?_, ?_, ?_⟩
    · show execOpCompletion n s = _
      simp only [execOpCompletion, ho, if_neg hst, hcomplete, htry]
      rfl
    · rw [State.op, State.settle_hub_ops]; exact hc.op
    · rw [State.settle_out, hc.out]
    · rw [State.settle_mem, hc.mem]

end Sys2Proof.Machine
end

section
/-!
PROOF. What a list of writes leaves to be read in HBM: the bytes before it under the writes, the last over the others.
The ops and rows that write to memory are read through these rules.
-/

namespace Sys2Proof.Machine

/-! ## Writes laid over bytes -/

/-- The bytes under one write. -/
def overlayRun (rd : Nat → Byte) (x : Nat × List Byte) (a : Nat) : Byte :=
  if x.1 ≤ a ∧ a < x.1 + x.2.length then x.2.getD (a - x.1) 0 else rd a

/-- The bytes under a list of writes. -/
def overlay (rd : Nat → Byte) (l : List (Nat × List Byte)) : Nat → Byte := l.foldl overlayRun rd

/-- An address that a write leaves. -/
def Clear (a : Nat) (x : Nat × List Byte) : Prop := a < x.1 ∨ x.1 + x.2.length ≤ a

/-- Two writes that meet nowhere. -/
def Apart (x y : Nat × List Byte) : Prop := x.1 + x.2.length ≤ y.1 ∨ y.1 + y.2.length ≤ x.1

theorem overlayRun_clear {rd : Nat → Byte} {x : Nat × List Byte} {a : Nat} (h : Clear a x) : overlayRun rd x a = rd a :=
  if_neg fun hin => h.elim (fun h => absurd hin.1 (by omega)) fun h => absurd hin.2 (by omega)

theorem overlayRun_in {rd : Nat → Byte} {x : Nat × List Byte} {i : Nat} (h : i < x.2.length) :
    overlayRun rd x (x.1 + i) = x.2.getD i 0 := by
  rw [overlayRun, if_pos ⟨by omega, by omega⟩, Nat.add_sub_cancel_left]

theorem overlay_cons (rd : Nat → Byte) (x : Nat × List Byte) (l : List (Nat × List Byte)) :
    overlay rd (x :: l) = overlay (overlayRun rd x) l := rfl

theorem overlay_append (rd : Nat → Byte) (l m : List (Nat × List Byte)) :
    overlay rd (l ++ m) = overlay (overlay rd l) m := List.foldl_append ..

theorem overlay_clear {l : List (Nat × List Byte)} {a : Nat} (h : ∀ x ∈ l, Clear a x) (rd : Nat → Byte) :
    overlay rd l a = rd a := by
  induction l generalizing rd with
  | nil => rfl
  | cons x rest ih =>
    rw [overlay_cons, ih (fun y hy => h y (List.mem_cons_of_mem _ hy)), overlayRun_clear (h x List.mem_cons_self)]

theorem getD_append_left {α : Type} (u v : List α) (d : α) {n : Nat} (h : n < u.length) : (u ++ v).getD n d = u.getD n d := by
  simp only [List.getD_eq_getElem?_getD, List.getElem?_append_left h]

theorem getD_append_right {α : Type} (u v : List α) (d : α) {n : Nat} (h : u.length ≤ n) :
    (u ++ v).getD n d = v.getD (n - u.length) d := by
  simp only [List.getD_eq_getElem?_getD, List.getElem?_append_right h]

theorem getD_of_lt {α : Type} {l : List α} (d : α) {n : Nat} (h : n < l.length) : l.getD n d = l[n] := by
  rw [List.getD_eq_getElem?_getD, List.getElem?_eq_getElem h, Option.getD_some]

/-- A write in two parts, one after the other. -/
theorem overlayRun_append (rd : Nat → Byte) (b : Nat) (u v : List Byte) :
    overlayRun rd (b, u ++ v) = overlayRun (overlayRun rd (b, u)) (b + u.length, v) := by
  funext a
  simp only [overlayRun, List.length_append]
  by_cases hu : b ≤ a ∧ a < b + u.length
  · rw [if_pos ⟨by omega, by omega⟩, if_neg (by omega), if_pos hu, getD_append_left _ _ _ (by omega)]
  · by_cases hv : b + u.length ≤ a ∧ a < b + u.length + v.length
    · rw [if_pos ⟨by omega, by omega⟩, if_pos hv, getD_append_right _ _ _ (by omega)]
      congr 1
      omega
    · rw [if_neg (by omega), if_neg hv, if_neg hu]

theorem overlay_joinRun (rd : Nat → Byte) (x : Nat × List Byte) (l : List (Nat × List Byte)) :
    overlay rd (joinRun x l) = overlay rd (x :: l) := by
  cases l with
  | nil => rfl
  | cons y rest =>
    show overlay rd (if x.1 + x.2.length = y.1 then (x.1, x.2 ++ y.2) :: rest else x :: y :: rest) = _
    split
    · next h =>
      rw [overlay_cons, overlayRun_append, h]
      rfl
    · rfl

/-- Joining neighbours changes nothing of what is written (R217). -/
theorem overlay_joinRuns (rd : Nat → Byte) (l : List (Nat × List Byte)) : overlay rd (joinRuns l) = overlay rd l := by
  induction l generalizing rd with
  | nil => rfl
  | cons x rest ih => rw [joinRuns, List.foldr_cons, overlay_joinRun, overlay_cons, ← joinRuns, ih, overlay_cons]

theorem clear_of_apart {x y : Nat × List Byte} (h : Apart x y) {i : Nat} (hi : i < x.2.length) : Clear (x.1 + i) y :=
  h.elim (fun h => .inl (by omega)) fun h => .inr (by omega)

/-- A write that those after it leave alone is read back. -/
theorem overlay_last {l m : List (Nat × List Byte)} {y : Nat × List Byte} (rd : Nat → Byte) {i : Nat} (hi : i < y.2.length)
    (h : ∀ x ∈ m, Clear (y.1 + i) x) : overlay rd (l ++ y :: m) (y.1 + i) = y.2.getD i 0 := by
  rw [overlay_append, overlay_cons, overlay_clear h, overlayRun_in hi]

/-- Of writes that meet nowhere, each is read back. -/
theorem overlay_of_pairwise {l : List (Nat × List Byte)} (h : l.Pairwise Apart) {y : Nat × List Byte} (hy : y ∈ l)
    (rd : Nat → Byte) {i : Nat} (hi : i < y.2.length) : overlay rd l (y.1 + i) = y.2.getD i 0 := by
  obtain ⟨before, after, rfl⟩ := List.append_of_mem hy
  rw [List.pairwise_append, List.pairwise_cons] at h
  obtain ⟨-, ⟨hafter, -⟩, -⟩ := h
  exact overlay_last rd hi fun x hx => clear_of_apart (hafter x hx) hi

/-- The cells of a write that is read back byte by byte. -/
theorem readCells_of_bytes {m : List Host.Cell} {a : Nat} {b : List Byte} (h : ∀ i < b.length, readByte m (a + i) = b.getD i 0) :
    readCells m a b.length = b := by
  rw [readCells_eq_map]
  refine List.ext_getElem (by simp) fun i hi _ => ?_
  have hlt : i < b.length := by simpa using hi
  rw [List.getElem_map, List.getElem_range, h i hlt, getD_of_lt _ hlt]

/-! ## Memory under a list of writes -/

/-- Bytes are kept in canonical form, and no sector is lost. -/
structure State.Sound (s : State) : Prop where
  wf : Cells.wf s.mem.hbm
  found : ∀ q, s.mem.lostSector q = false

/-- The bytes of `t` are those of `s` under a list of writes. -/
structure State.Stored (s : State) (l : List (Nat × List Byte)) (t : State) : Prop where
  sound : t.Sound
  bytes : readByte t.mem.hbm = overlay (readByte s.mem.hbm) l

theorem Memory.storeBytes_eq (m : Memory) (a : Nat) (l : List Byte) :
    m.storeBytes a l = { m with hbm := (m.storeBytes a l).hbm } := by
  induction l generalizing m a with
  | nil => rfl
  | cons b rest ih =>
    rw [Memory.storeBytes, ih, m.storeByte_eq]

theorem State.lostSector_write (s : State) (base : Nat) (bytes : List Byte) (q : Nat) :
    (s.write base bytes).mem.lostSector q = s.mem.lostSector q := by
  unfold State.write
  rw [foldl_keeps State.mem State.poisonEvents State.poisonEvents_mem]
  have hstore : (s.mem.storeBytes base bytes).lostSector q = s.mem.lostSector q := by
    rw [s.mem.storeBytes_eq]
    rfl
  exact hstore

section
variable {s t u : State} {l m : List (Nat × List Byte)}

theorem State.Sound.of_mem (h : s.Sound) (hm : t.mem = s.mem) : t.Sound := ⟨hm ▸ h.wf, hm ▸ h.found⟩

theorem State.Sound.write (h : s.Sound) (base : Nat) (bytes : List Byte) : s.Stored [(base, bytes)] (s.write base bytes) := by
  refine ⟨⟨?_, fun q => (s.lostSector_write base bytes q).trans (h.found q)⟩, ?_⟩
  · rw [s.write_hbm]; exact storeBytes_wf _ _ _ h.wf
  · funext a
    rw [s.write_hbm, readByte_storeBytes _ _ _ _ h.wf]
    simp [overlay, overlayRun, h.found]

theorem State.Stored.refl (h : s.Sound) : s.Stored [] s := ⟨h, rfl⟩

theorem State.Stored.trans (h : s.Stored l t) (k : t.Stored m u) : s.Stored (l ++ m) u :=
  ⟨k.sound, by rw [k.bytes, h.bytes, overlay_append]⟩

theorem State.Stored.of_mem (h : s.Stored l t) (hm : u.mem = t.mem) : s.Stored l u :=
  ⟨h.sound.of_mem hm, by rw [hm]; exact h.bytes⟩

/-- Writes made one after another. -/
theorem State.Sound.foldl_write (h : s.Sound) (l : List (Nat × List Byte)) :
    s.Stored l (l.foldl (fun (s : State) x => s.write x.1 x.2) s) := by
  induction l generalizing s with
  | nil => exact State.Stored.refl h
  | cons x rest ih => exact (h.write x.1 x.2).trans (ih (h.write x.1 x.2).sound)

theorem State.Stored.readByte_clear (h : s.Stored l t) {a : Nat} (ha : ∀ x ∈ l, Clear a x) :
    readByte t.mem.hbm a = readByte s.mem.hbm a := by
  rw [h.bytes, overlay_clear ha]

theorem State.Stored.of_joinRuns (h : s.Stored (joinRuns l) t) : s.Stored l t := ⟨h.sound, by rw [h.bytes, overlay_joinRuns]⟩

/-- Of writes that meet nowhere, each is read back whole. -/
theorem State.Stored.readCells_of_mem (h : s.Stored l t) (hp : l.Pairwise Apart) {y : Nat × List Byte} (hy : y ∈ l) :
    readCells t.mem.hbm y.1 y.2.length = y.2 :=
  readCells_of_bytes fun i hi => by rw [h.bytes, overlay_of_pairwise hp hy _ hi]

theorem State.Stored.read_last (h : s.Stored (l ++ [(a, b)]) t) : t.read a b.length = b :=
  readCells_of_bytes fun i hi => by
    rw [h.bytes, overlay_last (y := (a, b)) (m := []) _ hi (fun x hx => absurd hx List.not_mem_nil)]

end

end Sys2Proof.Machine
end

section
/-!
PROOF. Settles O41: what a copy op writes or sends, and when it ends at once; with the rules of an op whose writes nothing
notes, which later ops share.
-/

namespace Sys2Proof.Machine

/-! ## Ops that run, and the end of one whose writes nothing notes -/

theorem State.runs_iff {s : State} {n cls : Nat} {o : Op} : s.runs n cls = some o ↔
    s.op n = some o ∧ o.phase = .running ∧ o.cls = cls ∧ (s.lea o.lea).st ≠ .resetting := by
  unfold State.runs
  cases h : s.op n with
  | none => simp
  | some p =>
    simp only [Op.running, Bool.and_eq_true, decide_eq_true_eq, beq_iff_eq, bne_iff_ne, Option.ite_none_right_eq_some,
      Option.some.injEq]
    constructor
    · rintro ⟨⟨⟨hr, hc⟩, hl⟩, rfl⟩
      exact ⟨rfl, hr, hc, hl⟩
    · rintro ⟨rfl, hr, hc, hl⟩
      exact ⟨⟨⟨hr, hc⟩, hl⟩, rfl⟩

theorem Op.live_of_running {o : Op} (h : o.phase = .running) : o.live = true := by simp [Op.live, h]

section
variable {s u : State} {n : Nat} {o : Op}

/-- An op that runs is as before where the ops are. -/
theorem State.op_congr (h : u.hub = s.hub) (n : Nat) : u.op n = s.op n := by rw [State.op, h, State.op]

theorem State.NoNotes.noteOp (h : s.NoNotes) (o : Op) (spans : List Span) (st : Status) : s.noteOp o spans st = (s, st) := by
  have hspans : spans.foldl (fun (s : State) x => if x.write then s.noteWrite o.step x.base x.len else s) s = s := by
    induction spans with
    | nil => rfl
    | cons x rest ih =>
      rw [List.foldl_cons]
      split
      · rw [State.noteWrite_of_none h.descs, ih]
      · exact ih
  rw [State.noteOp, hspans, State.noteShards_of_none h.shards]

theorem State.NoNotes.write (h : s.NoNotes) (base : Nat) (bytes : List Byte) : (s.write base bytes).NoNotes :=
  ⟨by rw [State.write_descs]; exact h.descs, by rw [State.write_jobs]; exact h.shards⟩

theorem State.NoNotes.of_eq (h : s.NoNotes) (hd : u.mem.descs = s.mem.descs) (hj : u.jobs = s.jobs) : u.NoNotes :=
  ⟨hd.trans h.descs, hj ▸ h.shards⟩

/-- The end of an op whose writes nothing notes is its end alone. -/
theorem State.NoNotes.finishOp (h : s.NoNotes) (n : Nat) (spans : List Span) (st : Status) (detail : Nat) :
    s.finishOp n spans st detail = s.endOp n st detail := by
  unfold State.finishOp
  cases ho : s.op n with
  | none =>
    have hnone : s.hub.ops.find n = none := ho
    simp [State.endOp, State.modOp, hnone]
  | some o => simp only [h.noteOp]

end

/-! ## Copies (R281, R282) -/

section
variable {s : State} {n kind : Nat} {o : Op} {j : Job}

theorem State.copyRun_iff : s.copyRun n kind = some o ↔ s.runs n 3 = some o ∧ o.cKind = kind := by
  unfold State.copyRun
  cases s.runs n 3 with
  | none => simp
  | some p =>
    simp only [Option.ite_none_right_eq_some, Option.some.injEq]
    constructor
    · rintro ⟨h, rfl⟩; exact ⟨rfl, h⟩
    · rintro ⟨rfl, h⟩; exact ⟨h, rfl⟩

/-- The message of a copy of a kind is its own. -/
theorem State.copyMessage_owner (s : State) (n : Nat) (o : Op) :
    (s.copyMessage n o).owner = if o.cKind = 2 then .post n else .copy n := rfl

theorem State.copySend_of_refused (hj : s.jobs.find o.job = some j)
    (hout : j.outstanding (if o.cKind = 2 then .post n else .copy n) = false) {st : Status} (href : s.copyRefusal o j = some st) :
    s.copySend n o = s.endOp n st := by
  simp only [State.copySend, hj, State.copyMessage_owner, hout, href, Bool.false_eq_true, if_false]

theorem State.copySend_of_ok (hj : s.jobs.find o.job = some j)
    (hout : j.outstanding (if o.cKind = 2 then .post n else .copy n) = false) (href : s.copyRefusal o j = none)
    (hacc : s.spansAccess [o.cSrc] = .good) :
    s.copySend n o = (if o.cKind = 1 then s.ride o.job o.cSrc.base o.cLen else s).send o.job (s.copyMessage n o) := by
  simp only [State.copySend, hj, State.copyMessage_owner, hout, href, Bool.false_eq_true, if_false, State.withAccess, hacc]

theorem exec_copyPeer (h : s.copyRun n 1 = some o) : exec (.copyPeer n) s = .next (s.copySend n o).settle := by
  show execCopyPeer n s = _
  rw [execCopyPeer, h]
  rfl

theorem exec_copyPost (h : s.copyRun n 2 = some o) : exec (.copyPost n) s = .next (s.copySend n o).settle := by
  show execCopyPost n s = _
  rw [execCopyPost, h]
  rfl

theorem exec_copyLocal (h : s.copyRun n 0 = some o) (hacc : s.spansAccess o.cSpans = .good) (hn : s.NoNotes)
    (hi : s.openImage o.job = none) :
    exec (.copyLocal n) s = .next ((s.write o.cDst.base (s.read o.cSrc.base o.cLen)).endOp n .ok).settle := by
  have hride : s.ride o.job o.cSrc.base o.cLen = s := by rw [State.ride, hi]
  show execCopyLocal n s = _
  rw [execCopyLocal, h]
  simp only [State.withAccess, hacc, hride, (hn.write _ _).finishOp]
  rfl

end

theorem length_read (s : State) (a n : Nat) : (s.read a n).length = n := by
  rw [State.read, readCells_eq_map]
  simp

/-- Settles O41: a LOCAL copy by what its write leaves to be read, the others by what `copySend` does. -/
theorem copyOps : Obligations.CopyOps := by
  refine ⟨fun s n o h hacc hn hi hfound hwf => ?here, fun s n o j h hj hout href hacc => ?peer,
    fun s n o j h hj hout href hacc => ?post, fun s n o j st hj href => ⟨fun h hout => ?peerRefused, fun h hout => ?postRefused⟩⟩
  case here =>
    obtain ⟨hop, hrun, -, -⟩ := State.runs_iff.mp (State.copyRun_iff.mp h).1
    obtain ⟨u, hu⟩ : ∃ u, u = s.write o.cDst.base (s.read o.cSrc.base o.cLen) := ⟨_, rfl⟩
    have hstored : s.Stored [(o.cDst.base, s.read o.cSrc.base o.cLen)] u :=
      hu ▸ State.Sound.write ⟨hwf, hfound⟩ _ _
    have hmem : (u.endOp n .ok).settle.mem = u.mem := by rw [State.settle_mem, State.endOp_mem]
    have hend := State.op_endOp (s := u) (n := n) (o := o) (by rw [hu, State.op_congr (State.write_hub ..)]; exact hop)
      (Op.live_of_running hrun) .ok 0
    refine ⟨(u.endOp n .ok).settle, { o with phase := .done .ok 0 }, hu ▸ exec_copyLocal h hacc hn hi, ?_, rfl, ?_, ?_, fun a ha => ?_⟩
    · rw [State.op, State.settle_hub_ops]; exact hend
    · have hread := State.Stored.read_last (l := []) hstored
      rw [length_read] at hread
      rw [State.read, hmem]
      exact hread
    · rw [State.settle_jobs, State.endOp_jobs, hu, State.write_jobs]
    · rw [hmem]
      refine hstored.readByte_clear fun x hx => ?_
      rw [List.mem_singleton.mp hx, Clear, length_read]
      exact ha
  case peer =>
    obtain ⟨-, hkind⟩ := State.copyRun_iff.mp h
    rw [exec_copyPeer h, State.copySend_of_ok hj (by rw [if_neg (by simp [hkind])]; exact hout) href hacc, if_pos hkind]
  case post =>
    obtain ⟨-, hkind⟩ := State.copyRun_iff.mp h
    rw [exec_copyPost h, State.copySend_of_ok hj (by rw [if_pos hkind]; exact hout) href hacc, if_neg (by simp [hkind])]
  case peerRefused =>
    obtain ⟨-, hkind⟩ := State.copyRun_iff.mp h
    rw [exec_copyPeer h, State.copySend_of_refused hj (by rw [if_neg (by simp [hkind])]; exact hout) href]
  case postRefused =>
    obtain ⟨-, hkind⟩ := State.copyRun_iff.mp h
    rw [exec_copyPost h, State.copySend_of_refused hj (by rw [if_pos hkind]; exact hout) href]

end Sys2Proof.Machine
end

section
/-!
PROOF. Settles O40: the sync ops of the norm accumulators, the clip factor, the shards and the cache.
-/

namespace Sys2Proof.Machine

/-! ## NORM_READ (R193) -/

section
variable {s u : State} {n : Nat} {o : Op}

theorem exec_normRead_clear (h : s.runs n 8 = some o) (hf : o.func = 3) (ha : o.addr 2 = 0) :
    exec (.normRead n) s = .next ((s.clearNorms o.lea (o.f 1 15 0) o.normCount).endOp n .ok).settle := by
  show execNormRead n s = _
  simp only [execNormRead, h, hf, ha, ne_eq, not_true_eq_false, if_false, if_true]
  rfl

theorem exec_normRead (h : s.runs n 8 = some o) (hf : o.func = 3) (ha : o.addr 2 ≠ 0)
    (hacc : s.writeAccess (o.addr 2) (8 * o.normCount) ≠ .stall) {r : State × Status}
    (hr : r = s.normRead o.lea (bit (o.w 0) 23) o.normCount (o.f 1 15 0) (o.addr 2)) :
    exec (.normRead n) s =
      .next (r.1.finishOp n [{ base := o.addr 2, len := 8 * o.normCount, write := true }] r.2).settle := by
  show execNormRead n s = _
  simp only [execNormRead, h, hf, ha, hacc, ne_eq, not_true_eq_false, if_false, hr]
  rfl

theorem Norm.length_record (x : Norm) : (wordsToBytes x.record).length = 8 := by
  rw [length_wordsToBytes]
  rfl

/-- One record of NORM_READ: its two words are written, and the entry is cleared where that is asked for. -/
def State.normStep (s : State) (l : Nat) (clear : Bool) (i a : Nat) : State :=
  if clear then (s.writeWords a (s.norm l i).record).putNorm l i {} else s.writeWords a (s.norm l i).record

theorem State.normStep_keeps (s : State) (l : Nat) (clear : Bool) (i a : Nat) :
    (s.normStep l clear i a).jobs = s.jobs ∧ (s.normStep l clear i a).mem = (s.writeWords a (s.norm l i).record).mem := by
  unfold State.normStep
  split <;> simp [State.putNorm, State.writeWords]

/-- NORM_READ writes its records, and no other byte; it notes nothing. -/
theorem State.normRead_keeps (s : State) (l : Nat) (clear : Bool) (k i a : Nat) :
    s.WritesOnly (fun x => a ≤ x ∧ x < a + 8 * k) (s.normRead l clear k i a).1 ∧
      (s.normRead l clear k i a).1.jobs = s.jobs ∧ (s.normRead l clear k i a).1.mem.descs = s.mem.descs := by
  induction k generalizing s i a with
  | zero => exact ⟨State.WritesOnly.of_hbm_eq rfl, rfl, rfl⟩
  | succ k ih =>
    unfold State.normRead
    split
    · next sec _ _ =>
      have hmem : (s.lostRead sec).mem = s.mem := by
        unfold State.lostRead
        split <;> simp
      exact ⟨State.WritesOnly.of_hbm_eq (by rw [hmem]), State.unworked_jobs (s.unworked_lostRead sec), by rw [hmem]⟩
    · obtain ⟨hjobs, hmem⟩ := s.normStep_keeps l clear i a
      obtain ⟨hrest, hrestJobs, hrestDescs⟩ := ih (s.normStep l clear i a) (i + 1) (a + 8)
      have hstep : s.WritesOnly (fun x => a ≤ x ∧ x < a + 8 * (k + 1)) (s.normStep l clear i a) := by
        refine (State.writesOnly_write s (bytes := wordsToBytes (s.norm l i).record) fun x hlo hhi => ?_).trans
          (State.WritesOnly.of_hbm_eq (by rw [hmem]; rfl))
        rw [Norm.length_record] at hhi
        omega
      refine ⟨hstep.trans fun hwf => ?_, hrestJobs.trans hjobs, hrestDescs.trans ?_⟩
      · obtain ⟨hwf', hbytes⟩ := hrest hwf
        exact ⟨hwf', fun x hx => hbytes x (by omega)⟩
      · rw [hmem]; exact s.write_descs _ _

/-- NORM_READ of one entry whose record can be written. -/
theorem State.normRead_one {a : Nat} (hacc : s.writeAccess a 8 = .good) (l i : Nat) (clear : Bool) :
    s.normRead l clear 1 i a = (s.normStep l clear i a, .ok) := by
  unfold State.normRead
  simp only [hacc]
  rfl

/-! ## CLIP (R194) -/

theorem State.clipSlots_keeps (s : State) (q : Queue) (g : Word) (k i : Nat) :
    (s.clipSlots q g k i).1.jobs = s.jobs ∧ (s.clipSlots q g k i).1.mem.descs = s.mem.descs := by
  have hlost (s : State) (sec : Nat) : (s.lostRead sec).jobs = s.jobs ∧ (s.lostRead sec).mem.descs = s.mem.descs := by
    unfold State.lostRead
    split <;> simp
  induction k generalizing s i with
  | zero => exact ⟨rfl, rfl⟩
  | succ k ih =>
    unfold State.clipSlots
    dsimp only
    split
    · split
      · exact hlost s _
      · exact ih s _
    · split
      · exact hlost s _
      · obtain ⟨hjobs, hdescs⟩ := ih (s.writeWords (q.base + 128 * (i % 2 ^ q.log2) + 112) [g]) (i + 1)
        exact ⟨hjobs.trans (s.writeWords_jobs _ _), hdescs.trans (s.write_descs _ _)⟩

variable {q : Queue}

theorem exec_clip (h : s.runs n 8 = some o) (hf : o.func = 4) (hq : (s.lea o.lea).queues.find (o.f 1 27 16) = some q)
    (hhbm : q.hbm) (hstop : q.stopped = false) (htail : (s.lea o.lea).qdb.getD (o.f 1 27 16) 0 = o.f 4 31 16)
    (hend : (o.f 4 31 16 + o.f 4 15 0) % 2 ^ q.log2 = o.f 5 15 0) (hstall : s.clipStalls o q = false) :
    exec (.clip n) s = .next (s.clipQueue n o q).settle := by
  show execClip n s = _
  simp [execClip, h, hf, hq, hhbm, hstop, htail, hend, hstall]
  rfl

theorem State.clipQueue_of_finite (hn : s.NoNotes)
    (hfin : ∀ i ∈ range' (o.f 1 15 0) (o.f 0 15 0), (s.norm o.lea i).nan = false ∧ (s.norm o.lea i).inf = false)
    (hslots : s.clipSlots q (clipScale ((range' (o.f 1 15 0) (o.f 0 15 0)).foldl (fun a i => a + (s.norm o.lea i).sum) 0)
      (o.w 2) (o.w 3)) (o.f 4 15 0) (o.f 4 31 16) = (u, none)) :
    s.clipQueue n o q = (u.modLea o.lea fun x => { x with qdb := x.qdb.insert (o.f 1 27 16) (o.f 5 15 0) }).endOp n .ok := by
  have hany : (((range' (o.f 1 15 0) (o.f 0 15 0)).map (s.norm o.lea)).any fun x => x.nan || x.inf) = false := by
    simp only [List.any_map, List.any_eq_false, Function.comp_apply]
    intro i hi
    simp [hfin i hi]
  have hkeeps := s.clipSlots_keeps q (clipScale ((range' (o.f 1 15 0) (o.f 0 15 0)).foldl
    (fun a i => a + (s.norm o.lea i).sum) 0) (o.w 2) (o.w 3)) (o.f 4 15 0) (o.f 4 31 16)
  rw [hslots] at hkeeps
  have hnotes : (u.modLea o.lea fun x => { x with qdb := x.qdb.insert (o.f 1 27 16) (o.f 5 15 0) }).NoNotes :=
    hn.of_eq (by rw [State.modLea_mem]; exact hkeeps.2) (by rw [State.modLea_jobs]; exact hkeeps.1)
  unfold State.clipQueue
  simp only [hany, Bool.false_eq_true, if_false, List.foldl_map, hslots, hnotes.finishOp]

theorem State.clipQueue_of_nonfinite
    (h : ∃ i ∈ range' (o.f 1 15 0) (o.f 0 15 0), (s.norm o.lea i).nan = true ∨ (s.norm o.lea i).inf = true) :
    s.clipQueue n o q = ({ s with train := { s.train with
      clipNonfinite := true, nonfiniteCount := s.train.nonfiniteCount + 1 } } : State).endOp n .ok 0x8000 := by
  have hany : (((range' (o.f 1 15 0) (o.f 0 15 0)).map (s.norm o.lea)).any fun x => x.nan || x.inf) = true := by
    obtain ⟨i, hi, hbad⟩ := h
    simp only [List.any_map, List.any_eq_true, Function.comp_apply, Bool.or_eq_true]
    exact ⟨i, hi, hbad⟩
  unfold State.clipQueue
  simp only [hany, if_true]

/-! ## The shard ops (R329, R330) and PREFETCH (R333) -/

variable {j : Job}

theorem exec_shardStamp (h : s.RunsFor n 8 o j) (hf : o.func = 0x20)
    (hacc : s.spansAccess (s.gatherSpans (o.gatherEntries j)) = .good) :
    exec (.shardStamp n) s = .next (s.shardStamp n (o.gatherEntries j)).settle := by
  show execShardStamp n s = _
  simp only [execShardStamp, h.op, h.job, hf, ne_eq, not_true_eq_false, if_false, State.withAccess, hacc]
  rfl

theorem exec_shardCheck (h : s.RunsFor n 8 o j) (hf : o.func = 0x21)
    (hacc : s.spansAccess (s.gatherSpans (o.gatherEntries j)) = .good) :
    exec (.shardCheck n) s =
      .next (if (o.gatherEntries j).all s.stampHolds then s.endOp n .ok else s.shardChanged n o).settle := by
  show execShardCheck n s = _
  simp only [execShardCheck, h.op, h.job, hf, ne_eq, not_true_eq_false, if_false, State.withAccess, hacc]
  rfl

/-- Memory with sectors brought into the cache. -/
def Memory.fetch (m : Memory) (secs : List Nat) : Memory :=
  { m with present := m.present ++ secs.filter fun x => !m.present.contains x }

theorem Memory.mem_fetch {m : Memory} {secs : List Nat} {x : Nat} : x ∈ (m.fetch secs).present ↔ x ∈ m.present ∨ x ∈ secs := by
  simp only [Memory.fetch, List.mem_append, List.mem_filter, List.contains_eq_mem, Bool.not_eq_true', decide_eq_false_iff_not]
  by_cases h : x ∈ m.present <;> simp [h]

theorem exec_prefetch (h : s.runs n 8 = some o) (hf : o.func = 0x22)
    (hacc : s.spansAccess [{ base := o.addr 1, len := (o.w 3).toNat }] = .good) :
    exec (.prefetch n) s =
      .next (State.endOp { s with mem := s.mem.fetch (sectorsOf (o.addr 1) (o.w 3).toNat) } n .ok).settle := by
  show execPrefetch n s = _
  simp only [execPrefetch, h, hf, ne_eq, not_true_eq_false, if_false, State.withAccess, hacc]
  rfl

end

/-- Settles O40: each op by the equation of its unit above. -/
theorem normShardAndPrefetchOps : Obligations.NormShardAndPrefetchOps := by
  refine ⟨⟨fun s n o h hf ha => exec_normRead_clear h hf ha, fun s n o h hf ha hacc hn hwf => ?records,
    fun s n o h hf ha hone hn hacc u hu => ?one, fun s u n o q g h hf hq hhbm hstop htail hend hstall hfin hg hslots hn => ?clips,
    fun s n o q h hf hq hhbm hstop htail hend hstall hbad => ?nonfinite⟩, fun s n o j h =>
    ⟨fun hf hacc => ⟨fun hall => ?stamps, fun hex => ?refuses⟩, fun hf hacc => ⟨fun hall => ?holds, fun hex => ?changed⟩,
      fun hf hacc => ?fetches⟩⟩
  case records =>
    obtain ⟨hbytes, hjobs, hdescs⟩ := s.normRead_keeps o.lea (bit (o.w 0) 23) o.normCount (o.f 1 15 0) (o.addr 2)
    refine ⟨_, exec_normRead h hf ha hacc rfl, fun a ha => ?_, ?_⟩
    · rw [State.settle_mem, (hn.of_eq hdescs hjobs).finishOp, State.endOp_mem]
      exact (hbytes hwf).2 a (by omega)
    · rw [State.settle_jobs, (hn.of_eq hdescs hjobs).finishOp, State.endOp_jobs, hjobs]
  case one =>
    obtain ⟨hjobs, hmem⟩ := s.normStep_keeps o.lea (bit (o.w 0) 23) (o.f 1 15 0) (o.addr 2)
    have hnotes : (s.normStep o.lea (bit (o.w 0) 23) (o.f 1 15 0) (o.addr 2)).NoNotes :=
      hn.of_eq (by rw [hmem]; exact s.write_descs _ _) hjobs
    rw [exec_normRead h hf ha (by rw [hone, hacc]; simp) rfl, hone, State.normRead_one hacc, hnotes.finishOp, hu]
    rfl
  case clips => rw [exec_clip h hf hq hhbm hstop htail hend hstall, State.clipQueue_of_finite hn hfin (hg ▸ hslots)]
  case nonfinite => rw [exec_clip h hf hq hhbm hstop htail hend hstall, State.clipQueue_of_nonfinite hbad]
  case stamps =>
    have hall' : ((o.gatherEntries j).all fun a => fld (s.readWord (s.gatherBuffer a)) 15 0 == fld (s.readWord a) 15 0) = true := by
      simpa using hall
    rw [exec_shardStamp h hf hacc, State.shardStamp, if_pos hall']
  case refuses =>
    have hnot : ¬((o.gatherEntries j).all fun a => fld (s.readWord (s.gatherBuffer a)) 15 0 == fld (s.readWord a) 15 0) = true := by
      simpa using hex
    rw [exec_shardStamp h hf hacc, State.shardStamp, if_neg hnot]
  case holds => rw [exec_shardCheck h hf hacc, if_pos (List.all_eq_true.mpr hall)]
  case changed =>
    obtain ⟨a, ha, hbad⟩ := hex
    have hnot : ¬(o.gatherEntries j).all s.stampHolds = true := fun hall => by
      rw [List.all_eq_true.mp hall a ha] at hbad
      exact absurd hbad (by simp)
    obtain ⟨hop, hrun, -, -⟩ := State.runs_iff.mp h.op
    obtain ⟨v, hv⟩ : ∃ v : State, v = (State.modJob { s with
        units := { s.units with shardChanged := true, shardCount := s.units.shardCount + 1 } } o.job
        fun j => { j with replayPending := true }).queueEvent o.lea
        (faultEvent .shardChanged 0x01 0 (job := o.job) (step := o.step)) := ⟨_, rfl⟩
    have hexec : exec (.shardCheck n) s = .next (v.endOp n .shardChanged).settle := by
      rw [exec_shardCheck h hf hacc, if_neg hnot, hv]
      rfl
    have hvop : v.op n = some o := by
      rw [hv, State.op, State.queueEvent_hub, State.modJob_hub]
      exact hop
    refine ⟨_, { o with phase := .done .shardChanged 0 }, { j with replayPending := true }, hexec, ?_, rfl, ?_, rfl, ?_, ?_, ?_⟩
    · rw [State.op, State.settle_hub_ops]
      exact State.op_endOp hvop (Op.live_of_running hrun) _ _
    · rw [State.settle_jobs, State.endOp_jobs, hv, State.queueEvent_jobs]
      exact State.find_modJob (s := { s with
        units := { s.units with shardChanged := true, shardCount := s.units.shardCount + 1 } }) h.job _
    · rw [State.settle_units, State.endOp_units, hv, State.queueEvent_units, State.modJob_units]
    · rw [State.settle_units, State.endOp_units, hv, State.queueEvent_units, State.modJob_units]
    · rw [State.settle_mem, State.endOp_mem, hv, State.queueEvent_mem, State.modJob_mem]
  case fetches =>
    obtain ⟨hop, hrun, -, -⟩ := State.runs_iff.mp h.op
    obtain ⟨v, hv⟩ : ∃ v : State, v = { s with mem := s.mem.fetch (sectorsOf (o.addr 1) (o.w 3).toNat) } := ⟨_, rfl⟩
    have hmem : (v.endOp n .ok).settle.mem = s.mem.fetch (sectorsOf (o.addr 1) (o.w 3).toNat) := by
      rw [State.settle_mem, State.endOp_mem, hv]
    refine ⟨(v.endOp n .ok).settle, { o with phase := .done .ok 0 }, hv ▸ exec_prefetch h.op hf hacc, ?_, rfl, ?_, ?_,
      fun x hx => ?_, fun x hx => ?_⟩
    · rw [State.op, State.settle_hub_ops]
      exact State.op_endOp (by rw [hv]; exact hop) (Op.live_of_running hrun) _ _
    · rw [hmem]; rfl
    · rw [State.settle_jobs, State.endOp_jobs, hv]
    · rw [hmem]; exact Memory.mem_fetch.mpr (.inl hx)
    · rw [hmem]; exact Memory.mem_fetch.mpr (.inr hx)

end Sys2Proof.Machine
end

section
/-!
PROOF. Settles O34 and O35: how passes start and drain, when a tile is formed again, and what a matrix op of one tile
writes.
-/

namespace Sys2Proof.Machine

/-! ## The starts and ends of passes (R92, R93, R343) -/

section
variable {s : State} {o : Op} {r r' : MatrixRun} {p : Pass}

theorem State.inArray_iff : s.inArray = some (o, r) ↔ s.array.run = some r ∧ s.op r.op = some o ∧ o.phase = .running := by
  unfold State.inArray
  cases hr : s.array.run with
  | none => simp
  | some x =>
    cases ho : s.op x.op with
    | none =>
      simp only [ho, reduceCtorEq, Option.some.injEq, false_iff]
      rintro ⟨rfl, h, -⟩
      rw [ho] at h
      contradiction
    | some y =>
      simp only [ho, Op.running, decide_eq_true_eq, Option.ite_none_right_eq_some, Option.some.injEq, Prod.mk.injEq]
      constructor
      · rintro ⟨h, rfl, rfl⟩; exact ⟨rfl, ho, h⟩
      · rintro ⟨rfl, h, hrun⟩
        rw [ho] at h
        obtain rfl := Option.some.inj h
        exact ⟨hrun, rfl, rfl⟩

/-- A run in which a pass starts: the pass that streamed drains. -/
def MatrixRun.withPass (r : MatrixRun) (p : Pass) : MatrixRun :=
  { r with drain := if r.pass.isSome then r.pass else r.drain, pass := some p }

/-- The state in which a pass has started. -/
def State.passStarted (s : State) (d : MatDesc) (r : MatrixRun) (p : Pass) : State :=
  { s with array := { s.array with passes := s.array.passes + 1, run := some (s.beginPass d (r.withPass p) p).2 } }

theorem State.passStart_of_take (h : s.inArray = some (o, r)) (hc : r.cancelled = false) (hfree : r.pass = none ∨ r.drain = none)
    (ht : r.take o.mat = (r', some p)) : s.passStart = some (s.passStarted o.mat r' p) := by
  have hgo : (r.cancelled || (r.pass.isSome && r.drain.isSome)) = false := by
    obtain h | h := hfree <;> simp [hc, h]
  unfold State.passStart
  simp only [h, hgo, ht, Bool.false_eq_true, if_false]
  rfl

theorem State.passStart_of_none (h : s.inArray = none) : s.passStart = none := by
  unfold State.passStart
  rw [h]

theorem State.passEnd_of_none (h : s.inArray = none) : s.passEnd = none := by
  unfold State.passEnd
  rw [h]

theorem State.passEnd_of_drain {u : State} (h : s.inArray = some (o, r)) (hd : r.drain = some p)
    (hdone : s.drainPass o { r with drain := none } false p = .done u r') : s.passEnd = some (u.putRun o r') := by
  unfold State.passEnd
  simp only [h, hd, Option.isSome_some, if_true, hdone]

theorem State.passEnd_of_pass {u : State} (h : s.inArray = some (o, r)) (hd : r.drain = none) (hp : r.pass = some p)
    (hdone : s.drainPass o { r with pass := none } false p = .done u r') : s.passEnd = some (u.putRun o r') := by
  unfold State.passEnd
  have hno : ¬r.drain.isSome = true := by simp [hd]
  simp only [h, if_neg hno, hp, hdone]

end

/-! ## A tile that overflows (R102, R103) -/

/-- The exponent that a row's overflowed cells need, from a first one on. -/
def rowNeeded (t : Int) (row : List Cell) (e : Int) : Int :=
  row.foldl (fun e c => if c.over t then max e (c.needed t) else e) e

/-- The exponent that a tile's overflowed cells need. -/
def tileNeeded (t : Int) (cells : List (List Cell)) (e : Int) : Int := cells.foldl (fun e row => rowNeeded t row e) e

theorem le_rowNeeded (t : Int) (row : List Cell) (e : Int) : e ≤ rowNeeded t row e := by
  induction row generalizing e with
  | nil => exact Int.le_refl _
  | cons c rest ih =>
    refine Int.le_trans ?_ (ih _)
    dsimp only
    split
    · exact Int.le_max_left _ _
    · exact Int.le_refl _

theorem needed_le_rowNeeded {t : Int} {row : List Cell} {c : Cell} (hc : c ∈ row) (ho : c.over t = true) (e : Int) :
    c.needed t ≤ rowNeeded t row e := by
  obtain ⟨before, after, rfl⟩ := List.append_of_mem hc
  rw [rowNeeded, List.foldl_append, List.foldl_cons, if_pos ho]
  exact Int.le_trans (Int.le_max_right _ _) (le_rowNeeded t after _)

theorem le_tileNeeded (t : Int) (cells : List (List Cell)) (e : Int) : e ≤ tileNeeded t cells e := by
  induction cells generalizing e with
  | nil => exact Int.le_refl _
  | cons row rest ih => exact Int.le_trans (le_rowNeeded t row e) (ih _)

theorem needed_le_tileNeeded {t : Int} {cells : List (List Cell)} {row : List Cell} {c : Cell} (hr : row ∈ cells)
    (hc : c ∈ row) (ho : c.over t = true) (e : Int) : c.needed t ≤ tileNeeded t cells e := by
  obtain ⟨before, after, rfl⟩ := List.append_of_mem hr
  rw [tileNeeded, List.foldl_append, List.foldl_cons]
  exact Int.le_trans (needed_le_rowNeeded hc ho _) (le_tileNeeded t after _)

theorem State.report_array (s : State) (o : Op) (r : Report) : (s.report o r).array = s.array := by
  unfold State.report
  split
  · rfl
  split
  · rfl
  split
  · rw [State.putHist, State.writeWords, State.write_array]
  · rfl

theorem State.overflowTile_array (s : State) (o : Op) (r : MatrixRun) (replay : Bool) (t : Nat × Nat) (needed : Int) :
    (s.overflowTile o r replay t needed).1.array =
      { s.array with recomputed := true, recomputeCount := s.array.recomputeCount + 1 } := by
  unfold State.overflowTile
  dsimp only
  split
  · rfl
  · rw [State.report_array]

/-- Settles O34: a pick, a start and a drain by their equations; a tile by the exponents that its cells need. -/
theorem arrayPassesAndOverflow : Obligations.ArrayPassesAndOverflow := by
  refine ⟨⟨fun s hrun hpick hin => ?pick, fun s h => ?keeps, fun s o r r' p h hc hfree ht => ?start,
    fun s u o r r' p h hd hdone => ?ends, fun s h => ⟨?_, ?_, ?_⟩⟩,
    fun s o r replay die t x r' cells hx hcells hfirst hover => ?raised⟩
  case pick =>
    show execNextMatrixOpPick s = _
    rw [execNextMatrixOpPick, if_neg (by simp only [hrun, hpick, Bool.or_false, Option.isSome_none, Bool.false_or, decide_eq_true_eq]; exact hin)]
    rfl
  case keeps =>
    show execNextMatrixOpPick s = _
    rw [execNextMatrixOpPick, if_pos (by obtain h | h := h <;> simp [h])]
    rfl
  case start =>
    have hexec : exec .arrayPassStart s = .next (s.passStarted o.mat r' p).settle := by
      show finish (s.passStart.getD s) = _
      rw [State.passStart_of_take h hc hfree ht]
      rfl
    refine ⟨_, _, hexec, by rw [State.settle_array]; rfl, rfl, rfl, by rw [State.settle_array]; rfl, rfl,
      by rw [State.settle_mem]; rfl, by rw [State.settle_hub_ops]; rfl, by rw [State.settle_jobs]; rfl⟩
  case ends =>
    show finish (s.passEnd.getD s) = _
    rw [State.passEnd_of_drain h hd hdone]
    rfl
  · show finish (s.passStart.getD s) = _
    rw [State.passStart_of_none h]
    rfl
  · show finish (s.passEnd.getD s) = _
    rw [State.passEnd_of_none h]
    rfl
  · show execMatrixOp s = _
    rw [execMatrixOp, h]
    rfl
  case raised =>
    have hdrain : s.drainTile o r replay die t = (.done (s.overflowTile o r' replay t (tileNeeded x.t0 cells x.t0)).1
        (s.overflowTile o r' replay t (tileNeeded x.t0 cells x.t0)).2, true) := by
      unfold State.drainTile
      simp only [hx, ← hcells, hfirst, hover, Bool.not_false, Bool.true_and, if_true]
      rfl
    refine ⟨_, _, tileNeeded x.t0 cells x.t0, le_tileNeeded _ _ _, fun row hr c hc ho => needed_le_tileNeeded hr hc ho _,
      hdrain, ?_, ?_, rfl, Map.find_insert_self ..⟩
    · rw [State.overflowTile_array]
    · rw [State.overflowTile_array]

end Sys2Proof.Machine
end

section
/-!
PROOF. Settles O35: a matrix op of one tile on one die takes one pass, whose drain writes the tile, and ends.
-/

namespace Sys2Proof.Machine

/-! ## What a tile's output leaves -/

theorem State.foldl_write_mem_congr {s u : State} (h : u.mem = s.mem) (l : List (Nat × List Byte)) :
    (l.foldl (fun (s : State) x => s.write x.1 x.2) u).mem = (l.foldl (fun (s : State) x => s.write x.1 x.2) s).mem := by
  induction l generalizing s u with
  | nil => exact h
  | cons x rest ih => exact ih (State.write_mem_congr h x.1 x.2)

theorem State.putEnc_mem_congr {s u : State} (h : u.mem = s.mem) (l : List EncOut) : (u.putEnc l).mem = (s.putEnc l).mem := by
  induction l generalizing s u with
  | nil => exact h
  | cons e rest ih => exact ih (State.foldl_write_mem_congr h e.writes)

theorem State.unworked_foldl_write (s : State) (l : List (Nat × List Byte)) :
    (l.foldl (fun (s : State) x => s.write x.1 x.2) s).unworked = s.unworked :=
  foldl_keeps State.unworked _ (fun s (x : Nat × List Byte) => s.unworked_write x.1 x.2) _ _

theorem State.unworked_putEnc (s : State) (l : List EncOut) : (s.putEnc l).unworked = s.unworked :=
  foldl_keeps State.unworked _ (fun s (e : EncOut) => s.unworked_foldl_write e.writes) _ _

theorem State.putEnc_hub (s : State) (l : List EncOut) : (s.putEnc l).hub = s.hub :=
  foldl_keeps State.hub _ (fun _ (_ : EncOut) => foldl_keeps State.hub _ (fun s (_ : Nat × List Byte) => s.write_hub _ _) _ _) _ _

theorem State.putEnc_descs (s : State) (l : List EncOut) : (s.putEnc l).mem.descs = s.mem.descs :=
  foldl_keeps (·.mem.descs) _ (fun _ (_ : EncOut) =>
    foldl_keeps (·.mem.descs) _ (fun s (_ : Nat × List Byte) => s.write_descs _ _) _ _) _ _

theorem State.writesOnly_foldl_write {p : Nat → Prop} (s : State) (l : List (Nat × List Byte))
    (h : ∀ x ∈ l, ∀ a, x.1 ≤ a → a < x.1 + x.2.length → p a) :
    s.WritesOnly p (l.foldl (fun (s : State) x => s.write x.1 x.2) s) := by
  induction l generalizing s with
  | nil => exact State.WritesOnly.of_hbm_eq rfl
  | cons x rest ih =>
    exact (s.writesOnly_write (h x List.mem_cons_self)).trans (ih _ fun y hy => h y (List.mem_cons_of_mem _ hy))

/-- Encoded rows are written to their spans alone. -/
theorem State.writesOnly_putEnc (s : State) (l : List EncOut) :
    s.WritesOnly (fun a => ∃ x ∈ encSpans l, x.base ≤ a ∧ a < x.base + x.len) (s.putEnc l) := by
  have hgen : ∀ (m : List EncOut) (s : State), (∀ e ∈ m, e ∈ l) →
      s.WritesOnly (fun a => ∃ x ∈ encSpans l, x.base ≤ a ∧ a < x.base + x.len) (s.putEnc m) := by
    intro m
    induction m with
    | nil => exact fun s _ => State.WritesOnly.of_hbm_eq rfl
    | cons e rest ih =>
      refine fun s hm => (s.writesOnly_foldl_write e.writes fun x hx a hlo hhi => ?_).trans
        (ih _ fun y hy => hm y (List.mem_cons_of_mem _ hy))
      exact ⟨{ base := x.1, len := x.2.length, write := true },
        List.mem_flatMap.mpr ⟨e, hm e List.mem_cons_self, List.mem_map.mpr ⟨x, hx, rfl⟩⟩, hlo, hhi⟩
  exact hgen l s fun _ he => he

theorem State.report_of_noHistory {o : Op} (h : o.inHistory = false) (s : State) (r : Report) : s.report o r = s := by
  have hnone : s.opEntry o = none := by simp [State.opEntry, h]
  unfold State.report
  simp only [hnone, ite_self]

/-! ## The one tile (R92, R101, R107) -/

/-- What a matrix op of one tile on one die supposes. -/
structure State.OneTile (s : State) (o : Op) (n die ev : Nat) (t0 : Int) (cells : List (List Cell)) (enc : List EncOut) :
    Prop where
  inArray : s.inArray = some (o, { op := n, dies := [die], start := none, events := ev })
  mt : o.mat.mt = 1
  nt : o.mat.nt = 1
  notes : s.NoNotes
  history : o.inHistory = false
  norm : o.mat.normEn = false
  reads : s.spansAccess (o.mat.a.segReads (o.mat.segA 0) ++ o.mat.b.segReads (o.mat.segB 0)) = .good
  start : t0 = o.mat.bound (readByte s.mem.hbm) (0, 0)
  taken : cells = o.mat.cells (readByte s.mem.hbm) t0 0 (o.mat.panel (readByte s.mem.hbm) 0)
  fits : (cells.any fun row => row.any (Cell.over t0)) = false
  encoded : enc = o.mat.encode t0 0 0 cells
  writes : s.spansAccess (encSpans enc) = .good

/-- The pass over the one tile. -/
def onePass (die : Nat) : Pass := { band := 0, tiles := [(die, 0)] }

section
variable {s : State} {o : Op} {n die ev : Nat} {t0 : Int} {cells : List (List Cell)} {enc : List EncOut}

theorem MatrixRun.take_first {d : MatDesc} (hm : d.mt = 1) (hn : d.nt = 1) :
    ({ op := n, dies := [die], start := none, events := ev } : MatrixRun).take d =
      ({ op := n, dies := [die], start := none, events := ev, next := 1 }, some (onePass die)) := by
  simp [MatrixRun.take, MatrixRun.walkLen, hm, hn, ceilDiv, MatrixRun.walk, onePass]

theorem MatrixRun.take_rest {d : MatDesc} {r : MatrixRun} (hm : d.mt = 1) (hn : d.nt = 1) (hdies : r.dies = [die])
    (hnext : r.next = 1) (hrec : r.recompute = []) (hdef : r.deferred = []) : r.take d = (r, none) := by
  simp [MatrixRun.take, MatrixRun.walkLen, hm, hn, ceilDiv, MatrixRun.walk, hdies, hnext, hrec, MatrixRun.extra, hdef]

/-- The run while its one pass streams. -/
structure MatrixRun.Streams (r : MatrixRun) (n die : Nat) : Prop where
  op : r.op = n
  dies : r.dies = [die]
  next : r.next = 1
  start : r.start = none
  tiles : r.tiles = []
  recompute : r.recompute = []
  deferred : r.deferred = []
  pass : r.pass = some (onePass die)
  drain : r.drain = none
  cancelled : r.cancelled = false
  panels : r.panels = [] ∨ r.panels = [(die, { col := 0, codes := [] })]

theorem State.streams_beginPass (s : State) (d : MatDesc) :
    (s.beginPass d (MatrixRun.withPass { op := n, dies := [die], start := none, events := ev, next := 1 } (onePass die))
      (onePass die)).2.Streams n die := by
  refine ⟨rfl, rfl, rfl, rfl, rfl, rfl, rfl, rfl, rfl, rfl, ?_⟩
  show (if d.fits then _ else _) = [] ∨ (if d.fits then _ else _) = _
  split
  · exact .inr rfl
  · exact .inl rfl

theorem MatrixRun.Streams.panelOf {r : MatrixRun} (h : r.Streams n die) (s : State) (d : MatDesc) :
    s.panelOf d r die 0 = d.panel (readByte s.mem.hbm) 0 := by
  unfold State.panelOf
  obtain hp | hp := h.panels <;> simp [hp]

theorem MatrixRun.Streams.passReads {r : MatrixRun} (h : r.Streams n die) (d : MatDesc) :
    r.passReads d (onePass die) = d.a.segReads (d.segA 0) ++ d.b.segReads (d.segB 0) := by
  have hstaged : r.staged die 0 = false := by
    unfold MatrixRun.staged
    obtain hp | hp := h.panels <;> simp [hp]
  simp [MatrixRun.passReads, onePass, hstaged]

/-- A run without its stores, its bound scans and its events. -/
def MatrixRun.bare (r : MatrixRun) : MatrixRun := { r with panels := [], scanned := [], events := 0 }

theorem MatrixRun.bare_fill (r : MatrixRun) (die j : Nat) (b : List (List (Nat × Nat))) : (r.fill die j b).bare = r.bare := by
  unfold MatrixRun.fill
  split <;> rfl

theorem MatrixRun.bare_scan (r : MatrixRun) (d : MatDesc) (ofB : Bool) (x : Nat) : (r.scan d ofB x).bare = r.bare := by
  have hite (c : Bool) (y : MatrixRun) (hy : y.bare = r.bare) : (if c then r else y).bare = r.bare := by
    cases c
    · exact hy
    · rfl
  exact hite _ _ rfl

/-- A tile's output where nothing notes it, and no norm and no history takes it. -/
theorem State.writeTile_plain (hn : s.NoNotes) (hh : o.inHistory = false) (hnorm : o.mat.normEn = false) (r : MatrixRun)
    (t : Int) (cells : List (List Cell)) (enc : List EncOut) :
    ∃ a, s.writeTile o r false die t cells enc = ({ s.putEnc enc with array := a },
      { r with saturated := r.saturated || enc.any EncOut.overflow, nanOut := r.nanOut || enc.any EncOut.nanOut }) := by
  have hnotes : (encSpans enc).foldl (fun (s : State) x => s.noteWrite o.step x.base x.len) (s.putEnc enc) = s.putEnc enc := by
    have hdescs : (s.putEnc enc).mem.descs = [] := by rw [State.putEnc_descs]; exact hn.descs
    exact List.foldlRecOn (motive := fun u => u = s.putEnc enc) _ _ rfl fun u hu x _ => by
      rw [hu]
      exact State.noteWrite_of_none hdescs _ _ _
  unfold State.writeTile
  simp only [hnotes, hnorm, State.report_of_noHistory hh, Bool.false_and, Bool.false_eq_true, if_false, Bool.or_false]
  exact ⟨_, rfl⟩

/-- The run when its tile is written: nothing of it is left. -/
structure MatrixRun.Drained (r : MatrixRun) (d : MatDesc) (n : Nat) : Prop where
  op : r.op = n
  cancelled : r.cancelled = false
  done : r.over d = true
  final : (r.tiles.any fun t => t.2.final) = true

/-- The drain of the pass writes the tile. -/
theorem State.OneTile.drainPass (h : s.OneTile o n die ev t0 cells enc) {v : State} {r : MatrixRun} (hv : v.mem = s.mem)
    (hjobs : v.jobs = s.jobs) (hedge : v.edge = s.edge) (hr : r.Streams n die) : ∃ u r',
    v.drainPass o { r with pass := none } false (onePass die) = .done u r' ∧ u.mem = (s.putEnc enc).mem ∧ u.hub = v.hub ∧
    u.jobs = s.jobs ∧ r'.Drained o.mat n := by
  have hspans (l : List Span) : v.spansAccess l = s.spansAccess l := by
    have hsector : v.sectorAccess = s.sectorAccess := by
      funext q
      unfold State.sectorAccess State.sectorHeld State.edgeOn
      rw [hv, hedge]
    simp only [State.spansAccess, State.writeAccess, State.access, hsector]
  have hreads : ({ r with pass := none } : MatrixRun).passReads o.mat (onePass die) =
      o.mat.a.segReads (o.mat.segA 0) ++ o.mat.b.segReads (o.mat.segB 0) := hr.passReads o.mat
  have hpanel : v.panelOf o.mat { r with pass := none } die 0 = o.mat.panel (readByte s.mem.hbm) 0 := by
    rw [← hv]
    exact hr.panelOf v o.mat
  obtain ⟨r3, hr3⟩ : ∃ r3, r3 = ((({ r with pass := none } : MatrixRun).fill die 0 (o.mat.panel (readByte s.mem.hbm) 0)).scan
      o.mat false 0).scan o.mat true 0 := ⟨_, rfl⟩
  have hbare : r3.bare = ({ r with pass := none } : MatrixRun).bare := by
    rw [hr3, MatrixRun.bare_scan, MatrixRun.bare_scan, MatrixRun.bare_fill]
  obtain ⟨hop, hdies, hnext, hstart, htiles, hrec, hdef, hpass, hdrain, hcancel, hpanels⟩ := hr
  have hfill : (({ r with pass := none } : MatrixRun).fill die 0 (o.mat.panel (readByte s.mem.hbm) 0)).tiles = [] ∧
      (({ r with pass := none } : MatrixRun).fill die 0 (o.mat.panel (readByte s.mem.hbm) 0)).start = none := by
    unfold MatrixRun.fill
    split <;> exact ⟨htiles, hstart⟩
  have hnow : v.tileNow o.mat (({ r with pass := none } : MatrixRun).fill die 0 (o.mat.panel (readByte s.mem.hbm) 0)) (0, 0) =
      ({ t0 := t0 }, r3) := by
    simp only [State.tileNow, hfill.1, hfill.2, Map.find, hr3, h.start, hv]
  obtain ⟨a, hwrite⟩ := State.writeTile_plain (s := v) (die := die) ⟨hv ▸ h.notes.descs, hjobs ▸ h.notes.shards⟩ h.history h.norm
    r3 t0 cells enc
  obtain ⟨r4, hr4⟩ : ∃ r4, r4 = { r3 with
      saturated := r3.saturated || enc.any EncOut.overflow, nanOut := r3.nanOut || enc.any EncOut.nanOut
      tiles := r3.tiles.insert (o.mat.tileNo (0, 0)) { t0 := t0, final := true } } := ⟨_, rfl⟩
  have htile : v.drainTile o { r with pass := none } false die (0, 0) = (.done { v.putEnc enc with array := a } r4, false) := by
    unfold State.drainTile
    simp only [hr4, hpanel, hnow, hv, ← h.taken, h.fits, ← h.encoded, hspans, h.writes, hwrite, Bool.and_false,
      Bool.false_eq_true, if_false]
  refine ⟨{ v.putEnc enc with array := a }, r4, ?_, State.putEnc_mem_congr hv enc, State.putEnc_hub v enc,
    (State.unworked_jobs (v.unworked_putEnc enc)).trans hjobs, ?_⟩
  · unfold State.drainPass
    simp only [hreads, hspans, h.reads]
    show v.drainTiles o { r with pass := none } false 0 [] [(die, 0)] = _
    simp only [State.drainTiles, htile, Bool.false_eq_true, if_false, if_true]
  have hkeep {β : Type} (f : MatrixRun → β) (hf : ∀ x : MatrixRun, f x.bare = f x) (hmore : f r4 = f r3)
      (hnone : f { r with pass := none } = f r) : f r4 = f r := by
    rw [hmore, ← hf, hbare, hf, hnone]
  refine ⟨?_, ?_, ?_, ?_⟩
  · exact (hkeep (·.op) (fun _ => rfl) (by rw [hr4]) rfl).trans hop
  · exact (hkeep (·.cancelled) (fun _ => rfl) (by rw [hr4]) rfl).trans hcancel
  · have hpass4 : r4.pass = none := by rw [hr4]; exact congrArg (·.pass) hbare
    have hdrain4 : r4.drain = none := (hkeep (·.drain) (fun _ => rfl) (by rw [hr4]) rfl).trans hdrain
    have hrec4 : r4.recompute = [] := (hkeep (·.recompute) (fun _ => rfl) (by rw [hr4]) rfl).trans hrec
    have hdef4 : r4.deferred = [] := (hkeep (·.deferred) (fun _ => rfl) (by rw [hr4]) rfl).trans hdef
    have hnext4 : r4.next = 1 := (hkeep (·.next) (fun _ => rfl) (by rw [hr4]) rfl).trans hnext
    have hdies4 : r4.dies = [die] := (hkeep (·.dies) (fun _ => rfl) (by rw [hr4]) rfl).trans hdies
    simp [MatrixRun.over, MatrixRun.walkLen, hpass4, hdrain4, hrec4, hdef4, hnext4, hdies4, h.mt, h.nt, ceilDiv]
  · have htiles4 : r3.tiles = [] := (congrArg (·.tiles) hbare).trans htiles
    rw [hr4, htiles4]
    rfl

/-! ## The op's end (R88) -/

/-- The op ends, and nothing stays in the array. -/
theorem State.putRun_of_drained {u : State} {r : MatrixRun} (hn : u.NoNotes) (hop : u.op n = some o) (hrun : o.phase = .running)
    (hr : r.Drained o.mat n) : ∃ t detail, t = u.putRun o r ∧ t.array.run = none ∧ t.op n = some { o with phase := .done .ok detail } ∧
    t.mem = u.mem := by
  have hleave : (u.leaveArray o r).mem = u.mem ∧ (u.leaveArray o r).jobs = u.jobs ∧ (u.leaveArray o r).op n = some o ∧
      (u.leaveArray o r).array.run = none := by
    unfold State.leaveArray
    dsimp only
    split
    · exact ⟨rfl, rfl, hop, rfl⟩
    · exact ⟨State.modLea_mem .., State.modLea_jobs .., by rw [State.op, State.modLea_hub]; exact hop, by rw [State.modLea_array]⟩
  obtain ⟨hmem, hjobs, hlop, harray⟩ := hleave
  have hnotes : (u.leaveArray o r).NoNotes := hn.of_eq (by rw [hmem]) hjobs
  have hput : u.putRun o r = (u.leaveArray o r).endOp n .ok r.detail := by
    rw [State.putRun, if_pos hr.done, hr.cancelled, State.endMatrix, hr.op, hnotes.finishOp]
    rfl
  refine ⟨_, r.detail, rfl, ?_, ?_, ?_⟩
  · rw [hput, State.endOp_array, harray]
  · rw [hput]
    exact State.op_endOp hlop (Op.live_of_running hrun) _ _
  · rw [hput, State.endOp_mem, hmem]

/-- The op runs in the array to its end: one pass starts, drains, and no other is left. -/
theorem State.OneTile.runMatrix (h : s.OneTile o n die ev t0 cells enc) : ∃ t detail, s.runMatrix o.mat.fuel = t ∧
    t.array.run = none ∧ t.op n = some { o with phase := .done .ok detail } ∧ t.mem = (s.putEnc enc).mem := by
  obtain ⟨hrun, hop, hphase⟩ := State.inArray_iff.mp h.inArray
  obtain ⟨v, hv⟩ : ∃ v, v = s.passStarted o.mat { op := n, dies := [die], start := none, events := ev, next := 1 } (onePass die) :=
    ⟨_, rfl⟩
  have hfirst : s.passStart = some v := by
    rw [hv]
    exact State.passStart_of_take h.inArray rfl (.inl rfl) (MatrixRun.take_first h.mt h.nt)
  obtain ⟨r, hr⟩ : ∃ r, r = (s.beginPass o.mat (MatrixRun.withPass { op := n, dies := [die], start := none, events := ev, next := 1 }
      (onePass die)) (onePass die)).2 := ⟨_, rfl⟩
  have hstreams : r.Streams n die := hr ▸ State.streams_beginPass s o.mat
  have hvrun : v.array.run = some r := by rw [hv, hr]; rfl
  have hvop : v.op n = some o := by rw [hv]; exact hop
  have hvin : v.inArray = some (o, r) := State.inArray_iff.mpr ⟨hvrun, by rw [hstreams.op]; exact hvop, hphase⟩
  have hnomore : v.passStart = none := by
    unfold State.passStart
    simp only [hvin, hstreams.cancelled, hstreams.drain, MatrixRun.take_rest h.mt h.nt hstreams.dies hstreams.next
      hstreams.recompute hstreams.deferred, Option.isSome_none, Bool.and_false, Bool.or_false, Bool.false_eq_true, if_false]
  obtain ⟨u, r', hdrain, hmem, hhub, hjobs, hdrained⟩ := h.drainPass (v := v) (by rw [hv]; rfl) (by rw [hv]; rfl)
    (by rw [hv]; rfl) hstreams
  obtain ⟨t, detail, ht, htrun, htop, htmem⟩ := State.putRun_of_drained (u := u) (o := o) (n := n) (r := r')
    (h.notes.of_eq (by rw [hmem, State.putEnc_descs]) hjobs) (by rw [State.op_congr hhub, hvop]) hphase hdrained
  have hend : v.passEnd = some t := by
    rw [ht]
    exact State.passEnd_of_pass hvin hstreams.drain hstreams.pass hdrain
  have hidle : t.inArray = none := by
    unfold State.inArray
    rw [htrun]
  refine ⟨t, detail, ?_, htrun, htop, htmem.trans hmem⟩
  have hfuel : o.mat.fuel = 5 + 3 := by rw [MatDesc.fuel, h.mt, h.nt]
  rw [hfuel]
  simp only [State.runMatrix, hfirst, hnomore, hend, State.passStart_of_none hidle, State.passEnd_of_none hidle]

end

/-- Settles O35: the one pass of the op writes the tile and ends the op. -/
theorem matrixOpOfOneTile : Obligations.MatrixOpOfOneTile := by
  rintro s o n die ev d t0 cells enc hin rfl hmt hnt hn hh hnorm hreads ht0 hcells hover henc hwrites
  have h : s.OneTile o n die ev t0 cells enc := ⟨hin, hmt, hnt, hn, hh, hnorm, hreads, ht0, hcells, hover, henc, hwrites⟩
  obtain ⟨t, detail, hrun, harray, hop, hmem⟩ := h.runMatrix
  refine ⟨t.settle, _, ?_, by rw [State.settle_array, harray], by rw [State.op, State.settle_hub_ops]; exact hop,
    ⟨detail, rfl⟩, by rw [State.settle_mem, hmem], fun hwf a ha => ?_⟩
  · show execMatrixOp s = _
    simp only [execMatrixOp, hin, hrun]
    rfl
  · rw [State.settle_mem, hmem]
    refine ((s.writesOnly_putEnc enc) hwf).2 a fun hx => ?_
    obtain ⟨x, hx, hlo, hhi⟩ := hx
    exact (ha x hx).elim (fun h => absurd hlo (by omega)) fun h => absurd hhi (by omega)

end Sys2Proof.Machine
end

section
/-!
PROOF. Settles O37: what the elements of an update op write, and how the op ends.
-/

namespace Sys2Proof.Machine

/-! ## What an element writes -/

/-- The bytes that an update op may write: those of its spans that are written. -/
def Op.updWrites (o : Op) (a : Nat) : Prop := ∃ x ∈ o.updSpans, x.write = true ∧ x.base ≤ a ∧ a < x.base + x.len

/-- A step that writes where `p` says, and changes nothing else but the events of the leas. -/
structure State.Writing (s : State) (p : Nat → Prop) (u : State) : Prop where
  only : s.WritesOnly p u
  hub : u.hub = s.hub
  descs : u.mem.descs = s.mem.descs
  work : u.unworked = s.unworked

section
variable {s u v : State} {p : Nat → Prop}

theorem State.Writing.refl (s : State) (p : Nat → Prop) : s.Writing p s := ⟨State.WritesOnly.of_hbm_eq rfl, rfl, rfl, rfl⟩

theorem State.Writing.trans (h : s.Writing p u) (k : u.Writing p v) : s.Writing p v :=
  ⟨h.only.trans k.only, k.hub.trans h.hub, k.descs.trans h.descs, k.work.trans h.work⟩

theorem State.writing_write (s : State) {base : Nat} {bytes : List Byte}
    (h : ∀ a, base ≤ a → a < base + bytes.length → p a) : s.Writing p (s.write base bytes) :=
  ⟨s.writesOnly_write h, s.write_hub _ _, s.write_descs _ _, s.unworked_write _ _⟩

theorem State.Writing.notes (h : s.Writing p u) (hn : s.NoNotes) : u.NoNotes :=
  hn.of_eq h.descs (State.unworked_jobs h.work)

end

section
variable {o : Op} {i : Nat}

/-- Element `i` of a tensor that the op writes. -/
theorem Op.updWrites_of_span {x : Span} {size : Nat} (hx : x ∈ o.updSpans) (hw : x.write = true) (hlen : x.len = o.updCount * size)
    (hi : i < o.updCount) {a : Nat} (hlo : x.base + size * i ≤ a) (hhi : a < x.base + size * i + size) : o.updWrites a := by
  refine ⟨x, hx, hw, by omega, ?_⟩
  have hmul : size * i + size ≤ o.updCount * size := by
    calc size * i + size = (i + 1) * size := by rw [Nat.succ_mul, Nat.mul_comm]
      _ ≤ o.updCount * size := Nat.mul_le_mul_right _ hi
  omega

variable (s : State)

theorem State.writing_putBf16 {base : Nat} (hx : ({ base := base, len := o.updCount * 2, write := true } : Span) ∈ o.updSpans)
    (hi : i < o.updCount) (code : Nat) : s.Writing o.updWrites (s.putBf16 base i code) :=
  s.writing_write fun a hlo hhi => Op.updWrites_of_span hx rfl rfl hi hlo (by rwa [length_natToLE] at hhi)

theorem State.writing_clearGrad (hi : i < o.updCount) : s.Writing o.updWrites (s.clearGrad o i) := by
  unfold State.clearGrad
  split
  · next h =>
    obtain ⟨hkind, hclear⟩ : o.gradKind = 2 ∧ bit (o.w 0) 24 = true := by simpa using h
    have hx : ({ base := o.addr 9, len := o.updCount * 4, write := true } : Span) ∈ o.updSpans := by
      simp only [Op.updSpans, Op.gradBytes, hkind, hclear]
      split <;> simp
    exact s.writing_write fun a hlo hhi => Op.updWrites_of_span hx rfl rfl hi hlo hhi
  · exact State.Writing.refl s _

variable {mode : UpdMode}

theorem State.writing_updOne (hmode : o.updMode = some mode) (hi : i < o.updCount) (seed : Nat) (a : UpdAcc) :
    s.Writing o.updWrites (s.updOne o mode seed i a).1 := by
  have hclear := s.writing_clearGrad hi
  have h3 (m : UpdMode) (hm : o.updMode = some m) (hne : m ≠ .accumulate) :
      ({ base := o.addr 3, len := o.updCount * 2, write := true } : Span) ∈ o.updSpans ∧
      ({ base := o.addr 5, len := o.updCount * 2, write := true } : Span) ∈ o.updSpans := by
    simp only [Op.updSpans, hm]
    cases m <;> simp at hne ⊢
  cases mode with
  | accumulate =>
    have hx : ({ base := o.addr 3, len := o.updCount * 4, write := true } : Span) ∈ o.updSpans := by
      simp [Op.updSpans, hmode]
    exact hclear.trans (State.writing_write _ fun a hlo hhi => Op.updWrites_of_span hx rfl rfl hi hlo hhi)
  | adamw =>
    obtain ⟨h3, h5⟩ := h3 _ hmode (by simp)
    have h7 : ({ base := o.addr 7, len := o.updCount * 2, write := true } : Span) ∈ o.updSpans := by
      simp [Op.updSpans, hmode]
    exact ((hclear.trans (State.writing_putBf16 _ h5 hi _)).trans (State.writing_putBf16 _ h7 hi _)).trans
      (State.writing_putBf16 _ h3 hi _)
  | sgd =>
    obtain ⟨h3, h5⟩ := h3 _ hmode (by simp)
    exact (hclear.trans (State.writing_putBf16 _ h5 hi _)).trans (State.writing_putBf16 _ h3 hi _)
  | lion =>
    obtain ⟨h3, h5⟩ := h3 _ hmode (by simp)
    exact (hclear.trans (State.writing_putBf16 _ h5 hi _)).trans (State.writing_putBf16 _ h3 hi _)

theorem State.writing_updLoop (hmode : o.updMode = some mode) (seed k i : Nat) (hk : i + k ≤ o.updCount) (a : UpdAcc) :
    s.Writing o.updWrites (s.updLoop o mode seed k i a).1 := by
  induction k generalizing s i a with
  | zero => exact State.Writing.refl s _
  | succ k ih => exact (s.writing_updOne hmode (by omega) seed a).trans (ih _ _ (by omega) _)

end

/-! ## The op -/

/-- DETAIL of an update op (Table 6.6). -/
def UpdAcc.detail (a : UpdAcc) : Nat := b2n a.saturated * 2 ^ 15 + b2n a.nanOut * 2 ^ 14 + b2n a.normSat * 2 ^ 13

section
variable {s : State} {n : Nat} {o : Op} {j : Job} {mode : UpdMode}

/-- The state after an op's elements: its norms and the engine's registers. -/
def State.updEnded (s : State) (o : Op) (a : UpdAcc) : State :=
  let s := ((s.addNorm o.lea (o.f 11 31 16) a.normG).addNorm o.lea (o.f 11 15 0) a.normU).addNorm o.lea (o.f 12 15 0) a.normW
  { s with scale := s.scale.updated a o.updCount }

theorem State.addNorm_scale (s : State) (l i : Nat) (y : Norm) :
    (s.addNorm l i y).scale = s.scale ∧ (s.addNorm l i y).jobs = s.jobs := by
  unfold State.addNorm
  split
  · exact ⟨rfl, rfl⟩
  · exact ⟨State.modLea_scale .., State.modLea_jobs ..⟩

theorem State.updEnded_keeps (s : State) (o : Op) (a : UpdAcc) : (s.updEnded o a).mem = s.mem ∧ (s.updEnded o a).hub = s.hub ∧
    (s.updEnded o a).jobs = s.jobs ∧ (s.updEnded o a).scale = s.scale.updated a o.updCount := by
  unfold State.updEnded
  simp only [State.addNorm_keeps, State.addNorm_scale, and_self]

theorem State.updateRow_of_runs (h : s.RunsFor n 7 o j) (hmode : o.updMode = some mode)
    (hacc : s.spansAccess o.updSpans = .good) {r : State × UpdAcc} (hr : r = s.updLoop o mode j.seed o.updCount 0 {}) :
    s.updateRow n mode = (r.1.updEnded o r.2).finishOp n o.updSpans .ok r.2.detail := by
  unfold State.updateRow
  simp only [h.op, hmode, if_true, State.runUpdate, h.job, State.withAccess, hacc, hr]
  rfl

end

/-- Settles O37: each element writes its own bytes of the op's spans, and nothing notes them. -/
theorem updateOps : Obligations.UpdateOps := by
  intro s n o j r p hp h hmode hacc hn hr
  obtain ⟨i, mode⟩ := p
  have hexec : exec i s = finish (s.updateRow n mode) := by
    simp only [List.mem_cons, Prod.mk.injEq, List.not_mem_nil, or_false] at hp
    obtain ⟨rfl, rfl⟩ | ⟨rfl, rfl⟩ | ⟨rfl, rfl⟩ | ⟨rfl, rfl⟩ := hp <;> rfl
  have hwriting : s.Writing o.updWrites r.1 := hr ▸ s.writing_updLoop hmode j.seed o.updCount 0 (by omega) {}
  obtain ⟨hmem, hhub, hjobs, hscale⟩ := r.1.updEnded_keeps o r.2
  have hnotes : (r.1.updEnded o r.2).NoNotes := (hwriting.notes hn).of_eq (by rw [hmem]) hjobs
  obtain ⟨hop, hrun, -, -⟩ := State.runs_iff.mp h.op
  refine ⟨((r.1.updEnded o r.2).endOp n .ok r.2.detail).settle, { o with phase := .done .ok r.2.detail }, ?_, ?_, rfl, ?_, ?_, ?_,
    fun hwf a ha => ?_⟩
  · rw [hexec, State.updateRow_of_runs h hmode hacc hr, hnotes.finishOp]
    rfl
  · rw [State.op, State.settle_hub_ops]
    exact State.op_endOp (by rw [State.op_congr (hhub.trans hwriting.hub)]; exact hop) (Op.live_of_running hrun) _ _
  · rw [State.settle_mem, State.endOp_mem, hmem]
  · have hkept : r.1.scale = s.scale := congrArg (·.1.scale) hwriting.work
    rw [State.settle_scale, State.endOp_scale, hscale, hkept]
    rfl
  · rw [State.settle_jobs, State.endOp_jobs, hjobs, State.unworked_jobs hwriting.work]
  · rw [State.settle_mem, State.endOp_mem, hmem]
    refine (hwriting.only hwf).2 a fun hw => ?_
    obtain ⟨x, hx, hwrite, hlo, hhi⟩ := hw
    exact (ha x hx hwrite).elim (fun h => absurd hlo (by omega)) fun h => absurd hhi (by omega)

end Sys2Proof.Machine
end

section
/-!
PROOF. What a row's loads and stores leave: the outcome of an instruction that reads or writes memory, and the bytes that
the writes of a row leave to be read.
-/

namespace Sys2Proof.Machine

/-! ## Numbers in memory -/

theorem rdNat_readByte (m : List Host.Cell) (a n : Nat) : rdNat (readByte m) a n = leToNat (readCells m a n) := by
  rw [rdNat, readCells_eq_map, range'_eq_listRange', List.range'_eq_map_range, List.map_map]
  rfl

theorem leToNat_natToLE_mod (n v : Nat) : leToNat (natToLE n v) = v % 256 ^ n := by
  induction n generalizing v with
  | zero => simp [natToLE, leToNat, Nat.mod_one]
  | succ n ih =>
    have hmod : v % 256 ^ (n + 1) = v % 256 + 256 * (v / 256 % 256 ^ n) := by
      rw [Nat.pow_succ']
      exact Nat.mod_mul
    rw [natToLE, leToNat, ih, BitVec.toNat_ofNat, hmod]

/-! ## The outcome of an instruction -/

section
variable {s t : State} {c n : Nat} {o : Op} {f : IFields} {body : CInstr} {x : Cluster}

/-- An instruction of a row with instructions left that goes on: its cluster is put, and it counts. -/
theorem finish_instr_go (h : s.RunsRow c n o) (cost : Nat) (hb : body s o ((s.cluster c).fetched f) = .go t x)
    (hx : x.instrs = (s.cluster c).instrs) :
    finish (s.instr c (retire cost f body)) = .next (t.putCluster c (x.counted cost)).settle := by
  rw [State.instr_of_row h.row h.user, retire_go cost hb (by rw [hx]; exact h.left)]
  rfl

/-- An instruction that stops its row. -/
theorem finish_instr_stop (h : s.RunsRow c n o) (cost : Nat) {st : Status} {cause : Nat}
    (hb : body s o ((s.cluster c).fetched f) = .stop t x st cause) (hx : x.op = (s.cluster c).op) :
    ∃ u, finish (s.instr c (retire cost f body)) = .next u ∧ (u.cluster c).st = .stopped cause ∧ u.mem = t.mem := by
  have hretire : retire cost f body s o (s.cluster c) = .stop t { x with pc := (s.cluster c).pc } st cause := by
    unfold retire
    rw [show ({ s.cluster c with pc := ((s.cluster c).pc + iBytes f) % 2 ^ 48 } : Cluster) = (s.cluster c).fetched f from rfl, hb]
  obtain ⟨u, hu, hst, hmem, -⟩ := State.rowOut_stop (s := t) (c := c) (o := o) (k := { x with pc := (s.cluster c).pc })
    (hx.trans (State.rowOn_facts h.row).1) st cause
  exact ⟨u, by rw [State.instr_of_row h.row h.user, hretire]; exact hu, hst, hmem⟩

end

section
variable {s : State} {o : Op} {k : Cluster} {spans : List Span} {go : RowOutcome}

theorem State.rowAccess_good (hg : s.spansGranted o.lea spans = true) (ha : s.spansAccess spans = .good) :
    s.rowAccess o k spans go = go := by
  simp only [State.rowAccess, hg, ha, Bool.not_true, Bool.false_eq_true, if_false]

theorem State.rowAccess_denied (hg : s.spansGranted o.lea spans = false) :
    s.rowAccess o k spans go = .stop s k .unitFault 1 := by
  simp only [State.rowAccess, hg, Bool.not_false, if_true]

end

/-! ## The writes of a row -/

theorem State.rowWrite_cluster (s : State) (o : Op) (k : Cluster) (base : Nat) (b : List Byte) :
    ∃ h, (s.rowWrite o k base b).2 = { k with hits := h } := by
  unfold State.rowWrite
  dsimp only
  split
  · exact ⟨k.hits, rfl⟩
  · exact ⟨_, rfl⟩

theorem State.Sound.rowWrite {s : State} (h : s.Sound) (o : Op) (k : Cluster) (base : Nat) (b : List Byte) :
    s.Stored [(base, b)] (s.rowWrite o k base b).1 := by
  obtain ⟨hsound, hbytes⟩ := h.write base b
  exact ⟨⟨hsound.wf, hsound.found⟩, hbytes⟩

/-- The writes of a row made one after another. -/
def State.rowWrites (s : State) (o : Op) (k : Cluster) (l : List (Nat × List Byte)) : State × Cluster :=
  l.foldl (fun (y : State × Cluster) x => y.1.rowWrite o y.2 x.1 x.2) (s, k)

theorem State.rowWrites_cluster (s : State) (o : Op) (k : Cluster) (l : List (Nat × List Byte)) :
    ∃ h, (s.rowWrites o k l).2 = { k with hits := h } := by
  refine List.foldlRecOn (motive := fun (y : State × Cluster) => ∃ h, y.2 = { k with hits := h }) l _ ⟨k.hits, rfl⟩ ?_
  rintro ⟨t, y⟩ ⟨h, hy⟩ x -
  obtain ⟨h', hy'⟩ := t.rowWrite_cluster o y x.1 x.2
  simp only at hy
  exact ⟨h', by rw [hy', hy]⟩

theorem State.Sound.rowWrites {s : State} (h : s.Sound) (o : Op) (k : Cluster) (l : List (Nat × List Byte)) :
    s.Stored l (s.rowWrites o k l).1 := by
  induction l generalizing s k with
  | nil => exact State.Stored.refl h
  | cons x rest ih => exact (h.rowWrite o k x.1 x.2).trans (ih (h.rowWrite o k x.1 x.2).sound _)

theorem State.rowWrites_jobs (s : State) (o : Op) (k : Cluster) (l : List (Nat × List Byte)) :
    (s.rowWrites o k l).1.jobs = s.jobs := by
  refine List.foldlRecOn (motive := fun (y : State × Cluster) => y.1.jobs = s.jobs) l _ rfl ?_
  rintro y hy x -
  exact (y.1.write_jobs x.1 x.2).trans hy

/-- The spans that a list of writes goes to. -/
abbrev writeSpans (l : List (Nat × List Byte)) : List Span :=
  l.map fun y => { base := y.1, len := y.2.length, write := true }

theorem State.rowStores_good {s : State} {o : Op} {k : Cluster} {l : List (Nat × List Byte)}
    (h : s.spansGranted o.lea (writeSpans (joinRuns l)) ∧ s.spansAccess (writeSpans (joinRuns l)) = .good) :
    s.rowStores o k l = .go (s.rowWrites o k (joinRuns l)).1 (s.rowWrites o k (joinRuns l)).2 := by
  obtain ⟨hg, ha⟩ := h
  exact State.rowAccess_good hg ha

theorem Cluster.captured_eq (k : Cluster) (o : Op) (vals : List Val) :
    ∃ n b, k.captured o vals = { k with norm := n, normSat := b } := by
  unfold Cluster.captured
  split
  · exact ⟨_, _, rfl⟩
  · exact ⟨k.norm, k.normSat, rfl⟩

/-- What a store leaves: the bytes of its writes, and of its cluster everything but what the row counts and notes. -/
structure State.RowStored (s : State) (c : Nat) (l : List (Nat × List Byte)) (t : State) : Prop where
  stored : s.Stored l t
  d : (t.cluster c).d = (s.cluster c).d
  u : (t.cluster c).u = (s.cluster c).u
  a : (t.cluster c).a = (s.cluster c).a
  store : (t.cluster c).store = (s.cluster c).store

/-- A store instruction whose writes are granted and find memory as it should be. -/
theorem finish_instr_stores {s : State} {c n : Nat} {o : Op} {f : IFields} {body : CInstr} {l : List (Nat × List Byte)}
    (h : s.RunsRow c n o) (hs : s.Sound) (cost : Nat) {k : Cluster}
    (hb : body s o ((s.cluster c).fetched f) = s.rowStores o k l)
    (hacc : s.spansGranted o.lea (writeSpans (joinRuns l)) ∧ s.spansAccess (writeSpans (joinRuns l)) = .good)
    (hk : k.instrs = (s.cluster c).instrs ∧ k.d = (s.cluster c).d ∧ k.u = (s.cluster c).u ∧ k.a = (s.cluster c).a ∧
      k.store = (s.cluster c).store) :
    ∃ t, finish (s.instr c (retire cost f body)) = .next t ∧ s.RowStored c l t := by
  obtain ⟨hits, hcluster⟩ := s.rowWrites_cluster o k (joinRuns l)
  obtain ⟨hinstrs, hd, hu, ha, hstore⟩ := hk
  have hgo := finish_instr_go h cost (hb.trans (State.rowStores_good hacc)) (by rw [hcluster]; exact hinstrs)
  refine ⟨_, hgo, (hs.rowWrites o k (joinRuns l)).of_joinRuns.of_mem (by rw [State.settle_mem]; rfl), ?_, ?_, ?_, ?_⟩ <;>
    rw [State.cluster_settle, State.cluster_putCluster, hcluster]
  · exact hd
  · exact hu
  · exact ha
  · exact hstore

/-! ## Where a store's elements and blocks lie -/

/-- Writes of one size at a stride of that size meet nowhere. -/
theorem apart_of_stride {base m i j : Nat} {u v : List Byte} (hu : u.length = m) (hij : i < j) :
    Apart (base + i * m, u) (base + j * m, v) := by
  refine .inl ?_
  have hmul : i * m + m ≤ j * m := by
    calc i * m + m = (i + 1) * m := (Nat.succ_mul i m).symm
      _ ≤ j * m := Nat.mul_le_mul_right _ hij
  show base + i * m + u.length ≤ base + j * m
  omega

theorem length_packBlock {x : Fmt} (h : fmtBlock x = true) (codes : List Nat) : (packBlock x codes).length = fmtUnitBytes x := by
  cases x <;> simp_all [fmtBlock, packBlock, fmtUnitBytes, length_natToLE, sum_map_const]

theorem length_chunks32 (n : Nat) (l : List Val) (h : l.length ≤ 32 * n) : (chunks32 n l).length = ceilDiv l.length 32 := by
  induction n generalizing l with
  | zero =>
    have : l.length = 0 := by omega
    simp [chunks32, ceilDiv, this]
  | succ n ih =>
    rw [chunks32]
    split
    · next he => simp [List.isEmpty_iff.mp he, ceilDiv]
    · next he =>
      have hpos : 0 < l.length := List.length_pos_iff.mpr fun h => he (by simp [h])
      rw [List.length_cons, ih _ (by rw [List.length_drop]; omega), List.length_drop]
      simp only [ceilDiv]
      omega

theorem pairwise_zipIdx {α : Type} (l : List α) : l.zipIdx.Pairwise fun x y => x.2 < y.2 := by
  rw [List.pairwise_iff_getElem]
  intro i j hi hj hij
  simpa using hij

theorem mem_zipIdx_iff {α : Type} {l : List α} {b : α × Nat} : b ∈ l.zipIdx ↔ l[b.2]? = some b.1 := by
  obtain ⟨x, i⟩ := b
  simp [List.mem_zipIdx_iff_getElem?]

end Sys2Proof.Machine
end

section
/-!
PROOF. Settles O30: what the loads, stores and atomic operations of a cluster do.
-/

namespace Sys2Proof.Machine

/-! ## What a cluster past its pc reads -/

section
variable (k : Cluster) (f g : IFields)
theorem Cluster.fetched_lanes : (k.fetched f).lanes g = k.lanes g := rfl
theorem Cluster.fetched_lane : (k.fetched f).lane = k.lane := rfl
theorem Cluster.fetched_lane2 : (k.fetched f).lane2 g = k.lane2 g := rfl
theorem Cluster.fetched_base : (k.fetched f).base g = k.base g := rfl
theorem Cluster.fetched_addrReg : (k.fetched f).addrReg = k.addrReg := rfl
theorem Cluster.fetched_stored : (k.fetched f).stored g = k.stored g := rfl
theorem Cluster.fetched_uniform : (k.fetched f).uniform = k.uniform := rfl
end

section
variable {s : State} {c n : Nat} {o : Op} {f : IFields} {k : Cluster} (h : s.RunsRow c n o) (hk : k = s.cluster c)
include h hk

/-! ## Loads (R66, R129) -/

/-- The spans of a plain load's or store's elements. -/
abbrev Cluster.elemSpans (k : Cluster) (f : IFields) (x : Fmt) : List Span :=
  (k.lanes f).map fun l => { base := k.base f + l * fmtUnitBytes x, len := fmtUnitBytes x }

theorem exec_ldF {x : Fmt} (hx : iPlainFmt f = some x) (hg : s.spansGranted o.lea (k.elemSpans f x) = true)
    (ha : s.spansAccess (k.elemSpans f x) = .good) :
    ∃ k', exec (.ldF c f) s = .next (s.putCluster c k').settle ∧ k.LaneResult k' f 1 fun l =>
      toFp32 (decodeElem x (leToNat (s.read (k.base f + l * fmtUnitBytes x) (fmtUnitBytes x)))) := by
  subst hk
  obtain ⟨g, hgdef⟩ : ∃ g : Nat → Word × Bool, g = fun l =>
    toFp32 (decodeElem x (leToNat (s.read ((s.cluster c).base f + l * fmtUnitBytes x) (fmtUnitBytes x)))) := ⟨_, rfl⟩
  have hread : (fun l => toFp32 (decodeElem x (rdNat (readByte s.mem.hbm) (((s.cluster c).fetched f).base f +
      l * fmtUnitBytes x) (fmtUnitBytes x)))) = g := by
    rw [hgdef]
    funext l
    rw [rdNat_readByte]
    rfl
  have hgo := State.rowAccess_good (k := (s.cluster c).fetched f) (go := .go s (((s.cluster c).fetched f).setLanes f g)) hg ha
  rw [← hgdef]
  refine ⟨_, ?_, (s.cluster c).laneResult_setLanes f 1 g⟩
  show finish (s.instr c (iLdF f)) = _
  rw [iLdF, hx]
  refine finish_instr_go h 1 ?_ (by rw [Cluster.setLanes_instrs]; rfl)
  simp only [hread]
  exact hgo

theorem exec_ldF_denied {x : Fmt} (hx : iPlainFmt f = some x) (hg : s.spansGranted o.lea (k.elemSpans f x) = false) :
    ∃ t, exec (.ldF c f) s = .next t ∧ (t.cluster c).st = .stopped 1 ∧ t.mem = s.mem := by
  subst hk
  show ∃ t, finish (s.instr c (iLdF f)) = .next t ∧ _
  rw [iLdF, hx]
  exact finish_instr_stop (x := (s.cluster c).fetched f) h 1 (State.rowAccess_denied hg) rfl

theorem exec_ldmx {i : Nat} {x : Fmt} (hi : mxPair f.s1.toNat = some i) (hx : iBlockFmt f = some x)
    (hg : s.spansGranted o.lea (k.strip i x false) = true) (ha : s.spansAccess (k.strip i x false) = .good) :
    ∃ k', exec (.ldmx c f) s = .next (s.putCluster c k').settle ∧ k.LaneResult k' f 1 fun l =>
      toFp32 (decodeMx x (blockCode (readByte s.mem.hbm) x (k.addrReg i + l / 32 * fmtUnitBytes x) (l % 32))
        (readByte s.mem.hbm (k.addrReg (i + 1) + l / 32)).toNat) := by
  subst hk
  refine ⟨_, ?_, (s.cluster c).laneResult_setLanes f 1 _⟩
  show finish (s.instr c (iLdmx f)) = _
  rw [iLdmx, hi, hx]
  exact finish_instr_go h 1 (State.rowAccess_good hg ha) (by rw [Cluster.setLanes_instrs]; rfl)

theorem exec_ldm {m : Nat} (hm : m = ceilDiv k.len 8) (hpos : 0 < m)
    (hg : s.spansGranted o.lea [{ base := k.base f, len := m }] = true)
    (ha : s.spansAccess [{ base := k.base f, len := m }] = .good) :
    ∃ k', exec (.ldm c f) s = .next (s.putCluster c k').settle ∧ k.PredResult k' f fun l =>
      (readByte s.mem.hbm (k.base f + l / 8)).getLsbD (l % 8) := by
  subst hk hm
  refine ⟨_, ?_, (s.cluster c).predResult_setPreds f _⟩
  show finish (s.instr c (iLdm f)) = _
  refine finish_instr_go h 1 ?_ (by rw [Cluster.setPreds_instrs]; rfl)
  dsimp only
  rw [if_neg (show ¬ceilDiv ((s.cluster c).fetched f).len 8 = 0 from (Nat.ne_of_gt hpos))]
  exact State.rowAccess_good (k := (s.cluster c).fetched f) hg ha

/-! ## Stores (R67, R129) -/

/-- The writes of a plain store. -/
abbrev Cluster.elemWrites (k : Cluster) (f : IFields) (x : Fmt) : List (Nat × List Byte) :=
  (k.lanes f).map fun l =>
    (k.base f + l * fmtUnitBytes x, natToLE (fmtUnitBytes x) (encodeVal x (fp32 (k.lane2 f l))).1)

theorem exec_stF {x : Fmt} (hs : s.Sound) (hx : iPlainFmt f = some x)
    (hacc : s.spansGranted o.lea (writeSpans (joinRuns (k.elemWrites f x))) ∧
      s.spansAccess (writeSpans (joinRuns (k.elemWrites f x))) = .good) :
    ∃ t, exec (.stF c f) s = .next t ∧ s.RowStored c (k.elemWrites f x) t := by
  subst hk
  show ∃ t, finish (s.instr c (iStF f)) = .next t ∧ _
  obtain ⟨y, hy⟩ : ∃ y : Cluster, y = { (s.cluster c).fetched f with
    saturated := ((s.cluster c).fetched f).saturated ||
      (((s.cluster c).lanes f).map fun l => (l, encodeVal x (fp32 ((s.cluster c).lane2 f l)))).any
        fun (e : Nat × Nat × Bool) => e.2.2
    nanOut := ((s.cluster c).fetched f).nanOut || ((s.cluster c).lanes f).any fun l => (fp32 ((s.cluster c).lane2 f l)).isNan } :=
      ⟨_, rfl⟩
  obtain ⟨nm, ns, hcap⟩ := y.captured_eq o ((((s.cluster c).lanes f).map fun l =>
    (l, encodeVal x (fp32 ((s.cluster c).lane2 f l)))).map fun e => decodeElem x e.2.1)
  rw [iStF, hx]
  refine finish_instr_stores h hs 1 (k := y.captured o _) ?_ hacc (by rw [hcap, hy]; exact ⟨rfl, rfl, rfl, rfl, rfl⟩)
  simp only [Cluster.fetched_lanes, Cluster.fetched_lane2, Cluster.fetched_base, List.map_map, Function.comp_def, hy]

/-- The blocks that a strip of lanes is encoded into. -/
def Cluster.stripBlocks (k : Cluster) (f : IFields) (x : Fmt) (fixed : Option Nat) :
    List (Nat × List Nat × Bool × Bool × Nat) := (chunks32 3 (k.stored f)).map (storedBlock x fixed)

/-- The writes of blocks: their data plane, and their scales. -/
def Cluster.stripWrites (k : Cluster) (i : Nat) (x : Fmt) (blks : List (Nat × List Nat × Bool × Bool × Nat)) :
    List (Nat × List Byte) :=
  (blks.zipIdx.map fun b => (k.addrReg i + b.2 * fmtUnitBytes x, packBlock x b.1.2.1)) ++
    blks.zipIdx.map fun b => (k.addrReg (i + 1) + b.2, [BitVec.ofNat 8 b.1.1])

/-- A strip store is a store of its blocks' writes, from a cluster that has counted them. -/
theorem storeStrip_eq (i : Nat) (x : Fmt) (fixed : Option Nat) :
    ∃ y, s.storeStrip o (k.fetched f) f i x fixed = s.rowStores o y (k.stripWrites i x (k.stripBlocks f x fixed)) ∧
      y.instrs = k.instrs ∧ y.d = k.d ∧ y.u = k.u ∧ y.a = k.a ∧ y.store = k.store := by
  obtain ⟨blks, hblks⟩ : ∃ blks, blks = k.stripBlocks f x fixed := ⟨_, rfl⟩
  obtain ⟨y, hy⟩ : ∃ y : Cluster, y = { k.fetched f with
      saturated := (k.fetched f).saturated || blks.any fun b => b.2.2.1
      nanOut := (k.fetched f).nanOut || blks.any fun b => b.2.2.2.1
      underflow := (k.fetched f).underflow + (blks.map fun b => b.2.2.2.2).sum
      mxElems := (k.fetched f).mxElems + (k.fetched f).len } := ⟨_, rfl⟩
  obtain ⟨nm, ns, hcap⟩ := y.captured_eq o (blks.flatMap fun b => b.2.1.map fun c => decodeMx x c b.1)
  refine ⟨y.captured o (blks.flatMap fun b => b.2.1.map fun c => decodeMx x c b.1), ?_, ?_⟩
  · rw [hy, hblks]
    rfl
  · rw [hcap, hy]
    exact ⟨rfl, rfl, rfl, rfl, rfl⟩

theorem exec_stmx {i : Nat} {x : Fmt} (hs : s.Sound) (hi : mxPair f.s1.toNat = some i) (hx : iBlockFmt f = some x)
    {p : Instr × Option Nat} (hp : p ∈ [(Instr.stmx c f, none), (.stmxS c f, some (k.uniform f.dst.toNat % 256))])
    (hacc : s.spansGranted o.lea (writeSpans (joinRuns (k.stripWrites i x (k.stripBlocks f x p.2)))) ∧
      s.spansAccess (writeSpans (joinRuns (k.stripWrites i x (k.stripBlocks f x p.2)))) = .good) :
    ∃ t, exec p.1 s = .next t ∧ s.RowStored c (k.stripWrites i x (k.stripBlocks f x p.2)) t := by
  subst hk
  simp only [List.mem_cons, List.not_mem_nil, or_false] at hp
  obtain rfl | rfl := hp
  · obtain ⟨y, hstrip, hy⟩ := storeStrip_eq (f := f) h rfl i x none
    show ∃ t, finish (s.instr c (iStmx f)) = .next t ∧ _
    rw [iStmx, hi, hx]
    exact finish_instr_stores h hs 2 hstrip hacc hy
  · obtain ⟨y, hstrip, hy⟩ := storeStrip_eq (f := f) h rfl i x (some ((s.cluster c).uniform f.dst.toNat % 256))
    show ∃ t, finish (s.instr c (iStmxS f)) = .next t ∧ _
    rw [iStmxS, hi, hx]
    exact finish_instr_stores h hs 2 hstrip hacc hy

end

/-- Elements of one size at each lane's place meet nowhere. -/
theorem Cluster.pairwise_elemWrites (k : Cluster) (f : IFields) (x : Fmt) : (k.elemWrites f x).Pairwise Apart := by
  rw [List.pairwise_map]
  have hlanes : (k.lanes f).Pairwise (· < ·) := (List.pairwise_lt_range (n := 64)).filter _
  exact hlanes.imp fun hij => apart_of_stride (length_natToLE _ _) hij

theorem Cluster.length_stripBlocks (k : Cluster) (f : IFields) (x : Fmt) (fixed : Option Nat) (hlen : k.len ≤ 64) :
    (k.stripBlocks f x fixed).length = ceilDiv k.len 32 := by
  have hstored : (k.stored f).length = k.len := by simp [Cluster.stored]
  rw [Cluster.stripBlocks, List.length_map, length_chunks32 3 _ (by omega), hstored]

section
variable {k : Cluster} {i : Nat} {x : Fmt} {blks : List (Nat × List Nat × Bool × Bool × Nat)} (hx : fmtBlock x = true)
include hx

/-- A write of a strip lies in one of its two planes. -/
theorem Cluster.clear_stripWrites {n a : Nat} (hn : blks.length = n)
    (hdata : a < k.addrReg i ∨ k.addrReg i + n * fmtUnitBytes x ≤ a)
    (hscale : a < k.addrReg (i + 1) ∨ k.addrReg (i + 1) + n ≤ a) : ∀ y ∈ k.stripWrites i x blks, Clear a y := by
  intro y hy
  obtain hy | hy := List.mem_append.mp hy <;> obtain ⟨b, hb, rfl⟩ := List.mem_map.mp hy <;>
    have hlt : b.2 < n := by
      obtain ⟨hlt, -⟩ := List.getElem?_eq_some_iff.mp (mem_zipIdx_iff.mp hb)
      omega
  · have hmul : b.2 * fmtUnitBytes x + fmtUnitBytes x ≤ n * fmtUnitBytes x := by
      calc b.2 * fmtUnitBytes x + fmtUnitBytes x = (b.2 + 1) * fmtUnitBytes x := (Nat.succ_mul _ _).symm
        _ ≤ n * fmtUnitBytes x := Nat.mul_le_mul_right _ hlt
    simp only [Clear, length_packBlock hx]
    omega
  · simp only [Clear, List.length_singleton]
    omega

/-- Of at most two blocks, whose planes lie apart, the writes meet nowhere. -/
theorem Cluster.pairwise_stripWrites (hn : blks.length ≤ 2)
    (hplanes : k.addrReg i + 2 * fmtUnitBytes x ≤ k.addrReg (i + 1) ∨ k.addrReg (i + 1) + 2 ≤ k.addrReg i) :
    (k.stripWrites i x blks).Pairwise Apart := by
  have hlt (b : (Nat × List Nat × Bool × Bool × Nat) × Nat) (hb : b ∈ blks.zipIdx) : b.2 < 2 := by
    obtain ⟨hlt, -⟩ := List.getElem?_eq_some_iff.mp (mem_zipIdx_iff.mp hb)
    omega
  refine List.pairwise_append.mpr ⟨?_, ?_, ?_⟩
  · rw [List.pairwise_map]
    exact (pairwise_zipIdx blks).imp fun hij => apart_of_stride (length_packBlock hx _) hij
  · rw [List.pairwise_map]
    exact (pairwise_zipIdx blks).imp fun {b c} hij => .inl (by simp only [List.length_singleton]; omega)
  · intro y hy z hz
    obtain ⟨b, hb, rfl⟩ := List.mem_map.mp hy
    obtain ⟨d, hd, rfl⟩ := List.mem_map.mp hz
    have hb2 := hlt b hb
    have hd2 := hlt d hd
    have hmul : b.2 * fmtUnitBytes x + fmtUnitBytes x ≤ 2 * fmtUnitBytes x := by
      calc b.2 * fmtUnitBytes x + fmtUnitBytes x = (b.2 + 1) * fmtUnitBytes x := (Nat.succ_mul _ _).symm
        _ ≤ 2 * fmtUnitBytes x := Nat.mul_le_mul_right _ hb2
    simp only [Apart, length_packBlock hx, List.length_singleton]
    omega

end

theorem fmtBlock_of_iBlockFmt {f : IFields} {x : Fmt} (h : iBlockFmt f = some x) : fmtBlock x = true :=
  (Option.filter_eq_some_iff.mp h).2

/-! ## Atomic operations (R221, Table 8.5) -/

/-- The address of a lane's target. -/
def Cluster.target (k : Cluster) (f : IFields) (l : Nat) : Nat := k.base f + (k.lane f.s2.toNat l).toNat

section
variable {s : State} {o : Op} {k0 : Cluster} {f : IFields} {w : Word}

/-- The operations of a list of lanes, one after another. -/
def State.amoLanes (s : State) (o : Op) (k0 : Cluster) (f : IFields) (w : Word) (ls : List Nat) : State × Cluster :=
  ls.foldl (fun (y : State × Cluster) l => y.1.amoLane o k0 y.2 f w l) (s, k0)

theorem State.writesOnly_rowWrite {p : Nat → Prop} (s : State) (o : Op) (k : Cluster) {base : Nat} {b : List Byte}
    (h : ∀ a, base ≤ a → a < base + b.length → p a) : s.WritesOnly p (s.rowWrite o k base b).1 :=
  (s.writesOnly_write h).trans (State.WritesOnly.of_hbm_eq rfl)

theorem State.amoLane_keeps (s : State) (o : Op) (k0 k : Cluster) (f : IFields) (w : Word) (l : Nat) :
    s.WritesOnly (fun a => k0.target f l ≤ a ∧ a < k0.target f l + amoBytes (fld w 3 0)) (s.amoLane o k0 k f w l).1 ∧
      (s.amoLane o k0 k f w l).2.instrs = k.instrs := by
  unfold State.amoLane
  dsimp only
  split
  · next h1 =>
    obtain ⟨hits, hcluster⟩ := s.rowWrite_cluster o k (k0.base f + (k0.lane f.s2.toNat l).toNat)
      (natToLE 8 ((leToNat (s.read (k0.base f + (k0.lane f.s2.toNat l).toNat) 8) + ((k0.lane f.s3.toNat l).toNat +
        2 ^ 32 * (k0.lane ((f.s3.toNat + 1) % 32) l).toNat)) % 2 ^ 64))
    refine ⟨s.writesOnly_rowWrite o k fun a hlo hhi => ⟨hlo, ?_⟩, by rw [hcluster]⟩
    rw [length_natToLE] at hhi
    rwa [amoBytes, if_pos h1]
  · next h1 =>
    obtain ⟨hits, hcluster⟩ := s.rowWrite_cluster o k (k0.base f + (k0.lane f.s2.toNat l).toNat)
      (natToLE 4 (amoNew (fld w 3 0) (s.readWord (k0.base f + (k0.lane f.s2.toNat l).toNat)) (k0.lane f.s3.toNat l)
        (k0.lane (fld w 8 4) l)).1.toNat)
    refine ⟨s.writesOnly_rowWrite o k fun a hlo hhi => ⟨hlo, ?_⟩, by rw [hcluster]⟩
    rw [length_natToLE] at hhi
    rwa [amoBytes, if_neg h1]

/-- The operations write their targets, and no other byte. -/
theorem State.amoLanes_keeps (s : State) (o : Op) (k0 : Cluster) (f : IFields) (w : Word) (ls : List Nat) :
    s.WritesOnly (fun a => ∃ l ∈ ls, k0.target f l ≤ a ∧ a < k0.target f l + amoBytes (fld w 3 0)) (s.amoLanes o k0 f w ls).1 ∧
      (s.amoLanes o k0 f w ls).2.instrs = k0.instrs := by
  refine List.foldlRecOn (motive := fun (y : State × Cluster) => s.WritesOnly (fun a => ∃ l ∈ ls, k0.target f l ≤ a ∧
    a < k0.target f l + amoBytes (fld w 3 0)) y.1 ∧ y.2.instrs = k0.instrs) ls _ ⟨State.WritesOnly.of_hbm_eq rfl, rfl⟩ ?_
  rintro y ⟨hy, hinstrs⟩ l hl
  obtain ⟨honly, hkeep⟩ := y.1.amoLane_keeps o k0 y.2 f w l
  refine ⟨hy.trans fun hwf => ?_, hkeep.trans hinstrs⟩
  obtain ⟨hwf', hbytes⟩ := honly hwf
  exact ⟨hwf', fun a ha => hbytes a fun h => ha ⟨l, hl, h⟩⟩

/-- A 32-bit operation of one lane. -/
theorem State.amoLanes_word (hs : s.Sound) (hop : fld w 3 0 ≠ 1) (l : Nat) :
    (s.amoLanes o k0 f w [l]).1.readWord (k0.target f l) =
        (amoNew (fld w 3 0) (s.readWord (k0.target f l)) (k0.lane f.s3.toNat l) (k0.lane (fld w 8 4) l)).1 ∧
      (s.amoLanes o k0 f w [l]).2.lane f.dst.toNat l = s.readWord (k0.target f l) := by
  obtain ⟨v, hv⟩ : ∃ v, v = amoNew (fld w 3 0) (s.readWord (k0.target f l)) (k0.lane f.s3.toNat l) (k0.lane (fld w 8 4) l) :=
    ⟨_, rfl⟩
  have hlane : s.amoLanes o k0 f w [l] = ((s.rowWrite o k0 (k0.target f l) (natToLE 4 v.1.toNat)).1,
      { (s.rowWrite o k0 (k0.target f l) (natToLE 4 v.1.toNat)).2 with
        d := (s.rowWrite o k0 (k0.target f l) (natToLE 4 v.1.toNat)).2.d.insert (64 * f.dst.toNat + l) (s.readWord (k0.target f l))
        saturated := (s.rowWrite o k0 (k0.target f l) (natToLE 4 v.1.toNat)).2.saturated || v.2 }) := by
    rw [hv]
    exact if_neg hop
  have hread := State.Stored.read_last (l := []) (hs.rowWrite o k0 (k0.target f l) (natToLE 4 v.1.toNat))
  rw [length_natToLE] at hread
  rw [hlane, ← hv]
  refine ⟨?_, ?_⟩
  · rw [State.readWord, hread, leToNat_natToLE_mod, Nat.mod_eq_of_lt (a := v.1.toNat) (by have := v.1.isLt; omega), BitVec.ofNat_toNat, BitVec.setWidth_eq]
  · simp [Cluster.lane]

/-- A 64-bit addition of one lane. -/
theorem State.amoLanes_wide (hs : s.Sound) (hop : fld w 3 0 = 1) (l : Nat) :
    leToNat ((s.amoLanes o k0 f w [l]).1.read (k0.target f l) 8) = (leToNat (s.read (k0.target f l) 8) +
        (k0.lane f.s3.toNat l).toNat + 2 ^ 32 * (k0.lane ((f.s3.toNat + 1) % 32) l).toNat) % 2 ^ 64 ∧
      (s.amoLanes o k0 f w [l]).2.lane f.dst.toNat l = BitVec.ofNat 32 (leToNat (s.read (k0.target f l) 8)) := by
  obtain ⟨v, hv⟩ : ∃ v, v = (leToNat (s.read (k0.target f l) 8) + ((k0.lane f.s3.toNat l).toNat +
      2 ^ 32 * (k0.lane ((f.s3.toNat + 1) % 32) l).toNat)) % 2 ^ 64 := ⟨_, rfl⟩
  have hlane : s.amoLanes o k0 f w [l] = ((s.rowWrite o k0 (k0.target f l) (natToLE 8 v)).1,
      { (s.rowWrite o k0 (k0.target f l) (natToLE 8 v)).2 with
        d := ((s.rowWrite o k0 (k0.target f l) (natToLE 8 v)).2.d.insert (64 * f.dst.toNat + l)
          (BitVec.ofNat 32 (leToNat (s.read (k0.target f l) 8)))).insert (64 * ((f.dst.toNat + 1) % 32) + l)
          (BitVec.ofNat 32 (leToNat (s.read (k0.target f l) 8) / 2 ^ 32)) }) := by
    rw [hv]
    exact if_pos hop
  have hread := State.Stored.read_last (l := []) (hs.rowWrite o k0 (k0.target f l) (natToLE 8 v))
  rw [length_natToLE] at hread
  rw [hlane]
  refine ⟨?_, ?_⟩
  · rw [hread, leToNat_natToLE_mod, hv, show (256 : Nat) ^ 8 = 2 ^ 64 from rfl, Nat.mod_mod, Nat.add_assoc]
  · have hdst := f.dst.isLt
    have hne : 64 * f.dst.toNat + l ≠ 64 * ((f.dst.toNat + 1) % 32) + l := by omega
    simp [Cluster.lane, Map.find_insert_ne _ _ hne]

end

section
variable {s : State} {c n : Nat} {o : Op} {f : IFields} {k : Cluster} {w : Word} (h : s.RunsRow c n o) (hk : k = s.cluster c)
  (hw : f.imm = some w)
include h hk hw

theorem exec_amo (hamo : o.amo = true) (hop : fld w 3 0 < 0xE) (hlo : 16 ≤ f.s1.toNat) (hhi : f.s1.toNat ≤ 23)
    (halign : ∀ l ∈ k.lanes f, k.target f l % amoBytes (fld w 3 0) = 0)
    (hg : s.spansGranted o.lea ((k.lanes f).map fun l =>
      { base := k.target f l, len := amoBytes (fld w 3 0), write := true }) = true)
    (ha : s.spansAccess ((k.lanes f).map fun l => { base := k.target f l, len := amoBytes (fld w 3 0) }) = .good) :
    exec (.amo c f) s = .next ((s.amoLanes o (k.fetched f) f w (k.lanes f)).1.putCluster c
      ((s.amoLanes o (k.fetched f) f w (k.lanes f)).2.counted 1)).settle := by
  subst hk
  have hany : ((s.cluster c).lanes f).any (fun l => (s.cluster c).target f l % amoBytes (fld w 3 0) != 0) = false := by
    rw [List.any_eq_false]
    intro l hl
    simp [halign l hl]
  have hgo : (!o.amo || decide (0xE ≤ fld w 3 0) || decide (f.s1.toNat < 16) || decide (23 < f.s1.toNat) ||
      ((s.cluster c).lanes f).any (fun l => (s.cluster c).target f l % amoBytes (fld w 3 0) != 0)) = false := by
    rw [hany, hamo, decide_eq_false (by omega), decide_eq_false (by omega), decide_eq_false (by omega)]
    rfl
  show finish (s.instr c (iAmo f)) = _
  rw [iAmo, hw]
  refine finish_instr_go h 1 ?_ (s.amoLanes_keeps o ((s.cluster c).fetched f) f w _).2
  have hspans : (((s.cluster c).lanes f).map fun l => ({ base := (s.cluster c).target f l, len := amoBytes (fld w 3 0) } : Span)).map
      (fun x => { x with write := true }) = ((s.cluster c).lanes f).map fun l =>
        { base := (s.cluster c).target f l, len := amoBytes (fld w 3 0), write := true } := by
    rw [List.map_map]
    rfl
  rw [← hspans] at hg
  refine (if_neg (Bool.not_eq_true _ ▸ hgo)).trans ?_
  have hdeny : ¬(!s.spansGranted o.lea ((((s.cluster c).lanes f).map fun l =>
      ({ base := (s.cluster c).target f l, len := amoBytes (fld w 3 0) } : Span)).map
        fun x => { x with write := true })) = true := by
    rw [hg]
    simp
  refine (if_neg hdeny).trans ?_
  show (match s.spansAccess (((s.cluster c).lanes f).map fun l => { base := (s.cluster c).target f l, len := amoBytes (fld w 3 0) }) with
    | .stall => _ | .bad sec st => _ | .good => _) = _
  rw [ha]
  rfl

theorem exec_amo_refused (href : o.amo = false ∨ 0xE ≤ fld w 3 0) :
    ∃ t, exec (.amo c f) s = .next t ∧ (t.cluster c).st = .stopped 3 ∧ t.mem = s.mem := by
  subst hk
  show ∃ t, finish (s.instr c (iAmo f)) = .next t ∧ _
  rw [iAmo, hw]
  refine finish_instr_stop (x := (s.cluster c).fetched f) h 1 (st := .unitFault) (if_pos ?_) rfl
  obtain href | href := href <;> simp [href]

end

/-- Settles O30: loads by what their access finds, stores by the bytes of their writes, atomics by their targets. -/
theorem laneMemoryInstructions : Obligations.LaneMemoryInstructions := by
  refine ⟨fun s c n o f k h hk => ⟨fun x hx hg ha => exec_ldF h hk hx hg ha,
    fun i x hi hx hg ha => exec_ldmx h hk hi hx hg ha, fun m hm hpos hg ha => exec_ldm h hk hm hpos hg ha,
    fun x hx hg => exec_ldF_denied h hk hx hg, fun x m hx hwf hfound hm hacc => ?store,
    fun p hp i x hi hx hwf hfound hpos hlen blk hplanes hblk hacc => ?strip⟩, fun s c n o f k w h hk hw =>
    ⟨fun hamo hop hlo hhi hwf hfound halign hg ha => ?amo, fun href => exec_amo_refused h hk hw href⟩⟩
  case store =>
    subst hm
    obtain ⟨t, hexec, hstored, hd, hu, ha, hstore⟩ := exec_stF h hk ⟨hwf, hfound⟩ hx (hacc _ rfl)
    refine ⟨t, hexec, fun l hl htakes => ?_, fun a ha => hstored.readByte_clear fun y hy => ?_, by rw [hd, hk], by rw [hu, hk],
      by rw [ha, hk], by rw [hstore, hk]⟩
    · have hread := hstored.readCells_of_mem (k.pairwise_elemWrites f x)
        (List.mem_map.mpr ⟨l, Cluster.mem_lanes.mpr ⟨hl, htakes⟩, rfl⟩)
      rwa [length_natToLE] at hread
    · obtain ⟨l, hl, rfl⟩ := List.mem_map.mp hy
      obtain ⟨hl64, htakes⟩ := Cluster.mem_lanes.mp hl
      simpa only [Clear, length_natToLE] using ha l hl64 htakes
  case strip =>
    subst hblk
    have hblock := fmtBlock_of_iBlockFmt hx
    have hn := k.length_stripBlocks f x p.2 hlen
    obtain ⟨t, hexec, hstored, -, -, -, -⟩ := exec_stmx h hk ⟨hwf, hfound⟩ hi hx hp (hacc _ rfl)
    have hpair := Cluster.pairwise_stripWrites (k := k) (i := i) (blks := k.stripBlocks f x p.2) hblock
      (by rw [hn]; simp only [ceilDiv]; omega) hplanes
    refine ⟨t, hexec, fun b e hb => ⟨?_, ?_⟩, fun a hdata hscale =>
      hstored.readByte_clear (Cluster.clear_stripWrites hblock hn hdata hscale)⟩
    · have hread := hstored.readCells_of_mem hpair
        (List.mem_append_left _ (List.mem_map.mpr ⟨(e, b), mem_zipIdx_iff.mpr hb, rfl⟩))
      rwa [length_packBlock hblock] at hread
    · have hread := hstored.bytes ▸ overlay_of_pairwise hpair (y := (k.addrReg (i + 1) + b, [BitVec.ofNat 8 e.1]))
        (List.mem_append_right _ (List.mem_map.mpr ⟨(e, b), mem_zipIdx_iff.mpr hb, rfl⟩)) (readByte s.mem.hbm) (i := 0) (by simp)
      simpa using hread
  case amo =>
    obtain ⟨honly, -⟩ := s.amoLanes_keeps o (k.fetched f) f w (k.lanes f)
    have hmem : ((s.amoLanes o (k.fetched f) f w (k.lanes f)).1.putCluster c
        ((s.amoLanes o (k.fetched f) f w (k.lanes f)).2.counted 1)).settle.mem =
        (s.amoLanes o (k.fetched f) f w (k.lanes f)).1.mem := State.settle_mem _
    refine ⟨_, exec_amo h hk hw hamo hop hlo hhi halign hg ha, fun a hclear => ?_, fun l a hl hal hne => ?_,
      fun l a hl hal heq => ?_⟩
    · rw [hmem]
      refine (honly hwf).2 a fun hin => ?_
      obtain ⟨l, hl, hlo, hhi⟩ := hin
      exact (hclear l hl).elim (fun h => absurd hlo (Nat.not_le.mpr h)) fun h => absurd hhi (Nat.not_lt.mpr h)
    · subst hal
      obtain ⟨hword, hlane⟩ := State.amoLanes_word (o := o) (k0 := k.fetched f) (f := f) ⟨hwf, hfound⟩ hne l
      rw [State.readWord, State.read, hmem, State.cluster_settle, State.cluster_putCluster, hl]
      exact ⟨hword, hlane⟩
    · subst hal
      obtain ⟨hwide, hlane⟩ := State.amoLanes_wide (o := o) (k0 := k.fetched f) (f := f) ⟨hwf, hfound⟩ heq l
      rw [State.read, hmem, State.cluster_settle, State.cluster_putCluster, hl]
      exact ⟨hwide, hlane⟩

end Sys2Proof.Machine
end

section
/-!
PROOF. What a row of a library function writes and reports (05, R120, R131 to R138).
-/

namespace Sys2Proof.Machine

section
variable {s : State} {c n entry : Nat} {o : Op} {a : LibArgs}

theorem State.libWrite_good {k : Cluster} {v : RowVals} (h : s.spansAccess (writeSpans (a.writes k.row v).all) = .good) :
    ∃ x, s.libWrite o k a v = .go (s.rowWrites o k (a.writes k.row v).all).1 x ∧ x.st = .ended ∧ x.flags = v.flags := by
  unfold State.libWrite
  simp only [h]
  exact ⟨_, rfl, rfl, rfl⟩

/-- A row whose record, inputs and stash record are in order comes to its writes (R120, R136). -/
theorem State.LibReady.libRow (h : s.LibReady c n entry o a) :
    s.libRow o (s.cluster c) = s.libWrite o (s.cluster c) a (s.libValues a (s.cluster c).row) := by
  obtain ⟨-, -, hargs, hrecord, hok, hreads, hstash, -⟩ := h
  unfold State.libRow
  simp only [hrecord, ← hargs, hok, hreads, Bool.not_true, Bool.false_eq_true, if_false]
  split
  · next hst =>
    obtain ⟨haccess, hheader, hgranted, hplanes⟩ := hstash hst
    unfold State.libStash
    simp only [haccess, hheader, hgranted, hplanes, Bool.not_true, Bool.false_eq_true, if_false]
  · rfl

theorem State.LibReady.library (h : s.LibReady c n entry o a) :
    s.library c entry = State.rowOut c o (s.libRow o (s.cluster c)) := by
  unfold State.library
  simp only [h.row, h.entry, if_true]

/-- A row that is ready ends with its writes made. -/
theorem State.LibReady.finish_library (h : s.LibReady c n entry o a) (hs : s.Sound) {v : RowVals}
    (hv : v = s.libValues a (s.cluster c).row) : ∃ t, finish (s.library c entry) = .next t ∧ (t.cluster c).st = .ended ∧
      (t.cluster c).flags = v.flags ∧ s.Stored (a.writes (s.cluster c).row v).all t ∧ t.jobs = s.jobs := by
  subst hv
  obtain ⟨x, hgo, hst, hflags⟩ := State.libWrite_good (o := o) (k := s.cluster c) h.writes
  rw [h.library, h.libRow, hgo]
  refine ⟨_, rfl, ?_, ?_, ?_, ?_⟩
  · rw [State.cluster_settle]
    exact (congrArg Cluster.st (State.cluster_putCluster ..)).trans hst
  · rw [State.cluster_settle]
    exact (congrArg Cluster.flags (State.cluster_putCluster ..)).trans hflags
  · exact (hs.rowWrites o (s.cluster c) _).of_mem (by rw [State.settle_mem]; rfl)
  · rw [State.settle_jobs]
    exact State.rowWrites_jobs ..

end

/-! ## Softmax rows with no ordinary value (Table 5.8) -/

section
variable {a : LibArgs} {row : Nat} {mask : List Bool} {xs : List FV}

theorem length_smT : (smT a row mask xs).length = xs.length := by
  rw [smT, List.length_map, List.length_zipIdx]

theorem nan_fvc_f32Nan : (fvc f32Nan).nan = true := by decide

theorem softmaxRow_of_nan (h : xs.any FV.nan = true) :
    (softmaxRow a row mask none xs).out = xs.map (fun _ => Val.nan) ∧
    (softmaxRow a row mask none xs).lse = some f32Nan ∧ (softmaxRow a row mask none xs).flags = 1 := by
  have hown : smLocal xs (smT a row mask xs) = (fvc f32Nan, fvc f32Nan) := by rw [smLocal, if_pos h]
  simp only [softmaxRow, hown, nan_fvc_f32Nan, Bool.or_self, if_true, and_self]

/-- The record of a row of which no element takes part (R132). -/
theorem smLocal_of_masked {t : List (Option FV)} (h : xs.any FV.nan = false) (ht : ∀ e ∈ t, e = none) :
    smLocal xs t = (fvc f32NegInf, fvc 0) := by
  have hinf : t.filter isPosInf = [] := List.filter_eq_nil_iff.mpr fun e he => by rw [ht e he]; simp [isPosInf]
  have hlive : t.filterMap id = [] := List.filterMap_eq_nil_iff.mpr ht
  rw [smLocal, if_neg (by rw [h]; exact Bool.false_ne_true), hinf, hlive]
  rfl

theorem softmaxRow_of_masked (h : xs.any FV.nan = false) (ht : ∀ e ∈ smT a row mask xs, e = none) :
    (softmaxRow a row mask none xs).out = xs.map (fun _ => Val.zero false) ∧
    (softmaxRow a row mask none xs).lse = some f32NegInf ∧ (softmaxRow a row mask none xs).flags = 4 := by
  have hnan : (fvc f32NegInf).nan = false ∧ (fvc 0).nan = false := by decide
  have hneg : fp32 (fvc f32NegInf).1 = .inf true := by decide
  simp only [softmaxRow, smLocal_of_masked h ht, hnan, hneg, Bool.or_self, Bool.false_eq_true, Val.inf.injEq, Bool.true_eq_false, if_true, if_false,
    List.map_const', length_smT, and_self]

end

/-- Settles O31: a row that is ready comes to its writes, which are read back where they meet nowhere; a softmax row with
a NaN and one that is masked out have their records by the definition of the row's own record. -/
theorem libraryRowResults : Obligations.LibraryRowResults := by
  refine ⟨?_, fun a row mask xs => ⟨softmaxRow_of_nan, softmaxRow_of_masked⟩⟩
  intro s c n o a hwf hfound p hp hready v w hv hw
  have hexec : exec p.1 s = finish (s.library c p.2) := by
    simp only [List.mem_cons, List.not_mem_nil, or_false] at hp
    rcases hp with rfl | rfl | rfl | rfl | rfl | rfl <;> rfl
  obtain ⟨t, ht, hst, hflags, hstored, hjobs⟩ := hready.finish_library ⟨hwf, hfound⟩ hv
  subst hw
  exact ⟨t, hexec.trans ht, hst, hflags, fun x hx => hstored.readByte_clear hx,
    fun hapart y hy => hstored.readCells_of_mem hapart hy, hjobs⟩

end Sys2Proof.Machine
end

section
/-!
PROOF. How a detected error ends its op, fails its recompute or lets the op resume, and how a recompute is counted (07,
R182, R183, R186, R187).
-/

namespace Sys2Proof.Machine

section
variable {s v : State} {n sec : Nat} {o : Op} {j : Job} {target : Nat}

/-- The ops that neither the array nor the scalar cores run end at once. -/
theorem State.faultOp_of_class (h : s.op n = some o) (hcls : 3 ≤ o.cls) (stash : Bool) :
    s.faultOp n stash = s.endOp n .unitFault := by
  unfold State.faultOp
  simp only [h]
  split
  · next h1 => omega
  · next h2 => omega
  · rfl

/-- The recompute of op `n` and target, with the op to resume (R183). -/
def State.resuming (s : State) (n : Nat) (o : Op) (target : Nat) : State :=
  { s with train := { s.train with recomputes := (s.train.recomputes.filter fun r => r.op != n) ++
      [{ job := o.job, op := n, target := target, resumed := true }] } }

theorem State.runRecompute_of_broken (h : s.chainTo j (2 ^ j.log2Dir + 1) target [] = none) :
    s.runRecompute n o j target = s.failRecompute n := by
  unfold State.runRecompute
  simp only [h]

theorem State.runRecompute_of_replayed {l : List Nat} (h : s.chainTo j (2 ^ j.log2Dir + 1) target [] = some l)
    (hspans : s.spansAccess (State.chainSpans j l (l.map (s.dirEntry j))) = .good)
    (hreplay : s.replayChain j (l.zip (l.map (s.dirEntry j))) [] (l.length + 1) (l.length - 1) = .done v) :
    s.runRecompute n o j target = (v.stopRows n).resuming n o target := by
  unfold State.runRecompute
  simp only [h, hspans, hreplay]
  rfl

/-- What stopping an op's rows leaves: memory and the hub. -/
theorem State.stopRows_keeps (s : State) (n : Nat) : (s.stopRows n).mem = s.mem ∧ (s.stopRows n).hub = s.hub := by
  obtain ⟨u, hu⟩ : ∃ u, u = (s.rowsOf n).foldl
    (fun (s : State) (c : Nat) => s.putCluster c { priv := (s.cluster c).priv }) s := ⟨_, rfl⟩
  have hkeeps : (u.mem, u.hub) = (s.mem, s.hub) := by
    rw [hu]
    exact foldl_keeps (fun (s : State) => (s.mem, s.hub))
      (fun (s : State) (c : Nat) => s.putCluster c { priv := (s.cluster c).priv }) (fun _ _ => rfl) _ _
  obtain ⟨hmem, hhub⟩ := Prod.mk.inj hkeeps
  unfold State.stopRows
  simp only [← hu]
  split
  · exact ⟨hmem, hhub⟩
  · exact ⟨hmem, hhub⟩

section
variable (hop : s.op n = some o) (hrun : o.running = true) (hlea : (s.lea o.lea).st ≠ .resetting)
  (hsec : s.sectorAccess sec = .bad sec .unitFault)
include hop hrun hlea hsec

theorem State.detectedError_of_lost (h : s.recomputeTarget o sec = none) : s.detectedError n sec = s.faultOp n false := by
  unfold State.detectedError
  simp [hop, hrun, hlea, hsec, h]

theorem State.detectedError_of_target (h : s.recomputeTarget o sec = some (j, target)) (hidle : s.train.recomputes = []) :
    s.detectedError n sec = s.runRecompute n o j target := by
  unfold State.detectedError
  simp [hop, hrun, hlea, hsec, h, hidle]

end

end

/-- A recompute whose op still works is left. -/
theorem resumedDone_of_live {s : State} {n : Nat} {o : Op} (h : s.op n = some o) (hl : o.live = true) :
    s.resumedDone n = none := by
  cases hphase : o.phase <;> simp [State.resumedDone, h, hphase, Op.live] at hl ⊢

theorem State.modJob_jobs_of_eq {s u : State} (h : u.jobs = s.jobs) (jh : Nat) (f : Job → Job) :
    (u.modJob jh f).jobs = (s.modJob jh f).jobs := by
  unfold State.modJob
  rw [h]
  split
  · exact h
  · rfl

/-- What a recompute's report leaves and counts (R186). -/
theorem State.reportRecompute_keeps {s : State} {r : Recompute} {j : Job} (hj : s.jobs.find r.job = some j) :
    let t := s.reportRecompute r
    t.train.recomputes = s.train.recomputes ∧ t.train.recomputed = true ∧
    t.train.recomputeCount = s.train.recomputeCount + 1 ∧ t.hub = s.hub ∧
    t.jobs = (s.modJob r.job fun x => { x with recomputes := satNat 16 (j.recomputes + 1) }).jobs ∧
    t.mem = (s.writeWords (j.stepRegion + 12) [packFields [(satNat 16 (j.recomputes + 1), 16), (r.target, 0)]]).mem := by
  obtain ⟨u, hu⟩ : ∃ u, u = s.writeWords (j.stepRegion + 12)
    [packFields [(satNat 16 (j.recomputes + 1), 16), (r.target, 0)]] := ⟨_, rfl⟩
  have hjobs : u.jobs = s.jobs := by rw [hu]; exact s.writeWords_jobs ..
  have hhub : u.hub = s.hub := by rw [hu]; exact s.writeWords_hub ..
  have htrain : u.train = s.train := by rw [hu]; exact State.write_train ..
  unfold State.reportRecompute
  simp only [hj, ← hu]
  refine ⟨?_, ?_, ?_, ?_, ?_, ?_⟩
  · rw [State.queueEvent_train]
    show (u.modJob _ _).train.recomputes = _
    rw [State.modJob_train, htrain]
  · rw [State.queueEvent_train]
  · rw [State.queueEvent_train]
    show (u.modJob _ _).train.recomputeCount + 1 = _
    rw [State.modJob_train, htrain]
  · rw [State.queueEvent_hub]
    show (u.modJob _ _).hub = _
    rw [State.modJob_hub, hhub]
  · rw [State.queueEvent_jobs]
    exact State.modJob_jobs_of_eq hjobs ..
  · rw [State.queueEvent_mem]
    show (u.modJob _ _).mem = _
    rw [State.modJob_mem]

/-- Settles O52: each outcome is one branch of the error's handling; the replay of the chain is taken as its result. -/
theorem recomputeEvents : Obligations.RecomputeEvents := by
  refine ⟨?_, ?_, ?_⟩
  · intro s n sec hidle
    have hkeep : s.detectedError n sec = s := by
      unfold State.detectedError
      split
      · rfl
      · next o ho => simp [hidle o ho]
    show finish (s.detectedError n sec) = _
    rw [hkeep]
    rfl
  · intro s n sec o hop hrun hlea hsec
    have hphase : o.live = true := Op.live_of_running (by simpa [Op.running] using hrun)
    refine ⟨fun hlost => ?_, fun j target htarget hidle => ⟨fun hbroken => ?_, ?_⟩⟩
    · have hexec : exec (.detectedReadError n sec) s = .next (s.faultOp n false).settle := by
        show finish (s.detectedError n sec) = _
        rw [State.detectedError_of_lost hop hrun hlea hsec hlost]
        rfl
      exact ⟨hexec, fun hcls => by rw [hexec, State.faultOp_of_class hop hcls]⟩
    · refine ⟨(s.failRecompute n).settle, ?_, fun hcls => ?_⟩
      · show finish (s.detectedError n sec) = _
        rw [State.detectedError_of_target hop hrun hlea hsec htarget hidle, State.runRecompute_of_broken hbroken]
        rfl
      · obtain ⟨u, hu⟩ : ∃ u : State, u = { s with
          train := { s.train with
            recomputeFailed := true, failCount := s.train.failCount + 1
            recomputes := s.train.recomputes.filter fun r => r.op != n } } := ⟨_, rfl⟩
        have huop : u.op n = some o := by rw [hu]; exact hop
        have hfail : s.failRecompute n = u.endOp n .unitFault := by
          rw [← State.faultOp_of_class huop hcls true, hu]
          rfl
        rw [hfail, State.settle_train, State.settle_mem, State.endOp_train, State.endOp_mem, State.op, State.settle_hub_ops]
        exact ⟨by rw [hu], by rw [hu], by rw [hu], State.op_endOp huop hphase _ _⟩
    · intro l es v hchain hes hspans hreplay
      subst hes
      obtain ⟨hmem, hhub⟩ := v.stopRows_keeps n
      refine ⟨((v.stopRows n).resuming n o target).settle, ?_, ?_, ?_, ?_⟩
      · show finish (s.detectedError n sec) = _
        rw [State.detectedError_of_target hop hrun hlea hsec htarget hidle,
          State.runRecompute_of_replayed hchain hspans hreplay]
        rfl
      · rw [State.settle_mem]
        exact hmem
      · rw [State.op, State.settle_hub_ops]
        exact congrArg (·.ops.find n) hhub
      · rw [State.settle_train]
        exact ⟨{ job := o.job, op := n, target := target, resumed := true }, List.mem_append_right _ List.mem_cons_self,
          rfl, rfl, rfl, rfl⟩
  · intro s jh j r a hj hone hjob hres ha
    subst ha hjob
    refine ⟨fun hgone => ?_, fun o hop hlive => ?_⟩
    · have hdone : s.resumedDone r.op = some true := by rw [State.resumedDone, hgone]
      obtain ⟨u, hu⟩ : ∃ u : State, u = { s with train := { s.train with recomputes := [] } } := ⟨_, rfl⟩
      have hexec : exec (.recomputeFinish r.job) s = .next (u.reportRecompute r).settle := by
        show execRecomputeFinish r.job s = _
        simp [execRecomputeFinish, hone, hres, hdone, hu, finish]
      obtain ⟨hlist, hset, hcount, hhub, hjobs, hmem⟩ := State.reportRecompute_keeps (s := u) (r := r) (by rw [hu]; exact hj)
      refine ⟨_, hexec, ?_, ?_, ?_, ?_, ?_, ?_⟩
      · rw [State.settle_train, hlist, hu]
      · rw [State.settle_train, hset]
      · rw [State.settle_train, hcount, hu]
      · rw [State.settle_hub_ops, hhub, hu]
      · rw [State.settle_jobs, hjobs]
        exact State.modJob_jobs_of_eq (by rw [hu]) ..
      · rw [State.settle_mem, hmem]
        exact State.write_mem_congr (by rw [hu]) ..
    · show execRecomputeFinish r.job s = _
      simp [execRecomputeFinish, hone, hres, resumedDone_of_live hop hlive, finish]

end Sys2Proof.Machine
end

section
/-!
PROOF. How an image is completed, sealed or abandoned (13, R360, R363, R371, R372), with what the end of a Baler op
leaves.
-/

namespace Sys2Proof.Machine

/-! ## The end of a Baler op -/

section
variable {s : State} {n jh : Nat} {o : Op} {j : Job}

theorem State.dropHold_hub (s : State) (jh n : Nat) : (s.dropHold jh n).hub = s.hub := State.modJob_hub ..
theorem State.dropHold_mem (s : State) (jh n : Nat) : (s.dropHold jh n).mem = s.mem := State.modJob_mem ..
theorem State.dropHold_units (s : State) (jh n : Nat) : (s.dropHold jh n).units = s.units := State.modJob_units ..

/-- The end of a hold leaves Baler's state of every job. -/
theorem State.find_dropHold (h : s.jobs.find jh = some j) (k n : Nat) :
    ∃ j', (s.dropHold k n).jobs.find jh = some j' ∧ j'.baler = j.baler := by
  by_cases hk : jh = k
  · subst hk
    refine ⟨_, State.find_modJob h _, ?_⟩
    split
    · rfl
    · split <;> rfl
  · exact ⟨j, (State.find_modJob_ne s hk _).trans h, rfl⟩

theorem State.balEnd_of_op (h : s.op n = some o) (st : Status) (cause : Nat) :
    s.balEnd n st cause = (s.dropHold o.job n).endOp n st (balCause st cause) := by
  unfold State.balEnd
  simp only [h]

theorem State.op_balEnd (h : s.op n = some o) (hl : o.live = true) (st : Status) (cause : Nat) :
    (s.balEnd n st cause).op n = some { o with phase := .done st (balCause st cause) } := by
  rw [State.balEnd_of_op h]
  exact State.op_endOp ((State.op_congr (s.dropHold_hub ..) n).trans h) hl _ _

theorem State.balEnd_mem (s : State) (n : Nat) (st : Status) (cause : Nat) : (s.balEnd n st cause).mem = s.mem := by
  unfold State.balEnd
  split
  · rfl
  · rw [State.endOp_mem, State.dropHold_mem]

theorem State.balEnd_units (s : State) (n : Nat) (st : Status) (cause : Nat) : (s.balEnd n st cause).units = s.units := by
  unfold State.balEnd
  split
  · rfl
  · rw [State.endOp_units, State.dropHold_units]

theorem State.find_balEnd (h : s.jobs.find jh = some j) (n : Nat) (st : Status) (cause : Nat) :
    ∃ j', (s.balEnd n st cause).jobs.find jh = some j' ∧ j'.baler = j.baler := by
  unfold State.balEnd
  split
  · exact ⟨j, h, rfl⟩
  · rw [State.endOp_jobs]
    exact State.find_dropHold h _ _

end

/-! ## Store messages -/

theorem State.modImage_congr {s : State} {jh : Nat} {j : Job} {b : Baler} {m : Image} {f g : Image → Image}
    (h : s.openImage jh = some (j, b, m)) (hfg : f m = g m) : s.modImage jh f = s.modImage jh g := by
  obtain ⟨hj, hb, hm⟩ := openImage_iff.mp h
  exact State.modBaler_congr hj hb (by rw [hm, Option.map_some, Option.map_some, hfg])

/-- The front message taken leaves everything else. -/
theorem State.front_eq {s t : State} {k : MsgKind} {d : Delivery} (h : s.front k = some (d, t)) :
    ∃ l, t = { s with delivered := l } := by
  unfold State.front at h
  split at h
  · cases h
  · split at h
    · cases h
      exact ⟨_, rfl⟩
    · cases h

theorem State.deliveryBaler_iff {s : State} {d : Delivery} {j : Job} {b : Baler} :
    s.deliveryBaler d = some (j, b) ↔ s.jobs.find d.job = some j ∧ j.baler = some b := by
  unfold State.deliveryBaler
  split
  · next h => simp [h]
  · next x h =>
    simp only [h, Option.map_eq_some_iff, Prod.mk.injEq, Option.some.injEq]
    constructor
    · rintro ⟨c, hc, rfl, rfl⟩
      exact ⟨rfl, hc⟩
    · rintro ⟨rfl, hb⟩
      exact ⟨b, hb, rfl, rfl⟩

/-- An image that no FAR copy is due of is sealed with the end of its LOSS_RECORD (R371). -/
theorem State.imageSealed_facts {t : State} {jh n : Nat} {j : Job} {b : Baler} {m : Image} {o : Op}
    (hj : t.jobs.find jh = some j) (hb : j.baler = some b) (hfar : b.farEvery = 0) (hm : m.op = some n) (hop : t.op n = some o)
    (hl : o.live = true) : ∃ j' b', (t.imageSealed jh m).op n = some { o with phase := .done .ok 0 } ∧
      (t.imageSealed jh m).jobs.find jh = some j' ∧ j'.baler = some b' ∧ b'.st = .idle ∧ b'.image = none ∧
      b'.ckptSeq = b.ckptSeq ∧ (t.imageSealed jh m).units.sealedCount = t.units.sealedCount + 1 ∧
      (t.imageSealed jh m).mem = t.mem := by
  obtain ⟨j₁, hj₁, hbal₁⟩ := State.find_balEnd hj n .ok 0
  obtain ⟨u, hu⟩ : ∃ u, u = (t.balEnd n .ok).modBaler jh fun b => { b with st := .idle, image := none } := ⟨_, rfl⟩
  have hfind : u.jobs.find jh = some { j₁ with baler := some { b with st := .idle, image := none } } := by
    rw [hu]
    exact State.find_modBaler hj₁ (hbal₁.trans hb) _
  have huop : u.op n = some { o with phase := .done .ok 0 } := by
    rw [hu, State.modBaler, State.op_congr (State.modJob_hub ..)]
    exact State.op_balEnd hop hl .ok 0
  have hunits : u.units = t.units := by rw [hu, State.modBaler, State.modJob_units, State.balEnd_units]
  have hmem : u.mem = t.mem := by rw [hu, State.modBaler, State.modJob_mem, State.balEnd_mem]
  have hsealed : t.imageSealed jh m =
      { u with units := { u.units with sealed := true, sealedCount := u.units.sealedCount + 1 } } := by
    unfold State.imageSealed State.startRelay
    simp only [hm, Option.toList_some, List.foldl_cons, List.foldl_nil, ← hu, hfind, hfar, true_or, if_true]
  rw [hsealed]
  exact ⟨_, _, huop, hfind, rfl, rfl, rfl, rfl, by rw [hunits], hmem⟩

/-- Settles O48: each message and step is one branch of its event; the sealed image's op ends with the job's hold alone. -/
theorem balerImages : Obligations.BalerImages := by
  refine ⟨?_, ?_, ?_, ?_, ?_, ?_⟩
  · intro s n o j b m hrun himage hop hloss hread
    show execLossRecord n s = _
    simp [execLossRecord, hrun, himage, hop, hloss, hread, finish]
  · intro s jh i j b m k hopen hkey
    refine ⟨fun hloss hman hwhole hputs => ?_, fun hwait => ?_⟩
    · show execSealImage jh s = _
      have hall : m.sections.all Section.whole = true := List.all_eq_true.mpr hwhole
      have hnone : m.loss.isNone = false := by rw [← Option.not_isSome, hloss]; rfl
      simp only [execSealImage, hopen, hkey, hnone, hman, hall, hputs, List.isEmpty_nil, Bool.not_true, Bool.or_self,
        Bool.false_eq_true, if_false, finish]
      rw [State.modImage_congr hopen (g := fun m => { m with manifest := m.manifestBytes j k }) rfl]
    · show execSealImage jh s = _
      rcases hwait with hloss | hputs
      · simp [execSealImage, hopen, hkey, hloss, finish]
      · simp [execSealImage, hopen, hkey, hputs, finish]
  · intro s t d j b m hfront hbaler hnear himage hman hnames
    have hexec : exec .sealed s = .next (t.imageSealed d.job m).settle := by
      show execSealed s = _
      simp [execSealed, hfront, hbaler, hnear, himage, hman, hnames, finish]
    refine ⟨hexec, fun hfar n o hm hop hlive => ?_⟩
    obtain ⟨hj, hb⟩ := State.deliveryBaler_iff.mp hbaler
    obtain ⟨l, rfl⟩ := State.front_eq hfront
    obtain ⟨j', b', hop', hj', hb', hst, himg, hseq, hcount, hmem⟩ := State.imageSealed_facts hj hb hfar hm hop hlive
    refine ⟨_, j', b', hexec, ?_, ?_, hb', hst, himg, hseq, ?_, ?_⟩
    · rw [State.op, State.settle_hub_ops]
      exact hop'
    · rw [State.settle_jobs]
      exact hj'
    · rw [State.settle_units]
      exact hcount
    · rw [State.settle_mem]
      exact hmem
  · intro s t d j b m hfront hbaler hgets hnear himage hnames
    show execRefused s = _
    simp [execRefused, hfront, hbaler, hgets, hnear, himage, hnames, finish]
  · intro s t d j b g hfront hbaler hgets hanswers hunits hlen u hu
    obtain ⟨hj, hb⟩ := State.deliveryBaler_iff.mp hbaler
    have herase : (t.modBaler d.job fun b => { b with gets := b.gets.erase g }) = u := by
      rw [hu]
      exact State.modBaler_congr hj hb (by simp [hgets])
    show execGetData s = _
    cases huse : g.use <;>
      simp [execGetData, hfront, hbaler, hgets, hanswers, ← hunits, hlen, herase, huse, finish]
  · intro s t d p hp hfront hopen
    simp only [List.mem_cons, List.not_mem_nil, or_false] at hp
    rcases hp with rfl | rfl | rfl
    case inl =>
      show execGetData s = _
      rcases hopen with hnone | ⟨j, b, hbaler, hgets, himage, hrelay⟩
      · simp only [execGetData, hfront, hnone, finish, State.dropStore]
      · simp only [execGetData, hfront, hbaler, hgets, List.find?_nil, finish, State.dropStore]
    case inr.inl =>
      show execSealed s = _
      rcases hopen with hnone | ⟨j, b, hbaler, hgets, himage, hrelay⟩
      · simp only [execSealed, hfront, hnone, finish, State.dropStore]
      · simp only [execSealed, hfront, hbaler, himage, hrelay, ite_self, finish, State.dropStore]
    case inr.inr =>
      show execRefused s = _
      rcases hopen with hnone | ⟨j, b, hbaler, hgets, himage, hrelay⟩
      · simp only [execRefused, hfront, hnone, finish, State.dropStore]
      · simp only [execRefused, hfront, hbaler, hgets, himage, hrelay, List.find?_nil, Option.any_none, Bool.false_eq_true,
          if_false, ite_self, finish, State.dropStore]

end Sys2Proof.Machine
end

section
/-!
PROOF. What the Baler ops ask, check and send (13, R372, R374, R375, R378, R380, R382).
-/

namespace Sys2Proof.Machine

theorem execRestore_eq {s : State} {n : Nat} {o : Op} {j : Job} {b : Baler} (h : s.balRun n 3 = some (o, j, b))
    (hidle : b.restore = none) {far : Bool} (hfar : far = (o.bTarget == 2)) :
    (j.peerActive (storeRank far) = true → exec (.restore n) s = .next ((s.modBaler o.job fun b => { b with
      restore := some { op := n, set := o.bSet, far := far, rank := o.f 2 15 0, ckptSeq := o.w 1 } }).pumpRestore
        o.job).settle) ∧
    (j.peerActive (storeRank far) = false → exec (.restore n) s = .next (s.balEnd n .peerLost).settle) := by
  subst hfar
  constructor <;> intro hpeer <;> show execRestore n s = _ <;>
    simp [execRestore, h, hidle, hpeer, finish]

section
variable {s : State} {n : Nat} {o : Op} {j : Job} {b : Baler}

/-- The loss record is the image's: the job leaves VERIFYING (R375). -/
theorem exec_lossCheck_verified (h : s.balRun n 4 = some (o, j, b)) (hread : s.access (o.addr 1) 32 = .good)
    (hloss : s.read (o.addr 1) 32 = b.loss) : ∃ t j' b', exec (.lossCheck n) s = .next t ∧
      t.op n = some { o with phase := .done .ok 0 } ∧ t.jobs.find o.job = some j' ∧ j'.baler = some b' ∧
      b' = { b with st := .idle } ∧ t.units.verified = true ∧ t.mem = s.mem := by
  obtain ⟨hop, hrun, hj, hb⟩ := State.balRun_iff h
  obtain ⟨v, hv⟩ : ∃ v, v = s.modBaler o.job fun b => { b with st := .idle } := ⟨_, rfl⟩
  obtain ⟨u, hu⟩ : ∃ u : State, u = { v with
    units := { v.units with verified := true, sealedCount := v.units.sealedCount + 1 } } := ⟨_, rfl⟩
  have hujobs : u.jobs.find o.job = some { j with baler := some { b with st := .idle } } := by
    rw [hu, hv]
    exact State.find_modBaler hj hb _
  have huop : u.op n = some o := by
    rw [← hop, hu, hv]
    exact State.op_congr (State.modJob_hub ..) n
  have humem : u.mem = s.mem := by
    rw [hu, hv]
    exact State.modJob_mem ..
  obtain ⟨j', hj', hbal⟩ := State.find_balEnd hujobs n .ok 0
  refine ⟨(u.balEnd n .ok).settle, j', { b with st := .idle }, ?_, ?_, ?_, hbal, rfl, ?_, ?_⟩
  · show execLossCheck n s = _
    simp only [execLossCheck, h, hread, hloss, if_true, ← hv, ← hu]
    rfl
  · rw [State.op, State.settle_hub_ops]
    exact State.op_balEnd huop (Op.live_of_running (by simpa [Op.running] using hrun)) .ok 0
  · rw [State.settle_jobs]
    exact hj'
  · rw [State.settle_units, State.balEnd_units, hu]
  · rw [State.settle_mem, State.balEnd_mem, humem]

/-- The loss record is another: a replay mismatch (R375). -/
theorem exec_lossCheck_mismatch (h : s.balRun n 4 = some (o, j, b)) (hread : s.access (o.addr 1) 32 = .good)
    (hloss : s.read (o.addr 1) 32 ≠ b.loss) : ∃ t j', exec (.lossCheck n) s = .next t ∧
      t.op n = some { o with phase := .done .replayMismatch 0 } ∧ t.jobs.find o.job = some j' ∧ j'.baler = some b ∧
      t.units.replayMismatch = true ∧ t.units.mismatchCount = s.units.mismatchCount + 1 ∧ t.mem = s.mem := by
  obtain ⟨hop, hrun, hj, hb⟩ := State.balRun_iff h
  obtain ⟨v, hv⟩ : ∃ v, v = s.queueEvent j.lea (faultEvent .replayMismatch 0x08 0 (job := o.job) (step := o.step)) :=
    ⟨_, rfl⟩
  obtain ⟨u, hu⟩ : ∃ u : State, u = { v with
    units := { v.units with replayMismatch := true, mismatchCount := v.units.mismatchCount + 1 } } := ⟨_, rfl⟩
  have hujobs : u.jobs.find o.job = some j := by
    rw [← hj, hu, hv]
    exact congrArg (·.find o.job) (State.queueEvent_jobs ..)
  have huop : u.op n = some o := by
    rw [← hop, hu, hv]
    exact State.op_congr (State.queueEvent_hub ..) n
  have humem : u.mem = s.mem := by
    rw [hu, hv]
    exact State.queueEvent_mem ..
  obtain ⟨j', hj', hbal⟩ := State.find_balEnd hujobs n .replayMismatch 0
  refine ⟨(u.balEnd n .replayMismatch).settle, j', ?_, ?_, ?_, hbal.trans hb, ?_, ?_, ?_⟩
  · show execLossCheck n s = _
    simp only [execLossCheck, h, hread, if_neg hloss, ← hv, ← hu]
    rfl
  · rw [State.op, State.settle_hub_ops]
    exact State.op_balEnd huop (Op.live_of_running (by simpa [Op.running] using hrun)) .replayMismatch 0
  · rw [State.settle_jobs]
    exact hj'
  · rw [State.settle_units, State.balEnd_units, hu]
  · rw [State.settle_units, State.balEnd_units, hu, hv, State.queueEvent_units]
  · rw [State.settle_mem, State.balEnd_mem, humem]

end

theorem State.role_of_mem {s u : State} (h : u.mem = s.mem) (j : Job) (kind index : Nat) :
    u.role j kind index = s.role j kind index := by
  unfold State.role State.readWord State.read
  rw [h]

/-- A digest's message says the same before and after the job's own state changes. -/
theorem State.digestMsg_of_mem {s u : State} (h : u.mem = s.mem) (o : Op) (j : Job) (b : Baler) (d : List Byte) :
    u.digestMsg o j b d = s.digestMsg o j b d := by
  unfold State.digestMsg State.setWorker State.pairRole
  simp only [State.role_of_mem h]

/-- An op of Baler that gives up ends with its status (R380). -/
theorem State.balGiveUp_facts {s : State} {n : Nat} {o : Op} (h : s.op n = some o) (hl : o.live = true) (st : Status) :
    (s.balGiveUp n st).op n = some { o with phase := .done st (balCause st 0) } ∧ (s.balGiveUp n st).mem = s.mem := by
  unfold State.balGiveUp
  simp only [h]
  exact ⟨State.op_balEnd ((State.op_congr (State.modJob_hub ..) n).trans h) hl st 0,
    (State.balEnd_mem ..).trans (State.modJob_mem ..)⟩

/-- Settles O49: each op's answer is one branch of its event, once its run is taken apart. -/
theorem balerOps : Obligations.BalerOps := by
  intro s n o j b
  refine ⟨fun far h hidle hfar => execRestore_eq h hidle hfar,
    fun h hread => ⟨exec_lossCheck_verified h hread, exec_lossCheck_mismatch h hread⟩, ?_, ?_, ?_, ?_⟩
  · intro h data hrun hhold hop hready hread hdata
    subst hdata
    constructor
    · intro hpeer
      have hnone : (s.peerOfRole j o.bRole).isNone = false := by rw [← Option.not_isSome, hpeer]; rfl
      show execHistorySync n s = _
      simp [execHistorySync, hrun, hhold, hop, hready, hread, hnone, finish]
    · intro hpeer
      show execHistorySync n s = _
      simp [execHistorySync, hrun, hhold, hop, hready, hread, hpeer, finish]
  · intro rank x d hrun hidle hx hread hd
    subst hx hd
    constructor
    · intro hpeer
      show execDigest n s = _
      simp [execDigest, hrun, hidle, hread, hpeer, finish]
    · intro hpeer hearly
      obtain ⟨d, hd⟩ : ∃ d, d = digestUnits (s.read (o.digestSpan j b).base (o.digestSpan j b).len) := ⟨_, rfl⟩
      obtain ⟨u, hu⟩ : ∃ u, u = s.modBaler o.job fun b => { b with
        digestRuns := [{ op := n, digest := d, since := s.edge.count }] } := ⟨_, rfl⟩
      obtain ⟨-, -, hj, hb⟩ := State.balRun_iff hrun
      have hmod : (s.modBaler o.job fun x => { x with
          digestRuns := x.digestRuns ++ [{ op := n, digest := d, since := s.now }] }) = u := by
        rw [hu]
        exact State.modBaler_congr hj hb (by rw [hidle]; rfl)
      have hmem : u.mem = s.mem := by
        rw [hu]
        exact State.modJob_mem ..
      rw [← hd, ← hu, ← State.digestMsg_of_mem hmem]
      show execDigest n s = _
      simp only [execDigest, hrun, hidle, List.any_nil, Bool.false_eq_true, if_false, hread, hpeer, ← hd,
        hearly, List.find?_nil]
      rw [hmod]
      rfl
  · intro r hrun hone hop
    constructor
    · intro hlate
      obtain ⟨hn, hphase, -, -⟩ := State.balRun_iff hrun
      obtain ⟨hend, hmem⟩ := State.balGiveUp_facts hn (Op.live_of_running (by simpa [Op.running] using hphase)) .peerLost
      refine ⟨(s.balGiveUp n .peerLost).settle, ?_, ?_, ?_⟩
      · show execDigestLimitExpiry n s = _
        simp [execDigestLimitExpiry, hrun, hone, hop, hlate, Nat.not_lt.mpr hlate, finish]
      · rw [State.op, State.settle_hub_ops]
        exact hend
      · rw [State.settle_mem]
        exact hmem
    · intro hearly
      show execDigestLimitExpiry n s = _
      simp [execDigestLimitExpiry, hrun, hone, hop, hearly, finish]
  · intro hrun hnew
    constructor
    · intro hpeer
      have hnone : (s.peerOfRole j o.bRole).isNone = false := by rw [← Option.not_isSome, hpeer]; rfl
      show execFill n s = _
      simp [execFill, hrun, hnew, hnone, finish]
    · intro hpeer
      show execFill n s = _
      simp [execFill, hrun, hnew, hpeer, finish]

end Sys2Proof.Machine
end

section
/-!
PROOF. What the Baler messages between devices do (13, R378, R380, R382 to R384, Table 13.9).
-/

namespace Sys2Proof.Machine

/-! ## DIGEST (R380) -/

/-- The value of an op's digest has come: the op ends, well or with DIGEST_MISMATCH. -/
theorem State.endDigest_facts {s : State} {n : Nat} {o : Op} (hop : s.op n = some o) (hl : o.live = true)
    (mine theirs : List Byte) :
    (s.endDigest n o mine theirs).op n =
      some { o with phase := .done (if mine = theirs then .ok else .digestMismatch) 0 } ∧
    (s.endDigest n o mine theirs).units.mismatchCount = s.units.mismatchCount + (if mine = theirs then 0 else 1) ∧
    (s.endDigest n o mine theirs).mem = s.mem := by
  obtain ⟨u, hu⟩ : ∃ u, u = s.modBaler o.job fun b => { b with digestRuns := b.digestRuns.filter fun r => r.op != n } :=
    ⟨_, rfl⟩
  have huop : u.op n = some o := by
    rw [← hop, hu]
    exact State.op_congr (State.modJob_hub ..) n
  have hunits : u.units = s.units := by rw [hu]; exact State.modJob_units ..
  have hmem : u.mem = s.mem := by rw [hu]; exact State.modJob_mem ..
  unfold State.endDigest
  simp only [← hu]
  by_cases hsame : mine = theirs
  · simp only [if_pos hsame]
    exact ⟨State.op_balEnd huop hl .ok 0, by rw [State.balEnd_units, hunits]; simp,
      (State.balEnd_mem ..).trans hmem⟩
  · simp only [if_neg hsame]
    refine ⟨State.op_balEnd ?_ hl .digestMismatch 0, ?_, ?_⟩
    · exact (State.op_congr (State.queueEvent_hub ..) n).trans huop
    · rw [State.balEnd_units, State.queueEvent_units, hunits]
    · rw [State.balEnd_mem]
      exact (State.queueEvent_mem ..).trans hmem

section
variable {s t : State} {d : Delivery} {j : Job} {b : Baler} {m : BalMsg} {e : EarlyDigest}
  (hbaler : t.deliveryBaler d = some (j, b)) (hm : m = BalMsg.parse d.body) (hfront : s.front .digest = some (d, t))
  (he : e = ⟨d.rank, m.step, m.rangeId, m.kind, m.ordinal, m.offset, m.units, m.digest⟩)
include hbaler hm hfront he

theorem exec_digestMsg_of_run {r : DigestRun} {o : Op} (hone : b.digestRuns = [r]) (hop : t.op r.op = some o)
    (hmatch : o.digestMatches e = true) (hrole : (t.role j o.bRole.1 o.bRole.2).any (fun h => h.rank == d.rank) = true) :
    exec .digestMsg s = .next (t.endDigest r.op o r.digest m.digest).settle := by
  subst hm he
  show execDigestMsg s = _
  simp only [execDigestMsg, hfront, hbaler, hone, List.find?_cons, hop, hmatch, hrole, Bool.and_self]
  rfl

theorem exec_digestMsg_of_early (hnone : b.digestRuns = []) (hroom : b.digests.length < 16) :
    exec .digestMsg s = .next (t.modBaler d.job fun b => { b with digests := b.digests ++ [e] }).settle := by
  subst hm he
  show execDigestMsg s = _
  simp only [execDigestMsg, hfront, hbaler, hnone, List.find?_nil, if_pos hroom]
  rfl

theorem exec_digestMsg_of_full (hnone : b.digestRuns = []) (hfull : 16 ≤ b.digests.length) :
    exec .digestMsg s = .next t.dropStore.settle := by
  subst hm he
  show execDigestMsg s = _
  simp only [execDigestMsg, hfront, hbaler, hnone, List.find?_nil, if_neg (Nat.not_lt.mpr hfull)]
  rfl

end

/-! ## FILL (R382 to R384) -/

/-- The WINDROW_STATE records that FILL_DONE carries applied to the groups without an op in flight (R384). -/
def State.applyRecords (s : State) (jh : Nat) (step : Word) (l : List (Nat × Word)) : State :=
  l.foldl (fun (s : State) e =>
    if (s.jobGroups jh).has e.1 && !s.groupBusy e.1 then s.modGroup e.1 fun g => g.restored e.2 step else s) s

theorem State.applyRecords_keeps (s : State) (jh : Nat) (step : Word) (l : List (Nat × Word)) :
    (s.applyRecords jh step l).hub = s.hub ∧ (s.applyRecords jh step l).jobs = s.jobs ∧
    (s.applyRecords jh step l).mem = s.mem := by
  refine List.foldlRecOn (motive := fun (u : State) => u.hub = s.hub ∧ u.jobs = s.jobs ∧ u.mem = s.mem) l _
    ⟨rfl, rfl, rfl⟩ ?_
  rintro u ⟨hhub, hjobs, hmem⟩ e -
  split
  · exact ⟨(State.modGroup_hub ..).trans hhub, (State.modGroup_jobs ..).trans hjobs, (State.modGroup_mem ..).trans hmem⟩
  · exact ⟨hhub, hjobs, hmem⟩

section
variable {s t : State} {d : Delivery} {j : Job} {b : Baler} {m : BalMsg}
  (hbaler : t.deliveryBaler d = some (j, b)) (hm : m = BalMsg.parse d.body)
include hbaler hm

/-- A fill of a set that exists is served where no other is (R382, R383). -/
theorem exec_fillReq_served (hfront : s.front .fillReq = some (d, t)) {v : Serve}
    {layout : List (Nat × Nat × Nat × Nat)} {u : State} (hv : v = { set := d.balSet, rank := d.rank, destSet := m.ordinal })
    (hlayout : layout = j.fillLayout b d.balSet) (hset : b.hasSet d.balSet = true)
    (hsame : sameLayout (layoutBytes layout) ((d.body.drop 64).take (16 * m.units)) = true)
    (hidle : ∀ e ∈ t.jobs, ∀ x, e.2.baler = some x → x.serves = [])
    (hread : t.spansAccess (layout.map fun e => { base := e.2.2.1, len := e.2.2.2 }) = .good)
    (hu : u = (t.modBaler d.job fun b => { b with serves := b.serves ++ [v] })) : exec .fillReq s =
      .next (((layout.filter fun e => e.1 != 8).foldl (fun (s : State) e => s.sendRegion d.job b v (b.setSteps.getD v.set 0)
        (u.setWorker j b v.set) e) u).serveJob d.job).settle := by
  have hsum : (t.jobs.map fun e => (e.2.baler.map fun b => b.serves.length).getD 0).sum = 0 := by
    have hnone : ∀ e ∈ t.jobs, (e.2.baler.map fun b => b.serves.length).getD 0 = 0 := fun e he => by
      cases hb : e.2.baler with
      | none => rfl
      | some x => simp [hidle e he x hb]
    rw [List.map_congr_left hnone, sum_map_const, Nat.zero_mul]
  subst hm hv hlayout hu
  show execFillReq s = _
  simp only [execFillReq, hfront, hbaler, hset, hsame, hsum, hread, Bool.not_true, Bool.false_eq_true, if_false,
    show ¬(4 : Nat) ≤ 0 by decide, finish]

theorem exec_fillReq_refused (hfront : s.front .fillReq = some (d, t)) (hset : b.hasSet d.balSet = false) :
    exec .fillReq s = .next (t.sendBal d.job b.channel d.rank m.ordinal
      { type := 6, step := m.step, status := Status.badArgument.code } [] (.bal d.job 6 d.rank m.ordinal)).settle := by
  subst hm
  show execFillReq s = _
  simp only [execFillReq, hfront, hbaler, hset, Bool.not_false, if_true, finish]

/-- The units of a fill are written into the region that the message names, and nowhere else (R383). -/
theorem exec_fillData_of_region (hfront : s.front .fillData = some (d, t)) {n : Nat} {e : Nat × Nat × Nat × Nat}
    {data : List Byte} (hfill : b.fillOf d.balSet = some n)
    (hfind : (j.fillLayout b d.balSet).find? (fun e => e.1 == m.kind && e.2.1 == m.ordinal) = some e)
    (hdata : data = (d.body.drop 64).take (min (4096 * m.units) (e.2.2.2 - 4096 * m.offset)))
    (hwrite : t.writeAccess (e.2.2.1 + 4096 * m.offset) data.length = .good) : ∃ u, exec .fillData s = .next u ∧
      u.jobs = s.jobs ∧ u.hub.ops = s.hub.ops ∧ (Cells.wf s.mem.hbm → ((∀ q, s.mem.lostSector q = false) →
        u.read (e.2.2.1 + 4096 * m.offset) data.length = data) ∧ ∀ a, a < e.2.2.1 ∨ e.2.2.1 + e.2.2.2 ≤ a →
          readByte u.mem.hbm a = readByte s.mem.hbm a) := by
  obtain ⟨l, rfl⟩ := State.front_eq hfront
  have hlen : data.length ≤ e.2.2.2 - 4096 * m.offset := by
    rw [hdata, List.length_take]
    omega
  obtain ⟨v, hv⟩ : ∃ v, v = ({ s with delivered := l } : State).write (e.2.2.1 + 4096 * m.offset) data := ⟨_, rfl⟩
  refine ⟨(v.noteWrite m.step (e.2.2.1 + 4096 * m.offset) data.length).settle, ?_, ?_, ?_, fun hwf => ⟨fun hfound => ?_,
    fun a ha => ?_⟩⟩
  · subst hm
    show execFillData s = _
    rw [hv]
    simp only [execFillData, hfront, hbaler, hfill, hfind, ← hdata, hwrite, reduceCtorEq, if_false, finish]
  · rw [State.settle_jobs, hv]
    exact State.write_jobs ..
  · rw [State.settle_hub_ops, hv]
    exact congrArg Hub.ops (State.write_hub ..)
  · have hstored := State.Sound.write (s := { s with delivered := l }) ⟨hwf, hfound⟩ (e.2.2.1 + 4096 * m.offset) data
    have hread := State.Stored.read_last (l := []) hstored
    rw [State.read, State.settle_mem, hv]
    exact hread
  · have honly := State.writesOnly_write { s with delivered := l } (base := e.2.2.1 + 4096 * m.offset) (bytes := data)
      (p := fun a => e.2.2.1 ≤ a ∧ a < e.2.2.1 + e.2.2.2) fun a hlo hhi => by omega
    rw [State.settle_mem]
    have hkeep := (honly hwf).2 a (by omega)
    rw [← hv] at hkeep
    exact hkeep

/-- FILL_DONE ends its FILL (R384). -/
theorem exec_fillDone_of_fill (hfront : s.front .fillDone = some (d, t)) {n : Nat} {o : Op}
    (hfill : b.fillOf d.balSet = some n) (hop : t.op n = some o) (hl : o.live = true) : ∃ u j' b',
      exec .fillDone s = .next u ∧ u.op n = some { o with phase := .done .ok 0 } ∧ u.jobs.find d.job = some j' ∧
      j'.baler = some b' ∧ b'.fills = b.fills.erase n ∧ b'.stateStep = m.step ∧ b'.received = b.received + 1 ∧
      u.mem = s.mem := by
  obtain ⟨l, rfl⟩ := State.front_eq hfront
  obtain ⟨hj, hb⟩ := State.deliveryBaler_iff.mp hbaler
  obtain ⟨u₁, hu₁⟩ : ∃ u₁, u₁ = ({ s with delivered := l } : State).applyRecords d.job m.step
    (stateRecords ((d.body.drop 64).take (32 * m.units))) := ⟨_, rfl⟩
  obtain ⟨hhub₁, hjobs₁, hmem₁⟩ := State.applyRecords_keeps { s with delivered := l } d.job m.step
    (stateRecords ((d.body.drop 64).take (32 * m.units)))
  rw [← hu₁] at hhub₁ hjobs₁ hmem₁
  obtain ⟨u₂, hu₂⟩ : ∃ u₂, u₂ = if d.balSet = 0 then u₁.rereadScale d.job else u₁ := ⟨_, rfl⟩
  obtain ⟨hhub₂, hmem₂, j₂, hj₂, hb₂⟩ : u₂.hub = s.hub ∧ u₂.mem = s.mem ∧
      ∃ j₂, u₂.jobs.find d.job = some j₂ ∧ j₂.baler = some b := by
    have hfind : u₁.jobs.find d.job = some j := by rw [hjobs₁]; exact hj
    rw [hu₂]
    split
    · exact ⟨(State.modJob_hub ..).trans hhub₁, (State.modJob_mem ..).trans hmem₁, _, State.find_modJob hfind _, hb⟩
    · exact ⟨hhub₁, hmem₁, j, hfind, hb⟩
  obtain ⟨v, hv⟩ : ∃ v, v = u₂.modBaler d.job fun b => { b with
    fills := b.fills.erase n, stateStep := m.step, received := b.received + 1 } := ⟨_, rfl⟩
  obtain ⟨w, hw⟩ : ∃ w : State, w = { v with units := { v.units with fillCount := v.units.fillCount + 1 } } := ⟨_, rfl⟩
  have hwfind : w.jobs.find d.job = some { j₂ with baler := some { b with
      fills := b.fills.erase n, stateStep := m.step, received := b.received + 1 } } := by
    rw [hw, hv]
    exact State.find_modBaler hj₂ hb₂ _
  have hwop : w.op n = some o := by
    rw [← hop, hw, hv]
    exact State.op_congr ((State.modJob_hub ..).trans hhub₂) n
  obtain ⟨j', hj', hbal⟩ := State.find_balEnd hwfind n .ok 0
  refine ⟨(w.balEnd n .ok).settle, j', _, ?_, ?_, ?_, hbal, rfl, rfl, rfl, ?_⟩
  · subst hm
    show execFillDone s = _
    simp only [execFillDone, hfront, hbaler, hfill]
    rw [hw, hv, hu₂, hu₁]
    simp only [finish, State.applyRecords]
  · rw [State.op, State.settle_hub_ops]
    exact State.op_balEnd hwop hl .ok 0
  · rw [State.settle_jobs]
    exact hj'
  · rw [State.settle_mem, State.balEnd_mem, hw, hv]
    exact (State.modJob_mem ..).trans hmem₂

end

/-- Settles O50: each message is one branch of its event. -/
theorem balerMessages : Obligations.BalerMessages := by
  intro s t d j b m hbaler hm
  refine ⟨?_, ?_, ?_, ?_, fun n o hfront hfill hop hl => exec_fillDone_of_fill hbaler hm hfront hfill hop hl, ?_⟩
  · intro e hfront he
    refine ⟨fun r o hone hop hjob hlive hmatch hrole => ?_, exec_digestMsg_of_early hbaler hm hfront he,
      exec_digestMsg_of_full hbaler hm hfront he⟩
    obtain ⟨hend, hcount, hmem⟩ := State.endDigest_facts hop hlive r.digest m.digest
    obtain ⟨l, rfl⟩ := State.front_eq hfront
    refine ⟨_, exec_digestMsg_of_run hbaler hm hfront he hone hop hmatch hrole, ?_, ?_, ?_⟩
    · rw [State.op, State.settle_hub_ops]
      exact hend
    · rw [State.settle_units, hcount]
    · rw [State.settle_mem, hmem]
  · intro set r hfront hmirrors hregion haccess
    show execHistory s = _
    simp only [execHistory, hfront, hbaler, hmirrors, List.find?_cons, beq_self_eq_true, hregion]
    rfl
  · intro hfront
    exact ⟨exec_fillReq_refused hbaler hm hfront, fun v layout hv hlayout hset hsame hidle hread u hu =>
      exec_fillReq_served hbaler hm hfront hv hlayout hset hsame hidle hread hu⟩
  · intro n e data hfront hfill hfind hdata hwrite
    exact exec_fillData_of_region hbaler hm hfront hfill hfind hdata hwrite
  · intro n hfront hfill
    subst hm
    show execFillAbort s = _
    simp only [execFillAbort, hfront, hbaler, hfill, finish]

end Sys2Proof.Machine
end

section
/-!
PROOF. When a Windrow op accumulates, is sent, waits or ends (11, R289, R293, R297).
-/

namespace Sys2Proof.Machine

/-- A fold whose steps leave the state as it is. -/
theorem foldl_unmoved {α β : Type} {f : α → β → α} {a : α} (h : ∀ b, f a b = a) (l : List β) : l.foldl f a = a := by
  induction l with
  | nil => rfl
  | cons b l ih => rw [List.foldl_cons, h, ih]

/-! ## What the unit's own state leaves -/

/-- Everything but the Windrow unit's own state. -/
def State.offWdr (s : State) : State := { s with wdr := {} }

section
variable {s u v : State}

theorem State.offWdr_modGroup (s : State) (g : Nat) (f : WGroup → WGroup) : (s.modGroup g f).offWdr = s.offWdr := by
  unfold State.modGroup
  split <;> rfl

theorem State.offWdr_modRun (s : State) (n : Nat) (f : WRun → WRun) : (s.modRun n f).offWdr = s.offWdr := by
  unfold State.modRun
  split <;> rfl

theorem State.offWdr_mem (h : u.offWdr = s.offWdr) : u.mem = s.mem := by
  have hmem := congrArg State.mem h
  exact hmem

theorem State.offWdr_hub (h : u.offWdr = s.offWdr) : u.hub = s.hub := by
  have hhub := congrArg State.hub h
  exact hhub

theorem State.offWdr_jobs (h : u.offWdr = s.offWdr) : u.jobs = s.jobs := by
  have hjobs := congrArg State.jobs h
  exact hjobs

theorem State.offWdr_edge (h : u.offWdr = s.offWdr) : u.edge = s.edge := by
  have hedge := congrArg State.edge h
  exact hedge

end

section
variable {s : State} {gi n : Nat} {g : WGroup} {r : WRun}

theorem State.group_modGroup (h : s.wdr.groups.find gi = some g) (f : WGroup → WGroup) :
    (s.modGroup gi f).wdr.groups.find gi = some (f g) := by
  simp [State.modGroup, h]

theorem State.group_modGroup_ne (s : State) {k : Nat} (hk : k ≠ gi) (f : WGroup → WGroup) :
    (s.modGroup gi f).wdr.groups.find k = s.wdr.groups.find k := by
  unfold State.modGroup
  split
  · rfl
  · exact Map.find_insert_ne _ _ hk

@[simp] theorem State.modGroup_runs (s : State) (gi : Nat) (f : WGroup → WGroup) :
    (s.modGroup gi f).wdr.runs = s.wdr.runs := by
  unfold State.modGroup
  split <;> rfl

theorem State.run_modRun (h : s.wdr.runs.find n = some r) (f : WRun → WRun) :
    (s.modRun n f).wdr.runs.find n = some (f r) := by
  simp [State.modRun, h]

@[simp] theorem State.modRun_groups (s : State) (n : Nat) (f : WRun → WRun) :
    (s.modRun n f).wdr.groups = s.wdr.groups := by
  unfold State.modRun
  split <;> rfl

@[simp] theorem State.settle_wdr_groups (s : State) : s.settle.wdr.groups = s.wdr.groups := by rw [State.settle_wdr]
@[simp] theorem State.settle_wdr_runs (s : State) : s.settle.wdr.runs = s.wdr.runs := by rw [State.settle_wdr]

end

/-! ## Memory as an op finds it -/

section
variable {s u : State}

theorem State.sectorAccess_of_eq (hm : u.mem = s.mem) (he : u.edge = s.edge) (k : Nat) :
    u.sectorAccess k = s.sectorAccess k := by
  unfold State.sectorAccess State.sectorHeld State.edgeOn
  rw [hm, he]

theorem State.spansAccess_of_eq (hm : u.mem = s.mem) (he : u.edge = s.edge) (l : List Span) :
    u.spansAccess l = s.spansAccess l := by
  have h : u.sectorAccess = s.sectorAccess := funext (State.sectorAccess_of_eq hm he)
  simp only [State.spansAccess, State.access, State.writeAccess, h]

theorem State.wSource_of_mem (hm : u.mem = s.mem) (o : Op) (i : Nat) : u.wSource o i = s.wSource o i := by
  unfold State.wSource State.readWord State.read
  rw [hm]

theorem State.wAccumulate_mem_congr (hm : u.mem = s.mem) (o : Op) : (u.wAccumulate o).mem = (s.wAccumulate o).mem := by
  have hread : ∀ a, u.readWord a = s.readWord a := fun a => by rw [State.readWord, State.read, hm, State.readWord, State.read]
  unfold State.wAccumulate State.writeWords
  simp only [hread, State.wSource_of_mem hm]
  exact State.write_mem_congr hm ..

theorem State.wAccumulate_hub (s : State) (o : Op) : (s.wAccumulate o).hub = s.hub := State.write_hub ..

/-- Accumulating writes the op's accumulator alone (R293). -/
theorem State.writesOnly_wAccumulate (s : State) (o : Op) :
    s.WritesOnly (fun a => o.addr 5 ≤ a ∧ a < o.addr 5 + 4 * o.wCount) (s.wAccumulate o) := by
  unfold State.wAccumulate State.writeWords
  refine s.writesOnly_write fun a hlo hhi => ⟨hlo, ?_⟩
  rw [length_wordsToBytes, List.length_map, List.length_range] at hhi
  exact hhi

end

/-! ## The end of an op that is not a step's last -/

section
variable {s : State} {n : Nat} {o : Op} {r : WRun} {st : Status}

theorem State.NoNotes.modJob {s : State} (h : s.NoNotes) {jh : Nat} {f : Job → Job}
    (hf : ∀ j, (f j).shards = j.shards) : (s.modJob jh f).NoNotes := by
  refine ⟨(congrArg Memory.descs (State.modJob_mem ..)).trans h.descs, fun e he => ?_⟩
  unfold State.modJob at he
  split at he
  · exact h.shards e he
  · next j hj =>
    rcases Map.mem_insert he with rfl | hmem
    · exact (hf j).trans (h.shards _ (Map.mem_of_find hj))
    · exact h.shards e hmem

/-- It ends with its run's DETAIL, and only the unit and its job note it. -/
theorem State.wdrEnd_of_mid (hrun : s.wdr.runs.find n = some r) (hop : s.op n = some o) (hlast : o.wLast = false)
    (hn : s.NoNotes) (hgood : st.good = true) :
    ∃ v : State, s.wdrEnd n st = v.endOp n st r.detail ∧ v.mem = s.mem ∧ v.hub = s.hub := by
  obtain ⟨u, hu⟩ : ∃ u, u = ({ s with wdr := { s.wdr with runs := s.wdr.runs.erase n } } : State).modGroup r.group
    fun g => g.noteStep o.step fun x => x.take r st := ⟨_, rfl⟩
  obtain ⟨v, hv⟩ : ∃ v, v = u.modJob o.job fun j => j := ⟨_, rfl⟩
  have huoff : u.offWdr = s.offWdr := by
    rw [hu]
    exact State.offWdr_modGroup ..
  have hun : u.NoNotes := hn.of_eq (congrArg Memory.descs (State.offWdr_mem huoff)) (State.offWdr_jobs huoff)
  have hvn : v.NoNotes := by
    rw [hv]
    exact hun.modJob fun _ => rfl
  refine ⟨v, ?_, ?_, ?_⟩
  · unfold State.wdrEnd
    simp only [hrun, hop, ← hu, hlast, Bool.false_eq_true, if_false, hgood, if_true, ← hv]
    split
    · exact hvn.finishOp ..
    · split <;> exact hvn.finishOp ..
  · rw [hv, State.modJob_mem]
    exact State.offWdr_mem huoff
  · rw [hv, State.modJob_hub]
    exact State.offWdr_hub huoff

end

/-! ## The start and the sending of an op -/

section
variable {s : State} {n : Nat} {o : Op} {g : WGroup} {r : WRun}

/-- The run of an op that starts. -/
def newRun (o : Op) (localOnly : Bool) : WRun := { group := o.wGroup, localOnly := localOnly, rank := o.rank }

/-- DETAIL of an op that only accumulates (Table 11.2). -/
theorem detail_newRun (o : Op) : (newRun o true).detail = 4096 := by
  have hcount : satNat 11 0 = 0 := by decide
  simp [newRun, WRun.detail, b2n, hcount]

theorem State.wdrAccess_good {spans : List Span} (h : s.spansAccess spans = .good) (k : State → State) :
    s.wdrAccess n o spans k = k s := by
  unfold State.wdrAccess
  simp only [h]

/-- A contributor's op on a step that does not reduce accumulates and ends (R293). -/
theorem exec_windrowOp_local (hrun : s.runs n 4 = some o) (hg : s.wdr.groups.find o.wGroup = some g)
    (hnew : s.wdr.runs.find n = none) (hred : g.reduces o.step = false) (hown : g.ownIndex.isSome = true)
    (hlast : o.wLast = false) (hacc : s.spansAccess (g.sourceSpans o) = .good) (hn : s.NoNotes) :
    ∃ t o', exec (.windrowOp n) s = .next t ∧ t.op n = some o' ∧ o'.phase = .done .ok 4096 ∧
      t.mem = (s.wAccumulate o).mem := by
  obtain ⟨hop, hphase, -, -⟩ := State.runs_iff.mp hrun
  obtain ⟨u₀, hu₀⟩ : ∃ u₀, u₀ = if o.wBucket = 0 then
      s.modGroup o.wGroup fun g => { g with written := g.written.filter (· != o.step) }
    else s := ⟨_, rfl⟩
  obtain ⟨u, hu⟩ : ∃ u : State, u = { u₀ with wdr := { u₀.wdr with runs := u₀.wdr.runs.insert n (newRun o true) } } :=
    ⟨_, rfl⟩
  have hoff : u.offWdr = s.offWdr := by
    have hoff₀ : u₀.offWdr = s.offWdr := by
      rw [hu₀]
      split
      · exact State.offWdr_modGroup ..
      · rfl
    rw [hu]
    exact hoff₀
  have hmem : u.mem = s.mem := State.offWdr_mem hoff
  obtain ⟨w, hw⟩ : ∃ w, w = u.wAccumulate o := ⟨_, rfl⟩
  have hwrun : w.wdr.runs.find n = some (newRun o true) := by
    rw [hw, State.wAccumulate, State.writeWords, State.write_wdr, hu]
    exact Map.find_insert_self ..
  have hwop : w.op n = some o := by
    rw [hw, State.op_congr ((State.wAccumulate_hub ..).trans (State.offWdr_hub hoff))]
    exact hop
  have hwn : w.NoNotes := by
    rw [hw]
    exact (hn.of_eq (congrArg Memory.descs hmem) (State.offWdr_jobs hoff)).write _ _
  obtain ⟨v, hend, hvmem, hvhub⟩ := State.wdrEnd_of_mid hwrun hwop hlast hwn (st := .ok) rfl
  refine ⟨(w.wdrEnd n .ok).settle, { o with phase := .done .ok 4096 }, ?_, ?_, rfl, ?_⟩
  · show execWindrowOp n s = _
    have haccess := State.wdrAccess_good (n := n) (o := o) ((State.spansAccess_of_eq hmem (State.offWdr_edge hoff) _).trans hacc)
      fun s => (s.wAccumulate o).wdrEnd n .ok
    have hnone : g.ownIndex.isNone = false := by rw [← Option.not_isSome, hown]; rfl
    unfold execWindrowOp State.wdrBegin
    simp only [hrun, hg, hnew, ← hu₀, hred, hnone, Bool.false_eq_true, if_false]
    rw [← newRun, ← hu, haccess, ← hw, finish]
  · rw [State.op, State.settle_hub_ops, hend, detail_newRun]
    exact State.op_endOp ((State.op_congr hvhub n).trans hwop) (Op.live_of_running hphase) _ _
  · rw [State.settle_mem, hend, State.endOp_mem, hvmem, hw]
    exact State.wAccumulate_mem_congr hmem o

/-- A reducing op whose turn has not come is held (R297). -/
theorem exec_windrowOp_held (hrun : s.runs n 4 = some o) (hg : s.wdr.groups.find o.wGroup = some g)
    (hnew : s.wdr.runs.find n = none) (hred : g.reduces o.step = true) (hturn : g.turn o = .later) (hb : o.wBucket ≠ 0) :
    exec (.windrowOp n) s =
      .next (State.settle { s with wdr := { s.wdr with runs := s.wdr.runs.insert n (newRun o false) } }) := by
  obtain ⟨hop, -, -, -⟩ := State.runs_iff.mp hrun
  obtain ⟨u, hu⟩ : ∃ u : State, u = { s with wdr := { s.wdr with runs := s.wdr.runs.insert n (newRun o false) } } := ⟨_, rfl⟩
  have hurun : u.wdr.runs.find n = some (newRun o false) := by
    rw [hu]
    exact Map.find_insert_self ..
  have huop : u.op n = some o := by rw [hu]; exact hop
  have hug : u.wdr.groups.find o.wGroup = some g := by rw [hu]; exact hg
  have htry : u.wdrTry n = u := by
    unfold State.wdrTry
    simp only [hurun, huop, hug, newRun, hturn]
  show execWindrowOp n s = _
  unfold execWindrowOp State.wdrBegin
  simp only [hrun, hg, hnew, hred, if_neg hb, if_true]
  rw [← newRun, ← hu, htry, finish]

end

/-! ## An op of a member that does not contribute -/

section
variable {s : State} {n : Nat} {o : Op} {g : WGroup} {r : WRun}

theorem WGroup.modStep_eq (g : WGroup) (step : Word) (f : WStep → WStep) : ∃ l, g.modStep step f = { g with steps := l } := by
  unfold WGroup.modStep
  split <;> exact ⟨_, rfl⟩

theorem State.takeEarly_of_none (hrun : s.wdr.runs.find n = some r) (hg : s.wdr.groups.find r.group = some g)
    (hearly : g.early = []) (c : Nat) (request : Bool) : s.takeEarly n c request = s := by
  unfold State.takeEarly
  simp only [hrun]
  cases s.op n with
  | none => rfl
  | some o => cases hq : r.gseq with
    | none => simp only [hg, hq]
    | some q => simp only [hg, hq, hearly, Map.find]

theorem State.contribute_of_outsider (hrun : s.wdr.runs.find n = some r) (hg : s.wdr.groups.find r.group = some g)
    (hown : g.ownIndex = none) (c : Nat) : s.contribute n c = s := by
  unfold State.contribute
  simp only [hrun]
  cases s.op n with
  | none => rfl
  | some o => cases hq : r.gseq with
    | none => simp only [hg, hq]
    | some q => simp only [hg, hq, hown]

/-- An op whose chunks are not all complete goes on. -/
theorem State.wdrCheck_of_missing (hrun : s.wdr.runs.find n = some r) (hop : s.op n = some o)
    (hg : s.wdr.groups.find r.group = some g) (hwhole : r.whole = none)
    (hmiss : ∃ c ∈ g.chunksOf o, r.results.has c = false) : s.wdrCheck n = s := by
  have hall : (g.chunksOf o).all (fun c => r.results.has c) = false := by
    obtain ⟨c, hc, hnot⟩ := hmiss
    exact List.all_eq_false.mpr ⟨c, hc, by rw [hnot]; exact Bool.false_ne_true⟩
  unfold State.wdrCheck
  simp only [hrun, hop, hwhole]
  cases hq : r.gseq with
  | none => rfl
  | some q => simp only [hg, hall, Bool.and_false, Bool.false_and, Bool.false_eq_true, if_false]

/-- The group and the run after the op of a member that does not contribute is sent (R297). -/
theorem State.wdrSendOp_of_outsider (hop : s.op n = some o) (hrun : s.wdr.runs.find n = some r)
    (hgr : r.group = o.wGroup) (hg : s.wdr.groups.find o.wGroup = some g) (hown : g.ownIndex = none) (hearly : g.early = [])
    (hwhole : r.whole = none) (hmiss : ∃ c ∈ g.chunksOf o, r.results.has c = false) :
    ∃ g', (s.wdrSendOp n o g).wdr.groups.find o.wGroup = some g' ∧ g'.gseq = g.gseq + 1 ∧ g'.sendStep = some o.step ∧
      g'.sendBucket = (if o.wLast then 0 else o.wBucket + 1) ∧
      (s.wdrSendOp n o g).wdr.runs.find n = some { r with gseq := some g.gseq, elems := [], waitSince := s.now } ∧
      (s.wdrSendOp n o g).offWdr = s.offWdr := by
  obtain ⟨u₁, hu₁⟩ : ∃ u₁, u₁ = s.modGroup o.wGroup fun g => g.sent o := ⟨_, rfl⟩
  obtain ⟨u₂, hu₂⟩ : ∃ u₂, u₂ = if o.wBucket = 0 then
      u₁.modGroup o.wGroup fun x => x.modStep o.step fun x => { x with firstGseq := some g.gseq }
    else u₁ := ⟨_, rfl⟩
  obtain ⟨u, hu⟩ : ∃ u, u = u₂.modRun n fun r => { r with gseq := some g.gseq, elems := [], waitSince := s.now } := ⟨_, rfl⟩
  have hoff₁ : u₁.offWdr = s.offWdr := by rw [hu₁]; exact State.offWdr_modGroup ..
  have hruns₁ : u₁.wdr.runs = s.wdr.runs := by rw [hu₁]; exact State.modGroup_runs ..
  have hg₁ : u₁.wdr.groups.find o.wGroup = some (g.sent o) := by rw [hu₁]; exact State.group_modGroup hg _
  obtain ⟨l, hg₂, hruns₂, hoff₂⟩ : ∃ l, u₂.wdr.groups.find o.wGroup = some { g.sent o with steps := l } ∧
      u₂.wdr.runs = s.wdr.runs ∧ u₂.offWdr = s.offWdr := by
    rw [hu₂]
    split
    · obtain ⟨l, hl⟩ := (g.sent o).modStep_eq o.step fun x => { x with firstGseq := some g.gseq }
      exact ⟨l, (State.group_modGroup hg₁ _).trans (congrArg some hl), (State.modGroup_runs ..).trans hruns₁,
        (State.offWdr_modGroup ..).trans hoff₁⟩
    · exact ⟨_, hg₁, hruns₁, hoff₁⟩
  have hurun : u.wdr.runs.find n = some { r with gseq := some g.gseq, elems := [], waitSince := s.now } := by
    rw [hu]
    exact State.run_modRun (hruns₂ ▸ hrun) _
  have hug : u.wdr.groups.find r.group = some { g.sent o with steps := l } := by
    rw [hu, State.modRun_groups, hgr]
    exact hg₂
  have huoff : u.offWdr = s.offWdr := by
    rw [hu]
    exact (State.offWdr_modRun ..).trans hoff₂
  have huop : u.op n = some o := (State.op_congr (State.offWdr_hub huoff) n).trans hop
  have hsend : s.wdrSendOp n o g = u := by
    have htake : ∀ request, (g.chunksOf o).foldl (fun (s : State) c => s.takeEarly n c request) u = u := fun request =>
      foldl_unmoved (fun c => State.takeEarly_of_none hurun hug hearly c request) _
    have hcontribute : (g.chunksOf o).foldl (fun (s : State) c => s.contribute n c) u = u :=
      foldl_unmoved (State.contribute_of_outsider hurun hug hown) _
    have hcheck : u.wdrCheck n = u := State.wdrCheck_of_missing hurun huop hug hwhole hmiss
    have hnow : u₂.now = s.now := by rw [State.now, State.offWdr_edge hoff₂, State.now]
    unfold State.wdrSendOp
    simp only [hown, Option.isSome_none, Bool.false_and, Bool.false_eq_true, if_false, ← hu₁, ← hu₂, hnow, ← hu,
      htake, hcontribute, hcheck]
  rw [hsend]
  exact ⟨_, hgr ▸ hug, rfl, rfl, rfl, hurun, huoff⟩

end

/-- Settles O43: the op's turn against the group's send position decides; an op of a member that does not contribute is
sent by the group's and the run's own state alone. -/
theorem windrowSending : Obligations.WindrowSending := by
  intro s n o g hrun hg
  obtain ⟨hop, hphase, -, -⟩ := State.runs_iff.mp hrun
  refine ⟨fun hnew hred hown hlast hacc hn => ?_, exec_windrowOp_held hrun hg, fun r hr hgr hq => ⟨?_, ?_, ?_, ?_⟩, ?_⟩
  · obtain ⟨t, o', hexec, ho', hdone, hmem⟩ := exec_windrowOp_local hrun hg hnew hred hown hlast hacc hn
    refine ⟨t, o', hexec, ho', hdone, hmem, fun hwf a ha => ?_⟩
    rw [hmem]
    exact (s.writesOnly_wAccumulate o hwf).2 a (by omega)
  · intro hturn
    show execWindrowSend n s = _
    simp only [execWindrowSend, hrun, State.wdrTry, hr, hop, hgr, hg, hq, hturn, finish]
  · intro hturn
    show execWindrowSend n s = _
    simp only [execWindrowSend, hrun, State.wdrTry, hr, hop, hgr, hg, hq, hturn, finish]
  · intro hturn hfree hown hacc
    show execWindrowSend n s = _
    rw [hgr] at hfree
    simp only [execWindrowSend, hrun, State.wdrTry, hr, hop, hgr, hg, hq, hturn, hfree, hown, if_true,
      State.wdrAccess_good hacc, finish]
  · intro hturn hfree hown hearly hwhole hmiss
    obtain ⟨g', hg', hgseq, hstep, hbucket, hr', hoff⟩ :=
      State.wdrSendOp_of_outsider hop hr hgr hg hown hearly hwhole hmiss
    refine ⟨(s.wdrSendOp n o g).settle, g',
      { r with gseq := some g.gseq, elems := [], waitSince := s.now }, ?_, ?_, hgseq, hstep, hbucket, ?_, rfl, rfl, ?_, ?_⟩
    · show execWindrowSend n s = _
      rw [hgr] at hfree
      have hnone : s.spansAccess [] = .good := rfl
      simp only [execWindrowSend, hrun, State.wdrTry, hr, hop, hgr, hg, hq, hturn, hfree, hown, if_true, if_false,
        Option.isSome_none, Bool.false_eq_true, State.wdrAccess_good hnone, finish]
    · rw [State.settle_wdr_groups]
      exact hg'
    · rw [State.settle_wdr_runs]
      exact hr'
    · rw [State.settle_mem]
      exact State.offWdr_mem hoff
    · rw [State.settle_jobs]
      exact State.offWdr_jobs hoff
  · intro r hr hgr hsent hacked hlimit hmiss u hu
    have hall : (g.chunksOf o).all (fun c => r.results.has c) = false := by
      obtain ⟨c, hc, hnot⟩ := hmiss
      exact List.all_eq_false.mpr ⟨c, hc, by rw [hnot]; exact Bool.false_ne_true⟩
    have hnone : r.gseq.isNone = false := by rw [← Option.not_isSome, hsent]; rfl
    subst hu
    show execResultLimitExpiry n s = _
    simp only [execResultLimitExpiry, hr, hop, hgr, hg, hnone, hacked, List.isEmpty_nil, Bool.not_true, hall,
      decide_eq_false (Nat.not_lt.mpr hlimit), Bool.or_self, Bool.false_eq_true, if_false]
    rfl

end Sys2Proof.Machine
end

section
/-!
PROOF. What the Windrow messages and the deadline do to a chunk and a result (11, R298, R299, R301, R304, R307, R312).
-/

namespace Sys2Proof.Machine

/-! ## The chunk at its owner -/

section
variable {s u : State} {gi c i : Nat} {gseq : Word} {g g' : WGroup} {k : Chunk}

/-- Whether a contributor is gone hangs on the jobs, the role table and the group's members alone (R308). -/
theorem State.contributorGone_of_eq (hj : u.jobs = s.jobs) (hm : u.mem = s.mem)
    (hg : g'.job = g.job ∧ g'.roleKind = g.roleKind ∧ g'.members = g.members) (i : Nat) :
    u.contributorGone g' i = s.contributorGone g i := by
  obtain ⟨hjob, hkind, hmembers⟩ := hg
  unfold State.contributorGone State.roleGone WGroup.contributors WGroup.memberRole
  simp only [hj, State.role_of_mem hm, hjob, hkind, hmembers]

/-- A chunk in arrival order with a contributor absent, and none gone, stays as it is (Table 11.4). -/
theorem State.judgeChunk_of_absent (hg : s.wdr.groups.find gi = some g) (hk : g.chunks.find (chunkKey gseq c) = some k)
    (hrank : k.rankOrder = false) (hact : k.act = false) (hst : k.st ≠ .escalating)
    (hgone : ∀ i, s.contributorGone g i = false) (habs : ∃ i < g.count, i ∉ k.taken)
    (hshort : k.st = .short → k.taken.length < g.quorum) : s.judgeChunk gi gseq c = s := by
  obtain ⟨i, hi, hni⟩ := habs
  have hnone : (List.range g.count).filter (s.contributorGone g) = [] :=
    List.filter_eq_nil_iff.mpr fun i _ => by rw [hgone i]; exact Bool.false_ne_true
  obtain ⟨a, rest, habsent⟩ : ∃ a rest, (List.range g.count).filter (fun i => !k.taken.contains i) = a :: rest :=
    List.exists_cons_of_ne_nil (List.ne_nil_of_mem (a := i) (by simp [hi, hni]))
  have hstale : (k.st == .short && decide (g.quorum ≤ k.taken.length)) = false := by
    by_cases hs : k.st = .short
    · simp [hshort hs]
    · simp [hs]
  unfold State.judgeChunk
  simp only [hg, hk, hnone, habsent, hrank, hact, beq_eq_false_iff_ne.mpr hst, hstale, Bool.or_self, Bool.false_and,
    Bool.false_eq_true, if_false, List.isEmpty_cons, List.all_cons, List.contains_nil, ite_self]

end

/-! ## The first contribution to a chunk (R298, R301) -/

section
variable {s : State} {gi i : Nat} {g : WGroup} {h : WHeader} {data : List Byte}

/-- What a CONTRIB contributes to its chunk. -/
def WHeader.contribution (h : WHeader) (g : WGroup) (data : List Byte) : Contribution :=
  { words := decodeChunk h.fmt (chunkSpan h.count g.count h.chunk).2 data, weight := h.weight }

/-- The chunk with its first contribution. -/
def State.firstChunk (s : State) (i : Nat) (g : WGroup) (h : WHeader) (data : List Byte) : Chunk :=
  (s.newChunk h).addIn i (h.contribution g data)

/-- A first contribution is taken into its chunk as it stands. -/
theorem State.intoChunk_first (hg : s.wdr.groups.find gi = some g) (hrank : h.rank = false) (hact : h.act = false)
    (hesc : h.escalate = false) (hcount : 2 ≤ g.count) (hgone : ∀ c, s.contributorGone g c = false)
    {x : WGroup} (hx : x.count = g.count) : s.intoChunk gi x i h data (s.newChunk h) =
      s.putChunk gi h.gseq h.chunk (s.firstChunk i g h data) := by
  have hsame : (s.newChunk h).differs h = false := by simp [State.newChunk, Chunk.differs]
  have htake : (s.newChunk h).take i (h.contribution x data) = s.firstChunk i g h data := by
    rw [WHeader.contribution, hx, Chunk.take]
    exact if_neg (by rw [State.newChunk, hrank]; exact Bool.false_ne_true)
  have hput : s.intoChunk gi x i h data (s.newChunk h) =
      (s.putChunk gi h.gseq h.chunk (s.firstChunk i g h data)).judgeChunk gi h.gseq h.chunk := by
    rw [WHeader.contribution] at htake
    unfold State.intoChunk
    simp only [hsame, htake, hesc, Bool.and_false, Bool.false_eq_true, if_false]
    rfl
  rw [hput]
  have hgroup : (s.putChunk gi h.gseq h.chunk (s.firstChunk i g h data)).wdr.groups.find gi = some { g with
      chunks := g.chunks.insert (chunkKey h.gseq h.chunk) (s.firstChunk i g h data) } := State.group_modGroup hg _
  have hopen : (s.firstChunk i g h data).st = .opened := rfl
  refine State.judgeChunk_of_absent hgroup (Map.find_insert_self ..) hrank hact (by rw [hopen]; decide) ?_ ?_
    (fun hst => absurd (hopen.symm.trans hst) (by decide))
  · intro c
    have hoff : (s.putChunk gi h.gseq h.chunk (s.firstChunk i g h data)).offWdr = s.offWdr := State.offWdr_modGroup ..
    exact (State.contributorGone_of_eq (State.offWdr_jobs hoff) (State.offWdr_mem hoff) ⟨rfl, rfl, rfl⟩ c).trans (hgone c)
  · refine ⟨if i = 0 then 1 else 0, ?_, ?_⟩
    · show _ < g.count
      split <;> omega
    · show _ ∉ [i]
      split <;> simp <;> omega

/-- The first contribution to a chunk opens it (R298). -/
theorem State.contrib_first (hg : s.wdr.groups.find gi = some g) (hi : i < g.count)
    (hspan : (chunkSpan h.count g.count h.chunk).2 ≠ 0) (hdue : g.expect.getD i g.expectBase = h.gseq) (hchunks : g.chunks = [])
    (hrank : h.rank = false) (hact : h.act = false) (hesc : h.escalate = false) (hcount : 2 ≤ g.count)
    (hgone : ∀ c, s.contributorGone g c = false) : ∃ g' k, (s.contrib gi i h data).wdr.groups.find gi = some g' ∧
      g'.expect.find i = some (h.gseq + 1) ∧ g'.chunks.find (chunkKey h.gseq h.chunk) = some k ∧
      k = s.firstChunk i g h data ∧ (s.contrib gi i h data).offWdr = s.offWdr := by
  obtain ⟨u₁, hu₁⟩ : ∃ u₁, u₁ = s.modGroup gi fun g => { g with expect := g.expect.insert i (h.gseq + 1) } := ⟨_, rfl⟩
  obtain ⟨u, hu⟩ : ∃ u, u = (u₁.putChunk gi h.gseq h.chunk (u₁.newChunk h)).modGroup gi WGroup.sweep := ⟨_, rfl⟩
  have hoff₁ : u₁.offWdr = s.offWdr := by rw [hu₁]; exact State.offWdr_modGroup ..
  have hoff : u.offWdr = s.offWdr := by
    rw [hu]
    exact (State.offWdr_modGroup ..).trans ((State.offWdr_modGroup ..).trans hoff₁)
  have hunew : u.newChunk h = s.newChunk h := by
    rw [State.newChunk, State.now, State.offWdr_edge hoff]
    rfl
  have hg₁ : u₁.wdr.groups.find gi = some { g with expect := g.expect.insert i (h.gseq + 1) } := by
    rw [hu₁]
    exact State.group_modGroup hg _
  obtain ⟨x, hux, hxexpect, hxsame⟩ : ∃ x, u.wdr.groups.find gi = some x ∧ x.expect = g.expect.insert i (h.gseq + 1) ∧
      x.job = g.job ∧ x.roleKind = g.roleKind ∧ x.members = g.members := by
    rw [hu]
    exact ⟨_, State.group_modGroup (State.group_modGroup hg₁ _) _, rfl, rfl, rfl, rfl⟩
  have hxcount : x.count = g.count := by
    obtain ⟨-, -, hmembers⟩ := hxsame
    rw [WGroup.count, WGroup.contributors, hmembers]
    rfl
  have hugone : ∀ c, u.contributorGone x c = false := fun c =>
    (State.contributorGone_of_eq (State.offWdr_jobs hoff) (State.offWdr_mem hoff) hxsame c).trans (hgone c)
  have hinto := State.intoChunk_first (i := i) (data := data) hux hrank hact hesc (hxcount ▸ hcount) hugone hxcount.symm
  have hfirst : u.firstChunk i x h data = s.firstChunk i g h data := by
    rw [State.firstChunk, WHeader.contribution, hunew, hxcount]
    rfl
  have hcontrib : s.contrib gi i h data = u.putChunk gi h.gseq h.chunk (s.firstChunk i g h data) := by
    have hbeq : ((chunkSpan h.count g.count h.chunk).2 == 0) = false := beq_eq_false_iff_ne.mpr hspan
    have hnewer : g.slotNewer h.gseq = false := by rw [WGroup.slotNewer, hchunks]; rfl
    have hfind : g.chunks.find (chunkKey h.gseq h.chunk) = none := by rw [hchunks]; rfl
    rw [← hfirst, ← hinto]
    unfold State.contrib
    simp only [hg, hdue, decide_eq_false (Nat.not_le.mpr hi), hbeq, signedLess_self, hnewer, hfind, Bool.or_self,
      Bool.false_and, Bool.false_eq_true, if_false, ← hu₁, ← hu]
  rw [hcontrib]
  exact ⟨_, _, State.group_modGroup hux _, (congrArg (·.find i) hxexpect).trans (Map.find_insert_self ..),
    Map.find_insert_self .., rfl, (State.offWdr_modGroup ..).trans hoff⟩

end

/-! ## A result that a member takes (R307) -/

theorem State.addNorm_wdr (s : State) (l i : Nat) (y : Norm) : (s.addNorm l i y).wdr = s.wdr := by
  unfold State.addNorm
  split
  · rfl
  · exact State.modLea_wdr ..

theorem length_flatMap_natToLE (n : Nat) (codes : List Nat) : (codes.flatMap (natToLE n)).length = n * codes.length := by
  induction codes with
  | nil => rfl
  | cons c rest ih =>
    rw [List.flatMap_cons, List.length_append, length_natToLE, ih, List.length_cons, Nat.mul_succ, Nat.add_comm]

theorem WGroup.noteStep_eq (g : WGroup) (step : Word) (f : WStep → WStep) : ∃ l, g.noteStep step f = { g with steps := l } := by
  unfold WGroup.noteStep
  split
  · exact g.modStep_eq step f
  · exact ⟨g.steps, rfl⟩

section
variable {s : State} {n gi c : Nat} {o : Op} {g : WGroup} {r : WRun}

/-- The bytes of a result's values in RESULT_FMT (R307). -/
def Op.resultBytes (o : Op) (ws : List Word) : List Byte := (resultCodes o.wResFmt ws).1.flatMap (natToLE o.wResBytes)

theorem State.modRun_mem (s : State) (n : Nat) (f : WRun → WRun) : (s.modRun n f).mem = s.mem :=
  State.offWdr_mem (State.offWdr_modRun ..)

theorem State.modRun_hub (s : State) (n : Nat) (f : WRun → WRun) : (s.modRun n f).hub = s.hub :=
  State.offWdr_hub (State.offWdr_modRun ..)

/-- A result's values are written at their place, and only its run notes them. -/
theorem State.writeResult_facts (hs : s.Sound) (hrun : s.wdr.runs.find n = some r) (o : Op) (first : Nat) (ws : List Word) :
    ∃ sat nan norm, (s.writeResult n o first ws).wdr.runs.find n =
        some { r with saturated := sat, nanOut := nan, normSat := norm } ∧
      (s.writeResult n o first ws).wdr.groups = s.wdr.groups ∧ (s.writeResult n o first ws).hub = s.hub ∧
      s.Stored [(o.addr 7 + o.wResBytes * first, o.resultBytes ws)] (s.writeResult n o first ws) := by
  obtain ⟨u, hu⟩ : ∃ u, u = (s.write (o.addr 7 + o.wResBytes * first) (o.resultBytes ws)).noteWrite o.step
    (o.addr 7 + o.wResBytes * first) (o.wResBytes * (resultCodes o.wResFmt ws).1.length) := ⟨_, rfl⟩
  obtain ⟨norm, hnorm⟩ : ∃ norm, norm = Norm.captureAll {} ((resultCodes o.wResFmt ws).1.map
    (decodeElem (if o.wResFmt = 0 then .bf16 else .fp32))) := ⟨_, rfl⟩
  obtain ⟨v, hv⟩ : ∃ v, v = if bit (o.w 0) 12 then u.addNorm o.lea (o.f 1 15 0) norm.1 else u := ⟨_, rfl⟩
  obtain ⟨hsound, hbytes⟩ := hs.write (o.addr 7 + o.wResBytes * first) (o.resultBytes ws)
  have hustored : s.Stored [(o.addr 7 + o.wResBytes * first, o.resultBytes ws)] u := by
    rw [hu]
    exact ⟨⟨hsound.wf, hsound.found⟩, hbytes⟩
  have huwdr : u.wdr = s.wdr := by rw [hu]; exact State.write_wdr ..
  have huhub : u.hub = s.hub := by rw [hu]; exact State.write_hub ..
  obtain ⟨hvwdr, hvhub, hvmem⟩ : v.wdr = s.wdr ∧ v.hub = s.hub ∧ v.mem = u.mem := by
    obtain ⟨-, hhub, hmem⟩ := u.addNorm_keeps o.lea (o.f 1 15 0) norm.1
    rw [hv]
    split
    · exact ⟨(State.addNorm_wdr ..).trans huwdr, hhub.trans huhub, hmem⟩
    · exact ⟨huwdr, huhub, rfl⟩
  have hvrun : v.wdr.runs.find n = some r := by rw [hvwdr]; exact hrun
  have hresult : s.writeResult n o first ws = v.modRun n fun x => { x with
      saturated := x.saturated || (resultCodes o.wResFmt ws).2.1, nanOut := x.nanOut || (resultCodes o.wResFmt ws).2.2
      normSat := x.normSat || (bit (o.w 0) 12 && norm.2) } := by
    rw [hv, hu, hnorm]
    rfl
  rw [hresult]
  exact ⟨_, _, _, State.run_modRun hvrun _,
    (State.modRun_groups ..).trans (congrArg Windrow.groups hvwdr), (State.modRun_hub ..).trans hvhub,
    hustored.of_mem ((State.modRun_mem ..).trans hvmem)⟩

/-- A good result of a chunk is written and noted, and its op goes on for the sake of another chunk (R307). -/
theorem State.takeResult_good (hs : s.Sound) (hrun : s.wdr.runs.find n = some r) (hop : s.op n = some o)
    (hg : s.wdr.groups.find gi = some g) (hgr : r.group = gi) (hnew : r.results.find c = none) (hwhole : r.whole = none)
    (hmiss : ∃ x ∈ g.chunksOf o, x ≠ c ∧ r.results.has x = false) {m : EarlyResult} (hm : m.status = .ok)
    (hacc : s.spansAccess [o.wChunkSpan g.count c] = .good) (gseq : Word) :
    ∃ t r', s.takeResult n r o gi g gseq c m = some t ∧ t.wdr.runs.find n = some r' ∧
      r'.results.find c = some (.ok, m.digest) ∧ t.hub = s.hub ∧
      s.Stored [(o.addr 7 + o.wResBytes * (chunkSpan o.wCount g.count c).1,
        o.resultBytes (decodeChunk m.fmt (chunkSpan o.wCount g.count c).2 m.data))] t := by
  subst hgr
  obtain ⟨sat, nan, norm, hrun₁, hgroups₁, hhub₁, hstored₁⟩ :=
    State.writeResult_facts hs hrun o (chunkSpan o.wCount g.count c).1 (decodeChunk m.fmt (chunkSpan o.wCount g.count c).2 m.data)
  obtain ⟨u, hu⟩ : ∃ u, u = s.writeResult n o (chunkSpan o.wCount g.count c).1
    (decodeChunk m.fmt (chunkSpan o.wCount g.count c).2 m.data) := ⟨_, rfl⟩
  rw [← hu] at hrun₁ hgroups₁ hhub₁ hstored₁
  obtain ⟨v, hv⟩ : ∃ v, v = u.modGroup r.group fun g => { g.noteStep o.step fun x => x.takeResult o.wAct m with
    digests := g.digests.insert (chunkKey gseq c) (m.digest, o.step) } := ⟨_, rfl⟩
  obtain ⟨w, hw⟩ : ∃ w, w = v.modRun n fun r => { r with results := r.results.insert c (m.status, m.digest) } := ⟨_, rfl⟩
  have hwoff : w.offWdr = u.offWdr := by
    rw [hw, hv]
    exact (State.offWdr_modRun ..).trans (State.offWdr_modGroup ..)
  have hwrun : w.wdr.runs.find n = some { r with
      saturated := sat, nanOut := nan, normSat := norm, results := r.results.insert c (m.status, m.digest) } := by
    rw [hw]
    refine State.run_modRun (r := { r with saturated := sat, nanOut := nan, normSat := norm }) ?_ _
    rw [hv, State.modGroup_runs]
    exact hrun₁
  have hwop : w.op n = some o := (State.op_congr ((State.offWdr_hub hwoff).trans hhub₁) n).trans hop
  obtain ⟨x, hwg, hwmembers⟩ : ∃ x, w.wdr.groups.find r.group = some x ∧ x.members = g.members := by
    obtain ⟨l, hl⟩ := g.noteStep_eq o.step fun x => x.takeResult o.wAct m
    have hmembers := congrArg WGroup.members hl
    refine ⟨{ g.noteStep o.step fun x => x.takeResult o.wAct m with
      digests := g.digests.insert (chunkKey gseq c) (m.digest, o.step) }, ?_, hmembers⟩
    rw [hw, State.modRun_groups, hv]
    exact State.group_modGroup (hgroups₁ ▸ hg) _
  have hchunks : x.chunksOf o = g.chunksOf o := by
    unfold WGroup.chunksOf WGroup.count WGroup.contributors
    rw [hwmembers]
  have hcheck : w.wdrCheck n = w := by
    obtain ⟨y, hy, hyc, hnot⟩ := hmiss
    refine State.wdrCheck_of_missing hwrun hwop hwg hwhole ⟨y, hchunks ▸ hy, ?_⟩
    rw [Map.has, Map.find_insert_ne _ _ hyc]
    exact hnot
  refine ⟨w, _, ?_, hwrun, ?_, (State.offWdr_hub hwoff).trans hhub₁, hstored₁.of_mem (State.offWdr_mem hwoff)⟩
  · unfold State.takeResult
    simp only [hnew, hm, reduceCtorEq, or_self, if_false, hacc, ← hu]
    rw [hm] at hw
    rw [← hv, ← hw, hcheck]
  · rw [hm]
    exact Map.find_insert_self ..

end

/-! ## The deadline of a chunk (R304) -/

theorem chunkKey_of_key {key : Nat} (h : key / 1024 < 2 ^ 32) : chunkKey (BitVec.ofNat 32 (key / 1024)) (key % 1024) = key := by
  rw [chunkKey, BitVec.toNat_ofNat, Nat.mod_eq_of_lt h]
  omega

/-- A chunk whose deadline passes below its quorum is SHORT. -/
theorem exec_chunkDeadline_short {s : State} {gi key : Nat} {g : WGroup} {k : Chunk} (hg : s.wdr.groups.find gi = some g)
    (hk : g.chunks.find key = some k) (hkey : key / 1024 < 2 ^ 32) (hst : k.st = .opened) (hact : k.act = false)
    (hrank : k.rankOrder = false) (hlate : g.deadline ≤ s.elapsed k.openAt) (hquorum : k.taken.length < g.quorum)
    (habs : ∃ i < g.count, i ∉ k.taken) (hgone : ∀ c, s.contributorGone g c = false) :
    ∃ t g', exec (.chunkDeadline gi key) s = .next t ∧ t.wdr.groups.find gi = some g' ∧
      g'.chunks.find key = some { k with st := .short } ∧ t.mem = s.mem ∧ t.jobs = s.jobs := by
  obtain ⟨u, hu⟩ : ∃ u, u = s.putChunk gi (BitVec.ofNat 32 (key / 1024)) (key % 1024) { k with st := .short } := ⟨_, rfl⟩
  have hoff : u.offWdr = s.offWdr := by rw [hu]; exact State.offWdr_modGroup ..
  obtain ⟨x, hx, hxk⟩ : ∃ x, x = { g with
      chunks := g.chunks.insert (chunkKey (BitVec.ofNat 32 (key / 1024)) (key % 1024)) { k with st := .short } } ∧
      u.wdr.groups.find gi = some x := by
    rw [hu]
    exact ⟨_, rfl, State.group_modGroup hg _⟩
  have hchunk : x.chunks.find (chunkKey (BitVec.ofNat 32 (key / 1024)) (key % 1024)) = some { k with st := .short } := by
    rw [hx]
    exact Map.find_insert_self ..
  have hjudge : u.judgeChunk gi (BitVec.ofNat 32 (key / 1024)) (key % 1024) = u := by
    refine State.judgeChunk_of_absent hxk hchunk hrank hact (fun h => nomatch h) (fun c => ?_) ?_ fun _ => ?_
    · exact (State.contributorGone_of_eq (State.offWdr_jobs hoff) (State.offWdr_mem hoff) (by rw [hx]; exact ⟨rfl, rfl, rfl⟩)
        c).trans (hgone c)
    · rw [hx]
      exact habs
    · rw [hx]
      exact hquorum
  refine ⟨u.settle, x, ?_, ?_, ?_, ?_, ?_⟩
  · show execChunkDeadline gi key s = _
    have hdue : ¬(k.st ≠ .opened ∨ k.act = true ∨ k.rankOrder = true ∨ s.elapsed k.openAt < g.deadline) := by
      simp [hst, hact, hrank, hlate]
    unfold execChunkDeadline
    simp only [hg, hk]
    rw [if_neg hdue, if_neg (Nat.not_le.mpr hquorum), ← hu, hjudge, finish]
  · rw [State.settle_wdr_groups]
    exact hxk
  · rw [chunkKey_of_key hkey] at hchunk
    exact hchunk
  · rw [State.settle_mem]
    exact State.offWdr_mem hoff
  · rw [State.settle_jobs]
    exact State.offWdr_jobs hoff

/-- Settles O44: a first contribution opens its chunk and leaves it for the others; a result is written and noted; a chunk
below its quorum is judged and stays. -/
theorem windrowMessages : Obligations.WindrowMessages := by
  refine ⟨?_, ?_, ?_, ?_⟩
  · intro s t0 d gi i key g h hfront hat hg hh hi hcount hkey hspan _ hdue hchunks hrank hact hesc htwo hgone
    subst hh hi hkey
    obtain ⟨l, rfl⟩ := State.front_eq hfront
    obtain ⟨g', k, hg', hexpect, hk, hfirst, hoff⟩ := State.contrib_first (s := { s with delivered := l }) (gi := gi)
      (i := g.slotIndex d.offset) (data := d.body.drop 256) hg hcount hspan hdue hchunks hrank hact hesc htwo hgone
    have hdelivered := congrArg State.delivered hoff
    have hmem := State.offWdr_mem hoff
    refine ⟨(({ s with delivered := l } : State).contrib gi (g.slotIndex d.offset) (.parse d.body) (d.body.drop 256)).settle,
      g', k, ?_, ?_, hexpect, hk, ?_, ?_, ?_, ?_, ?_, ?_, ?_, ?_⟩
    · show execContrib s = _
      simp only [execContrib, hfront, hat]
      rfl
    · rw [State.settle_wdr_groups]
      exact hg'
    · rw [hfirst]; rfl
    · rw [hfirst]; rfl
    · rw [hfirst]; rfl
    · rw [hfirst]; exact Nat.zero_add _
    · rw [hfirst]; rfl
    · rw [hfirst]; rfl
    · rw [State.settle_delivered]
      exact hdelivered
    · rw [State.settle_mem]
      exact hmem
  · intro s t0 d gi n c g r o h sp hfront hat hg hh hrunOf hop hrun hgr hc hmem hnew hwhole hmiss hstatus hsp hacc hwf hfound
      codes hcodes hlen
    subst hh hc hsp
    obtain ⟨l, rfl⟩ := State.front_eq hfront
    have hok : ((WHeader.parse d.body).toEarly (d.body.drop 256)).status = .ok := by
      rw [WHeader.toEarly, hstatus]
      rfl
    obtain ⟨t, r', htake, hr', hres, hhub, hstored⟩ := State.takeResult_good (s := { s with delivered := l }) ⟨hwf, hfound⟩
      hrun hop hg hgr hnew hwhole hmiss hok hacc (WHeader.parse d.body).gseq
    have hbytes : o.resultBytes (decodeChunk (WHeader.parse d.body).fmt
        (chunkSpan o.wCount g.count (WHeader.parse d.body).chunk).2 (d.body.drop 256)) =
        codes.flatMap (natToLE o.wResBytes) := by rw [hcodes, Op.resultBytes]
    have hbyteslen : (codes.flatMap (natToLE o.wResBytes)).length =
        o.wResBytes * (chunkSpan o.wCount g.count (WHeader.parse d.body).chunk).2 := by
      rw [length_flatMap_natToLE, hlen]
    have hstored : ({ s with delivered := l } : State).Stored [(o.addr 7 + o.wResBytes *
        (chunkSpan o.wCount g.count (WHeader.parse d.body).chunk).1, codes.flatMap (natToLE o.wResBytes))] t := by
      rw [← hbytes]
      exact hstored
    refine ⟨t.settle, r', ?_, ?_, hres, ?_, fun a ha => ?_, ?_⟩
    · show execResult s = _
      simp only [execResult, hfront, hat, hrunOf, hop, List.contains_iff_mem.mpr hmem, if_true, htake, Option.getD_some,
        finish]
    · rw [State.settle_wdr_runs]
      exact hr'
    · have hread := State.Stored.read_last (l := []) hstored
      rw [hbyteslen] at hread
      rw [State.read, State.settle_mem]
      exact hread
    · rw [State.settle_mem]
      refine hstored.readByte_clear fun x hx => ?_
      rw [List.mem_singleton.mp hx]
      show a < _ ∨ _ + (codes.flatMap (natToLE o.wResBytes)).length ≤ a
      rw [hbyteslen]
      exact ha
    · rw [State.op, State.settle_hub_ops, hhub]
      exact hop
  · intro s t0 d gi n g r h hfront hat hh hrunOf hfp hres
    subst hh
    show execEscalateReq s = _
    simp only [execEscalateReq, hfront, hat, hrunOf, hfp, hres, Bool.or_self, Bool.false_eq_true, if_false, finish]
  · intro s gi key g k hg hk hkey hst hact hrank hlate
    refine ⟨exec_chunkDeadline_short hg hk hkey hst hact hrank hlate, fun hquorum => ?_⟩
    show execChunkDeadline gi key s = _
    simp only [execChunkDeadline, hg, hk, hst, hact, hrank, ne_eq, not_true_eq_false, Bool.false_eq_true,
      Nat.not_lt.mpr hlate, or_self, if_false, hquorum, if_true, finish]

end Sys2Proof.Machine
end

section
/-!
PROOF. What the Tedder ops send and write, and what their messages do (12, R334 to R342).
-/

namespace Sys2Proof.Machine

section
variable {s : State} {n func : Nat} {o : Op} {j : Job} {t : Tedder}

theorem State.tedRun_iff (h : s.tedRun n func = some (o, j, t)) :
    s.op n = some o ∧ o.phase = .running ∧ s.jobs.find o.job = some j ∧ j.tedder = some t := by
  unfold State.tedRun at h
  split at h
  · cases h
  next o' hrun =>
    obtain ⟨hop, hphase, -, -⟩ := State.runs_iff.mp hrun
    split at h
    · cases h
    next j' hj =>
      split at h
      · cases h
      next t' ht =>
        split at h
        · cases h
          exact ⟨hop, hphase, hj, ht⟩
        · cases h

theorem State.withAccess_good {spans : List Span} (h : s.spansAccess spans = .good) (k : State → State) :
    s.withAccess n spans k = k s := by
  unfold State.withAccess
  simp only [h]

/-- A Tedder op that ends for a lost holder's sake (R342). -/
theorem State.tedLost_facts (hop : s.op n = some o) (hl : o.live = true) (detail : Nat) :
    (s.tedLost n detail).op n = some { o with phase := .done .peerLost detail } ∧
    (s.tedLost n detail).units.tedPeerLost = true ∧
    (s.tedLost n detail).units.tedLostCount = s.units.tedLostCount + 1 ∧ (s.tedLost n detail).mem = s.mem ∧
    (s.tedLost n detail).jobs = s.jobs := by
  obtain ⟨u, hu⟩ : ∃ u : State, u = { s with units := { s.units with
    tedPeerLost := true, tedLostCount := s.units.tedLostCount + 1, tedRuns := s.units.tedRuns.erase n } } := ⟨_, rfl⟩
  have hlost : s.tedLost n detail = u.endOp n .peerLost detail := by rw [hu]; rfl
  rw [hlost, State.endOp_units, State.endOp_mem, State.endOp_jobs]
  have huop : u.op n = some o := by rw [hu]; exact hop
  exact ⟨State.op_endOp huop hl _ _, by rw [hu], by rw [hu], by rw [hu], by rw [hu]⟩

/-- A dispatch to an expert whose holder cannot be reached. -/
theorem State.dispatch_lost {i e : Nat} (he : e < j.experts) (hholder : s.holderOk j 4 e = false) :
    ∃ detail, s.dispatch n o j t i = s.tedLost n detail := by
  have hall : (List.range j.experts).all (fun e => s.holderOk j 4 e) = false :=
    List.all_eq_false.mpr ⟨e, List.mem_range.mpr he, by rw [hholder]; exact Bool.false_ne_true⟩
  unfold State.dispatch
  simp only [hall, Bool.not_false, if_true]
  exact ⟨_, rfl⟩

/-- A return without rows ends at once (R339). -/
theorem State.returns_empty {h : TedHome} (hop : s.op n = some o) (hl : o.live = true)
    (hnone : ∀ i < t.sources, (s.returnEntry t h o.tBank i).1 = 0) (hout : s.tedOutstanding n o = false) :
    (s.returns n o j t h).op n = some { o with phase := .done .ok 0 } ∧ (s.returns n o j t h).mem = s.mem ∧
    (s.returns n o j t h).jobs = s.jobs := by
  have hgo : (List.range t.sources).filter (fun i => decide (0 < (s.returnEntry t h o.tBank i).1)) = [] :=
    List.filter_eq_nil_iff.mpr fun i hi => by simp [hnone i (List.mem_range.mp hi)]
  obtain ⟨u, hu⟩ : ∃ u : State, u = { s with units := { s.units with
    tedRows := s.units.tedRows + BitVec.ofNat 64 0, tedRuns := s.units.tedRuns.insert n 0 } } := ⟨_, rfl⟩
  have huop : u.op n = some o := by rw [hu]; exact hop
  obtain ⟨w, hw⟩ : ∃ w : State, w = { u with units := { u.units with tedRuns := u.units.tedRuns.erase n } } := ⟨_, rfl⟩
  have hwop : w.op n = some o := by rw [hw]; exact huop
  have hcheck : u.tedCheck n = w.endOp n .ok 0 := by
    have hfind : u.units.tedRuns.find n = some 0 := by rw [hu]; exact Map.find_insert_self ..
    have hout' : u.tedOutstanding n o = false := by rw [hu]; exact hout
    unfold State.tedCheck
    simp only [huop, hfind, hout', Bool.false_eq_true, if_false, ← hw]
  have hreturns : s.returns n o j t h = w.endOp n .ok 0 := by
    rw [← hcheck]
    unfold State.returns
    simp only [hgo, List.all_nil, Bool.not_true, Bool.false_eq_true, if_false, List.map_nil, List.sum_nil, List.foldl_nil,
      ← hu]
  rw [hreturns, State.endOp_mem, State.endOp_jobs]
  exact ⟨State.op_endOp hwop hl _ _, by rw [hw, hu], by rw [hw, hu]⟩

/-- A COMBINE whose rows have come writes its output, clears its bank's counts and ends (R340). -/
theorem State.combine_facts {w : Window} (hop : s.op n = some o) (hl : o.live = true) (hj : s.jobs.find o.job = some j)
    (ht : j.tedder = some t) (hn : s.NoNotes) :
    ∃ encs detail j', encs = ((List.range o.tTokens).map fun k => (o.tOut t).encodeSeg none k 0
        (s.combineRow t (w.base + o.tBank * t.retRows * t.recBytes)
          (keptPairs (s.routes o t j.experts) t.cap k (bit (o.w 0) 18)))) ∧
      (s.combine n o j t w).op n = some { o with phase := .done .ok detail } ∧
      (s.combine n o j t w).jobs.find o.job = some j' ∧ j'.tedder = some { t with
        expected := t.expected.erase o.tBank, returned := t.returned.erase o.tBank } ∧
      (s.combine n o j t w).mem = (s.putEnc encs).mem := by
  obtain ⟨encs, hencs⟩ : ∃ encs, encs = ((List.range o.tTokens).map fun k => (o.tOut t).encodeSeg none k 0
    (s.combineRow t (w.base + o.tBank * t.retRows * t.recBytes)
      (keptPairs (s.routes o t j.experts) t.cap k (bit (o.w 0) 18)))) := ⟨_, rfl⟩
  obtain ⟨u, hu⟩ : ∃ u, u = (s.putEnc encs).modTed o.job fun t => { t with
    expected := t.expected.erase o.tBank, returned := t.returned.erase o.tBank } := ⟨_, rfl⟩
  have hjobs : (s.putEnc encs).jobs = s.jobs := State.unworked_jobs (s.unworked_putEnc encs)
  have hun : u.NoNotes := by
    rw [hu]
    exact (hn.of_eq (s.putEnc_descs encs) hjobs).modJob fun _ => rfl
  have huop : u.op n = some o := by
    rw [← hop, hu]
    exact State.op_congr ((State.modJob_hub ..).trans (s.putEnc_hub encs)) n
  have hfind : u.jobs.find o.job = some { j with tedder := some { t with
      expected := t.expected.erase o.tBank, returned := t.returned.erase o.tBank } } := by
    rw [hu, State.modTed, State.find_modJob (hjobs ▸ hj), ht]
    rfl
  obtain ⟨detail, hcombine⟩ : ∃ detail, s.combine n o j t w = u.endOp n .ok detail := by
    unfold State.combine
    simp only [← hencs]
    rw [← State.putEnc, ← hu, hun.finishOp]
    exact ⟨_, rfl⟩
  refine ⟨encs, detail, { j with tedder := some { t with
    expected := t.expected.erase o.tBank, returned := t.returned.erase o.tBank } }, hencs, ?_, ?_, rfl, ?_⟩
  · rw [hcombine]
    exact State.op_endOp huop hl _ _
  · rw [hcombine, State.endOp_jobs]
    exact hfind
  · rw [hcombine, State.endOp_mem, hu]
    exact State.modJob_mem ..

end

/-- Settles O46: each op's work is its own once its accesses find memory in order; each message is one branch of its
event. -/
theorem tedderOpsAndMessages : Obligations.TedderOpsAndMessages := by
  refine ⟨?_, ?_, ?_, ?_, ?_⟩
  · intro s n i o j t hrun hnew hsource hacc
    obtain ⟨hop, hphase, -, -⟩ := State.tedRun_iff hrun
    have hexec : exec (.dispatch n) s = .next (s.dispatch n o j t i).settle := by
      show execDispatch n s = _
      simp only [execDispatch, hrun, hnew, hsource, Bool.false_eq_true, if_false, State.withAccess_good hacc, finish]
    refine ⟨hexec, fun e he hholder => ?_⟩
    obtain ⟨detail, hlost⟩ := State.dispatch_lost (s := s) (n := n) (o := o) (t := t) (i := i) he hholder
    obtain ⟨hend, hset, hcount, hmem, hjobs⟩ := State.tedLost_facts hop (Op.live_of_running hphase) detail
    refine ⟨(s.tedLost n detail).settle, { o with phase := .done .peerLost detail }, by rw [hexec, hlost], ?_, ⟨detail, rfl⟩, ?_, ?_, ?_, ?_⟩
    · rw [State.op, State.settle_hub_ops]
      exact hend
    · rw [State.settle_units, hset]
    · rw [State.settle_units, hcount]
    · rw [State.settle_mem, hmem]
    · rw [State.settle_jobs, hjobs]
  · intro s n o j t h hrun hnew hhome hacc
    obtain ⟨hop, hphase, -, -⟩ := State.tedRun_iff hrun
    have hexec : exec (.returnRows n) s = .next (s.returns n o j t h).settle := by
      show execReturnRows n s = _
      simp only [execReturnRows, hrun, hnew, hhome, Bool.false_eq_true, if_false, State.withAccess_good hacc, finish]
    refine ⟨hexec, fun hnone hout => ?_⟩
    obtain ⟨hend, hmem, hjobs⟩ := State.returns_empty (j := j) hop (Op.live_of_running hphase) hnone hout
    refine ⟨_, { o with phase := .done .ok 0 }, hexec, ?_, rfl, ?_, ?_⟩
    · rw [State.op, State.settle_hub_ops]
      exact hend
    · rw [State.settle_mem, hmem]
    · rw [State.settle_jobs, hjobs]
  · intro s n e o j t w hrun hexpect hwin
    obtain ⟨hop, hphase, hj, ht⟩ := State.tedRun_iff hrun
    constructor
    · intro hwait
      show execCombine n s = _
      simp only [execCombine, hrun, hexpect, hwin, hwait, ne_eq, not_false_eq_true, if_true, finish]
    · intro hcome hn hacc
      obtain ⟨encs, detail, j', hencs, hend, hj', ht', hmem⟩ :=
        State.combine_facts (w := w) hop (Op.live_of_running hphase) hj ht hn
      refine ⟨(s.combine n o j t w).settle, { o with phase := .done .ok detail }, j', _, ?_, ?_, ⟨detail, rfl⟩, ?_, ht', rfl, rfl, fun hwf a ha => ?_⟩
      · show execCombine n s = _
        simp only [execCombine, hrun, hexpect, hwin, hcome, ne_eq, not_true_eq_false, if_false,
          State.withAccess_good hacc, finish]
      · rw [State.op, State.settle_hub_ops]
        exact hend
      · rw [State.settle_jobs]
        exact hj'
      · rw [State.settle_mem, hmem]
        refine (s.writesOnly_putEnc encs hwf).2 a fun ⟨x, hx, hlo, hhi⟩ => ?_
        obtain ⟨enc, henc, hx⟩ := List.mem_flatMap.mp hx
        obtain ⟨y, hy, rfl⟩ := List.mem_map.mp hx
        rw [hencs] at henc
        obtain ⟨k, hk, rfl⟩ := List.mem_map.mp henc
        have hclear := ha k (List.mem_range.mp hk) y hy
        simp only at hlo hhi
        omega
  · intro s u d j t h bank hs i w hfront hstall hj ht hslot hw hhome
    subst hw
    obtain ⟨l, rfl⟩ := State.front_eq hfront
    constructor
    · intro htype hexpert hi hbank hd hcap
      have hok : (fld (wordAt (bytesToWords 16 d.body) 0) 31 20 == 0x011 &&
          fld (wordAt (bytesToWords 16 d.body) 0) 15 0 == h.expert && fld (wordAt (bytesToWords 16 d.body) 3) 31 16 == i &&
          fld (wordAt (bytesToWords 16 d.body) 2) 15 0 % 2 == bank && (wordAt (bytesToWords 16 d.body) 5).toNat == t.d &&
          decide ((wordAt (bytesToWords 16 d.body) 6).toNat ≤ t.cap)) = true := by
        simp [htype, hexpert, hi, hbank, hd, hcap]
      show execTokens s = _
      simp only [execTokens, hfront, hstall, Bool.false_eq_true, if_false, State.tokensIn, hj, ht, hslot, hhome, hok, if_true,
        finish]
    · intro hbad
      have hno : (fld (wordAt (bytesToWords 16 d.body) 0) 31 20 == 0x011 &&
          fld (wordAt (bytesToWords 16 d.body) 0) 15 0 == h.expert && fld (wordAt (bytesToWords 16 d.body) 3) 31 16 == i &&
          fld (wordAt (bytesToWords 16 d.body) 2) 15 0 % 2 == bank && (wordAt (bytesToWords 16 d.body) 5).toNat == t.d &&
          decide ((wordAt (bytesToWords 16 d.body) 6).toNat ≤ t.cap)) = false := by
        rcases hbad with hexpert | hcap
        · simp [hexpert]
        · simp [Nat.not_le.mpr hcap]
      show execTokens s = _
      simp only [execTokens, hfront, hstall, Bool.false_eq_true, if_false, State.tokensIn, hj, ht, hslot, hhome, hno, finish]
  · intro s u d j t bank hfront hj ht hbank
    subst hbank
    obtain ⟨l, rfl⟩ := State.front_eq hfront
    obtain ⟨v, hv⟩ : ∃ v, v = ({ s with delivered := l } : State).returnIn d.job d.offset := ⟨_, rfl⟩
    obtain ⟨j', hj', ht'⟩ : ∃ j', v.jobs.find d.job = some j' ∧ j'.tedder = some { t with
        returned := t.returned.insert (d.offset / max (t.retRows * t.recBytes) 1)
          (t.returned.getD (d.offset / max (t.retRows * t.recBytes) 1) 0 + 1) } := by
      rw [hv]
      exact ⟨_, State.find_modJob (s := { s with delivered := l }) hj _, by rw [ht]; rfl⟩
    refine ⟨v.settle, j', _, ?_, ?_, ht', rfl, ?_, ?_⟩
    · show execReturnRecords s = _
      simp only [execReturnRecords, hfront, hv, finish]
    · rw [State.settle_jobs]
      exact hj'
    · rw [State.settle_mem, hv]
      exact State.modJob_mem ..
    · rw [State.settle_delivered, hv]
      exact State.modJob_delivered ..

end Sys2Proof.Machine
end

section
/-!
PROOF. How the management port sends, and what its intervals and ring write do (15, R415 to R418, R421, R424, R427 to
R429).
-/

namespace Sys2Proof.Machine

/-! ## What a counter leaves -/

/-- Everything of the port but its counters. -/
def Hedgerow.uncounted (h : Hedgerow) : Hedgerow := { h with ctr := [], half := 0, halfCount := 0 }

theorem State.hdrCount_hdr (s : State) (i n : Nat) : (s.hdrCount i n).hdr.uncounted = s.hdr.uncounted := by
  unfold State.hdrCount
  simp only
  split
  · rfl
  · split
    · rw [State.queueEvent_hdr]
      rfl
    · rfl

section
variable {h k : Hedgerow}

theorem Hedgerow.uncounted_sentOut (hk : k.uncounted = h.uncounted) : k.sentOut = h.sentOut := by
  have hs := congrArg Hedgerow.sentOut hk
  exact hs

theorem Hedgerow.uncounted_queue (hk : k.uncounted = h.uncounted) : k.queue = h.queue := by
  have hs := congrArg Hedgerow.queue hk
  exact hs

theorem Hedgerow.uncounted_txRing (hk : k.uncounted = h.uncounted) : k.txRing = h.txRing := by
  have hs := congrArg Hedgerow.txRing hk
  exact hs

end

/-! ## Transmission (R415 to R418, R429) -/

section
variable {s : State} {f : HdrFrame}

/-- No entry of the transmit ring is to join the queue. -/
theorem State.pullTx_of_none (h : s.hdr.txRing = none ∨ (s.hdr.queue.any fun g => g.tier == 3) = true) : s.pullTx = s := by
  unfold State.pullTx
  rcases h with hring | hqueue
  · simp only [hring, ite_self]
  · simp only [hqueue, if_true]

/-- The next frame goes out, and leaves the queue. -/
theorem exec_hdrTransmit (hon : s.edgeOn 30 = true) (hen : s.hdr.txEn = true) {u : State} (hpull : s.pullTx = u)
    (hnext : u.hdr.nextFrame = some f) (hidle : u.hdr.mediumStuck = false) (hback : f.backoff = none) :
    ∃ t, exec .hdrTransmit s = .next t ∧ t.hdr.sentOut = u.hdr.sentOut ++ [wireFrame f.bytes] ∧
      t.hdr.queue = (u.frameGone f).hdr.queue ∧ t.hdr.txRing = (u.frameGone f).hdr.txRing := by
  obtain ⟨v, hv⟩ : ∃ v, v = ((u.frameGone f).hdrCount 23).hdrCount 24 (wireFrame f.bytes).length := ⟨_, rfl⟩
  obtain ⟨w, hw⟩ : ∃ w, w = if f.attempts = 1 then v.hdrCount 25 else if 1 < f.attempts then v.hdrCount 26 else v := ⟨_, rfl⟩
  obtain ⟨x, hx⟩ : ∃ x, x = if f.tier = 1 then w.hdrCount 30 else w := ⟨_, rfl⟩
  have hvhdr : v.hdr.uncounted = (u.frameGone f).hdr.uncounted := by
    rw [hv, State.hdrCount_hdr, State.hdrCount_hdr]
  have hwhdr : w.hdr.uncounted = v.hdr.uncounted := by
    rw [hw]
    split
    · exact State.hdrCount_hdr ..
    · split
      · exact State.hdrCount_hdr ..
      · rfl
  have hxhdr : x.hdr.uncounted = (u.frameGone f).hdr.uncounted := by
    rw [← hvhdr, ← hwhdr, hx]
    split
    · exact State.hdrCount_hdr ..
    · rfl
  have hsent : (u.frameGone f).hdr.sentOut = u.hdr.sentOut := by
    unfold State.frameGone
    simp only
    split <;> rfl
  refine ⟨State.settle { x with hdr := { x.hdr with sentOut := x.hdr.sentOut ++ [wireFrame f.bytes] } }, ?_, ?_, ?_, ?_⟩
  · show execHdrTransmit s = _
    simp only [execHdrTransmit, hon, hen, Bool.not_true, Bool.or_self, Bool.false_eq_true, if_false, hpull, hnext, hidle, hback,
      Option.isSome_none, ← hv, ← hw, ← hx, finish]
  · rw [State.settle_hdr]
    exact congrArg (· ++ [wireFrame f.bytes]) ((Hedgerow.uncounted_sentOut hxhdr).trans hsent)
  · rw [State.settle_hdr]
    have hqueue := Hedgerow.uncounted_queue hxhdr
    exact hqueue
  · rw [State.settle_hdr]
    have hring := Hedgerow.uncounted_txRing hxhdr
    exact hring

theorem State.frameGone_queue (s : State) (f : HdrFrame) : (s.frameGone f).hdr.queue = dropFrame f s.hdr.queue := by
  unfold State.frameGone
  simp only
  split <;> rfl

theorem State.frameGone_sentOut (s : State) (f : HdrFrame) : (s.frameGone f).hdr.sentOut = s.hdr.sentOut := by
  unfold State.frameGone
  simp only
  split <;> rfl

theorem State.frameGone_txRing (s : State) (f : HdrFrame) : (s.frameGone f).hdr.txRing =
    if f.tier = 3 then s.hdr.txRing.map fun r => { r with index := r.index + 1 } else s.hdr.txRing := by
  unfold State.frameGone
  simp only
  split <;> rfl

/-- An entry of a ring in HBM joins an empty queue. -/
theorem State.pullTx_of_entry {r : HdrRing} (hempty : s.hdr.queue = []) (hring : s.hdr.txRing = some r) (hhbm : r.hbm = true)
    (hwait : s.txWaiting r = true) (hok : (s.txEntry r).2 = true) : s.pullTx = s.queueHdr 3 (s.txEntry r).1 := by
  unfold State.pullTx
  simp only [hempty, List.any_nil, Bool.false_eq_true, if_false, hring, hwait, Bool.not_true, hhbm, if_true, hok]

end

/-! ## Heartbeat intervals (R424, R427) -/

section
variable {s : State} {h : Nat} {e : HbEntry}

theorem State.sendHb_hdr (s : State) (e : HbEntry) :
    (s.sendHb e).hdr.hb = s.hdr.hb ∧ (s.sendHb e).hdr.hbLost = s.hdr.hbLost := by
  have hwire : ∀ s : State, (s.hbHedgerow e).hdr.hb = s.hdr.hb ∧ (s.hbHedgerow e).hdr.hbLost = s.hdr.hbLost := by
    intro s
    unfold State.hbHedgerow
    split
    · exact ⟨rfl, rfl⟩
    · split
      · exact ⟨rfl, rfl⟩
      · split
        · exact ⟨rfl, rfl⟩
        · simp only [State.queueHdr, State.modJob_hdr, and_self]
  have hair : ∀ s : State, (s.hbFabric e).hdr = s.hdr := by
    intro s
    unfold State.hbFabric
    split
    · rfl
    · exact congrArg (·.1.hdr) (State.unsent_emitLoose ..)
  obtain ⟨u, hu⟩ : ∃ u, u = if e.path != .fabric && !s.diverted then s.hbHedgerow e else s := ⟨_, rfl⟩
  have huhdr : u.hdr.hb = s.hdr.hb ∧ u.hdr.hbLost = s.hdr.hbLost := by
    rw [hu]
    split
    · exact hwire s
    · exact ⟨rfl, rfl⟩
  unfold State.sendHb
  simp only [← hu]
  split
  · rw [hair]
    exact huhdr
  · exact huhdr

/-- An entry after its interval is judged (R427). -/
def HbEntry.judged (e : HbEntry) : HbEntry :=
  if e.heard || e.lost then e else { e with misses := satNat 8 (e.misses + 1), lost := e.missLimit ≤ e.misses + 1 }

theorem State.hbMiss_facts (hfind : s.hdr.hb.find h = some e) : (s.hbMiss h e).hdr.hb.find h = some e.judged ∧
    (s.hbMiss h e).edge = s.edge ∧
    (e.heard = false → e.lost = false → e.missLimit ≤ e.misses + 1 → (s.hbMiss h e).hdr.hbLost = true) := by
  unfold State.hbMiss HbEntry.judged
  split
  · next hkeep =>
    refine ⟨hfind, rfl, fun hheard hlost _ => ?_⟩
    rw [hheard, hlost] at hkeep
    cases hkeep
  · simp only
    split
    · next hfar =>
      refine ⟨Map.find_insert_self .., rfl, fun _ _ hlimit => ?_⟩
      simp [hlimit] at hfar
    · split
      · exact ⟨Map.find_insert_self .., rfl, fun _ _ _ => rfl⟩
      · rw [State.queueEvent_hdr, State.queueEvent_edge]
        exact ⟨Map.find_insert_self .., rfl, fun _ _ _ => rfl⟩

theorem HbEntry.judged_of_kept (hkept : e.heard = true ∨ e.lost = true) : e.judged = e :=
  if_pos (by rcases hkept with h | h <;> simp [h])

theorem HbEntry.judged_of_missed (hheard : e.heard = false) (hlost : e.lost = false) :
    e.judged = { e with misses := satNat 8 (e.misses + 1), lost := e.missLimit ≤ e.misses + 1 } :=
  if_neg (by simp [hheard, hlost])

/-- An interval of a heartbeat entry is judged, and the next one begins (R424, R427). -/
theorem exec_hbInterval (hfind : s.hdr.hb.find h = some e) (hdue : e.interval ≤ s.elapsed e.since) :
    ∃ t, exec (.hbInterval h) s = .next t ∧
      t.hdr.hb.find h = some { e.judged with since := s.edge.count, heard := false } ∧
      (e.heard = false → e.lost = false → e.missLimit ≤ e.misses + 1 → t.hdr.hbLost = true) := by
  obtain ⟨u, hu⟩ : ∃ u, u = s.hbMiss h e := ⟨_, rfl⟩
  obtain ⟨hfound, hedge, hlost⟩ := State.hbMiss_facts hfind
  rw [← hu] at hfound hedge hlost
  obtain ⟨v, hv⟩ : ∃ v : State, v = { u with
    hdr := { u.hdr with hb := u.hdr.hb.insert h { e.judged with since := u.now, heard := false } } } := ⟨_, rfl⟩
  obtain ⟨hhb, hset⟩ := v.sendHb_hdr e.judged
  refine ⟨(v.sendHb e.judged).settle, ?_, ?_, fun hheard hl hlimit => ?_⟩
  · have hget : u.hdr.hb.getD h e = e.judged := by rw [Map.getD, hfound, Option.getD_some]
    show execHbInterval h s = _
    simp only [execHbInterval, hfind, if_neg (Nat.not_lt.mpr hdue), ← hu, hget, ← hv, finish]
  · rw [State.settle_hdr, hhb, hv]
    have hnow : u.now = s.edge.count := by rw [State.now, hedge]
    rw [hnow]
    exact Map.find_insert_self ..
  · rw [State.settle_hdr, hset, hv]
    exact hlost hheard hl hlimit

end

/-- Settles O16: the next frame is the one that the transmit step takes; counters leave the rest of the port; an interval
judges its entry before the next heartbeats go out. -/
theorem hedgerowSendingAndTimers : Obligations.HedgerowSendingAndTimers := by
  refine ⟨⟨?_, ?_, ?_, ?_, ?_, fun s => rfl⟩, ?_, ?_, ?_⟩
  · intro s f hon hen hidle hpull hnext hback
    obtain ⟨t, hexec, hsent, hqueue, hring⟩ := exec_hdrTransmit hon hen (State.pullTx_of_none hpull) hnext hidle hback
    exact ⟨t, hexec, hsent, hqueue.trans (s.frameGone_queue f), hring.trans (s.frameGone_txRing f)⟩
  · intro s r hon hen hidle hempty hring hhbm hwait hok
    have hnext : (s.queueHdr 3 (s.txEntry r).1).hdr.nextFrame = some { tier := 3, bytes := (s.txEntry r).1 } := by
      unfold State.queueHdr Hedgerow.nextFrame
      simp only [hempty]
      rfl
    obtain ⟨t, hexec, hsent, hqueue, htx⟩ :=
      exec_hdrTransmit hon hen (State.pullTx_of_entry hempty hring hhbm hwait hok) hnext hidle rfl
    refine ⟨t, hexec, hsent, ?_, ?_⟩
    · rw [hqueue, State.frameGone_queue, State.queueHdr, hempty]
      exact if_pos rfl
    · rw [htx, State.frameGone_txRing, State.queueHdr, hring]
      rfl
  · intro s f hon hen hidle hpull hnext hback
    have hpulled := State.pullTx_of_none hpull
    constructor
    · intro hfew
      obtain ⟨r, hr⟩ : ∃ r, r = Config.backoffDraw s.hdr.seed s.hdr.gen % 2 ^ min (f.attempts + 1) 10 := ⟨_, rfl⟩
      refine ⟨State.settle { s with hdr := { s.hdr with
        gen := s.hdr.gen + 1
        queue := replaceFrame f { f with attempts := f.attempts + 1, backoff := some r } s.hdr.queue } }, r, ?_, ?_, ?_, ?_⟩
      · show execHdrCollision s = _
        simp only [execHdrCollision, hon, hen, hidle, hpulled, hnext, hback, Option.isSome_none, Bool.not_true, Bool.or_self,
          Bool.false_eq_true, if_false, if_neg (show ¬16 ≤ f.attempts + 1 by omega), ← hr, finish]
      · rw [hr]
        exact Nat.mod_lt _ (Nat.two_pow_pos _)
      · rw [State.settle_hdr]
      · rw [State.settle_hdr]
    · intro hmany
      have hkeep := State.hdrCount_hdr (s.frameGone f) 28 1
      refine ⟨((s.frameGone f).hdrCount 28).settle, ?_, ?_, ?_⟩
      · show execHdrCollision s = _
        simp only [execHdrCollision, hon, hen, hidle, hpulled, hnext, hback, Option.isSome_none, Bool.not_true, Bool.or_self,
          Bool.false_eq_true, if_false, if_pos (show 16 ≤ f.attempts + 1 by omega), finish]
      · rw [State.settle_hdr, Hedgerow.uncounted_queue hkeep, State.frameGone_queue]
      · rw [State.settle_hdr, Hedgerow.uncounted_sentOut hkeep, State.frameGone_sentOut]
  · intro s f hfind
    show execHdrBackoffExpiry s = _
    simp only [execHdrBackoffExpiry, hfind, finish]
  · intro s hon hfree
    obtain ⟨u, hu⟩ : ∃ u : State, u = { s with hdr := { s.hdr with
      mediumStuck := true, stuckEvent := true, stuckCount := s.hdr.stuckCount + 1 } } := ⟨_, rfl⟩
    refine ⟨(u.queueEvent 0 (faultEvent .unitFault 0x01 0x22)).settle, ?_, ?_, ?_, ?_⟩
    · show execMediumStuck s = _
      simp only [execMediumStuck, hon, hfree, Bool.not_true, Bool.or_self, Bool.false_eq_true, if_false, ← hu, finish]
    · rw [State.settle_hdr, State.queueEvent_hdr, hu]
    · rw [State.settle_mem, State.queueEvent_mem, hu]
    · rw [State.settle_jobs, State.queueEvent_jobs, hu]
  · intro s hdue
    have hn : s.interval - s.hdr.interval ≠ 0 := by omega
    refine ⟨_, if_neg hn, ?_⟩
    rw [State.settle_hdr]
    refine ⟨rfl, rfl, rfl, fun i => ?_⟩
    have hfind := Map.find_mapVals s.hdr.sources (fun _ e => { e with
      recent := 0, tokens := min e.burst (e.tokens + (s.interval - s.hdr.interval) * e.rate) }) i
    exact hfind
  · intro s h e hfind hdue
    obtain ⟨t, hexec, hfound, hlost⟩ := exec_hbInterval hfind hdue
    refine ⟨t, { e.judged with since := s.edge.count, heard := false }, hexec, hfound, rfl, rfl, fun hkept => ?_,
      fun hheard hl => ?_⟩
    · rw [HbEntry.judged_of_kept hkept]
      exact ⟨rfl, rfl⟩
    · rw [HbEntry.judged_of_missed hheard hl]
      exact ⟨rfl, rfl, hlost hheard hl⟩
  · intro s v hreach hon
    show execMgtRingWrite v s = _
    simp only [execMgtRingWrite, hreach, if_true, State.mgtWrite, hon, finish]
    rfl

end Sys2Proof.Machine
end

section
/-!
PROOF. A received health request (O15 fails): the frame's own count may queue a half-range event before the health data is
read, and the health data counts the events.
-/

namespace Sys2Proof.Machine

/-- A port whose counter of good frames stands one below bit 31, with HALF_EVENT set. -/
def halfRange : State :=
  { hub := { dev := .run }, edge := { online := BitVec.allOnes 40 }, leas := [(0, { st := .enabled })]
    hdr := { mac := [2, 0, 0, 0, 0, 1], halfEvent := true, ctr := [(0, 0x7FFFFFFF)] } }

/-- The 60 bytes of a health request to the port, from another device. -/
def healthFrame : List Byte :=
  [2, 0, 0, 0, 0, 1] ++ [2, 0, 0, 0, 0, 2] ++ [0x88, 0xB5, 0x12, 0, 0, 0, 0, 0, 0, 7] ++ List.replicate 38 0

/-- The request as it is received, with its FCS. -/
def healthRequest : HdrRx :=
  { bytes := healthFrame ++ natToLE 4 (crc32 healthFrame).toNat, symbolErr := false, odd := false }

/-- A frame that carries the FCS of its bytes has the right FCS. -/
theorem fcsOk_append (b : List Byte) : fcsOk (b ++ natToLE 4 (crc32 b).toNat) = true := by
  have hlen : (b ++ natToLE 4 (crc32 b).toNat).length - 4 = b.length := by
    rw [List.length_append, length_natToLE, Nat.add_sub_cancel]
  have hcrc : (crc32 b).toNat % 256 ^ 4 = (crc32 b).toNat := Nat.mod_eq_of_lt (crc32 b).isLt
  unfold fcsOk
  rw [hlen, List.drop_left, List.take_left, leToNat_natToLE_mod, hcrc]
  simp [length_natToLE]

theorem hdrFaults_healthRequest : hdrFaults healthRequest = (0, none) := by
  have hfcs : fcsOk healthRequest.bytes = true := fcsOk_append healthFrame
  have hlen : healthRequest.bytes.length = 64 := by
    rw [healthRequest, List.length_append, length_natToLE]
    rfl
  unfold hdrFaults
  rw [hfcs, hlen]
  rfl

theorem halfRange_passes : halfRange.HdrPasses healthRequest :=
  ⟨by decide, by rw [hdrFaults_healthRequest], rfl, by decide, rfl, rfl, rfl⟩

/-- The byte of the count of events in the answer to the request. -/
def answeredEvents (q : List HdrFrame) : Option Byte := q.head?.map fun f => f.bytes.getD 57 0

/-- Refutes O15 in its clause of the health request: the received frame is counted before it is answered (R419), and in
`halfRange` that count reaches half its range, so that an event is queued (R433). The health data that goes out counts that
event; the state before had none. -/
theorem not_hedgerowFrames : ¬ Obligations.HedgerowFrames := by
  intro h
  obtain ⟨-, -, hhealth, -⟩ := h.1 halfRange healthRequest halfRange_passes
  obtain ⟨t, hexec, -, hqueue⟩ := hhealth ⟨rfl, rfl, rfl⟩ rfl (by decide) (by decide)
  have ht : (halfRange.hdrReceive healthRequest).settle = t := Host.Outcome.next.inj hexec
  rw [← ht, State.settle_hdr] at hqueue
  have hevents := congrArg answeredEvents hqueue
  unfold State.hdrReceive at hevents
  simp only [hdrFaults_healthRequest] at hevents
  exact absurd hevents (by decide)

end Sys2Proof.Machine
end

section
/-!
PROOF. What memory errors do, and how a waiting sector is refilled or poisoned (08, R203 to R217).
-/

namespace Sys2Proof.Machine

/-! ## Refills -/

section
variable {s : State} {sec : Nat}

theorem State.refillFail_mem (s : State) (sec : Nat) : (s.refillFail sec).mem = { s.mem with
    errs := s.mem.errs.insert sec .poisonCode, refills := s.mem.refills.erase sec, refillFailed := true
    failedCount := s.mem.failedCount + 1, lastKind := 4, lastAddr := sec * 32 } := by
  unfold State.refillFail
  rw [State.poisonEvents_mem]
  rfl

theorem State.sendRefillReq_mem (s : State) (jh sec : Nat) (step : Word) (kind index : Nat) (r : Role) :
    (s.sendRefillReq jh sec step kind index r).mem = s.mem := State.unsent_mem (State.unsent_emitLoose ..)

/-- The count of poisoned sectors, and its flag. -/
def Memory.poisons (m : Memory) : Bool × BitVec 16 := (m.poisoned, m.poisonCount)

theorem State.refillFail_poisons (s : State) (sec : Nat) : (s.refillFail sec).mem.poisons = s.mem.poisons := by
  rw [State.refillFail_mem]
  rfl

theorem State.askStore_poisons (s : State) (sec : Nat) (o : StoreObject) (off : Nat) :
    (s.askStore sec o off).mem.poisons = s.mem.poisons := by
  unfold State.askStore
  split
  · exact s.refillFail_poisons sec
  · split
    · exact s.refillFail_poisons sec
    · split
      · rfl
      · exact congrArg Memory.poisons ((State.unsent_mem (State.unsent_sendStore ..)).trans (State.modJob_mem ..))

theorem State.refillStore_poisons (s : State) (sec di : Nat) (d : RefillDesc) :
    (s.refillStore sec di d).mem.poisons = s.mem.poisons := by
  unfold State.refillStore
  split
  · exact s.refillFail_poisons sec
  · split
    · exact s.refillFail_poisons sec
    · exact State.askStore_poisons ..

theorem Memory.refilled_poisons (m : Memory) (sec : Nat) (data : List Byte) : (m.refilled sec data).poisons = m.poisons := by
  rw [Memory.refilled, m.storeBytes_eq]
  rfl

/-- A refill that starts leaves the count of poisoned sectors. -/
theorem State.refillStart_poisons (s : State) (sec : Nat) : (s.refillStart sec).mem.poisons = s.mem.poisons := by
  unfold State.refillStart
  split
  · exact s.mem.refilled_poisons sec _
  · split
    · exact s.refillFail_poisons sec
    · split
      · exact State.refillStore_poisons ..
      · rw [State.sendRefillReq_mem]
        rfl

/-- A sector that nothing serves takes the poison code (R211). -/
theorem State.refillStart_of_unserved (hparity : s.mem.parityServes sec = false) (hdesc : s.mem.descOf sec = none) :
    s.refillStart sec = s.refillFail sec := by
  unfold State.refillStart
  simp only [hparity, Bool.false_eq_true, if_false, hdesc]

theorem Map.has_insert_of_has {α : Type} {m : Map α} {k j : Nat} {v : α} (h : m.has j = true) : (m.insert k v).has j = true := by
  by_cases hj : j = k
  · rw [Map.has, hj, Map.find_insert_self]
    rfl
  · rw [Map.has, Map.find_insert_ne _ _ hj]
    exact h

/-- A parity group does not come to serve by one more poisoned sector. -/
theorem Memory.parityServes_poisoned {m n : Memory} {e : SectorErr} (hunits : n.units = m.units) (hlost : n.stackLost = m.stackLost)
    (herrs : n.errs = m.errs.insert sec e) (h : m.parityServes sec = false) : n.parityServes sec = false := by
  have hunit : ∀ u, n.unit u = m.unit u := fun u => congrArg (fun l : Map ClassUnit => l.getD u {}) hunits
  have hstack : ∀ x, n.stackOf x = m.stackOf x := fun x => by
    simp only [Memory.stackOf, Memory.lineOf, hunit]
  refine Bool.eq_false_iff.mpr fun hserves => ?_
  simp only [Memory.parityServes, hunit, hlost, herrs, hstack, Bool.and_eq_true, List.all_eq_true, Bool.not_eq_true'] at hserves
  obtain ⟨⟨hparity, hup⟩, hpeers⟩ := hserves
  have hserved : m.parityServes sec = true := by
    simp only [Memory.parityServes, Bool.and_eq_true, List.all_eq_true, Bool.not_eq_true']
    refine ⟨⟨hparity, hup⟩, fun p hp => ⟨(hpeers p hp).1, ?_⟩⟩
    refine Bool.eq_false_iff.mpr fun hhas => ?_
    exact absurd (hpeers p hp).2 (by simp [Map.has_insert_of_has hhas])
  exact absurd hserved (by simp [h])

end

/-! ## Errors -/

section
variable {s : State} {sec : Nat}

/-- The memory with a sector newly poisoned (R208). -/
def Memory.poisonedAt (m : Memory) (sec : Nat) : Memory :=
  { m with errs := m.errs.insert sec .poisoned, poisoned := true, poisonCount := m.poisonCount + 1, lastKind := 3
           lastAddr := sec * 32 }

theorem State.poison_of_new (hfound : s.mem.lostSector sec = false) (hnew : s.mem.errs.has sec = false) :
    s.poison sec = if s.mem.refills.length < 256 then { s with mem := s.mem.poisonedAt sec }.refillStart sec
      else { s with mem := { s.mem.poisonedAt sec with waiting := s.mem.waiting ++ [sec] } } := by
  unfold State.poison
  simp only [hfound, hnew, Bool.or_self, Bool.false_eq_true, if_false]
  rfl

theorem exec_hbmUncorrectableRead (hsec : sec / 2 ^ 25 < 576) (hclass : (s.mem.unit (sec / 2 ^ 25)).detect = false) :
    exec (.hbmUncorrectableRead sec) s = .next (s.poison sec).settle := by
  show execHbmUncorrectableRead sec s = _
  simp only [execHbmUncorrectableRead, decide_eq_false (Nat.not_le.mpr hsec), hclass, Bool.or_self, Bool.false_eq_true,
    if_false, finish]

/-- The memory once stack `k` is lost (R213, R489). -/
def Memory.stackGone (m : Memory) (k : Nat) : Memory :=
  let n := { m with stackLost := m.stackLost ||| (1#8 <<< k), lostCount := m.lostCount + 1 }
  { n with dirty := n.dirty.filter fun x => n.stackOf x != k, present := n.present.filter fun x => n.stackOf x != k
           refills := n.refills.sel fun x _ => !n.lostSector x, waiting := n.waiting.filter fun x => !n.lostSector x
           channels := n.channels.mapVals fun c x => if c / 32 = k then { x with online := false } else x }

theorem State.loseStack_mem {k : Nat} (hk : k < 8) (hup : s.mem.stackLost.getLsbD k = false) :
    (s.loseStack k).mem = s.mem.stackGone k := by
  have hin : (decide (8 ≤ k) || s.mem.stackLost.getLsbD k) = false := by
    rw [decide_eq_false (Nat.not_le.mpr hk), hup, Bool.or_self]
  unfold State.loseStack
  rw [if_neg (by rw [hin]; exact Bool.false_ne_true)]
  exact foldl_keeps (fun t : State => t.mem) (fun (t : State) l => t.poisonEvents (4 * l))
    (fun t l => State.poisonEvents_mem ..) _ _

end

/-- Settles O18: each event is one branch of its handling; what a refill sends leaves memory. -/
theorem memoryErrorsAndRefills : Obligations.MemoryErrorsAndRefills := by
  refine ⟨⟨?_, ?_, ?_, fun s sec => rfl, ?_, ?_, ?_, ?_, ?_⟩, ?_, ?_, ?_, ?_, ?_⟩
  · intro s sec hsec hclass
    show execCorrectedReadError sec s = _
    simp only [execCorrectedReadError, decide_eq_false (Nat.not_le.mpr hsec), hclass, Bool.or_self, Bool.false_eq_true,
      if_false, finish, State.correctedAt, Memory.last]
  · intro s sec hsec hclass hfound hnew hfull
    rw [exec_hbmUncorrectableRead hsec hclass, State.poison_of_new hfound hnew, if_neg (Nat.not_lt.mpr hfull)]
    rfl
  · intro s sec hsec hclass hfound hnew hroom
    obtain ⟨u, hu⟩ : ∃ u : State, u = { s with mem := s.mem.poisonedAt sec } := ⟨_, rfl⟩
    have hpoison : s.poison sec = u.refillStart sec := by
      rw [State.poison_of_new hfound hnew, if_pos hroom, hu]
    have hcounts : u.mem.poisons = (true, s.mem.poisonCount + 1) := by rw [hu]; rfl
    have hkept := (u.refillStart_poisons sec).trans hcounts
    refine ⟨(s.poison sec).settle, exec_hbmUncorrectableRead hsec hclass, ?_, ?_, fun hparity hdesc => ?_⟩
    · rw [State.settle_mem, hpoison]
      exact congrArg Prod.fst hkept
    · rw [State.settle_mem, hpoison]
      exact congrArg Prod.snd hkept
    · have hunserved : u.mem.parityServes sec = false := by
        rw [hu]
        exact Memory.parityServes_poisoned (m := s.mem) (n := s.mem.poisonedAt sec) rfl rfl rfl hparity
      have hnone : u.mem.descOf sec = none := by rw [hu]; exact hdesc
      rw [State.settle_mem, hpoison, State.refillStart_of_unserved hunserved hnone, State.refillFail_mem, hu]
      exact ⟨Map.find_insert_self .., rfl⟩
  · intro s sec hclean
    show execCacheError sec false s = _
    simp only [execCacheError, Bool.false_eq_true, if_false, hclean, finish]
  · intro s sec hdirty hsec hclass
    obtain ⟨u, hu⟩ : ∃ u : State, u = { s with mem := { s.mem with
      cacheUncorr := true, cacheUncorrCount := s.mem.cacheUncorrCount + 1 } } := ⟨_, rfl⟩
    refine ⟨(u.detect sec).settle, ?_, ?_, ?_⟩
    · have huclass : (u.mem.unit (sec / 2 ^ 25)).detect = true := by rw [hu]; exact hclass
      have hdetects : u.uncorrectable sec = u.detect sec :=
        (if_neg (Nat.not_le.mpr hsec)).trans (if_pos huclass)
      show execCacheError sec false s = _
      unfold execCacheError
      rw [if_neg Bool.false_ne_true, ← hdetects, hu]
      exact if_pos hdirty
    · rw [State.settle_mem]
      exact Map.find_insert_self ..
    · rw [State.settle_mem, hu]
      rfl
  · intro s sec hrate hdue hclass
    have htake : [sec].take (8 * s.mem.scrubRate) = [sec] := List.take_of_length_le (by simp; omega)
    have hskip : (decide (s.mem.scrubRate = 0) || decide (s.elapsed s.mem.lastScrub < 2 ^ 20)) = false := by
      rw [decide_eq_false hrate, decide_eq_false (Nat.not_lt.mpr hdue), Bool.or_self]
    refine (if_neg (Bool.eq_false_iff.mp hskip)).trans ?_
    show finish (List.foldl State.scrubFind (List.foldl _ _ ([sec].take (8 * s.mem.scrubRate)))
      ([].take (8 * _))) = _
    rw [htake, List.take_nil]
    exact congrArg finish (if_neg (Bool.eq_false_iff.mp hclass))
  · intro s ch hch
    refine ⟨_, if_neg (Nat.not_le.mpr hch), ?_, ?_⟩
    · rw [State.settle_mem]
      rfl
    · rw [State.settle_mem]
      exact Map.getD_insert_self ..
  · intro s ch hch hrows
    refine ⟨_, if_neg (Nat.not_le.mpr hch), ?_⟩
    rw [State.settle_mem]
    refine (Map.getD_insert_self ..).trans ?_
    exact if_pos hrows
  · intro s sec rest hwait hroom
    show execRefillTableFree s = _
    simp only [execRefillTableFree, hwait, if_pos hroom, finish]
  · intro s sec ep st since sent e d kind index r hfind hwait hdesc hdue hpartner
    obtain ⟨u, hu⟩ : ∃ u : State, u = { s with mem := { s.mem with
      refills := s.mem.refills.insert sec { e with wait := .partner ep st since s.edge.count } } } := ⟨_, rfl⟩
    have hmem := u.sendRefillReq_mem d.job sec st kind index r
    refine ⟨(u.sendRefillReq d.job sec st kind index r).settle, ?_, ?_, ?_, ?_⟩
    · show execRefillReqResend sec s = _
      simp only [execRefillReqResend, hfind, hwait, hdesc, if_neg (Nat.not_lt.mpr hdue), hpartner]
      rw [hu]
      rfl
    · rw [State.settle_mem, hmem, hu]
      exact Map.find_insert_self ..
    · rw [State.settle_mem, hmem, hu]
    · rw [State.settle_mem, hmem, hu]
  · intro s sec ep st since sent e d hfind hwait hdesc hdue hobject
    refine ⟨(s.refillFail sec).settle, ?_, ?_⟩
    · show execRefillDeadline sec s = _
      simp only [execRefillDeadline, hfind, hwait, if_pos hdue, State.refillNext, hdesc, State.refillStore, hobject, finish]
    · rw [State.settle_mem, State.refillFail_mem]
      exact ⟨Map.find_insert_self .., rfl, rfl, rfl⟩
  · intro s h r data hheld hanswer
    show execRefillReqServe s = _
    have hnone : [h].filter (· ≠ h) = [] := by simp
    simp only [execRefillReqServe, hheld, List.find?_cons, hanswer, Option.isSome_some, finish, hnone]
  · intro s k hk hup
    have hmem := State.loseStack_mem hk hup
    refine ⟨(s.loseStack k).settle, rfl, ?_, ?_, ?_, fun x hx => ?_, fun x hx => ?_⟩
    · rw [State.settle_mem, hmem, Memory.stackGone]
    · rw [State.settle_mem, hmem, Memory.stackGone]
    · rw [State.settle_mem, hmem, Memory.stackGone]
    · rw [State.settle_mem, hmem, Memory.stackGone] at hx
      exact bne_iff_ne.mp (List.mem_filter.mp hx).2
    · rw [State.settle_mem, hmem, Memory.stackGone] at hx
      exact bne_iff_ne.mp (List.mem_filter.mp hx).2

end Sys2Proof.Machine
end

section
/-!
PROOF. Power loss and cold start (16, Table 16.2): what the steps of a cold start leave unchanged, and how the device state
follows the dies.
-/

namespace Sys2Proof.Machine

/-! ## What runs, and how it came to run (R447, R462) -/

/-- The image that runs, and what is known of a cold trial. -/
def Firmware.start (f : Firmware) : Nat × Bool × Bool × Bool × Option ColdStart × Bool × BitVec 16 :=
  (f.running, f.rom, f.noImage, f.coldTrial, f.coldWait, f.reverted, f.revertCount)

/-- What a cold start leaves once its image runs. -/
def State.start (s : State) : Nat × Bool × Bool × Bool × Option ColdStart × Bool × BitVec 16 := s.fw.start

section
variable (s : State)

theorem State.start_of_unworked {u : State} (h : u.unworked = s.unworked) : u.start = s.start :=
  congrArg (·.1.fw.start) h

theorem Firmware.start_writeRecord (f : Firmware) (g : Record → Record) : (f.writeRecord g).start = f.start := by
  unfold Firmware.writeRecord
  dsimp only
  split <;> rfl

theorem State.start_writeRecord (g : Record → Record) : (s.writeRecord g).start = s.start := by
  unfold State.writeRecord
  split
  · rfl
  · exact s.fw.start_writeRecord g

theorem State.start_applyReset (l : Nat) (c : ResetCause) : (s.applyReset l c).start = s.start := by
  unfold State.applyReset
  split
  · simp [State.beginReset, State.start]
  · simp [State.beginReset, State.start]
  · simp [State.start]
  · split
    · simp [State.start]
    split <;> simp [State.start]
  · rfl

theorem State.start_respond (l : Nat) (st : Status) (rs : List Word) : (s.respond l st rs).start = s.start := by
  have hreset (u : State) : (u.flushReset l).start = u.start := by
    unfold State.flushReset
    split
    · rfl
    · rw [State.start_applyReset, State.start, State.modLea_fw, State.start]
  have hevents (u : State) : (u.flushEvents l).start = u.start :=
    (foldl_keeps State.start (fun (s : State) e => s.applyEvent l e)
      (fun t e => t.start_of_unworked (t.unworked_applyEvent l e)) _ _).trans (congrArg Firmware.start (u.modLea_fw l _))
  have hresponded : (s.responded l st rs).start = s.start := by
    unfold State.responded
    exact (State.start_of_unworked _ (State.unworked_ite_interrupt ..)).trans (congrArg Firmware.start (s.modLea_fw l _))
  rw [State.respond_eq, hreset, hevents, hresponded]

theorem State.start_fenceDie (d : Nat) : (s.fenceDie d).start = s.start := by
  have hout : (s.dieOut d).start = s.start := State.start_of_unworked { s with array := s.array.dieOut d } (s.unworked_dieOut d)
  have hanswer (u : State) : (u.answerUnfence d .unitFault).start = u.start := by
    unfold State.answerUnfence
    split
    · exact u.start_respond ..
    · rfl
  have hcheck (u : State) : u.checkAllFenced.start = u.start := by
    unfold State.checkAllFenced
    split
    · exact (congrArg Firmware.start (State.setDev_fw ..)).trans (u.start_writeRecord _)
    · rfl
  unfold State.fenceDie
  rw [hcheck, hanswer]
  generalize s.dieOut d = u at hout ⊢
  exact hout

theorem State.start_startDie (d : Nat) (c : Census) : (s.startDie d c).start = s.start := by
  unfold State.startDie
  dsimp only
  split
  · exact State.start_fenceDie ..
  · rfl

/-- A stack that is lost changes memory, and the events of the leas. -/
theorem State.unworked_loseStack (k : Nat) : (s.loseStack k).unworked = s.unworked := by
  unfold State.loseStack
  split
  · rfl
  · exact foldl_keeps State.unworked (fun (t : State) l => t.poisonEvents (4 * l))
      (fun t l => State.unworked_poisonEvents ..) _ _

/-- A stack that comes up changes memory and its domain. -/
theorem State.unworked_startStack (pass : BitVec 8) (k : Nat) :
    (s.startStack pass k).unworked = (s.setOnline k true).unworked := by
  have hserves (t : State) := foldl_keeps State.unworked (fun (t : State) ch => t.modChannel ch fun c =>
    { c with online := true, sparePins := min 4 (Config.trainedSpares ch).1, spareRows := (Config.trainedSpares ch).2 % 256 })
    (fun t ch => rfl) (range' (32 * k) 32) t
  unfold State.startStack
  dsimp only
  split
  · exact hserves _
  · exact (State.unworked_loseStack ..).trans (hserves _)

end

/-! ## A machine with no row and no answer open -/

/-- What the steps of a cold start leave of a machine that has no row and owes no answer. -/
def State.idle (s : State) : List Instr × Map Job × Map Op × Map Cluster × Bool × (Nat → Option Lea) :=
  (s.pending, s.jobs, s.hub.ops, s.scalar.clusters, s.edge.refPresent, fun l => (s.leas.find l).map Lea.unnoted)

/-- No cluster has a row, and the answer of no WX_UNFENCE is owed. -/
def State.Still (s : State) : Prop :=
  s.scalar.clusters = [] ∧ ((s.leas.find 0).map Lea.unnoted).all fun x => x.mbx.deferral == none

section
variable {s u : State}

theorem State.Still.of_idle (h : s.Still) (hu : u.idle = s.idle) : u.Still := by
  obtain ⟨hclusters, hmbx⟩ := h
  refine ⟨(congrArg (·.2.2.2.1) hu).trans hclusters, ?_⟩
  have hleas := congrFun (congrArg (·.2.2.2.2.2) hu) 0
  exact (congrArg (fun o : Option Lea => o.all fun x => x.mbx.deferral == none) hleas).trans hmbx

theorem State.Still.deferral (h : s.Still) : (s.lea 0).mbx.deferral = none := by
  obtain ⟨-, hmbx⟩ := h
  rw [State.lea, Map.getD]
  cases hfind : s.leas.find 0 with
  | none => rfl
  | some x =>
    rw [hfind] at hmbx
    exact eq_of_beq hmbx

theorem State.idle_of_unworked (h : u.unworked = s.unworked) (hops : u.hub.ops = s.hub.ops)
    (hclusters : u.scalar.clusters = s.scalar.clusters) : u.idle = s.idle := by
  simp only [State.idle, State.unworked_pending h, State.unworked_jobs h, State.unworked_edge h, hops, hclusters,
    funext (State.unworked_find h)]

theorem State.idle_setDev (s : State) (d : DevState) : (s.setDev d).idle = s.idle := by
  unfold State.setDev
  split <;> rfl

theorem State.idle_writeRecord (s : State) (g : Record → Record) : (s.writeRecord g).idle = s.idle := by
  unfold State.writeRecord
  split <;> rfl

theorem State.idle_loseStack (s : State) (k : Nat) : (s.loseStack k).idle = s.idle := by
  refine State.idle_of_unworked (s.unworked_loseStack k) ?_ ?_
  · unfold State.loseStack
    split
    · rfl
    · exact foldl_keeps (fun t : State => t.hub.ops) (fun (t : State) l => t.poisonEvents (4 * l))
        (fun t l => congrArg Hub.ops (State.poisonEvents_hub ..)) _ _
  · unfold State.loseStack
    split
    · rfl
    · exact foldl_keeps (fun t : State => t.scalar.clusters) (fun (t : State) l => t.poisonEvents (4 * l))
        (fun t l => congrArg Scalar.clusters (State.poisonEvents_scalar ..)) _ _

theorem State.idle_startStack (s : State) (pass : BitVec 8) (k : Nat) : (s.startStack pass k).idle = s.idle := by
  have hserves (t : State) := foldl_keeps State.idle (fun (t : State) ch => t.modChannel ch fun c =>
    { c with online := true, sparePins := min 4 (Config.trainedSpares ch).1, spareRows := (Config.trainedSpares ch).2 % 256 })
    (fun t ch => rfl) (range' (32 * k) 32) t
  unfold State.startStack
  dsimp only
  split
  · exact hserves _
  · exact (State.idle_loseStack ..).trans (hserves _)

theorem State.idle_bringUp (s : State) (l : List Nat) : (s.bringUp l).idle = s.idle :=
  foldl_keeps State.idle (fun (s : State) d => s.setOnline d true) (fun _ _ => rfl) l s

/-! ## The dies come up, or are fenced (R246) -/

theorem State.dropRow_of_none (h : s.scalar.clusters = []) (c : Nat) : s.dropRow c = s := by
  unfold State.dropRow
  rw [h]
  rfl

/-- A die of a machine with no row leaves service. -/
theorem State.Still.dieOut_eq (h : s.Still) (d : Nat) : s.dieOut d = { s with array := s.array.dieOut d } := by
  have hrows : (s.dieOut d) = { s with array := (s.dieOut d).array } := by
    have hkept (a : ArrayUnit) : (range' (64 * d) 64).foldl State.dropRow { s with array := a } = { s with array := a } :=
      foldl_unmoved (f := State.dropRow) (a := { s with array := a }) (fun c => State.dropRow_of_none (s := { s with array := a }) h.1 c) _
    unfold State.dieOut
    rw [hkept]
  rw [hrows, State.dieOut_array]

/-- Whether every die is fenced. -/
def State.allFenced (s : State) : Prop := ∀ d < 4, (s.die d).st = .fenced

theorem State.checkAllFenced_of_all (h : s.allFenced) : s.checkAllFenced.hub.dev = .halted := by
  have hall : ((List.range 4).all fun d => (s.die d).st == .fenced) = true := by
    simpa [State.allFenced] using h
  rw [State.checkAllFenced, if_pos hall, State.setDev_dev]

theorem State.checkAllFenced_of_some (h : ¬ s.allFenced) : s.checkAllFenced = s := by
  have hall : ¬ ((List.range 4).all fun d => (s.die d).st == .fenced) = true := by
    simpa [State.allFenced] using h
  exact if_neg hall

theorem State.idle_checkAllFenced (s : State) : s.checkAllFenced.idle = s.idle := by
  unfold State.checkAllFenced
  split
  · exact (State.idle_setDev ..).trans (State.idle_writeRecord ..)
  · rfl

/-- The state of a machine with no row whose die is fenced, before Cihal looks at the other dies. -/
def State.fencing (s : State) (d : Nat) : State :=
  { s with array := s.array.dieOut d, dies := (s.fenceDie d).dies }

theorem State.Still.fenceDie_eq (h : s.Still) (d : Nat) : s.fenceDie d = (s.fencing d).checkAllFenced := by
  have hquiet : ¬ (s.lea 0).mbx.deferral = some (.wxUnfence d) := by
    rw [h.deferral]
    exact nofun
  have hdies := s.fenceDie_dies d
  unfold State.fencing
  rw [hdies]
  unfold State.fenceDie
  rw [h.dieOut_eq]
  exact congrArg State.checkAllFenced (if_neg hquiet)

theorem State.die_fencing (s : State) (d e : Nat) : (s.fencing d).die e = (s.fenceDie d).die e :=
  State.die_congr (by simp only [State.fencing]) e

/-- The device is HALTED once every die is fenced, and in BOOT until then. -/
def State.DevFits (s : State) : Prop := (s.allFenced → s.hub.dev = .halted) ∧ (¬ s.allFenced → s.hub.dev = .boot)

theorem State.DevFits.fenceDie (h : s.Still) (hboot : s.hub.dev = .boot) (d : Nat) : (s.fenceDie d).DevFits := by
  have hsame : (s.fenceDie d).allFenced ↔ (s.fencing d).allFenced := by
    simp only [State.allFenced, State.die_fencing]
  rw [State.DevFits, hsame, h.fenceDie_eq]
  exact ⟨State.checkAllFenced_of_all, fun hsome => by rw [State.checkAllFenced_of_some hsome]; exact hboot⟩

theorem State.startDie_of_bad {d : Nat} {c : Census} (h : (((s.census d c.failed).die d).narrow || !c.selfTest) = true) :
    s.startDie d c = (s.census d c.failed).fenceDie d := by
  simp only [State.startDie, h, if_true]

theorem State.startDie_of_good {d : Nat} {c : Census} (h : (((s.census d c.failed).die d).narrow || !c.selfTest) = false) :
    s.startDie d c = ((s.census d c.failed).dieIn d).modDie d fun x => { x with rate := c.rate, rateValid := true } := by
  simp only [State.startDie, h, Bool.false_eq_true, if_false]

theorem State.die_census_ne (s : State) {d e : Nat} (h : e ≠ d) (failed : List (Nat × Nat)) :
    (s.census d failed).die e = s.die e := State.die_modDie_ne _ _ h

theorem State.die_dieIn_ne (s : State) {d e : Nat} (h : e ≠ d) : (s.dieIn d).die e = s.die e := by
  rw [State.dieIn, State.die_modDie_ne _ _ h]
  rfl

/-- A die's step 9: the machine stays as it was but for the dies, and the device state fits them. -/
theorem State.startDie_facts (h : s.Still) (hboot : s.hub.dev = .boot) {d : Nat} (hd : d < 4) (c : Census) :
    (s.startDie d c).idle = s.idle ∧ (∀ e, e ≠ d → (s.startDie d c).die e = s.die e) ∧ (s.startDie d c).DevFits := by
  have hstill : (s.census d c.failed).Still := h.of_idle rfl
  cases hbad : ((s.census d c.failed).die d).narrow || !c.selfTest with
  | true =>
    rw [State.startDie_of_bad hbad]
    refine ⟨?_, fun e he => ?_, State.DevFits.fenceDie hstill hboot d⟩
    · rw [hstill.fenceDie_eq]
      exact State.idle_checkAllFenced _
    · rw [State.die_fenceDie_ne _ he]
      exact s.die_census_ne he _
  | false =>
    rw [State.startDie_of_good hbad]
    have hin : ((((s.census d c.failed).dieIn d).modDie d fun x => { x with rate := c.rate, rateValid := true }).die d).st =
        .inService := by
      rw [State.die_modDie_self]
      exact congrArg Die.st (State.die_modDie_self ..)
    refine ⟨rfl, fun e he => ?_, fun hall => ?_, fun _ => hboot⟩
    · rw [State.die_modDie_ne _ _ he, State.die_dieIn_ne _ he, State.die_census_ne _ he]
    · have hfenced := hall d hd
      rw [hin] at hfenced
      exact absurd hfenced nofun

/-- The dies from `0` up to `n` have taken step 9. -/
def State.startUpTo (s : State) (l : List Census) (n : Nat) : State :=
  (List.range n).foldl (fun s d => s.startDie d (l.getD d { failed := [], selfTest := false, rate := 0 })) s

theorem State.startUpTo_facts (h : s.Still) (hboot : s.hub.dev = .boot) (hdies : ∀ d, (s.die d).st ≠ .fenced)
    (l : List Census) (n : Nat) (hn : n ≤ 4) : (s.startUpTo l n).idle = s.idle ∧
      (∀ e, n ≤ e → (s.startUpTo l n).die e = s.die e) ∧ (s.startUpTo l n).DevFits := by
  induction n with
  | zero => exact ⟨rfl, fun _ _ => rfl, fun hall => absurd (hall 0 (by omega)) (hdies 0), fun _ => hboot⟩
  | succ n ih =>
    obtain ⟨hidle, hrest, -, hfits⟩ := ih (by omega)
    have hopen : ¬ (s.startUpTo l n).allFenced := fun hall => by
      have hfenced := hall n (by omega)
      rw [hrest n (Nat.le_refl n)] at hfenced
      exact hdies n hfenced
    have hlast : s.startUpTo l (n + 1) =
        (s.startUpTo l n).startDie n (l.getD n { failed := [], selfTest := false, rate := 0 }) := by
      rw [State.startUpTo, List.range_succ, List.foldl_append, List.foldl_cons, List.foldl_nil, ← State.startUpTo]
    obtain ⟨hidle', hdie', hfits'⟩ := State.startDie_facts (h.of_idle hidle) (hfits hopen) (by omega : n < 4)
      (l.getD n { failed := [], selfTest := false, rate := 0 })
    rw [hlast]
    exact ⟨hidle'.trans hidle, fun e he => (hdie' e (by omega)).trans (hrest e (by omega)), hfits'⟩

/-! ## The last steps -/

/-- What the last steps leave of the dies and the device state. -/
def State.diesDev (s : State) : Dies × DevState := (s.dies, s.hub.dev)

theorem State.diesDev_of_unworked (h : u.unworked = s.unworked) : u.diesDev = s.diesDev :=
  Prod.ext (State.unworked_dies h) (State.unworked_dev h)

/-- The device before its record is written: every stack and the last domains are up. -/
def State.stacksUp (s : State) (c : ColdStart) : State :=
  ((List.range 8).foldl (fun s k => s.startStack c.stacksOk k) s).bringUp (30 :: 39 :: range' 8 20)

theorem State.idle_stacksUp (s : State) (c : ColdStart) : (s.stacksUp c).idle = s.idle :=
  (State.idle_bringUp ..).trans (foldl_keeps State.idle (fun (s : State) k => s.startStack c.stacksOk k)
    (fun s k => s.idle_startStack c.stacksOk k) _ _)

theorem State.diesDev_stacksUp (s : State) (c : ColdStart) : (s.stacksUp c).diesDev = s.diesDev :=
  (foldl_keeps State.diesDev (fun (s : State) d => s.setOnline d true) (fun _ _ => rfl) _ _).trans
    (foldl_keeps State.diesDev (fun (s : State) k => s.startStack c.stacksOk k)
      (fun s k => (State.diesDev_of_unworked (s.unworked_startStack c.stacksOk k)).trans rfl) _ _)

theorem State.stacksUp_dies (s : State) (c : ColdStart) : (s.stacksUp c).dies = s.dies := by
  have h := s.diesDev_stacksUp c
  simp only [State.diesDev, Prod.mk.injEq] at h
  exact h.1

theorem State.start_stacksUp (s : State) (c : ColdStart) : (s.stacksUp c).start = s.start :=
  (foldl_keeps State.start (fun (s : State) d => s.setOnline d true) (fun _ _ => rfl) _ _).trans
    (foldl_keeps State.start (fun (s : State) k => s.startStack c.stacksOk k)
      (fun s k => (State.start_of_unworked _ (s.unworked_startStack c.stacksOk k)).trans rfl) _ _)

/-- The record of a start: a lost leaf state first takes a new key generation (R451, R453). -/
def State.recordStart (s : State) : State :=
  let s := if s.fw.leafUnknown then { s with fw := s.fw.advanceKeygen } else s
  s.writeRecord fun r => { r with bootCount := r.bootCount + 1, leafLimit := s.fw.nextLeaf + 64, keygen := s.fw.fuses.keygen }

theorem State.finishStart_eq (s : State) : s.finishStart = (s.recordStart.setDev .ready).setLeaSt 0 .enabled := rfl

theorem State.idle_recordStart (s : State) : s.recordStart.idle = s.idle := by
  unfold State.recordStart
  refine (State.idle_writeRecord ..).trans ?_
  split <;> rfl

theorem State.start_recordStart (s : State) : s.recordStart.start = s.start := by
  unfold State.recordStart
  refine (State.start_writeRecord ..).trans ?_
  split <;> rfl

theorem State.recordStart_dies (s : State) : s.recordStart.dies = s.dies := by
  unfold State.recordStart
  refine (State.writeRecord_dies ..).trans ?_
  split <;> rfl

theorem State.start_finishStart (s : State) : s.finishStart.start = s.start := by
  rw [State.finishStart_eq, State.start, State.setLeaSt_fw, State.setDev_fw]
  exact s.start_recordStart

theorem State.finishStart_dies (s : State) : s.finishStart.dies = s.dies := by
  rw [State.finishStart_eq, State.setLeaSt_dies, State.setDev_dies, State.recordStart_dies]

theorem State.coldLast_of_halted (c : ColdStart) (h : s.hub.dev = .halted) : s.coldLast c = s := by
  unfold State.coldLast
  rw [h]

theorem State.coldLast_of_not_halted (c : ColdStart) (h : s.hub.dev ≠ .halted) : s.coldLast c = (s.stacksUp c).finishStart := by
  unfold State.coldLast
  split
  · next hhalted => exact absurd hhalted h
  · rfl

theorem State.start_coldEnd (s : State) (c : ColdStart) : (s.coldEnd c).start = (s.coldPower c).start := by
  have hdies (t : State) : (t.startDies c.dies).start = t.start :=
    foldl_keeps State.start (fun (s : State) d => s.startDie d (c.dies.getD d { failed := [], selfTest := false, rate := 0 }))
      (fun s d => s.start_startDie ..) _ _
  have hlast (t : State) : (t.coldLast c).start = t.start := by
    by_cases h : t.hub.dev = .halted
    · rw [State.coldLast_of_halted c h]
    · rw [State.coldLast_of_not_halted c h, State.start_finishStart, State.start_stacksUp]
  rw [State.coldEnd, hlast, hdies]
  rfl

end

/-! ## The whole start -/

section
variable {s : State}

theorem Map.find_isSome_of_mem {α : Type} {m : Map α} {e : Nat × α} (h : e ∈ m) : (m.find e.1).isSome := by
  induction m with
  | nil => cases h
  | cons a m ih =>
    rw [Map.find]
    split
    · rfl
    · next hne =>
      obtain rfl | hrest := List.mem_cons.mp h
      · exact absurd rfl hne
      · exact ih hrest

theorem State.tenants_of_alone (h : ∀ l, l ≠ 0 → s.leas.find l = none) : s.tenants = 0 := by
  rw [State.tenants, List.length_eq_zero_iff, List.filter_eq_nil_iff]
  intro e he hlea
  have hkey : e.1 ≠ 0 := by simp at hlea; exact hlea.1
  have hlisted := Map.find_isSome_of_mem he
  rw [h e.1 hkey] at hlisted
  cases hlisted

/-- Lea 0 exists, and no other lea. -/
def State.Alone (s : State) : Prop := ∀ l, (s.leas.find l).isSome = decide (l = 0)

theorem State.Alone.of_idle {u : State} (h : s.Alone) (hu : u.idle = s.idle) : u.Alone := fun l => by
  have hleas := congrArg Option.isSome (congrFun (congrArg (·.2.2.2.2.2) hu) l)
  rw [← h l]
  simpa only [State.idle, Option.isSome_map] using hleas

/-- A cold start's end where a die serves: READY, with lea 0 ENABLED (R502). -/
theorem State.finishStart_ready (h : s.Alone) : s.finishStart.settle.hub.dev = .ready ∧
    (s.finishStart.settle.lea 0).st = .enabled := by
  have halone : s.recordStart.Alone := h.of_idle s.idle_recordStart
  have hlea : ((s.recordStart.setDev .ready).leas.find 0).isSome := by
    rw [State.setDev_leas, halone 0]
    rfl
  have htenants : s.finishStart.tenants = 0 := State.tenants_of_alone fun l hl => by
    have hnone := halone l
    rw [decide_eq_false hl] at hnone
    rw [← Option.not_isSome_iff_eq_none, State.finishStart_eq, State.setLeaSt, State.find_modLea, State.setDev_leas, hnone]
    exact Bool.false_ne_true
  have hdev : s.finishStart.hub.dev = .ready := by
    rw [State.finishStart_eq, State.setLeaSt_hub, State.setDev_dev]
  constructor
  · rw [State.settle_dev, State.settleDev, hdev]
    simp only [htenants, Nat.lt_irrefl, if_false, hdev]
  · rw [State.lea_settle_st, State.finishStart_eq, State.setLeaSt, State.lea_modLea_self _ _ _ hlea, Lea.goto_st]

/-- A state is left but for its leas. -/
def State.left (s : State) : List Instr × Map Job × Map Op × Bool := (s.pending, s.jobs, s.hub.ops, s.edge.refPresent)

theorem State.left_of_idle {u : State} (h : u.idle = s.idle) : u.left = s.left :=
  congrArg (fun i : List Instr × Map Job × Map Op × Map Cluster × Bool × (Nat → Option Lea) => (i.1, i.2.1, i.2.2.1, i.2.2.2.2.1)) h

theorem State.left_finishStart (s : State) : s.finishStart.left = s.left := by
  rw [State.finishStart_eq, ← State.left_of_idle s.idle_recordStart]
  simp [State.left]

theorem State.left_settle (s : State) : s.settle.left = s.left := by
  simp [State.left]

/-- Steps 7 to 13 of Table 16.2 on a machine that holds nothing. -/
theorem State.coldEnd_facts (hstill : s.Still) (hboot : s.hub.dev = .boot) (hdies : ∀ d, (s.die d).st ≠ .fenced)
    (halone : s.Alone) (c : ColdStart) : (s.coldEnd c).settle.left = s.left ∧
      ((∀ d < 4, ((s.coldEnd c).settle.die d).st = .fenced) → (s.coldEnd c).settle.hub.dev = .halted) ∧
      ((∃ d < 4, ((s.coldEnd c).settle.die d).st ≠ .fenced) → (s.coldEnd c).settle.hub.dev = .ready ∧
        ((s.coldEnd c).settle.lea 0).st = .enabled) := by
  obtain ⟨u, hu⟩ : ∃ u, u = (s.coldPower c).bringUp [36, 28, 29] := ⟨_, rfl⟩
  have hidle : u.idle = s.idle := by
    rw [hu]
    exact State.idle_bringUp ..
  have hdev : u.hub.dev = .boot := by
    rw [hu]
    exact hboot
  have hopen : ∀ d, (u.die d).st ≠ .fenced := by
    rw [hu]
    exact hdies
  obtain ⟨hidle', -, hall, hsome⟩ := State.startUpTo_facts (hstill.of_idle hidle) hdev hopen c.dies 4 (Nat.le_refl 4)
  obtain ⟨w, hw⟩ : ∃ w, w = u.startUpTo c.dies 4 := ⟨_, rfl⟩
  have hend : s.coldEnd c = w.coldLast c := by
    rw [hw, hu]
    rfl
  rw [← hw] at hidle' hall hsome
  rw [hend]
  by_cases hfenced : w.allFenced
  · rw [State.coldLast_of_halted c (hall hfenced)]
    refine ⟨?_, fun _ => State.settle_dev_of_halted (hall hfenced), fun ⟨d, hd, hst⟩ => ?_⟩
    · rw [State.left_settle, State.left_of_idle (hidle'.trans hidle)]
    · rw [State.die_settle] at hst
      exact absurd (hfenced d hd) hst
  · have hnot : w.hub.dev ≠ .halted := by rw [hsome hfenced]; exact nofun
    have hlast : (w.stacksUp c).idle = s.idle := (State.idle_stacksUp ..).trans (hidle'.trans hidle)
    rw [State.coldLast_of_not_halted c hnot]
    refine ⟨?_, fun hst => absurd (fun d hd => ?_) hfenced, fun _ => State.finishStart_ready (halone.of_idle hlast)⟩
    · rw [State.left_settle, State.left_finishStart, State.left_of_idle hlast]
    · have hdie : (w.stacksUp c).finishStart.die d = w.die d := State.die_congr (by
        rw [State.finishStart_dies, State.stacksUp_dies]) d
      rw [← hdie, ← State.die_settle]
      exact hst d hd

end

/-! ## What the store holds after a loss -/

theorem Firmware.cutShort_fuses (f : Firmware) (c : StoreCut) : (f.cutShort c).fuses = f.fuses := by
  unfold Firmware.cutShort
  split
  · rfl
  · split <;> rfl
  · split <;> rfl
  · rfl

theorem Firmware.winner_congr {f g : Firmware} (hflash : f.flash = g.flash) (hfuses : f.fuses = g.fuses) :
    f.winner = g.winner := by
  have hstore (f : Firmware) : f.winner = Firmware.winner { flash := f.flash, fuses := f.fuses } := rfl
  rw [hstore f, hflash, hfuses, ← hstore g]

theorem Firmware.bankTrial_congr {f g : Firmware} (hflash : f.flash = g.flash) (b : Nat) : f.bankTrial b = g.bankTrial b := by
  simp only [Firmware.bankTrial, Firmware.bankN, Firmware.bank, hflash]

/-! ## Steps 3 to 6 -/

section
variable (s : State)

theorem State.bringUp_eq (l : List Nat) : ∃ e, s.bringUp l = { s with edge := e } ∧ e.refPresent = s.edge.refPresent := by
  induction l generalizing s with
  | nil => exact ⟨s.edge, rfl, rfl⟩
  | cons d l ih =>
    obtain ⟨e, he, href⟩ := ih (s.setOnline d true)
    exact ⟨e, he, href⟩

/-- The entropy source comes up, or is fenced (R439). -/
def State.entropyUp (c : ColdStart) : State := if c.entropy then s.setOnline 37 true else s.fenceDomain 37

theorem State.entropyUp_eq (c : ColdStart) :
    ∃ e, s.entropyUp c = { s with edge := e } ∧ e.refPresent = s.edge.refPresent := by
  unfold State.entropyUp
  split
  · exact ⟨_, rfl, rfl⟩
  · exact ⟨_, rfl, rfl⟩

/-- Step 3: the clock domains run from the reference clock, with the fused address. -/
def State.clocked (c : ColdStart) : State :=
  { s with
    edge := { s.edge with refPresent := true, refLostAt := none, pmOsc := false, cihOsc := false }
    hdr := { s.hdr with mac := s.fw.fuses.mac, seed := c.seed.toNat + leToNat s.fw.fuses.mac }
    fw := { s.fw with coldWait := none } }

/-- The machine before step 6, its store domain up. -/
def State.storeUp (c : ColdStart) : State :=
  let s := (((s.clocked c).bringUp [31, 32, 34, 35, 38]).entropyUp c).setOnline 33 true
  { s with fw := { s.fw with leafUnknown := s.fw.record.isNone, nextLeaf := s.fw.current.leafLimit } }

/-- Step 6: the image of the store's winner starts. -/
def State.coldStore (c : ColdStart) : State :=
  match s.fw.winner with
  | none => s.noImage
  | some b => s.coldImage c b

theorem State.storeUp_eq (c : ColdStart) : ∃ e h f, s.storeUp c = { s with edge := e, hdr := h, fw := f } ∧
    e.refPresent = true ∧ f.start = { s.fw with coldWait := none }.start ∧ f.flash = s.fw.flash ∧ f.fuses = s.fw.fuses := by
  obtain ⟨e₁, hbring, href₁⟩ := (s.clocked c).bringUp_eq [31, 32, 34, 35, 38]
  obtain ⟨e₂, hentropy, href₂⟩ := State.entropyUp_eq { s.clocked c with edge := e₁ } c
  unfold State.storeUp
  rw [hbring, hentropy]
  exact ⟨_, _, _, rfl, href₂.trans href₁, rfl, rfl, rfl⟩

theorem State.coldMiddle_eq {c : ColdStart} {b : Nat} (hxspi : c.xspi = true) (hwinner : (s.storeUp c).fw.winner = some b) :
    s.coldMiddle c = (s.storeUp c).coldImage c b := by
  have hnext : s.coldMiddle c = (if !c.xspi then (((s.clocked c).bringUp [31, 32, 34, 35, 38]).entropyUp c).ibi 5
      else (s.storeUp c).coldStore c) := rfl
  rw [hnext, hxspi, if_neg (by simp), State.coldStore, hwinner]

end

/-! ## From the state of reset -/

theorem State.settle_start (s : State) : s.settle.start = s.start := by
  rw [State.start, State.settle_fw, State.start]

section
variable {s : State} {c : ColdStart} {e : Edge} {h : Hedgerow} {f : Firmware}

/-- A state that differs from the one after a loss in its edge, its port and its firmware alone (R436). -/
def State.lossWith (s : State) (c : ColdStart) (e : Edge) (h : Hedgerow) (f : Firmware) : State :=
  { s.afterLoss c.cut with edge := e, hdr := h, fw := f }

theorem State.lossWith_still : (s.lossWith c e h f).Still := ⟨rfl, rfl⟩

theorem State.lossWith_boot : (s.lossWith c e h f).hub.dev = .boot := rfl

theorem State.lossWith_die (d : Nat) : ((s.lossWith c e h f).die d).st ≠ .fenced := by
  show DieSt.resetting ≠ .fenced
  exact nofun

theorem State.lossWith_alone : (s.lossWith c e h f).Alone := fun l => by
  cases l <;> rfl

theorem State.lossWith_left (href : e.refPresent = true) : (s.lossWith c e h f).left = (s.pending, [], [], true) := by
  rw [← href]
  rfl

end

/-- The image that step 6 starts, where the winner is no cold trial. -/
theorem State.exec_coldStart {s : State} {c : ColdStart} {b : Nat} (href : c.refclk = true) (hxspi : c.xspi = true)
    (hwinner : (s.fw.cutShort c.cut).winner = some b) (htrial : (s.fw.cutShort c.cut).bankTrial b ≠ 1) :
    ∃ e h f, exec (.coldStart c) s = .next ((s.lossWith c e h f).coldEnd c).settle ∧ e.refPresent = true ∧
      f.running = b ∧ f.rom = false ∧ f.noImage = false := by
  obtain ⟨e, h, f, hup, hpresent, hstart, hflash, hfuses⟩ := (s.afterLoss c.cut).storeUp_eq c
  have hfw : ((s.afterLoss c.cut).storeUp c).fw = f := by rw [hup]
  have hwins : ((s.afterLoss c.cut).storeUp c).fw.winner = some b := by
    rw [hfw, ← hwinner]
    exact Firmware.winner_congr hflash hfuses
  have hfirm : ((s.afterLoss c.cut).storeUp c).fw.bankTrial b ≠ 1 := by
    rw [hfw, Firmware.bankTrial_congr (g := s.fw.cutShort c.cut) hflash]
    exact htrial
  refine ⟨e, h, f.run b, ?_, hpresent, rfl, rfl, congrArg (·.2.2.1) hstart⟩
  show finish ((s.afterLoss c.cut).coldBegin c) = _
  rw [State.coldBegin, if_pos href, State.coldMiddle_eq _ hxspi hwins, State.coldImage, if_neg hfirm, hup]
  rfl

/-- The firmware once a cold trial has not reported alive (R462). -/
def Firmware.coldReverted (f : Firmware) : Firmware :=
  { f with coldTrial := false, reverted := true, revertCount := f.revertCount + 1, coldWait := none }

theorem State.exec_coldTrialAliveTimeout {s : State} {c : ColdStart} {b : Nat} (hwait : s.fw.coldWait = some c)
    (htrial : s.fw.coldTrial = true) (hdue : s.fw.fwAlive ≤ s.elapsed s.fw.coldSince) (hwinner : s.fw.winner = some b) :
    exec .coldTrialAliveTimeout s = .next (({ s with fw := s.fw.coldReverted.run b } : State).coldEnd c).settle := by
  have hwins : s.fw.coldReverted.winner = some b := by
    rw [← hwinner]
    exact Firmware.winner_congr rfl rfl
  have hon : (!s.fw.coldTrial || decide (s.elapsed s.fw.coldSince < s.fw.fwAlive)) = false := by
    rw [htrial, decide_eq_false (Nat.not_lt.mpr hdue)]
    rfl
  show execColdTrialAliveTimeout s = _
  unfold execColdTrialAliveTimeout
  rw [hwait]
  dsimp only
  rw [if_neg (by rw [hon]; exact Bool.false_ne_true), ← Firmware.coldReverted, hwins]
  rfl

/-- Settles O8: a power loss leaves the state of reset, and no step of a cold start touches what has come up. -/
theorem coldStartAndPowerLoss : Obligations.ColdStartAndPowerLoss := by
  refine ⟨fun s cut => ?_, fun s c b href hxspi hwinner htrial => ?_, fun s c b hwait htrial hdue hwinner => ?_⟩
  · refine ⟨State.settle { s.afterLoss cut with board := { powered := false } }, rfl, ?_, rfl, ?_, ?_, ?_, ?_, ?_, ?_⟩
    · rw [State.settle_board]
    · rw [State.settle_fw]
      exact s.fw.cutShort_fuses cut
    · rintro rfl
      rw [State.settle_fw]
      exact ⟨rfl, rfl, rfl⟩
    · rw [State.settle_mem]
      rfl
    · rw [State.settle_jobs]
      rfl
    · rw [State.settle_hub_ops]
      rfl
    · rw [State.settle_pending]
      rfl
  · obtain ⟨e, h, f, hexec, hpresent, hrun, hrom, himage⟩ := State.exec_coldStart href hxspi hwinner htrial
    obtain ⟨hleft, hhalted, hready⟩ := State.coldEnd_facts (s.lossWith_still (c := c) (e := e) (h := h) (f := f))
      State.lossWith_boot State.lossWith_die State.lossWith_alone c
    have hstart := ((s.lossWith c e h f).coldEnd c).settle_start.trans (State.start_coldEnd ..)
    rw [State.lossWith_left hpresent] at hleft
    generalize ((s.lossWith c e h f).coldEnd c).settle = t at *
    refine ⟨t, hexec, (congrArg (·.1) hstart).trans hrun, (congrArg (·.2.1) hstart).trans hrom,
      (congrArg (·.2.2.1) hstart).trans himage, congrArg (·.2.2.2) hleft, congrArg (·.2.1) hleft, congrArg (·.2.2.1) hleft,
      congrArg (·.1) hleft, hhalted, hready⟩
  · have hexec := State.exec_coldTrialAliveTimeout hwait htrial hdue hwinner
    have hstart := (({ s with fw := s.fw.coldReverted.run b } : State).coldEnd c).settle_start.trans (State.start_coldEnd ..)
    generalize State.settle _ = t at *
    exact ⟨t, hexec, congrArg (·.1) hstart, congrArg (·.2.2.2.1) hstart, congrArg (·.2.2.2.2.1) hstart,
      congrArg (·.2.2.2.2.2.1) hstart, congrArg (·.2.2.2.2.2.2) hstart⟩

end Sys2Proof.Machine
end
